-- ==== Sys2Proof/Word.lean ====
section
/-! DEFINITION. The word types of the block and their plainest arithmetic (R6, R7). -/
namespace Sys2Proof

/-- A management register or a slot word, 32 bits (R7). -/
abbrev Word := BitVec 32

/-- A byte of a structure in memory. -/
abbrev Byte := BitVec 8

/-- One of the two halves: west is TW with F0 and F1, east is TE with F2 and F3. -/
inductive Side where
  | w
  | e
deriving DecidableEq, Repr, Inhabited

/-- The other half. -/
def Side.other : Side → Side
  | .w => .e
  | .e => .w

/-- 0 for west and 1 for east, as HALF fields code it (R105). -/
def Side.code : Side → Nat
  | .w => 0
  | .e => 1

end Sys2Proof
end

