-- ==== Sys2Proof/Syntax.lean ====
section
/-! DEFINITION. The commands of the block: one constructor for each row of spec/opcode_table.json, with the row's
operands. An operand is what comes from outside the module: a frame's fields, a register value, a sampled level, a
measurement, or the outcome of a check whose arithmetic the model holds outside (log entry 3). -/
namespace Sys2Proof

/-- Who writes a register: the host over Hoist, firmware on a control core, or the Trapdoor's POKE. -/
inductive Writer where
  | host | fw | poke
deriving DecidableEq, Repr, Inhabited

/-- The Hoist header of a request (R343) with the two facts about its frame that R365 asks for. -/
structure Hdr where
  version  : Nat  := 1
  /-- RSP was set. -/
  rsp      : Bool := false
  /-- a reserved bit or field of the header or payload was not 0 -/
  resv     : Bool := false
  sealed   : Bool := true
  session  : Nat  := 0
  seq      : Nat  := 0
  tag      : Nat  := 0
  /-- LENGTH lies within the frame and the payload has its opcode's layout -/
  layoutOk : Bool := true
  /-- the GCM tag of a sealed message verifies -/
  gcmOk    : Bool := true
  /-- the opcode is in the opcode table (R365 category 6) -/
  opKnown  : Bool := true
  /-- source of the frame: MAC address, for UDP the IP address and port, and the 802.1Q tag (R342), as one number -/
  src      : Nat  := 0
  /-- encapsulation: 0 raw Ethernet, 1 UDP over IPv4, 2 UDP over IPv6 (R341) -/
  encap    : Fin 3 := 0
  /-- LENGTH: payload bytes (R343) -/
  length   : Nat := 0
deriving DecidableEq, Repr, Inhabited

/-- The four sampled states of R54. -/
inductive Sampled where
  | h | l | z | invalid
deriving DecidableEq, Repr, Inhabited

/-- Symbols of a stored codeword that upsets have changed: position in the codeword, and the bits that flipped. -/
abbrev Faults := List (Nat × Byte)

/-- What a decoder reported of a codeword it read (R294): clean, corrected, or uncorrectable. -/
inductive Ecc where
  | clean | corr | uncorr
deriving DecidableEq, Repr, Inhabited

/-- The outcome of the checks of R329 on a line: it passes, or the first failing check of XTS_ALARM.KIND. -/
inductive LineOutcome where
  | pass | tag | metadata | node | uncorrectable
deriving DecidableEq, Repr, Inhabited

/-- The payload body of KEY_INSTALL after KIND and SLOT (R355, R319). -/
inductive KeyBody where
  /-- KIND 1: new operator root key, and the current root's signature over it and SEC_NONCE -/
  | root (key : Nat) (signature : List Byte)
  /-- KIND 2: a program owner's public key -/
  | owner (key : Nat)
  /-- KIND 3: an owner blob of 432 bytes -/
  | blob (bytes : List Byte)
  /-- KIND 6: the identity certificate -/
  | cert (der : List Byte)
deriving DecidableEq, Repr, Inhabited

/-- One outbound hook slot (R229) as the fabric returns it. -/
structure HookRet where
  /-- bit 0 of the slot: without it the bus carries a compare hook's MATCH only -/
  valid   : Bool := true
  keep    : Bool := true
  /-- symbol hook: the 32 symbols; compare hook: the 64 overrides, channel c result r at 2c + r -/
  vals    : List Nat := []
  /-- drill hook: D, CTL and FLAG; FLAG is also MATCH of a compare hook -/
  d       : BitVec 64 := 0
  ctl     : BitVec 16 := 0
  flag    : Bool := false
deriving DecidableEq, Repr, Inhabited

/-- What the scrubber meets in a logic frame: its frame address, the codewords that upsets have hit with their faulty symbols,
and whether its staged copy is unreadable (R300). -/
structure FrameUpset where
  addr    : Nat := 0
  hits    : List (Nat × Faults) := []
  copyBad : Bool := false
deriving DecidableEq, Repr, Inhabited

/-- One port's access to a block memory (R222), with the upsets of the row it meets. -/
structure PortAcc where
  addr : Nat := 0
  we   : Bool := false
  din  : BitVec 64 := 0
  hit  : Faults := []
deriving DecidableEq, Repr, Inhabited

/-- Why ARM work stops (R131, R159): a line fails its checks, a page load check, a chute error, or a drill program. -/
inductive ArmFail where
  | integrity (file sector line : Nat) (r : LineOutcome)
  | shelf (reason channel tset wave slot : Nat)
  | chute
  | drill
deriving DecidableEq, Repr, Inhabited

/-- The clock inputs that R430 and R431 judge. -/
inductive ClkIn where
  | ref | eth | xo
deriving DecidableEq, Repr, Inhabited

/-- The PLLs of R429 that can lose lock. -/
inductive Pll where
  | t | f | m | c | h
deriving DecidableEq, Repr, Inhabited

/-- The triplicated words of R296. `page` names a fault page by its block index (base / 0x10_0000). -/
inductive VotedWord where
  | life
  | page (side : Side) (blk : Nat)
  | clkSrc
  | scrubCfg (side : Side)
  | keyCtl
  | treeRoot (side : Side) (file : Nat)
deriving DecidableEq, Repr, Inhabited

/-- What a re-vote found: all three copies agree, one is in the minority, or no two agree (R296). -/
inductive Vote where
  | agree | minority | none
deriving DecidableEq, Repr, Inhabited

/-- The units of R33 whose shadow firmware reconciles, by the block that owns them. -/
inductive Unit34 where
  | face (s : Side) | drill (s : Side) (d : Fin 2) | quarry (s : Side) | chute (s : Side) | attic (s : Side)
  | cal (s : Side) | haul (s : Side) (q : Fin 4) | stairwell (s : Side) | keySlot (n : Nat) | mode (s : Side) | cfg | power
deriving DecidableEq, Repr, Inhabited

/-- What R298 may remap: a line of a Cellar channel or a row of an Attic bank. -/
inductive RemapMem where
  | cellar (ch : Fin 4) | attic (bank : Fin 16)
deriving DecidableEq, Repr, Inhabited

/-- The common part of every received Haul frame: the category of R391 it breaks, if any, and its sequence number. -/
structure HaulRx where
  quad : Fin 4 := 0
  /-- 0 bad sync header, 1 CRC failure, 2 credit overrun, 3 unknown BTYPE or FTYPE -/
  bad  : Option (Fin 4) := none
  seq  : Nat := 0
deriving DecidableEq, Repr, Inhabited

/-- How a self-test slice ends: its signature, whether it is the reference, and a faulty row (R480). -/
structure SliceEnd where
  signature : BitVec 64 := 0
  agrees    : Bool := true
  faultyRow : Bool := false
deriving DecidableEq, Repr, Inhabited

/-- A Stairwell frame as received (R394). -/
structure StwRx where
  epoch : Nat := 0
  width : Nat := 0
  vn    : Fin 4 := 0
  flit  : Bool := false
  seq   : Nat := 0
  ackSeq : Nat := 0
  nak   : Bool := false
  cvn   : Fin 4 := 0
  credits : Nat := 0
  crcOk : Bool := true
  /-- this CRC failure is the fourth within 1 us (R397) -/
  fourth : Bool := false
deriving DecidableEq, Repr, Inhabited

inductive Instr where
  -- Hoist front end and sessions (chapter 13)
  | hello (h : Hdr) (certOffset certMax : Nat)
  | attest (h : Hdr) (nonce : BitVec 256)
  /-- with the host's nonce and ephemeral key, the certificates of CHAIN, leaf first, and SIGNATURE -/
  | sessionOpen (h : Hdr) (maxFrame : Nat) (nonce : BitVec 256) (eph : Nat) (chain : List (List Byte))
      (signature : List Byte)
  | sessionClose (h : Hdr)
  | status (h : Hdr)
  | readReg (h : Hdr) (addr count : Nat)
  | writeReg (h : Hdr) (addr : Nat) (values : List Word)
  | registerWrite (w : Writer) (addr : Nat) (v : Word)
  | readBlock (h : Hdr) (fileId mode addr length : Nat)
  | writeBlock (h : Hdr) (addr : Nat) (data : List Byte)
  | nonHoistFrame
  | arpRequest (target : Word)
  | neighbourSolicitation (target : BitVec 128)
  | replayReq (session seq : Nat)
  | sessionIdleTimeout (session : Nat)
  | sourceIgnoreEnd (src : Nat)
  | ethernetLinkUp
  | ethernetLinkDown
  | configBegin (h : Hdr) (target length : Nat)
  | configData (h : Hdr) (offset : Nat) (data : List Byte)
  | configEnd (h : Hdr)
  | fileOpen (h : Hdr) (half slot length : Nat)
  | fileWrite (h : Hdr) (fileId offset : Nat) (data : List Byte)
  | fileClose (h : Hdr) (fileId : Nat)
  | fileDrop (h : Hdr) (fileId : Nat)
  | keyInstall (h : Hdr) (slot : Nat) (body : KeyBody)
  | keyRetire (h : Hdr) (slot : Nat)
  | planLoad (h : Hdr) (half fileId : Nat)
  | planAuditDone (s : Side)
  | arm (h : Hdr) (halves : Nat)
  | armWorkComplete (s : Side)
  | armWorkFail (s : Side) (why : ArmFail)
  | fire (h : Hdr) (halves : Nat)
  | fireIn
  | abort (h : Hdr) (halves : Nat)
  | resultGet (h : Hdr) (half burst : Nat)
  | resultRelease (h : Hdr) (half burst : Nat)
  | calRun (h : Hdr) (halves : Nat)
  | calTableGet (h : Hdr) (half first count : Nat)
  | calTableSet (h : Hdr) (image : List Byte)
  | eventPoll (h : Hdr) (start max : Nat)
  | logRead (h : Hdr) (start max : Nat)
  | modeSet (h : Hdr) (function halves mode : Nat)
  | modeGet (h : Hdr)
  | bistRun (h : Hdr) (test arg : Nat) (signature : BitVec 64) (agrees : Bool)
  | resetPart (h : Hdr) (half blocks : Nat)
  /-- BLOCKS bits whose checker test fails (R295) -/
  | resetPartComplete (s : Side) (checkFail : List Nat)
  | sleep (h : Hdr) (wakeAt : BitVec 64)
  /-- with the operator root key, and the return authorisation -/
  | lifecycleAdvance (h : Hdr) (target : Nat) (key : Nat) (auth : List Byte)
  -- cut plan steps (chapter 4): the half's face sequencer reaches a step of its plan
  | run (s : Side)
  | drun (s : Side)
  | loop (s : Side)
  | lend (s : Side)
  | fork (s : Side)
  /-- self-check outcome of the four witnesses, and the readings W[y] of the eight channels the slot measures -/
  | cal (s : Side) (selfOk : List Bool) (readings : List (List Int))
  | pause (s : Side)
  | dstart (s : Side)
  | dstop (s : Side)
  | sload (s : Side)
  | sswap (s : Side)
  | smask (s : Side)
  | src (s : Side)
  | endStep (s : Side)
  | prefetchTrigger (s : Side) (entry : Nat)
  | chuteEntryStart (s : Side)
  /-- whether an error response or a failing line kept the entry from completing -/
  | chuteEntryComplete (s : Side) (error : Bool)
  | chuteLate (s : Side) (entry : Nat)
  | lineCheckComplete (s : Side) (file sector line : Nat) (r : LineOutcome)
  /-- with the upsets in the Attic codeword of the half-vector read ahead (R116, R294) -/
  | vectorIssue (s : Side) (e : Faults)
  | relayFrameClose (s : Side) (quad : Fin 4)
  | driveEvent (s : Side) (ch : Fin 256) (issue : Nat) (slot : Fin 6)
  | edgeStrobe (s : Side) (ch : Fin 256) (issue : Nat) (slot : Fin 6) (cmph cmpl : Bool)
  | windowOpen (s : Side) (ch : Fin 256) (issue : Nat) (slot : Fin 6)
  /-- the first deviating state the sampler saw in the window, if any, and whether it saw INVALID (R56, R57, R60) -/
  | windowClose (s : Side) (ch : Fin 256) (issue : Nat) (slot : Fin 6) (seen : Option Sampled) (invalid : Bool)
  /-- with the upsets in the Attic codeword of the spoil cache lookup that the results cause (R294) -/
  | compareResult (s : Side) (group : Fin 8) (issue : Nat) (e : Faults)
  | recordQueueDrain (s : Side) (e : Ecc)
  | spoilCacheFill (s : Side) (line : Nat) (e : Faults)
  | quarryFlushComplete (s : Side)
  | flushTimeout (s : Side)
  | pipeFault (s : Side)
  | drillParity (s : Side) (d : Fin 2)
  | planParity (s : Side)
  | hookSlotPresent (s : Side) (hook : Fin 18)
  | hookReturn (s : Side) (hook : Fin 18) (r : HookRet)
  | hookLate (s : Side) (hook : Fin 18)
  | shelfLoadComplete (s : Side)
  | loadCheck (s : Side) (reason channel tset wave slot : Nat)
  | shelfSwapWrite (w : Writer) (s : Side) (v : Word)
  | tempSample (s : Side) (temps : List Int)
  | phaseCompare (reading : Int)
  | sweepStart (s : Side) (selfOk : List Bool)
  /-- with what the decoder of the table RAM finds in the channel's block (R294) -/
  | sweepChannelCommit (s : Side) (ch : Fin 256) (readings : List Int) (e : Ecc)
  | sweepEnd (s : Side) (fireOffset : Int)
  | calTableJournal (s : Side)
  -- configuration (chapter 9)
  | wcfg
  | far
  | fdata
  | idcheck
  | gclr
  | start
  | streamEnd
  /-- outcomes of the seam check inside the clear (R476) -/
  | gclrComplete (seamOk : List Bool)
  | configCheckComplete
  | configVerifyComplete
  | configClearComplete
  | configIdleTimeout
  /-- bytes that did not program: flash address and the bits that differ -/
  | configStoreComplete (bad : List (Nat × Byte))
  | autoloadStart
  /-- the symbols that the scrubber reports of the canary, by codeword and position, and the upset frames (R300) -/
  | scrubPass (s : Side) (canary : List (Nat × Nat)) (frames : List FrameUpset)
  | fabScrubCmd (w : Writer) (s : Side) (v : Word)
  | scrubCmdComplete (s : Side) (u : FrameUpset)
  | fabNocPortEn (w : Writer) (die : Fin 4) (v : Word)
  /-- the accesses of port A and port B captured at one FC edge -/
  | bmemAccess (die : Fin 4) (mem : Nat) (a b : Option PortAcc)
  /-- the bytes of a request packet, one beat each (R406) -/
  | nocPortRequest (die : Fin 4) (port : Fin 32) (packet : List Byte) (line : LineOutcome)
  | nocTimeout (s : Side) (txn : Nat)
  | nocLate (s : Side) (txn : Nat)
  | flitError (s : Side) (txn : Nat)
  -- Cellar and Attic (chapter 10)
  | celTrainStart (w : Writer) (s : Side) (v : Word)
  | celTrainCommit (w : Writer) (s : Side) (v : Word)
  | celDlyDataWrite (w : Writer) (s : Side) (v : Word)
  /-- left and right edge of each selection's passing window: (selection, left, right); whether R263 is met -/
  | celSweepComplete (s : Side) (supported : Bool) (edges : List (Nat × Nat × Nat))
  /-- for each channel whether the verify test passed, its rate code and its data capacity in MiB; DEV32, X4, RANKS2 -/
  | celVerifyComplete (s : Side) (ok : List Bool) (rates : List (Fin 4)) (mib : List Nat) (dev32 x4 ranks2 : Bool)
  /-- a command/address parity failure: which failure in a row it is, 1 to 4 -/
  | caRetry (s : Side) (ch : Fin 4) (nth : Nat)
  | refresh (s : Side) (ch : Fin 4)
  | dimmTempRead (s : Side) (ch : Fin 4) (sensor : Fin 2) (celsius : Int)
  | zqCalibration (s : Side) (ch : Fin 4)
  | celScrubGo (w : Writer) (s : Side) (v : Word)
  | patrolRead (s : Side) (line : Nat) (e : Faults)
  | atticPatrol (s : Side) (line : Nat) (e : Faults)
  | shelfPatrol (s : Side) (e : Ecc)
  | lineReadback (s : Side) (m : RemapMem) (line : Nat) (e : Faults)
  | attStageWrite (w : Writer) (s : Side) (v : Word)
  | qryReserveWrite (w : Writer) (s : Side) (v : Word)
  | remoteRead (s : Side) (line key : Nat)
  | remoteFill (s : Side) (line key : Nat)
  | remoteWrite (s : Side) (file offset : Nat) (data : List Byte)
  | snoopInvalidate (s : Side) (line : Nat)
  | invalidateAck (s : Side) (line : Nat)
  | evictionReport (s : Side) (line : Nat)
  -- Larder, protection, faults (chapters 11, 12, 18)
  | larderAppend (type key payload : Nat)
  | larderCompactionComplete
  | ldrCompact (w : Writer) (v : Word)
  | rekeySector (s : Side)
  | revote (word : VotedWord) (v : Vote)
  | bucketLeak (s : Side) (blk : Nat) (idx : Fin 16)
  | countWindowEnd (s : Side) (blk : Nat) (inst : Nat)
  | fltStatusClear (w : Writer) (s : Side) (blk : Nat) (v : Word)
  | fltSeverityWrite (w : Writer) (s : Side) (blk : Nat) (v : Word)
  | fltEnableWrite (w : Writer) (s : Side) (blk : Nat) (v : Word)
  | safeN
  | safeRelease
  | safeCtrlWrite (w : Writer) (v : Word)
  /-- the code that an upset leaves in the unit's shadow after it, if any -/
  | reconcile (u : Unit34) (upset : Option Nat)
  -- power, clocks, reset (chapter 17)
  /-- outcomes of the seam checks, and the fault pages of blocks whose checker test fails -/
  | powerOn (vbakPresent : Bool) (seamOk : List Bool) (checkFail : List (Side × Nat))
  | vinWarn
  | vinWarnClear
  | vinCut
  | qualWindow (c : ClkIn) (good : Bool)
  | clockEdgeLoss (c : ClkIn)
  | crystalDelayExpire
  | pllUnlock (p : Pll)
  | pllLock (p : Pll)
  | governorEval (vinMinMv currentMa : Nat)
  | ilimit
  | railUv
  | phaseMoveComplete
  | alarm
  | wakeN
  | vbakLow
  | overTemp
  | lidOpen
  | aonCountWrite (w : Writer) (hi : Bool) (v : Word)
  | clkSrcWrite (w : Writer) (v : Word)
  | moduleReset
  -- cores and task unit (chapter 16)
  /-- per firmware slot: version and whether its image verifies; whether the patch set verifies, and its entries -/
  | firmwareStart (a b : Bool)
  | teFirmwareStart (ok : Bool)
  | firmwareReload (s : Side)
  | firmwareReloadComplete (s : Side)
  | watchdogKick (s : Side) (core : Fin 4)
  | wdogExpire (s : Side) (core : Fin 4)
  | tskWdogCfgWrite (w : Writer) (s : Side) (core : Fin 4) (v : Word)
  | taskDelayExpire (s : Side) (tick : Nat)
  | eventQueuePost (s : Side) (q : Fin 64) (entry : BitVec 64)
  | tskPatchWrite (w : Writer) (s : Side) (u : Fin 16) (part : Fin 3) (v : Word)
  | fwHashRecompute (s : Side)
  | bistSlice (s : Side) (kind unit : Nat) (ends : Option SliceEnd)
  -- Haul (chapter 14)
  | haulModeWrite (w : Writer) (s : Side) (q : Fin 4) (v : Word)
  | haulCommit (w : Writer) (s : Side) (q : Fin 4) (v : Word)
  | haulRetrain (w : Writer) (s : Side) (q : Fin 4) (v : Word)
  | haulClockLock (s : Side) (q : Fin 4)
  | haulClockTimeout (s : Side) (q : Fin 4)
  /-- figure of merit and equaliser register of each lane, as adaptation found them -/
  | haulAdaptDone (s : Side) (q : Fin 4) (fom : List Nat) (eq : List Word)
  | haulAlignDone (s : Side) (q : Fin 4) (slips : List Nat)
  | haulLinkDone (s : Side) (q : Fin 4) (roundTrip : Nat)
  | haulLockLoss (s : Side) (q : Fin 4)
  | haulClockAbsent (s : Side) (q : Fin 4)
  | relay (s : Side) (rx : HaulRx) (first : Nat) (issues : List (List Nat))
  | relayTag (s : Side) (rx : HaulRx) (first : Nat) (tag : BitVec 128)
  | spoil (s : Side) (rx : HaulRx) (line : List Byte)
  | haulFire (s : Side) (rx : HaulRx) (t : BitVec 64)
  | haulFireTime
  | time (s : Side) (rx : HaulRx) (t : BitVec 64)
  | flag (s : Side) (rx : HaulRx) (a : Nat) (mask values : BitVec 8)
  | flagApply (s : Side)
  | key (s : Side) (rx : HaulRx) (done ok : Bool)
  | ack (s : Side) (q : Fin 4) (ackSeq credits : Nat) (nak : Bool)
  | creditReset (s : Side) (q : Fin 4)
  | echo (s : Side) (q : Fin 4) (cookie : BitVec 64)
  | echoReplySend (s : Side) (q : Fin 4)
  | echoReply (s : Side) (q : Fin 4) (cookie : BitVec 64) (roundTrip : Nat)
  | timeSync (w : Writer)
  | fireTx (w : Writer)
  | xmodPhaseWrite (w : Writer) (v : Word)
  | xmodAlignedWrite (w : Writer) (v : Word)
  | haulAdjWrite (w : Writer) (s : Side) (q : Fin 4) (v : Word)
  | haulCascadeWrite (w : Writer) (v : Word)
  | inject (w : Writer) (s : Side) (q : Fin 4) (lane : Fin 4) (v : Word)
  | haulSlip (w : Writer) (s : Side) (q : Fin 4) (lane : Fin 4) (v : Word)
  | haulLaneEqWrite (w : Writer) (s : Side) (q : Fin 4) (lane : Fin 4) (v : Word)
  -- Stairwell (chapter 15)
  | stwFrame (s : Side) (f : StwRx)
  | stwTrainingPattern (s : Side)
  | stwLockLoss (s : Side) (lane : Fin 16)
  /-- lanes that passed the lane check at TW and at TE -/
  | stwTrainAgree (passW passE : BitVec 16)
  | stwAttemptTimeout (s : Side)
  | stwDownRetry (s : Side)
  | stwTargetWrite (w : Writer) (s : Side) (v : Word)
  | stwRetrainWrite (w : Writer) (s : Side) (v : Word)
  | stwCommit (w : Writer) (s : Side) (v : Word)
  | stwSlip (w : Writer) (s : Side) (lane : Fin 16) (v : Word)
  | stwWireFault (s : Side) (lane : Fin 16)
  -- Trapdoor (chapter 19)
  /-- here and below, `crc` is the CRC-8 that ends a Trapdoor request (R483) -/
  | idcode (crc : Byte)
  | challenge (crc : Byte)
  | token (scope reserved : Word) (signature : List Byte) (crc : Byte)
  | tokenExpire
  | peek (addr : Nat) (crc : Byte)
  | poke (addr : Nat) (v : Word) (crc : Byte)
  | halt (s : Side) (core : Fin 4) (crc : Byte)
  | step (s : Side) (core : Fin 4) (crc : Byte)
  | resume (s : Side) (crc : Byte)
  | breakpoint (s : Side) (core : Fin 4)
  /-- with the pin and value bytes, which the operation ignores -/
  | pinsEnter (rest : BitVec 24) (crc : Byte)
  | pinsExit (rest : BitVec 24) (crc : Byte)
  | pinsSet (pin : Nat) (value crc : Byte)
  /-- with the level that the board gives the land -/
  | pinsGet (pin : Nat) (value : Byte) (level : Bool) (crc : Byte)
  | flash (addr : Nat) (data : List Byte) (crc : Byte)
  | trapLineIdle
  -- further pins and events
  | safeNHigh
  | moduleResetRelease (seamOk : List Bool) (checkFail : List (Side × Nat))
  | railInRegulation
  | lidClosed
  | overTempClear
  | vbakRestore
  | xo32Stop
  | xo32Resume
  | dimmNotResponding (s : Side) (ch : Fin 4)
  | nocResponse (s : Side) (txn : Nat)
  | badFrame
  | aliveEdge
  | taskYield (s : Side) (core : Fin 4) (how : Nat) (arg : Nat)
  | calMeasurementAged (s : Side) (ch : Fin 256)
  | framingError (width18to20 : Bool)
deriving DecidableEq, Repr

end Sys2Proof
end

