-- ==== Sys2Proof/WellFormed.lean ====
section
/-! DEFINITION. Well-formed commands: operands fit the widths that the spec gives them (R343, R355, R456). A command that is
not well formed cannot come from outside. -/
namespace Sys2Proof

/-- A number of at most so many bits. -/
def fits (bits n : Nat) : Bool := decide (n < 2 ^ bits)

/-- The fields of a Hoist header (R343). -/
def Hdr.wf (h : Hdr) : Bool := fits 8 h.version && fits 32 h.session && fits 32 h.seq && fits 32 h.tag

/-- The payload of KEY_INSTALL: keys of 97 bytes, signatures of 96, a blob of 432 (R319, R355). -/
def KeyBody.wf : KeyBody → Bool
  | .root key sig => fits 776 key && decide (sig.length = 96)
  | .owner key => fits 776 key
  | .blob l => decide (l.length = 432)
  | .cert der => decide (der.length < 9000)

/-- A Stairwell frame's fields (R394). -/
def StwRx.wf (f : StwRx) : Bool := fits 8 f.epoch && fits 2 f.width && fits 8 f.seq && fits 8 f.ackSeq && fits 6 f.credits

/-- Faulty symbols lie in a codeword of n symbols (R292). -/
def faultsIn (n : Nat) (e : Faults) : Bool := e.all fun x => decide (x.1 < n)

/-- A port's access: 15 address bits, and upsets of a row of ten symbols (R222, R226). -/
def PortAcc.wf (x : PortAcc) : Bool := fits 15 x.addr && faultsIn 10 x.hit

/-- Upsets of a logic frame: its 2 176 codewords, and its CRC behind them (R251). -/
def FrameUpset.wf (u : FrameUpset) : Bool := fits 32 u.addr && u.hits.all fun h => decide (h.1 ≤ 2176) && faultsIn 35 h.2

/-- A voted word names a fault page that exists. -/
def VotedWord.wf : VotedWord → Bool
  | .page _ blk => decide (blk < 20)
  | _ => true

def Instr.wf : Instr → Bool
  | .hello h certOffset certMax => h.wf && fits 16 certOffset && fits 16 certMax
  | .attest h _ => h.wf
  | .sessionOpen h maxFrame _ eph chain sig =>
    h.wf && fits 16 maxFrame && fits 776 eph && decide (chain.length < 256) && chain.all (fun c => decide (c.length < 65536))
      && decide (sig.length = 96)
  | .sessionClose h => h.wf
  | .status h => h.wf
  | .readReg h addr count => h.wf && fits 44 addr && fits 16 count
  | .writeReg h addr values => h.wf && fits 44 addr && decide (values.length < 65536)
  | .registerWrite _ addr _ => fits 44 addr
  | .readBlock h fileId mode addr length => h.wf && fits 32 fileId && fits 8 mode && fits 64 addr && fits 32 length
  | .writeBlock h addr data => h.wf && fits 64 addr && decide (data.length < 9000)
  | .nonHoistFrame => true
  | .arpRequest _ => true
  | .neighbourSolicitation _ => true
  | .replayReq session seq => fits 32 session && fits 32 seq
  | .sessionIdleTimeout session => fits 32 session
  | .sourceIgnoreEnd _ => true
  | .ethernetLinkUp => true
  | .ethernetLinkDown => true
  | .configBegin h target length => h.wf && fits 8 target && fits 64 length
  | .configData h offset data => h.wf && fits 64 offset && decide (data.length < 9000)
  | .configEnd h => h.wf
  | .fileOpen h half slot length => h.wf && fits 8 half && fits 16 slot && fits 64 length
  | .fileWrite h fileId offset data => h.wf && fits 32 fileId && fits 64 offset && decide (data.length < 9000)
  | .fileClose h fileId => h.wf && fits 32 fileId
  | .fileDrop h fileId => h.wf && fits 32 fileId
  | .keyInstall h slot body => h.wf && fits 16 slot && body.wf
  | .keyRetire h slot => h.wf && fits 16 slot
  | .planLoad h half fileId => h.wf && fits 8 half && fits 32 fileId
  | .planAuditDone _ => true
  | .arm h halves => h.wf && fits 8 halves
  | .armWorkComplete _ => true
  | .armWorkFail _ _ => true
  | .fire h halves => h.wf && fits 8 halves
  | .fireIn => true
  | .abort h halves => h.wf && fits 8 halves
  | .resultGet h half burst => h.wf && fits 8 half && fits 32 burst
  | .resultRelease h half burst => h.wf && fits 8 half && fits 32 burst
  | .calRun h halves => h.wf && fits 8 halves
  | .calTableGet h half first count => h.wf && fits 8 half && fits 16 first && fits 16 count
  | .calTableSet h image => h.wf && decide (image.length < 9000)
  | .eventPoll h start0 max => h.wf && fits 32 start0 && fits 16 max
  | .logRead h start0 max => h.wf && fits 32 start0 && fits 16 max
  | .modeSet h function halves mode => h.wf && fits 8 function && fits 8 halves && fits 8 mode
  | .modeGet h => h.wf
  | .bistRun h test arg _ _ => h.wf && fits 16 test && fits 32 arg
  | .resetPart h half blocks => h.wf && fits 8 half && fits 16 blocks
  | .resetPartComplete _ checkFail => checkFail.all fun b => decide (b < 12)
  | .sleep h _ => h.wf
  | .lifecycleAdvance h target key0 auth => h.wf && fits 8 target && fits 776 key0 && decide (auth.length = 96)
  | .run _ => true
  | .drun _ => true
  | .loop _ => true
  | .lend _ => true
  | .fork _ => true
  | .cal _ selfOk _ => decide (selfOk.length = 4)
  | .pause _ => true
  | .dstart _ => true
  | .dstop _ => true
  | .sload _ => true
  | .sswap _ => true
  | .smask _ => true
  | .src _ => true
  | .endStep _ => true
  | .prefetchTrigger _ entry => decide (entry < 65536)
  | .chuteEntryStart _ => true
  | .chuteEntryComplete _ _ => true
  | .chuteLate _ _ => true
  | .lineCheckComplete _ _ _ _ _ => true
  | .vectorIssue _ e => faultsIn 35 e
  | .relayFrameClose _ _ => true
  | .driveEvent _ _ _ _ => true
  | .edgeStrobe _ _ _ _ _ _ => true
  | .windowOpen _ _ _ _ => true
  | .windowClose _ _ _ _ _ _ => true
  | .compareResult _ _ _ e => faultsIn 35 e
  | .recordQueueDrain _ _ => true
  | .spoilCacheFill _ _ e => faultsIn 80 e
  | .quarryFlushComplete _ => true
  | .flushTimeout _ => true
  | .pipeFault _ => true
  | .drillParity _ _ => true
  | .planParity _ => true
  | .hookSlotPresent _ _ => true
  | .hookReturn _ _ _ => true
  | .hookLate _ _ => true
  | .shelfLoadComplete _ => true
  | .loadCheck _ _ _ _ _ _ => true
  | .shelfSwapWrite _ _ _ => true
  | .tempSample _ temps => decide (temps.length = 8)
  | .phaseCompare _ => true
  | .sweepStart _ selfOk => decide (selfOk.length = 4)
  | .sweepChannelCommit _ _ _ _ => true
  | .sweepEnd _ _ => true
  | .calTableJournal _ => true
  | .wcfg => true
  | .far => true
  | .fdata => true
  | .idcheck => true
  | .gclr => true
  | .start => true
  | .streamEnd => true
  | .gclrComplete _ => true
  | .configCheckComplete => true
  | .configVerifyComplete => true
  | .configClearComplete => true
  | .configIdleTimeout => true
  | .configStoreComplete _ => true
  | .autoloadStart => true
  | .scrubPass _ _ frames => frames.all FrameUpset.wf
  | .fabScrubCmd _ _ _ => true
  | .scrubCmdComplete _ u => u.wf
  | .fabNocPortEn _ _ _ => true
  | .bmemAccess _ mem a b => decide (mem < 2304) && a.all PortAcc.wf && b.all PortAcc.wf
  | .nocPortRequest _ _ packet _ => decide (packet.length ≤ 80)
  | .nocTimeout _ _ => true
  | .nocLate _ _ => true
  | .flitError _ _ => true
  | .celTrainStart _ _ _ => true
  | .celTrainCommit _ _ _ => true
  | .celDlyDataWrite _ _ _ => true
  | .celSweepComplete _ _ _ => true
  | .celVerifyComplete _ ok rates mib _ _ _ => decide (ok.length = 4) && decide (rates.length = 4) && decide (mib.length = 4)
  | .caRetry _ _ nth => decide (1 ≤ nth) && decide (nth ≤ 4)
  | .refresh _ _ => true
  | .dimmTempRead _ _ _ _ => true
  | .zqCalibration _ _ => true
  | .celScrubGo _ _ _ => true
  | .patrolRead _ line e => fits 30 line && faultsIn 80 e
  | .atticPatrol _ line e => decide (line < 180224) && faultsIn 35 e
  | .shelfPatrol _ _ => true
  | .lineReadback _ m _ e => faultsIn (match m with
    | .cellar _ => 80
    | .attic _ => 35) e
  | .attStageWrite _ _ _ => true
  | .qryReserveWrite _ _ _ => true
  | .remoteRead _ line _ => fits 30 line
  | .remoteFill _ line _ => fits 30 line
  | .remoteWrite _ _ _ _ => true
  | .snoopInvalidate _ line => fits 30 line
  | .invalidateAck _ line => fits 30 line
  | .evictionReport _ line => fits 30 line
  | .larderAppend type key0 _ => fits 16 type && fits 32 key0
  | .larderCompactionComplete => true
  | .ldrCompact _ _ => true
  | .rekeySector _ => true
  | .revote word _ => word.wf
  | .bucketLeak _ blk _ => decide (blk < 20)
  | .countWindowEnd _ blk _ => decide (blk < 20)
  | .fltStatusClear _ _ blk _ => decide (blk < 20)
  | .fltSeverityWrite _ _ blk _ => decide (blk < 20)
  | .fltEnableWrite _ _ blk _ => decide (blk < 20)
  | .safeN => true
  | .safeRelease => true
  | .safeCtrlWrite _ _ => true
  | .reconcile _ _ => true
  | .powerOn _ _ checkFail => checkFail.all fun p => decide (p.2 < 20)
  | .vinWarn => true
  | .vinWarnClear => true
  | .vinCut => true
  | .qualWindow _ _ => true
  | .clockEdgeLoss _ => true
  | .crystalDelayExpire => true
  | .pllUnlock _ => true
  | .pllLock _ => true
  | .governorEval _ _ => true
  | .ilimit => true
  | .railUv => true
  | .phaseMoveComplete => true
  | .alarm => true
  | .wakeN => true
  | .vbakLow => true
  | .overTemp => true
  | .lidOpen => true
  | .aonCountWrite _ _ _ => true
  | .clkSrcWrite _ _ => true
  | .moduleReset => true
  | .firmwareStart _ _ => true
  | .teFirmwareStart _ => true
  | .firmwareReload _ => true
  | .firmwareReloadComplete _ => true
  | .watchdogKick _ _ => true
  | .wdogExpire _ _ => true
  | .tskWdogCfgWrite _ _ _ _ => true
  | .taskDelayExpire _ _ => true
  | .eventQueuePost _ _ _ => true
  | .tskPatchWrite _ _ _ _ _ => true
  | .fwHashRecompute _ => true
  | .bistSlice _ _ _ _ => true
  | .haulModeWrite _ _ _ _ => true
  | .haulCommit _ _ _ _ => true
  | .haulRetrain _ _ _ _ => true
  | .haulClockLock _ _ => true
  | .haulClockTimeout _ _ => true
  | .haulAdaptDone _ _ fom eq => decide (fom.length = 4) && decide (eq.length = 4)
  | .haulAlignDone _ _ slips => decide (slips.length = 4)
  | .haulLinkDone _ _ _ => true
  | .haulLockLoss _ _ => true
  | .haulClockAbsent _ _ => true
  | .relay _ _ _ _ => true
  | .relayTag _ _ _ _ => true
  | .spoil _ _ line => decide (line.length = 80)
  | .haulFire _ _ _ => true
  | .haulFireTime => true
  | .time _ _ _ => true
  | .flag _ _ a _ _ => fits 48 a
  | .flagApply _ => true
  | .key _ _ _ _ => true
  | .ack _ _ _ _ _ => true
  | .creditReset _ _ => true
  | .echo _ _ _ => true
  | .echoReplySend _ _ => true
  | .echoReply _ _ _ _ => true
  | .timeSync _ => true
  | .fireTx _ => true
  | .xmodPhaseWrite _ _ => true
  | .xmodAlignedWrite _ _ => true
  | .haulAdjWrite _ _ _ _ => true
  | .haulCascadeWrite _ _ => true
  | .inject _ _ _ _ _ => true
  | .haulSlip _ _ _ _ _ => true
  | .haulLaneEqWrite _ _ _ _ _ => true
  | .stwFrame _ f => f.wf
  | .stwTrainingPattern _ => true
  | .stwLockLoss _ _ => true
  | .stwTrainAgree _ _ => true
  | .stwAttemptTimeout _ => true
  | .stwDownRetry _ => true
  | .stwTargetWrite _ _ _ => true
  | .stwRetrainWrite _ _ _ => true
  | .stwCommit _ _ _ => true
  | .stwSlip _ _ _ _ => true
  | .stwWireFault _ _ => true
  | .idcode _ => true
  | .challenge _ => true
  | .token _ _ sig _ => decide (sig.length = 96)
  | .tokenExpire => true
  | .peek addr _ => fits 44 addr
  | .poke addr _ _ => fits 44 addr
  | .halt _ _ _ => true
  | .step _ _ _ => true
  | .resume _ _ => true
  | .breakpoint _ _ => true
  | .pinsEnter _ _ => true
  | .pinsExit _ _ => true
  | .pinsSet pin _ _ => fits 16 pin
  | .pinsGet pin _ _ _ => fits 16 pin
  | .flash addr data _ => fits 32 addr && decide (data.length = 256)
  | .trapLineIdle => true
  | .safeNHigh => true
  | .moduleResetRelease _ checkFail => checkFail.all fun p => decide (p.2 < 20)
  | .railInRegulation => true
  | .lidClosed => true
  | .overTempClear => true
  | .vbakRestore => true
  | .xo32Stop => true
  | .xo32Resume => true
  | .dimmNotResponding _ _ => true
  | .nocResponse _ _ => true
  | .badFrame => true
  | .aliveEdge => true
  | .taskYield _ _ how _ => decide (how < 3)
  | .calMeasurementAged _ _ => true
  | .framingError _ => true

end Sys2Proof
end

