-- ==== Sys2Proof/Machine/Cell.lean ====
section
/-! DEFINITION. The configuration of one product-term cell (R210 to R214) and what its array and macrocells compute. Sides
are 0 north, 1 east, 2 south, 3 west; wire 16 * side + w is wire w of a side. -/
namespace Sys2Proof.Machine

/-- A product term: the inputs it takes, each true or complemented (R210). -/
abbrev Term := List (Nat × Bool)

/-- A macrocell (R211). -/
structure Macrocell where
  /-- product terms given to it -/
  terms  : List Nat := []
  /-- those marked as clock enable and as synchronous clear -/
  enable : Option Nat := none
  clear  : Option Nat := none
  invert : Bool := false
  /-- D source is the tap read line -/
  tap    : Bool := false
  /-- T type flip-flop -/
  toggle : Bool := false
  init   : Bool := false
  /-- the output is the flip-flop -/
  registered : Bool := false
deriving DecidableEq, Repr, Inhabited

/-- Source of an outbound wire (R214). -/
inductive WireSrc where
  | tied
  | cellOut (m : Nat)
  /-- an inbound wire of another side -/
  | pass (wire : Nat)
deriving DecidableEq, Repr, Inhabited

structure WireCfg where
  src  : WireSrc := .tied
  registered : Bool := false
  init : Bool := false
  loop : Bool := false
deriving DecidableEq, Repr, Inhabited

/-- A cell: the inbound wire of each of its 48 array inputs, its 80 terms (none: not used), macrocells and outbound wires.
A cell that taps a block memory as j = 0 also holds its port's width (R223). The default is the cleared cell of R248. -/
structure CellCfg where
  inputs : List Nat := []
  terms  : List (Option Term) := []
  macros : List Macrocell := []
  wires  : List WireCfg := []
  width  : Nat := 1
deriving DecidableEq, Repr, Inhabited

/-- Terms that macrocell m may take: 5m - 10 to 5m + 14, within 0 to 79 (R211). -/
def termInReach (m t : Nat) : Bool := decide (5 * m ≤ t + 10) && decide (t ≤ 5 * m + 14) && decide (t < 80)

/-- Terms of macrocell m: at most 20 within its reach, none that a lower macrocell holds (R211). -/
def CellCfg.termsOf (c : CellCfg) (m : Nat) : List Nat :=
  ((c.macros.getD m {}).terms.filter fun t =>
    termInReach m t && !((c.macros.take m).any fun x => x.terms.contains t)).take 20

/-- A term: the AND of its literals, 1 when it has none, 0 when it is not used (R210). -/
def CellCfg.term (c : CellCfg) (inp : Nat → Bool) (t : Nat) : Bool :=
  match c.terms.getD t none with
  | some l => l.all fun x => inp x.1 == x.2
  | none => false

/-- Sum of a macrocell: the OR of its terms that are not marked (R211). -/
def CellCfg.sum (c : CellCfg) (inp : Nat → Bool) (m : Nat) : Bool :=
  let x := c.macros.getD m {}
  (c.termsOf m).any fun t => decide (some t ≠ x.enable) && decide (some t ≠ x.clear) && c.term inp t

/-- D source: the tap read line in a tapped cell that takes it, else the sum after polarity. -/
def CellCfg.dIn (c : CellCfg) (inp : Nat → Bool) (m : Nat) (tapLine : Option Bool) : Bool :=
  let x := c.macros.getD m {}
  match x.tap, tapLine with
  | true, some b => b
  | _, _ => c.sum inp m != x.invert

/-- A marked term of the macrocell is one of its own. -/
def CellCfg.marked (c : CellCfg) (inp : Nat → Bool) (m : Nat) (t : Option Nat) : Option Bool :=
  match t with
  | some t => if (c.termsOf m).contains t then some (c.term inp t) else none
  | none => none

/-- The flip-flop after an edge: clear comes ahead of the enable; D type loads, T type toggles (R211). -/
def CellCfg.next (c : CellCfg) (inp : Nat → Bool) (m : Nat) (dIn q : Bool) : Bool :=
  let x := c.macros.getD m {}
  if (c.marked inp m x.clear).getD false then false
  else if !((c.marked inp m x.enable).getD true) then q
  else if x.toggle then q != dIn else dIn

end Sys2Proof.Machine
end

