-- ==== Sys2Proof/Config.lean ====
section
/-! DEFINITION. What the spec leaves to the implementation or does not state: free values without a body. Nothing can
evaluate them, so whatever is proved holds for every value of them (log entry 2). -/
namespace Sys2Proof.Config

/-- Random bits of the security core: session ids, device nonces, fresh keys (R311, R312, R345). -/
opaque random : Nat → Nat

/-- SHA-384 of a byte string (R128, R316, R320), as a number of 48 bytes (FIPS 180-4). -/
opaque sha384 : List Byte → Nat

/-- ECDSA P-384 signature with SHA-384: private key and message, as a number of 96 bytes (R316, R345). -/
opaque sign : Nat → List Nat → Nat

/-- P-384 public key of a private key, 97 bytes in SEC1 uncompressed form as a number (R312, R345). -/
opaque pubKey : Nat → Nat

/-- ECDH P-384 shared secret of a private and a public key, 48 bytes as a number (R319, R345). -/
opaque ecdh : Nat → Nat → Nat

/-- Subject key, signed part and signature of an X.509 certificate (R313, R315). -/
opaque certKey : List Byte → Nat

opaque certBody : List Byte → List Nat

opaque certSignature : List Byte → List Nat

/-- File ids that FILE_OPEN and the Quarry engine give: half and draw; the spec states only bit 31 (R355). -/
opaque fileId : Nat → Nat → Nat

/-- Where a file lies in its Cellar, in lines: half and file id (R181). Only the spoil cache's set index depends on it. -/
opaque place : Nat → Nat → Nat

/-- RETRY and ESTIMATE payloads whose value the spec leaves to the device, in microseconds. -/
opaque retry : Nat → Nat

/-- The 8-byte event queue entry of a raise: side, block, source (R418 gives the size only). -/
opaque faultEntry : Nat → Nat → Nat → BitVec 64

/-- Capacity firmware gives an event queue, before it is put into 16 to 256 (R418): side and queue. -/
opaque queueCapacity : Nat → Nat → Nat

/-- Byte of memory whose content the spec does not give: half, window and offset. -/
opaque memByte : Nat → Nat → Nat → Byte

/-- Level of a comparator input of a channel, 2 * channel for CMPH and one more for CMPL, in a cycle of cascade time. -/
opaque comparator : Nat → Nat → Bool

/-- The key that two security cores agree for a relaying quad (R389), its counter block of an issue (issue and half of the
issue's 32 bytes) and the initial value of its GMAC (first issue covered); the spec gives no layout. -/
opaque relayKey : Nat → Nat

opaque relayCounter : Nat → Nat → Nat

opaque relayIv : Nat → Nat

/-- Length of the firmware image that a slot's 1 MiB hold; the spec gives its bound and no header layout (R412). -/
opaque imageLength : List Byte → Nat

/-- Words of a message of the relay key agreement, of which a frame carries up to 64 (R375, R389). -/
opaque keyMessage : Nat → List Nat

/-- Register of a lane's scrambler when a frame begins (draw, lane), and the number of the block it begins with (R371, R372). -/
opaque scrambler : Nat → Nat → Nat

opaque blockNumber : Nat → Nat

/-- Bits that reach a lane's PRBS checker while it runs (R374): draw and lane. -/
opaque received : Nat → Nat → List Bool

/-- The ten words of a Stairwell flit whose codes are internal, or of an idle frame (R394, R406). -/
opaque flit : Nat → List Nat

/-- The cell of a row that a logic frame's 69 632 bytes configure; the spec gives no layout (R252). -/
opaque cellOf : List Nat → Nat → Machine.CellCfg

/-- Whether a synchroniser takes a changed value at the first edge or one later: draw and wire (R219). -/
opaque syncChoice : Nat → Nat → Bool

/-- Level that the board gives a GPIO pin of a half in a cycle of cascade time: 128 * half + pin (R238). -/
opaque gpioLevel : Nat → Nat → Bool

/-- Stop that a response names as its source: address and F-die. The spec names no stop numbers of the ridge root (R406). -/
opaque rootStop : Nat → Nat → Nat

/-- Level at a place of the array whose path has more hops than a bench may have: place and cycle of cascade time (R216). -/
opaque slowPath : Nat → Nat → Bool

/-- One AES-256 block (FIPS 197): key and block as numbers, the ciphertext block as a number (R244, R326, R344). -/
opaque aes : Nat → Nat → Nat

/-- ECDSA P-384 verification with SHA-384: public key, message, signature (R243). -/
opaque ecdsa : Nat → List Nat → List Nat → Bool

/-- Byte of a Larder record's payload whose layout the spec does not give: SEQ and offset (R303). -/
opaque ldrByte : Nat → Nat → Byte

/-- Values firmware derives that the spec does not state: a name and a counter. -/
opaque firmware : Nat → Nat → Nat

end Sys2Proof.Config
end

