-- ==== Sys2Proof/Machine/Codes.lean ====
section
/-! DEFINITION. The codes of R292 and the CRC-32 of R245, R251, R303: GF(2^8) arithmetic, systematic Reed-Solomon
encoding and the decoders that correct one faulty symbol. Bytes stand as numbers below 256. -/
namespace Sys2Proof.Machine

/-- Little-endian bytes of a number. -/
def leNats : Nat → Nat → List Nat
  | 0, _ => []
  | n + 1, v => v % 256 :: leNats n (v / 256)

/-- The number that little-endian bytes spell. -/
def ofLe : List Nat → Nat
  | [] => 0
  | b :: t => b + 256 * ofLe t

/-- The number that big-endian bytes spell. -/
def ofBe (l : List Nat) : Nat := l.foldl (fun a b => 256 * a + b) 0

/-- Big-endian bytes of a number. -/
def beNats (n v : Nat) : List Nat := (leNats n v).reverse

/-- Times alpha in the field of x^8 + x^4 + x^3 + x^2 + 1. -/
def gfTimes2 (a : Nat) : Nat := if a < 128 then 2 * a else (2 * a) ^^^ 0x11D

/-- Product in GF(2^8): the second factor's lowest n bits. -/
def gfMulBits : Nat → Nat → Nat → Nat
  | 0, _, _ => 0
  | n + 1, a, b => (if b % 2 = 1 then a else 0) ^^^ gfMulBits n (gfTimes2 a) (b / 2)

def gfMul (a b : Nat) : Nat := if a = 0 then 0 else if b = 0 then 0 else gfMulBits 8 a b

/-- alpha to a power. -/
def gfPow : Nat → Nat
  | 0 => 1
  | n + 1 => gfTimes2 (gfPow n)

/-- Generator polynomial with roots alpha^0 to alpha^(r - 1), highest degree first: each root c takes g to x g - c g. -/
def rsGen : Nat → List Nat
  | 0 => [1]
  | r + 1 =>
    let g := rsGen r
    let c := gfPow r
    (g ++ [0]).zipWith (· ^^^ ·) (0 :: g.map (gfMul c))

/-- One byte through the division by the generator: the register holds the remainder so far. -/
def rsShift (g reg : List Nat) (b : Nat) : List Nat :=
  let fb := b ^^^ reg.headD 0
  (reg.drop 1 ++ [0]).zipWith (· ^^^ ·) ((g.drop 1).map (gfMul fb))

/-- Check bytes of data: its remainder by the generator of r roots. -/
def rsCheck (r : Nat) (data : List Nat) : List Nat := data.foldl (rsShift (rsGen r)) (List.replicate r 0)

/-- A systematic codeword: byte 0 has the highest degree, the check bytes follow (R292). -/
def rsEncode (r : Nat) (data : List Nat) : List Nat := data ++ rsCheck r data

/-- Value of a codeword at alpha^j. -/
def rsEval (j : Nat) (w : List Nat) : Nat :=
  let x := gfPow j
  w.foldl (fun a b => gfMul a x ^^^ b) 0

def syndromes (r : Nat) (w : List Nat) : List Nat := (List.range r).map fun j => rsEval j w

/-- The one symbol error that syndromes spell in a codeword of n symbols: its position and value. A single error of value e
in the symbol of degree p has the syndrome e * alpha^(p j) at j. -/
def rsLocate (n : Nat) : List Nat → Option (Nat × Nat)
  | [] => none
  | e :: rest =>
    if e = 0 then none else
    match (List.range n).find? fun p => decide (rest = (List.range rest.length).map fun j => gfMul e (gfPow (p * (j + 1)))) with
    | some p => some (n - 1 - p, e)
    | none => none

/-- What a decoder delivers: the data, and its report (R294). -/
structure Decoded where
  data   : List Nat
  report : Ecc := .clean
deriving DecidableEq, Repr

/-- Decode a codeword with r check symbols: clean, one symbol corrected, or uncorrectable and delivered as stored. -/
def rsDecode (r : Nat) (w : List Nat) : Decoded :=
  let s := syndromes r w
  let k := w.length - r
  if s.all fun x => decide (x = 0) then { data := w.take k }
  else match rsLocate w.length s with
    | some (i, e) => { data := (w.set i (w.getD i 0 ^^^ e)).take k, report := .corr }
    | none => { data := w.take k, report := .uncorr }

/-- A stored codeword after upsets. -/
def upset (w : List Nat) (f : Faults) : List Nat := f.foldl (fun w x => w.set x.1 (w.getD x.1 0 ^^^ x.2.toNat)) w

/-- What the decoder of a code of n symbols, r of them check symbols, reports of upsets: the codes are linear, so a
codeword's class depends on its errors only (R292). -/
def faultClass (n r : Nat) (f : Faults) : Ecc :=
  if f.isEmpty then .clean else (rsDecode r (upset (List.replicate n 0) f)).report

/-- An Attic line's half of 32 bytes, a Cellar line, and a block memory row (R293). -/
def atticClass (f : Faults) : Ecc := faultClass 35 3 f

def cellarClass (f : Faults) : Ecc := faultClass 80 3 f

/-- One bit of the CRC-32 of IEEE 802.3, least significant bit first. -/
def crcBit (c : Nat) : Nat := if c % 2 = 1 then (c / 2) ^^^ 0xEDB88320 else c / 2

def crcByte (c b : Nat) : Nat := crcBit (crcBit (crcBit (crcBit (crcBit (crcBit (crcBit (crcBit (c ^^^ b))))))))

/-- CRC-32 (IEEE 802.3) of bytes. -/
def crc32 (l : List Nat) : Nat := l.foldl crcByte 0xFFFFFFFF ^^^ 0xFFFFFFFF

/-- Runs of n bytes. -/
def chunks (n : Nat) : Nat → List Nat → List (List Nat)
  | 0, _ => []
  | k + 1, l => l.take n :: chunks n k (l.drop n)

/-- A coded run: its data, the symbols that were corrected, and whether a codeword was uncorrectable. -/
def decodeRun (n r k : Nat) (l : List Nat) : List Nat × Nat × Bool :=
  (chunks n k l).foldl (fun a w =>
    let d := rsDecode r w
    (a.1 ++ d.data, a.2.1 + (if d.report = .corr then 1 else 0), a.2.2 || decide (d.report = .uncorr))) ([], 0, false)

/-- A run of data bytes coded in codewords of n symbols with r check symbols. -/
def encodeRun (n r k : Nat) (l : List Nat) : List Nat := (chunks (n - r) k l).flatMap (rsEncode r)

end Sys2Proof.Machine
end

