-- ==== Sys2Proof/Machine/Crypto.lean ====
section
/-! DEFINITION. Key derivation, encryption and tags of chapters 12 and 13 over two opaque primitives, SHA-384 and the AES-256
block (log entry 3). Byte strings are lists of numbers below 256; keys and blocks are big-endian numbers. -/
namespace Sys2Proof.Machine

/-- SHA-384 of a byte string, as its 48 bytes. -/
def sha (l : List Nat) : List Nat := beNats 48 (Config.sha384 (l.map (BitVec.ofNat 8)))

def xorBytes (a b : List Nat) : List Nat := a.zipWith (· ^^^ ·) b

/-- HMAC-SHA384: a key is padded to the block of 128 bytes, and hashed first when it is longer. -/
def hmac (key msg : List Nat) : List Nat :=
  let k := if 128 < key.length then sha key else key
  let k := k ++ List.replicate (128 - k.length) 0
  sha (k.map (· ^^^ 0x5C) ++ sha (k.map (· ^^^ 0x36) ++ msg))

/-- Blocks T(i) of the HKDF expansion, from the previous one. -/
def hkdfBlocks (prk info : List Nat) : Nat → Nat → List Nat → List Nat
  | 0, _, _ => []
  | n + 1, i, last => let t := hmac prk (last ++ info ++ [i]); t ++ hkdfBlocks prk info n (i + 1) t

/-- n bytes of HKDF-SHA384 (RFC 5869). -/
def hkdf (salt ikm info : List Nat) (n : Nat) : List Nat := (hkdfBlocks (hmac salt ikm) info ((n + 47) / 48) 1 []).take n

/-- n bytes of the KDF in counter mode of R322: PRF HMAC-SHA384 with the slot secret, a label, and one context byte e. The
counter and the length in bits have 32 bits each (PRESUMED, log entry 66). -/
def kdf (secret : Nat) (label : List Nat) (e n : Nat) : List Nat :=
  ((List.range ((n + 47) / 48)).flatMap fun i =>
    hmac (beNats 64 secret) (beNats 4 (i + 1) ++ label ++ [0, e] ++ beNats 4 (8 * n))).take n

/-- The labels XTS, TAG and REC in ASCII (R322). -/
def labelXts : List Nat := [0x58, 0x54, 0x53]
def labelTag : List Nat := [0x54, 0x41, 0x47]
def labelRec : List Nat := [0x52, 0x45, 0x43]

/-- K1 and K2 of a slot at an epoch (R322). -/
def xtsKeys (secret e : Nat) : Nat × Nat :=
  if e = 0 then (secret / 2 ^ 256 % 2 ^ 256, secret % 2 ^ 256)
  else let k := kdf secret labelXts e 64; (ofBe (k.take 32), ofBe (k.drop 32))

/-- Line and node tag key of a slot at an epoch (R322). -/
def tagKey (secret e : Nat) : Nat := ofBe (kdf secret labelTag e 32)

/-- Result record tag key of a RESULT slot (R137, R322). -/
def recordKey (secret : Nat) : Nat := ofBe (kdf secret labelRec 0 32)

/-- One AES-256 block over bytes. -/
def aesBlock (key : Nat) (b : List Nat) : List Nat := beNats 16 (Config.aes key (ofBe b))

/-- Times alpha in GF(2^128) of XTS, on a little-endian number. -/
def xtsTimes2 (t : Nat) : Nat := if t < 2 ^ 127 then 2 * t else (2 * t - 2 ^ 128) ^^^ 0x87

/-- Tweak of block j of a data unit. -/
def xtsTweak (k2 unit : Nat) : Nat → Nat
  | 0 => ofLe (aesBlock k2 (leNats 16 unit))
  | j + 1 => xtsTimes2 (xtsTweak k2 unit j)

/-- XTS-AES-256 of block j of a data unit (IEEE 1619, R326). -/
def xtsBlock (k : Nat × Nat) (unit j : Nat) (p : List Nat) : List Nat :=
  let t := leNats 16 (xtsTweak k.2 unit j)
  xorBytes (aesBlock k.1 (xorBytes p t)) t

/-- Doubling of a CMAC subkey. -/
def cmacDouble (v : Nat) : Nat := if v < 2 ^ 127 then 2 * v else (2 * v - 2 ^ 128) ^^^ 0x87

/-- AES-CMAC (SP 800-38B) of n whole blocks. -/
def cmac (key n : Nat) (msg : List Nat) : List Nat :=
  let k1 := beNats 16 (cmacDouble (Config.aes key 0))
  let body := (chunks 16 (n - 1) msg).foldl (fun c m => aesBlock key (xorBytes c m)) (List.replicate 16 0)
  aesBlock key (xorBytes (xorBytes body (msg.drop (16 * (n - 1)))) k1)

/-- Product in the field of GCM: the bits of the first factor from the highest of n on. -/
def gcmMulBits (x : Nat) : Nat → Nat → Nat
  | 0, _ => 0
  | n + 1, v => (if x.testBit n then v else 0) ^^^ gcmMulBits x n (if v % 2 = 1 then (v / 2) ^^^ (0xE1 * 2 ^ 120) else v / 2)

def gcmMul (x y : Nat) : Nat := gcmMulBits x 128 y

/-- Bytes padded with zeros to whole blocks. -/
def pad16 (l : List Nat) : List Nat := l ++ List.replicate ((16 - l.length % 16) % 16) 0

def ghash (h : Nat) (l : List Nat) : Nat := (chunks 16 (l.length / 16) l).foldl (fun y x => gcmMul (y ^^^ ofBe x) h) 0

/-- The key stream of AES-256 in counter mode over bytes, with a 96-bit initial value and a 32-bit count from c on. -/
def ctrStream (key iv c : Nat) (l : List Nat) : List Nat :=
  (chunks 16 ((l.length + 15) / 16) l).zipIdx.flatMap fun b =>
    xorBytes b.1 (beNats 16 (Config.aes key (iv % 2 ^ 96 * 2 ^ 32 + (c + b.2) % 2 ^ 32)))

/-- The GCM tag of additional data and ciphertext (SP 800-38D, 96-bit initial value). -/
def gcmTag (key iv : Nat) (aad ct : List Nat) : List Nat :=
  let s := ghash (Config.aes key 0) (pad16 aad ++ pad16 ct ++ beNats 8 (8 * aad.length) ++ beNats 8 (8 * ct.length))
  ctrStream key iv 1 (beNats 16 s)

/-- AES-256-GCM encryption: ciphertext and tag. -/
def gcmSeal (key iv : Nat) (aad p : List Nat) : List Nat :=
  let ct := ctrStream key iv 2 p
  ct ++ gcmTag key iv aad ct

/-- AES-256-GCM decryption: nothing when the tag fails. -/
def gcmOpen (key iv : Nat) (aad ct tag : List Nat) : Option (List Nat) :=
  if gcmTag key iv aad ct = tag then some (ctrStream key iv 2 ct) else none

end Sys2Proof.Machine
end

