-- ==== Sys2Proof/Machine/Registers.lean ====
section
/-! DEFINITION. The register index (R519) as data: every register of the T-dies and F-dies with its offset and its
fields, one line of the owning chapter's register table each: name, bits, access code (R8), reset value (R10) and
whether it is burst-locked (R32). A reset value the tables word as fuse, strap or page default is 0 here and is supplied
by `resetVal` of Ops. -/
namespace Sys2Proof

/-- Access codes of register fields (R8). -/
inductive Acc where
  | ro | rw | wo | w1c | rc | rv
deriving DecidableEq, Repr

/-- One field of a register table. -/
structure Field where
  name  : String
  hi    : Nat
  lo    : Nat
  acc   : Acc
  reset : Nat
  burst : Bool
deriving DecidableEq, Repr

/-- The registers by name. A register array is one name with an index. -/
inductive Rg where
  | identPart | identStepping | identDieset | identDie | clkStatus | clkSrc | pwrStatus | pwrVin | pwrBudget
  | pwrReset | pwrCap | safeStatus | safeCtrl | safeReqTw | safeReqTe | safeBistStatus | safeBistLast
  | safeBistSigLo | safeBistSigHi | tskStatus | tskFwVersion | tskReady | tskWaitMax | tskQsel | tskQinfo
  | tskQpush | tskCoreLoad | tskWdogCfg | tskWdogCnt | tskPatchAddr | tskPatchLo | tskPatchHi | tchCfg
  | tchIdle | tchSafe | tchForce | tchStatus | tchFlags | tchSpacingCnt | tchAnomalyCnt | tchHalfStatus
  | tchSiteMaskLo | tchSiteMaskHi | shelfStatus | shelfCtrl | shelfLoad | shelfCheck | shelfLoadCnt
  | shelfSwapCnt | shelfRejectCnt | shelfPeriod | faceStatus | faceAudit | faceAuditAt | faceStep | faceCause
  | faceIssuedLo | faceIssuedHi | faceFireOffset | faceFireIgnored | faceMatch | faceResults | faceLoop
  | facePlanHash | drlStatus | drlX | drlY | drlDataLo | drlDataHi | drlOut | drlCnt | drlIssues | drlCheck
  | qryStatus | qryCfg | qryBmCfg | qryBmSitesLo | qryBmSitesHi | qryMrSite | qryReserve | qryReserveFree
  | qryLogLimit | qryQueue | qryRecords | qryLost | calStatus | calNext | calPhase | calCheck | calSlotCnt
  | calUpdateCnt | calResidMax | calTemp | calCurrent | celStatus | celGeom | celTrain | celDlySel
  | celDlyData | celSweepData | celQos | celExpired | celScrubCfg | celScrubWin | celScrubStatus | celUeAddr
  | celRemapUsed | attStatus | attStage | attRcHit | attRcMiss | attRcInv | attDirCount | attScrubCfg
  | attSpareUsed | secLifecycle | secStatus | secSlotSel | secSlotInfo | secNonce | xtsStatus | xtsAlarm
  | xtsAlarmFile | xtsAlarmLbn | xtsFailCnt | xtsRekeyFile | xtsRekeyPtr | haulQStatus | haulQCtrl
  | haulRxLat | haulViol | haulLaneStatus | haulLaneCtrl | haulLaneEq | haulPrbsErr | haulCascade
  | haulFireLead | haulCtrl | haulCtimeLo | haulCtimeHi | haulXmod | haulXmodRef | haulFlagCfg
  | haulFlagSrcLo | haulFlagSrcHi | haulFlagIn | haulRelay | haulSpoilFile | haulSpoilLost | stwStatus
  | stwCtrl | stwLanes | stwRetrainCnt | stwCrcCnt | stwLane | nocTimeout | nocTimeoutCnt | nocLateCnt
  | nocHeld | hstLink | hstMacLo | hstMacHi | hstIpv4 | hstUdpPort | hstSessions | hstViolCnt | hstRejectCnt
  | cfgStatus | cfgResult | cfgResultAt | cfgFrames | cfgCorrected | cfgBoot | cfgSlot | cfgImageHash
  | aonStatus | aonCfg | aonEvent | aonCountLo | aonCountHi | aonAlarmLo | aonAlarmHi | ldrStatus | ldrCtrl
  | ldrSeq | ldrLost | dbgStatus | fabStatus | fabHookCfg | fabHookLate | fabGpioIn | fabGpioSafeOut
  | fabGpioSafeOe | fabFck | fabBmemErr | fabScrubStatus | fabScrubCfg | fabScrubCmd | fabScrubResult
  | fltStatus | fltEnable | fltSeverity | fltCountCfg | fltBucket | fltFirst | fltVote | fabDieStatus
  | fabNocPortEn | fabBench
deriving DecidableEq, Repr

/-- Where a register lies: element i is at base + off + s1 * (i / c2) + s2 * (i mod c2), for i below c1 * c2. -/
structure RegDesc where
  reg    : Rg
  off    : Nat
  s1     : Nat
  c1     : Nat
  s2     : Nat
  c2     : Nat
  fields : List Field
deriving DecidableEq, Repr

/-- The indexes a register array has. -/
def RegDesc.count (r : RegDesc) : Nat := r.c1 * r.c2

/-- Offset of element i within its die. -/
def RegDesc.addr (r : RegDesc) (i : Nat) : Nat := r.off + r.s1 * (i / r.c2) + r.s2 * (i % r.c2)

/-- Registers of block IDENT (R16). -/
def regsIdent : List RegDesc := [
  ⟨.identPart, 0x0, 0x0, 1, 0x0, 1, [
      ⟨"FAMILY", 31, 16, .ro, 0x5E17, false⟩,
      ⟨"PART", 15, 0, .ro, 0x512, false⟩]⟩,
  ⟨.identStepping, 0x4, 0x0, 1, 0x0, 1, [
      ⟨"MODULE", 7, 0, .ro, 0x0, false⟩]⟩,
  ⟨.identDieset, 0x8, 0x0, 1, 0x0, 1, [
      ⟨"TE", 23, 20, .ro, 0x0, false⟩,
      ⟨"TW", 19, 16, .ro, 0x0, false⟩,
      ⟨"F3", 15, 12, .ro, 0x0, false⟩,
      ⟨"F2", 11, 8, .ro, 0x0, false⟩,
      ⟨"F1", 7, 4, .ro, 0x0, false⟩,
      ⟨"F0", 3, 0, .ro, 0x0, false⟩]⟩,
  ⟨.identDie, 0xC, 0x0, 1, 0x0, 1, [
      ⟨"STEP", 31, 24, .ro, 0x0, false⟩,
      ⟨"DESIGN", 23, 16, .ro, 0x0, false⟩,
      ⟨"MIRRORED", 2, 2, .ro, 0x0, false⟩,
      ⟨"POSITION", 1, 0, .ro, 0x0, false⟩]⟩]

/-- Registers of block CLK (R429 to R455). -/
def regsClk : List RegDesc := [
  ⟨.clkStatus, 0x100000, 0x0, 1, 0x0, 1, [
      ⟨"PHASE_BUSY", 9, 9, .ro, 0x0, false⟩,
      ⟨"BACKUP", 8, 8, .ro, 0x0, false⟩,
      ⟨"LOCK", 7, 3, .ro, 0x0, false⟩,
      ⟨"XO_OK", 2, 2, .ro, 0x0, false⟩,
      ⟨"ETH_OK", 1, 1, .ro, 0x0, false⟩,
      ⟨"REF_OK", 0, 0, .ro, 0x0, false⟩]⟩,
  ⟨.clkSrc, 0x100004, 0x0, 1, 0x0, 1, [
      ⟨"TICK", 0, 0, .rv, 0x0, false⟩]⟩,
  ⟨.pwrStatus, 0x100100, 0x0, 1, 0x0, 1, [
      ⟨"K", 13, 8, .ro, 0x0, false⟩,
      ⟨"WARN", 5, 5, .ro, 0x0, false⟩,
      ⟨"SHORT", 4, 4, .ro, 0x0, false⟩,
      ⟨"CAPPED", 3, 3, .ro, 0x0, false⟩,
      ⟨"HOST_MODE", 2, 2, .ro, 0x0, false⟩,
      ⟨"STATE", 1, 0, .ro, 0x0, false⟩]⟩,
  ⟨.pwrVin, 0x100104, 0x0, 1, 0x0, 1, [
      ⟨"MA", 31, 16, .ro, 0x0, false⟩,
      ⟨"MV", 15, 0, .ro, 0x0, false⟩]⟩,
  ⟨.pwrBudget, 0x100108, 0x0, 1, 0x0, 1, [
      ⟨"DEMAND", 31, 16, .ro, 0x0, false⟩,
      ⟨"BUDGET", 15, 0, .ro, 0x0, false⟩]⟩,
  ⟨.pwrReset, 0x10010C, 0x0, 1, 0x0, 1, [
      ⟨"EAST", 27, 16, .ro, 0x0, false⟩,
      ⟨"WEST", 11, 0, .ro, 0x0, false⟩]⟩,
  ⟨.pwrCap, 0x100140, 0x4, 8, 0x0, 1, [
      ⟨"MHZ", 9, 0, .rw, 0x2BC, true⟩]⟩]

/-- Registers of block SAFE (R456 to R481). -/
def regsSafe : List RegDesc := [
  ⟨.safeStatus, 0x200000, 0x0, 1, 0x0, 1, [
      ⟨"RELEASING", 3, 3, .ro, 0x0, false⟩,
      ⟨"SAFE_N_LOW", 2, 2, .ro, 0x0, false⟩,
      ⟨"ALIVE_RUN", 1, 1, .ro, 0x0, false⟩,
      ⟨"ASSERTED", 0, 0, .ro, 0x0, false⟩]⟩,
  ⟨.safeCtrl, 0x200004, 0x0, 1, 0x0, 1, [
      ⟨"ALIVE_EN", 0, 0, .rw, 0x0, false⟩]⟩,
  ⟨.safeReqTw, 0x200008, 0x0, 1, 0x0, 1, [
      ⟨"BLOCKS", 19, 0, .ro, 0x0, false⟩]⟩,
  ⟨.safeReqTe, 0x20000C, 0x0, 1, 0x0, 1, [
      ⟨"BLOCKS", 19, 0, .ro, 0x0, false⟩]⟩,
  ⟨.safeBistStatus, 0x200020, 0x0, 1, 0x0, 1, [
      ⟨"MISMATCHES", 31, 16, .rc, 0x0, false⟩,
      ⟨"EAST", 5, 5, .ro, 0x0, false⟩,
      ⟨"RUN", 4, 4, .ro, 0x0, false⟩,
      ⟨"KIND", 3, 0, .ro, 0x0, false⟩]⟩,
  ⟨.safeBistLast, 0x200024, 0x0, 1, 0x0, 1, [
      ⟨"SET", 31, 31, .w1c, 0x0, false⟩,
      ⟨"PASS", 30, 30, .ro, 0x0, false⟩,
      ⟨"EAST", 29, 29, .ro, 0x0, false⟩,
      ⟨"KIND", 28, 25, .ro, 0x0, false⟩,
      ⟨"UNIT", 15, 0, .ro, 0x0, false⟩]⟩,
  ⟨.safeBistSigLo, 0x200028, 0x0, 1, 0x0, 1, [
      ⟨"SIG", 31, 0, .ro, 0x0, false⟩]⟩,
  ⟨.safeBistSigHi, 0x20002C, 0x0, 1, 0x0, 1, [
      ⟨"SIG", 31, 0, .ro, 0x0, false⟩]⟩]

/-- Registers of block TSK (R409 to R428). -/
def regsTsk : List RegDesc := [
  ⟨.tskStatus, 0x300000, 0x0, 1, 0x0, 1, [
      ⟨"RELOAD", 9, 9, .ro, 0x0, false⟩,
      ⟨"SLOT", 8, 8, .ro, 0x0, false⟩,
      ⟨"HALTED", 7, 4, .ro, 0x0, false⟩,
      ⟨"RUNNING", 3, 0, .ro, 0x0, false⟩]⟩,
  ⟨.tskFwVersion, 0x300004, 0x0, 1, 0x0, 1, [
      ⟨"VERSION", 31, 0, .ro, 0x0, false⟩]⟩,
  ⟨.tskReady, 0x300008, 0x0, 1, 0x0, 1, [
      ⟨"P24_31", 31, 24, .ro, 0x0, false⟩,
      ⟨"P16_23", 23, 16, .ro, 0x0, false⟩,
      ⟨"P8_15", 15, 8, .ro, 0x0, false⟩,
      ⟨"P0_7", 7, 0, .ro, 0x0, false⟩]⟩,
  ⟨.tskWaitMax, 0x30000C, 0x0, 1, 0x0, 1, [
      ⟨"TASK", 31, 24, .rc, 0x0, false⟩,
      ⟨"US", 23, 0, .rc, 0x0, false⟩]⟩,
  ⟨.tskQsel, 0x300010, 0x0, 1, 0x0, 1, [
      ⟨"QUEUE", 5, 0, .rw, 0x0, false⟩]⟩,
  ⟨.tskQinfo, 0x300014, 0x0, 1, 0x0, 1, [
      ⟨"PEAK", 24, 16, .rc, 0x0, false⟩,
      ⟨"DEPTH", 8, 0, .ro, 0x0, false⟩]⟩,
  ⟨.tskQpush, 0x300018, 0x0, 1, 0x0, 1, [
      ⟨"PUSHBACKS", 31, 0, .rc, 0x0, false⟩]⟩,
  ⟨.tskCoreLoad, 0x300020, 0x4, 4, 0x0, 1, [
      ⟨"PERMILLE", 9, 0, .ro, 0x0, false⟩]⟩,
  ⟨.tskWdogCfg, 0x300030, 0x4, 4, 0x0, 1, [
      ⟨"MAX", 31, 16, .rw, 0x2710, false⟩,
      ⟨"MIN", 15, 0, .rw, 0x64, false⟩]⟩,
  ⟨.tskWdogCnt, 0x300040, 0x4, 4, 0x0, 1, [
      ⟨"COUNT", 15, 0, .ro, 0x2710, false⟩]⟩,
  ⟨.tskPatchAddr, 0x300100, 0x10, 16, 0x0, 1, [
      ⟨"EN", 31, 31, .rw, 0x0, false⟩,
      ⟨"ADDR", 19, 3, .rw, 0x0, false⟩]⟩,
  ⟨.tskPatchLo, 0x300104, 0x10, 16, 0x0, 1, [
      ⟨"WORD", 31, 0, .rw, 0x0, false⟩]⟩,
  ⟨.tskPatchHi, 0x300108, 0x10, 16, 0x0, 1, [
      ⟨"WORD", 31, 0, .rw, 0x0, false⟩]⟩]

/-- Registers of block TCH (R76). -/
def regsTch : List RegDesc := [
  ⟨.tchCfg, 0x400800, 0x1000, 256, 0x0, 1, [
      ⟨"SITE_EN", 22, 22, .rw, 0x0, true⟩,
      ⟨"SITE", 21, 16, .rw, 0x0, true⟩,
      ⟨"SWING_E", 15, 12, .rw, 0x4, true⟩,
      ⟨"SWING_D", 11, 8, .rw, 0x4, true⟩,
      ⟨"CMPL_INV", 3, 3, .rw, 0x0, true⟩,
      ⟨"CMPH_INV", 2, 2, .rw, 0x0, true⟩,
      ⟨"DRVD_INV", 1, 1, .rw, 0x0, true⟩,
      ⟨"EN", 0, 0, .rw, 0x0, true⟩]⟩,
  ⟨.tchIdle, 0x400804, 0x1000, 256, 0x0, 1, [
      ⟨"DRVE", 1, 1, .rw, 0x0, true⟩,
      ⟨"DRVD", 0, 0, .rw, 0x0, true⟩]⟩,
  ⟨.tchSafe, 0x400808, 0x1000, 256, 0x0, 1, [
      ⟨"DRVD", 0, 0, .rw, 0x0, true⟩]⟩,
  ⟨.tchForce, 0x40080C, 0x1000, 256, 0x0, 1, [
      ⟨"EN", 31, 31, .rw, 0x0, true⟩,
      ⟨"DRVE", 1, 1, .rw, 0x0, true⟩,
      ⟨"DRVD", 0, 0, .rw, 0x0, true⟩]⟩,
  ⟨.tchStatus, 0x400810, 0x1000, 256, 0x0, 1, [
      ⟨"FORCED", 6, 6, .ro, 0x0, false⟩,
      ⟨"INHIBITED", 5, 5, .ro, 0x0, false⟩,
      ⟨"WIN_OPEN", 4, 4, .ro, 0x0, false⟩,
      ⟨"CMPL_NOW", 3, 3, .ro, 0x0, false⟩,
      ⟨"CMPH_NOW", 2, 2, .ro, 0x0, false⟩,
      ⟨"DRVE_OUT", 1, 1, .ro, 0x0, false⟩,
      ⟨"DRVD_OUT", 0, 0, .ro, 0x0, false⟩]⟩,
  ⟨.tchFlags, 0x400814, 0x1000, 256, 0x0, 1, [
      ⟨"HELD", 5, 5, .w1c, 0x0, false⟩,
      ⟨"ANOMALY", 4, 4, .w1c, 0x0, false⟩,
      ⟨"CLAMP", 3, 3, .w1c, 0x0, false⟩,
      ⟨"WIN_ORPHAN", 2, 2, .w1c, 0x0, false⟩,
      ⟨"WIN_NEST", 1, 1, .w1c, 0x0, false⟩,
      ⟨"SPACING", 0, 0, .w1c, 0x0, false⟩]⟩,
  ⟨.tchSpacingCnt, 0x400818, 0x1000, 256, 0x0, 1, [
      ⟨"COUNT", 31, 0, .rc, 0x0, false⟩]⟩,
  ⟨.tchAnomalyCnt, 0x40081C, 0x1000, 256, 0x0, 1, [
      ⟨"COUNT", 31, 0, .rc, 0x0, false⟩]⟩,
  ⟨.tchHalfStatus, 0x400000, 0x0, 1, 0x0, 1, [
      ⟨"CAUSE", 7, 4, .ro, 0x0, false⟩,
      ⟨"INHIBITED", 1, 1, .ro, 0x0, false⟩,
      ⟨"HOLD", 0, 0, .ro, 0x0, false⟩]⟩,
  ⟨.tchSiteMaskLo, 0x400100, 0x8, 16, 0x0, 1, [
      ⟨"SITES", 31, 0, .rw, 0xFFFFFFFF, true⟩]⟩,
  ⟨.tchSiteMaskHi, 0x400104, 0x8, 16, 0x0, 1, [
      ⟨"SITES", 31, 0, .rw, 0xFFFFFFFF, true⟩]⟩]

/-- Registers of block SHELF (R79 to R104). -/
def regsShelf : List RegDesc := [
  ⟨.shelfStatus, 0x500000, 0x0, 1, 0x0, 1, [
      ⟨"SLOT1_STATE", 7, 6, .ro, 0x0, false⟩,
      ⟨"SLOT0_STATE", 5, 4, .ro, 0x0, false⟩,
      ⟨"ACTIVE", 0, 0, .ro, 0x0, false⟩]⟩,
  ⟨.shelfCtrl, 0x500004, 0x0, 1, 0x0, 1, [
      ⟨"SWAP", 0, 0, .wo, 0x0, true⟩]⟩,
  ⟨.shelfLoad, 0x500008, 0x0, 1, 0x0, 1, [
      ⟨"GROUPS", 31, 24, .ro, 0x0, false⟩,
      ⟨"LINES", 23, 0, .ro, 0x0, false⟩]⟩,
  ⟨.shelfCheck, 0x50000C, 0x0, 1, 0x0, 1, [
      ⟨"REASON", 31, 28, .ro, 0x0, false⟩,
      ⟨"SRC", 27, 26, .ro, 0x0, false⟩,
      ⟨"CHANNEL", 25, 18, .ro, 0x0, false⟩,
      ⟨"TSET", 17, 14, .ro, 0x0, false⟩,
      ⟨"WAVE", 13, 10, .ro, 0x0, false⟩,
      ⟨"SLOT", 9, 7, .ro, 0x0, false⟩,
      ⟨"SET", 0, 0, .w1c, 0x0, false⟩]⟩,
  ⟨.shelfLoadCnt, 0x500010, 0x0, 1, 0x0, 1, [
      ⟨"COUNT", 31, 0, .rc, 0x0, false⟩]⟩,
  ⟨.shelfSwapCnt, 0x500014, 0x0, 1, 0x0, 1, [
      ⟨"COUNT", 31, 0, .rc, 0x0, false⟩]⟩,
  ⟨.shelfRejectCnt, 0x500018, 0x0, 1, 0x0, 1, [
      ⟨"COUNT", 31, 0, .rc, 0x0, false⟩]⟩,
  ⟨.shelfPeriod, 0x500100, 0x4, 32, 0x0, 1, [
      ⟨"PERIOD", 27, 0, .ro, 0x0, false⟩]⟩]

/-- Registers of block FACE (R105 to R139). -/
def regsFace : List RegDesc := [
  ⟨.faceStatus, 0x600000, 0x0, 1, 0x0, 1, [
      ⟨"LOOP_DEPTH", 17, 14, .ro, 0x0, false⟩,
      ⟨"LAST_FIRE", 13, 12, .ro, 0x0, false⟩,
      ⟨"SOURCES", 10, 8, .ro, 0x0, false⟩,
      ⟨"CLASS", 6, 6, .ro, 0x0, false⟩,
      ⟨"FIRE_BLOCKED", 5, 5, .ro, 0x0, false⟩,
      ⟨"RESULT_READY", 4, 4, .ro, 0x0, false⟩,
      ⟨"ARMING", 3, 3, .ro, 0x0, false⟩,
      ⟨"STATE", 2, 0, .ro, 0x0, false⟩]⟩,
  ⟨.faceAudit, 0x600004, 0x0, 1, 0x0, 1, [
      ⟨"REASON", 31, 24, .ro, 0x0, false⟩,
      ⟨"KIND", 23, 20, .ro, 0x0, false⟩,
      ⟨"SET", 0, 0, .w1c, 0x0, false⟩]⟩,
  ⟨.faceAuditAt, 0x600008, 0x0, 1, 0x0, 1, [
      ⟨"INDEX", 31, 0, .ro, 0x0, false⟩]⟩,
  ⟨.faceStep, 0x60000C, 0x0, 1, 0x0, 1, [
      ⟨"STEP", 15, 0, .ro, 0x0, false⟩]⟩,
  ⟨.faceCause, 0x600010, 0x0, 1, 0x0, 1, [
      ⟨"SET", 24, 16, .ro, 0x0, false⟩,
      ⟨"CAUSE", 7, 0, .ro, 0x0, false⟩]⟩,
  ⟨.faceIssuedLo, 0x600014, 0x0, 1, 0x0, 1, [
      ⟨"ISSUES", 31, 0, .ro, 0x0, false⟩]⟩,
  ⟨.faceIssuedHi, 0x600018, 0x0, 1, 0x0, 1, [
      ⟨"ISSUES", 31, 0, .ro, 0x0, false⟩]⟩,
  ⟨.faceFireOffset, 0x60001C, 0x0, 1, 0x0, 1, [
      ⟨"OFFSET", 15, 0, .ro, 0x0, false⟩]⟩,
  ⟨.faceFireIgnored, 0x600020, 0x0, 1, 0x0, 1, [
      ⟨"COUNT", 31, 0, .rc, 0x0, false⟩]⟩,
  ⟨.faceMatch, 0x600024, 0x0, 1, 0x0, 1, [
      ⟨"FAILED", 15, 8, .ro, 0x0, false⟩,
      ⟨"SEEN", 7, 0, .ro, 0x0, false⟩]⟩,
  ⟨.faceResults, 0x600028, 0x0, 1, 0x0, 1, [
      ⟨"BURSTS", 15, 14, .ro, 0x0, false⟩,
      ⟨"MODULE", 13, 7, .ro, 0x0, false⟩,
      ⟨"HALF", 6, 0, .ro, 0x0, false⟩]⟩,
  ⟨.faceLoop, 0x600040, 0x4, 8, 0x0, 1, [
      ⟨"REMAINING", 31, 0, .ro, 0x0, false⟩]⟩,
  ⟨.facePlanHash, 0x600080, 0x4, 12, 0x0, 1, [
      ⟨"HASH", 31, 0, .ro, 0x0, false⟩]⟩]

/-- Registers of block DRL (R140 to R161). -/
def regsDrl : List RegDesc := [
  ⟨.drlStatus, 0x700000, 0x1000, 2, 0x0, 1, [
      ⟨"PC", 19, 8, .ro, 0x0, false⟩,
      ⟨"FAULT", 4, 4, .w1c, 0x0, false⟩,
      ⟨"USES_HOOK", 3, 3, .ro, 0x0, false⟩,
      ⟨"STATE", 2, 0, .ro, 0x0, false⟩]⟩,
  ⟨.drlX, 0x700004, 0x1000, 2, 0x0, 1, [
      ⟨"ADDR", 23, 0, .ro, 0x0, false⟩]⟩,
  ⟨.drlY, 0x700008, 0x1000, 2, 0x0, 1, [
      ⟨"ADDR", 23, 0, .ro, 0x0, false⟩]⟩,
  ⟨.drlDataLo, 0x70000C, 0x1000, 2, 0x0, 1, [
      ⟨"DATA", 31, 0, .ro, 0x0, false⟩]⟩,
  ⟨.drlDataHi, 0x700010, 0x1000, 2, 0x0, 1, [
      ⟨"DATA", 31, 0, .ro, 0x0, false⟩]⟩,
  ⟨.drlOut, 0x700014, 0x1000, 2, 0x0, 1, [
      ⟨"MODE", 17, 16, .ro, 0x0, false⟩,
      ⟨"CTL", 15, 0, .ro, 0x0, false⟩]⟩,
  ⟨.drlCnt, 0x700018, 0x1000, 2, 0x4, 4, [
      ⟨"COUNT", 23, 0, .ro, 0x0, false⟩]⟩,
  ⟨.drlIssues, 0x700028, 0x1000, 2, 0x0, 1, [
      ⟨"COUNT", 31, 0, .ro, 0x0, false⟩]⟩,
  ⟨.drlCheck, 0x70002C, 0x0, 1, 0x0, 1, [
      ⟨"REASON", 31, 28, .ro, 0x0, false⟩,
      ⟨"AREA", 27, 26, .ro, 0x0, false⟩,
      ⟨"INDEX", 25, 14, .ro, 0x0, false⟩,
      ⟨"DRILL", 13, 13, .ro, 0x0, false⟩,
      ⟨"SET", 0, 0, .w1c, 0x0, false⟩]⟩]

/-- Registers of block QRY (R162 to R186). -/
def regsQry : List RegDesc := [
  ⟨.qryStatus, 0x800000, 0x0, 1, 0x0, 1, [
      ⟨"OVERFLOW", 5, 5, .ro, 0x0, false⟩,
      ⟨"QUARANTINED", 4, 4, .ro, 0x0, false⟩,
      ⟨"RAW", 3, 3, .ro, 0x0, false⟩,
      ⟨"STATE", 1, 0, .ro, 0x0, false⟩]⟩,
  ⟨.qryCfg, 0x800004, 0x0, 1, 0x0, 1, [
      ⟨"ADDR_DRILL", 23, 16, .rw, 0x0, true⟩,
      ⟨"FF_LIMIT", 15, 8, .rw, 0x1, true⟩,
      ⟨"REPAIR", 5, 5, .rw, 0x0, true⟩,
      ⟨"SIGNATURE", 4, 4, .rw, 0x0, true⟩,
      ⟨"COUNT", 3, 3, .rw, 0x0, true⟩,
      ⟨"BITMAP", 2, 2, .rw, 0x0, true⟩,
      ⟨"RECORD", 1, 0, .rw, 0x0, true⟩]⟩,
  ⟨.qryBmCfg, 0x800008, 0x0, 1, 0x0, 1, [
      ⟨"YB", 9, 5, .rw, 0x0, true⟩,
      ⟨"XB", 4, 0, .rw, 0x0, true⟩]⟩,
  ⟨.qryBmSitesLo, 0x80000C, 0x0, 1, 0x0, 1, [
      ⟨"SITES", 31, 0, .rw, 0x0, true⟩]⟩,
  ⟨.qryBmSitesHi, 0x800010, 0x0, 1, 0x0, 1, [
      ⟨"SITES", 31, 0, .rw, 0x0, true⟩]⟩,
  ⟨.qryMrSite, 0x800014, 0x0, 1, 0x0, 1, [
      ⟨"SITE1", 13, 8, .rw, 0x0, true⟩,
      ⟨"SITE0", 5, 0, .rw, 0x0, true⟩]⟩,
  ⟨.qryReserve, 0x800018, 0x0, 1, 0x0, 1, [
      ⟨"MIB", 15, 0, .rw, 0x0, true⟩]⟩,
  ⟨.qryReserveFree, 0x80001C, 0x0, 1, 0x0, 1, [
      ⟨"KIB", 31, 0, .ro, 0x0, false⟩]⟩,
  ⟨.qryLogLimit, 0x800020, 0x0, 1, 0x0, 1, [
      ⟨"RECORDS", 31, 0, .rw, 0x100000, true⟩]⟩,
  ⟨.qryQueue, 0x800024, 0x0, 1, 0x0, 1, [
      ⟨"PEAK", 28, 16, .ro, 0x0, false⟩,
      ⟨"DEPTH", 12, 0, .ro, 0x0, false⟩]⟩,
  ⟨.qryRecords, 0x800028, 0x0, 1, 0x0, 1, [
      ⟨"COUNT", 31, 0, .ro, 0x0, false⟩]⟩,
  ⟨.qryLost, 0x80002C, 0x0, 1, 0x0, 1, [
      ⟨"COUNT", 31, 0, .ro, 0x0, false⟩]⟩]

/-- Registers of block CAL (R187 to R207). -/
def regsCal : List RegDesc := [
  ⟨.calStatus, 0x900000, 0x0, 1, 0x0, 1, [
      ⟨"NOT_CURRENT", 24, 16, .ro, 0x0, false⟩,
      ⟨"LOST", 6, 6, .ro, 0x0, false⟩,
      ⟨"SWEEPING", 5, 5, .ro, 0x0, false⟩,
      ⟨"HOST_MODE", 4, 4, .ro, 0x0, false⟩,
      ⟨"WITNESS_OK", 3, 3, .ro, 0x0, false⟩,
      ⟨"XHALF_OK", 2, 2, .ro, 0x0, false⟩,
      ⟨"VALID", 0, 0, .ro, 0x0, false⟩]⟩,
  ⟨.calNext, 0x900004, 0x0, 1, 0x0, 1, [
      ⟨"POINTER", 4, 0, .ro, 0x0, false⟩]⟩,
  ⟨.calPhase, 0x900008, 0x0, 1, 0x0, 1, [
      ⟨"PHI", 15, 0, .ro, 0x0, false⟩]⟩,
  ⟨.calCheck, 0x90000C, 0x0, 1, 0x0, 1, [
      ⟨"REASON", 31, 28, .ro, 0x0, false⟩,
      ⟨"CHANNEL", 25, 18, .ro, 0x0, false⟩,
      ⟨"TYPE", 17, 15, .ro, 0x0, false⟩,
      ⟨"SRC", 14, 14, .ro, 0x0, false⟩,
      ⟨"SET", 0, 0, .w1c, 0x0, false⟩]⟩,
  ⟨.calSlotCnt, 0x900010, 0x0, 1, 0x0, 1, [
      ⟨"COUNT", 31, 0, .rc, 0x0, false⟩]⟩,
  ⟨.calUpdateCnt, 0x900014, 0x0, 1, 0x0, 1, [
      ⟨"COUNT", 31, 0, .rc, 0x0, false⟩]⟩,
  ⟨.calResidMax, 0x900018, 0x0, 1, 0x0, 1, [
      ⟨"RESID", 15, 0, .rc, 0x0, false⟩]⟩,
  ⟨.calTemp, 0x900040, 0x4, 8, 0x0, 1, [
      ⟨"TEMP", 15, 0, .ro, 0x0, false⟩]⟩,
  ⟨.calCurrent, 0x900080, 0x4, 8, 0x0, 1, [
      ⟨"CURRENT", 31, 0, .ro, 0x0, false⟩]⟩]

/-- Registers of block CEL (R263 to R290, R299). -/
def regsCel : List RegDesc := [
  ⟨.celStatus, 0xA00000, 0x0, 1, 0x0, 1, [
      ⟨"RATE", 17, 16, .ro, 0x0, false⟩,
      ⟨"CH_STATE", 15, 8, .ro, 0x0, false⟩,
      ⟨"HOST_MODE", 2, 2, .ro, 0x0, false⟩,
      ⟨"STATE", 1, 0, .ro, 0x0, false⟩]⟩,
  ⟨.celGeom, 0xA00004, 0x0, 1, 0x0, 1, [
      ⟨"HALF_GIB", 23, 16, .ro, 0x0, false⟩,
      ⟨"CH_GIB", 15, 8, .ro, 0x0, false⟩,
      ⟨"DEV32", 2, 2, .ro, 0x0, false⟩,
      ⟨"X4", 1, 1, .ro, 0x0, false⟩,
      ⟨"RANKS2", 0, 0, .ro, 0x0, false⟩]⟩,
  ⟨.celTrain, 0xA00008, 0x0, 1, 0x0, 1, [
      ⟨"COMMIT", 1, 1, .wo, 0x0, false⟩,
      ⟨"START", 0, 0, .wo, 0x0, false⟩]⟩,
  ⟨.celDlySel, 0xA0000C, 0x0, 1, 0x0, 1, [
      ⟨"KIND", 12, 10, .rw, 0x0, false⟩,
      ⟨"BIT", 9, 7, .rw, 0x0, false⟩,
      ⟨"LANE", 6, 4, .rw, 0x0, false⟩,
      ⟨"RANK", 3, 3, .rw, 0x0, false⟩,
      ⟨"SUB", 2, 2, .rw, 0x0, false⟩,
      ⟨"CH", 1, 0, .rw, 0x0, false⟩]⟩,
  ⟨.celDlyData, 0xA00010, 0x0, 1, 0x0, 1, [
      ⟨"VALUE", 11, 0, .rw, 0x0, false⟩]⟩,
  ⟨.celSweepData, 0xA00014, 0x0, 1, 0x0, 1, [
      ⟨"RIGHT", 27, 16, .ro, 0x0, false⟩,
      ⟨"LEFT", 11, 0, .ro, 0x0, false⟩]⟩,
  ⟨.celQos, 0xA00040, 0x4, 5, 0x0, 1, [
      ⟨"CAP", 31, 16, .rw, 0x0, true⟩,
      ⟨"TARGET", 15, 0, .rw, 0x0, true⟩]⟩,
  ⟨.celExpired, 0xA00060, 0x4, 5, 0x0, 1, [
      ⟨"COUNT", 31, 0, .rc, 0x0, false⟩]⟩,
  ⟨.celScrubCfg, 0xA00100, 0x0, 1, 0x0, 1, [
      ⟨"GO", 9, 9, .wo, 0x0, false⟩,
      ⟨"EN", 8, 8, .rw, 0x1, false⟩,
      ⟨"HOURS", 7, 0, .rw, 0x18, false⟩]⟩,
  ⟨.celScrubWin, 0xA00104, 0x0, 1, 0x0, 1, [
      ⟨"LEN", 31, 16, .rw, 0x0, false⟩,
      ⟨"START", 15, 0, .rw, 0x0, false⟩]⟩,
  ⟨.celScrubStatus, 0xA00108, 0x0, 1, 0x0, 1, [
      ⟨"PASSES", 31, 16, .ro, 0x0, false⟩,
      ⟨"WIN_BUSY", 8, 8, .ro, 0x0, false⟩,
      ⟨"PROGRESS", 7, 0, .ro, 0x0, false⟩]⟩,
  ⟨.celUeAddr, 0xA0010C, 0x0, 1, 0x0, 1, [
      ⟨"LINE", 29, 0, .ro, 0x0, false⟩]⟩,
  ⟨.celRemapUsed, 0xA00110, 0x0, 1, 0x0, 1, [
      ⟨"USED", 31, 0, .ro, 0x0, false⟩]⟩]

/-- Registers of block ATT (R282 to R291). -/
def regsAtt : List RegDesc := [
  ⟨.attStatus, 0xB00000, 0x0, 1, 0x0, 1, [
      ⟨"ZEROING", 1, 1, .ro, 0x0, false⟩,
      ⟨"RCACHE_ON", 0, 0, .ro, 0x0, false⟩]⟩,
  ⟨.attStage, 0xB00004, 0x0, 1, 0x0, 1, [
      ⟨"SIZE", 4, 0, .rw, 0x18, false⟩]⟩,
  ⟨.attRcHit, 0xB00008, 0x0, 1, 0x0, 1, [
      ⟨"COUNT", 31, 0, .rc, 0x0, false⟩]⟩,
  ⟨.attRcMiss, 0xB0000C, 0x0, 1, 0x0, 1, [
      ⟨"COUNT", 31, 0, .rc, 0x0, false⟩]⟩,
  ⟨.attRcInv, 0xB00010, 0x0, 1, 0x0, 1, [
      ⟨"COUNT", 31, 0, .rc, 0x0, false⟩]⟩,
  ⟨.attDirCount, 0xB00014, 0x0, 1, 0x0, 1, [
      ⟨"LINES", 14, 0, .ro, 0x0, false⟩]⟩,
  ⟨.attScrubCfg, 0xB00100, 0x0, 1, 0x0, 1, [
      ⟨"EN", 16, 16, .rw, 0x1, false⟩,
      ⟨"PERIOD", 15, 0, .rw, 0x3E8, false⟩]⟩,
  ⟨.attSpareUsed, 0xB00104, 0x4, 2, 0x0, 1, [
      ⟨"USED", 31, 0, .ro, 0x0, false⟩]⟩]

/-- Registers of block XTS (R309 to R339). -/
def regsXts : List RegDesc := [
  ⟨.secLifecycle, 0xC00000, 0x0, 1, 0x0, 1, [
      ⟨"STATE", 2, 0, .ro, 0x0, false⟩]⟩,
  ⟨.secStatus, 0xC00004, 0x0, 1, 0x0, 1, [
      ⟨"SLOTS_USED", 26, 16, .ro, 0x0, false⟩,
      ⟨"LINK_KEY", 3, 3, .ro, 0x0, false⟩,
      ⟨"ROOT_SET", 2, 2, .ro, 0x0, false⟩,
      ⟨"CERT", 1, 1, .ro, 0x0, false⟩,
      ⟨"ID_KEY", 0, 0, .ro, 0x0, false⟩]⟩,
  ⟨.secSlotSel, 0xC00008, 0x0, 1, 0x0, 1, [
      ⟨"SLOT", 9, 0, .rw, 0x0, false⟩]⟩,
  ⟨.secSlotInfo, 0xC0000C, 0x0, 1, 0x0, 1, [
      ⟨"IN_TE", 29, 29, .ro, 0x0, false⟩,
      ⟨"IN_PLAN", 28, 28, .ro, 0x0, false⟩,
      ⟨"OWNER", 27, 18, .ro, 0x0, false⟩,
      ⟨"EPOCH", 17, 12, .ro, 0x0, false⟩,
      ⟨"KIND", 2, 0, .ro, 0x0, false⟩]⟩,
  ⟨.secNonce, 0xC00010, 0x4, 8, 0x0, 1, [
      ⟨"NONCE", 31, 0, .ro, 0x0, false⟩]⟩,
  ⟨.xtsStatus, 0xC00100, 0x0, 1, 0x0, 1, [
      ⟨"VERIFY_DEPTH", 31, 16, .ro, 0x0, false⟩,
      ⟨"REKEY", 2, 2, .ro, 0x0, false⟩,
      ⟨"HOST_MODE", 1, 1, .ro, 0x0, false⟩,
      ⟨"ALARM", 0, 0, .ro, 0x0, false⟩]⟩,
  ⟨.xtsAlarm, 0xC00104, 0x0, 1, 0x0, 1, [
      ⟨"KIND", 3, 1, .ro, 0x0, false⟩,
      ⟨"SET", 0, 0, .w1c, 0x0, false⟩]⟩,
  ⟨.xtsAlarmFile, 0xC00108, 0x0, 1, 0x0, 1, [
      ⟨"VALUE", 31, 0, .ro, 0x0, false⟩]⟩,
  ⟨.xtsAlarmLbn, 0xC0010C, 0x0, 1, 0x0, 1, [
      ⟨"VALUE", 31, 0, .ro, 0x0, false⟩]⟩,
  ⟨.xtsFailCnt, 0xC00110, 0x0, 1, 0x0, 1, [
      ⟨"COUNT", 31, 0, .rc, 0x0, false⟩]⟩,
  ⟨.xtsRekeyFile, 0xC00114, 0x0, 1, 0x0, 1, [
      ⟨"VALUE", 31, 0, .ro, 0x0, false⟩]⟩,
  ⟨.xtsRekeyPtr, 0xC00118, 0x0, 1, 0x0, 1, [
      ⟨"VALUE", 31, 0, .ro, 0x0, false⟩]⟩]

/-- Registers of block HAUL (R369 to R392). -/
def regsHaul : List RegDesc := [
  ⟨.haulQStatus, 0xD00000, 0x1000, 4, 0x0, 1, [
      ⟨"BLOCK_LOCK", 7, 4, .ro, 0x0, false⟩,
      ⟨"CLK_LOCK", 3, 3, .ro, 0x0, false⟩,
      ⟨"STATE", 2, 0, .ro, 0x0, false⟩]⟩,
  ⟨.haulQCtrl, 0xD00004, 0x1000, 4, 0x0, 1, [
      ⟨"FOM_MIN", 23, 16, .rw, 0x30, false⟩,
      ⟨"COMMIT", 9, 9, .wo, 0x0, false⟩,
      ⟨"RETRAIN", 8, 8, .wo, 0x0, false⟩,
      ⟨"ROLE", 4, 4, .rw, 0x0, true⟩,
      ⟨"MODE", 2, 0, .rw, 0x0, true⟩]⟩,
  ⟨.haulRxLat, 0xD00008, 0x1000, 4, 0x0, 1, [
      ⟨"ADJ", 23, 16, .rw, 0x0, false⟩,
      ⟨"MEASURED", 11, 0, .ro, 0x0, false⟩]⟩,
  ⟨.haulViol, 0xD0000C, 0x1000, 4, 0x0, 1, [
      ⟨"COUNT", 29, 0, .rc, 0x0, false⟩]⟩,
  ⟨.haulLaneStatus, 0xD00100, 0x1000, 4, 0x20, 4, [
      ⟨"SLIP", 22, 16, .ro, 0x0, false⟩,
      ⟨"BLOCK_LOCK", 8, 8, .ro, 0x0, false⟩,
      ⟨"FOM", 7, 0, .ro, 0x0, false⟩]⟩,
  ⟨.haulLaneCtrl, 0xD00104, 0x1000, 4, 0x20, 4, [
      ⟨"CHK_EN", 4, 4, .rw, 0x0, false⟩,
      ⟨"PRBS", 3, 2, .rw, 0x0, false⟩,
      ⟨"INJECT", 1, 1, .wo, 0x0, false⟩,
      ⟨"SLIP", 0, 0, .wo, 0x0, false⟩]⟩,
  ⟨.haulLaneEq, 0xD00108, 0x1000, 4, 0x20, 4, [
      ⟨"DESKEW", 24, 16, .rw, 0x0, false⟩,
      ⟨"CTLE", 15, 12, .rw, 0x0, false⟩,
      ⟨"POST", 7, 4, .rw, 0x0, false⟩,
      ⟨"PRE", 3, 0, .rw, 0x0, false⟩]⟩,
  ⟨.haulPrbsErr, 0xD0010C, 0x1000, 4, 0x20, 4, [
      ⟨"COUNT", 31, 0, .rc, 0x0, false⟩]⟩,
  ⟨.haulCascade, 0xD08000, 0x0, 1, 0x0, 1, [
      ⟨"FIRE_IN_TX", 8, 8, .rw, 0x0, true⟩,
      ⟨"DOWN", 7, 4, .rw, 0x0, true⟩,
      ⟨"MASTER", 2, 2, .rw, 0x0, true⟩,
      ⟨"UPSTREAM", 1, 0, .rw, 0x0, true⟩]⟩,
  ⟨.haulFireLead, 0xD08004, 0x0, 1, 0x0, 1, [
      ⟨"CYCLES", 15, 0, .rw, 0x1000, false⟩]⟩,
  ⟨.haulCtrl, 0xD08008, 0x0, 1, 0x0, 1, [
      ⟨"FIRE_TX", 1, 1, .wo, 0x0, false⟩,
      ⟨"TIME_SYNC", 0, 0, .wo, 0x0, false⟩]⟩,
  ⟨.haulCtimeLo, 0xD0800C, 0x0, 1, 0x0, 1, [
      ⟨"TIME", 31, 0, .ro, 0x0, false⟩]⟩,
  ⟨.haulCtimeHi, 0xD08010, 0x0, 1, 0x0, 1, [
      ⟨"TIME", 31, 0, .ro, 0x0, false⟩]⟩,
  ⟨.haulXmod, 0xD08014, 0x0, 1, 0x0, 1, [
      ⟨"ALIGNED", 16, 16, .rw, 0x0, false⟩,
      ⟨"PHASE", 13, 0, .rw, 0x0, false⟩]⟩,
  ⟨.haulXmodRef, 0xD08018, 0x0, 1, 0x0, 1, [
      ⟨"OFFSET", 15, 0, .ro, 0x0, false⟩]⟩,
  ⟨.haulFlagCfg, 0xD08020, 0x0, 1, 0x0, 1, [
      ⟨"QUADS", 19, 16, .rw, 0x0, true⟩,
      ⟨"LEAD", 15, 0, .rw, 0x200, true⟩]⟩,
  ⟨.haulFlagSrcLo, 0xD08024, 0x0, 1, 0x0, 1, [
      ⟨"MASKS", 31, 0, .rw, 0x0, true⟩]⟩,
  ⟨.haulFlagSrcHi, 0xD08028, 0x0, 1, 0x0, 1, [
      ⟨"MASKS", 31, 0, .rw, 0x0, true⟩]⟩,
  ⟨.haulFlagIn, 0xD0802C, 0x0, 1, 0x0, 1, [
      ⟨"LATE", 31, 16, .rc, 0x0, false⟩,
      ⟨"VALUE", 7, 0, .ro, 0x0, false⟩]⟩,
  ⟨.haulRelay, 0xD08030, 0x0, 1, 0x0, 1, [
      ⟨"DROPPED", 31, 28, .rc, 0x0, false⟩,
      ⟨"LAG", 27, 16, .rw, 0x100, true⟩,
      ⟨"RX", 8, 8, .rw, 0x0, true⟩,
      ⟨"GROUPS", 7, 0, .rw, 0x0, true⟩]⟩,
  ⟨.haulSpoilFile, 0xD08034, 0x0, 1, 0x0, 1, [
      ⟨"VALUE", 31, 0, .ro, 0x0, false⟩]⟩,
  ⟨.haulSpoilLost, 0xD08038, 0x0, 1, 0x0, 1, [
      ⟨"VALUE", 31, 0, .rc, 0x0, false⟩]⟩]

/-- Registers of block STW (R393 to R408). -/
def regsStw : List RegDesc := [
  ⟨.stwStatus, 0xE00000, 0x0, 1, 0x0, 1, [
      ⟨"HOST_MODE", 18, 18, .ro, 0x0, false⟩,
      ⟨"ATTEMPTS", 17, 16, .ro, 0x0, false⟩,
      ⟨"EPOCH", 15, 8, .ro, 0x0, false⟩,
      ⟨"WIDTH", 5, 4, .ro, 0x0, false⟩,
      ⟨"STATE", 2, 0, .ro, 0x0, false⟩]⟩,
  ⟨.stwCtrl, 0xE00004, 0x0, 1, 0x0, 1, [
      ⟨"COMMIT", 3, 3, .wo, 0x0, false⟩,
      ⟨"RETRAIN", 2, 2, .wo, 0x0, false⟩,
      ⟨"TARGET", 1, 0, .rw, 0x0, false⟩]⟩,
  ⟨.stwLanes, 0xE00008, 0x0, 1, 0x0, 1, [
      ⟨"ACTIVE", 31, 16, .ro, 0x0, false⟩,
      ⟨"PASS", 15, 0, .ro, 0x0, false⟩]⟩,
  ⟨.stwRetrainCnt, 0xE0000C, 0x0, 1, 0x0, 1, [
      ⟨"COUNT", 31, 0, .rc, 0x0, false⟩]⟩,
  ⟨.stwCrcCnt, 0xE00010, 0x0, 1, 0x0, 1, [
      ⟨"COUNT", 31, 0, .rc, 0x0, false⟩]⟩,
  ⟨.stwLane, 0xE00100, 0x4, 16, 0x0, 1, [
      ⟨"SLIP", 16, 16, .wo, 0x0, false⟩,
      ⟨"CONT", 9, 9, .ro, 0x0, false⟩,
      ⟨"LOCK", 8, 8, .ro, 0x0, false⟩,
      ⟨"POS", 5, 0, .ro, 0x0, false⟩]⟩,
  ⟨.nocTimeout, 0xE00200, 0x0, 1, 0x0, 1, [
      ⟨"US", 9, 0, .rw, 0xA, false⟩]⟩,
  ⟨.nocTimeoutCnt, 0xE00204, 0x0, 1, 0x0, 1, [
      ⟨"COUNT", 31, 0, .rc, 0x0, false⟩]⟩,
  ⟨.nocLateCnt, 0xE00208, 0x0, 1, 0x0, 1, [
      ⟨"COUNT", 31, 0, .rc, 0x0, false⟩]⟩,
  ⟨.nocHeld, 0xE0020C, 0x0, 1, 0x0, 1, [
      ⟨"REQUESTS", 15, 0, .ro, 0x0, false⟩]⟩]

/-- Registers of block HST (R340 to R368). -/
def regsHst : List RegDesc := [
  ⟨.hstLink, 0xF00000, 0x0, 1, 0x0, 1, [
      ⟨"FEC_LOCK", 2, 2, .ro, 0x0, false⟩,
      ⟨"FEC", 1, 1, .rw, 0x0, false⟩,
      ⟨"UP", 0, 0, .ro, 0x0, false⟩]⟩,
  ⟨.hstMacLo, 0xF00004, 0x0, 1, 0x0, 1, [
      ⟨"MAC", 31, 0, .ro, 0x0, false⟩]⟩,
  ⟨.hstMacHi, 0xF00008, 0x0, 1, 0x0, 1, [
      ⟨"MAC", 31, 0, .ro, 0x0, false⟩]⟩,
  ⟨.hstIpv4, 0xF0000C, 0x0, 1, 0x0, 1, [
      ⟨"ADDR", 31, 0, .rw, 0x0, false⟩]⟩,
  ⟨.hstUdpPort, 0xF00010, 0x0, 1, 0x0, 1, [
      ⟨"PORT", 15, 0, .rw, 0xB9F5, false⟩]⟩,
  ⟨.hstSessions, 0xF00014, 0x0, 1, 0x0, 1, [
      ⟨"OPEN", 2, 0, .ro, 0x0, false⟩]⟩,
  ⟨.hstViolCnt, 0xF00018, 0x0, 1, 0x0, 1, [
      ⟨"COUNT", 31, 0, .rc, 0x0, false⟩]⟩,
  ⟨.hstRejectCnt, 0xF0001C, 0x0, 1, 0x0, 1, [
      ⟨"COUNT", 31, 0, .rc, 0x0, false⟩]⟩]

/-- Registers of block CFG (R241 to R262). -/
def regsCfg : List RegDesc := [
  ⟨.cfgStatus, 0x1000000, 0x0, 1, 0x0, 1, [
      ⟨"STORING", 9, 9, .ro, 0x0, false⟩,
      ⟨"SERVICE", 8, 8, .ro, 0x0, false⟩,
      ⟨"SOURCE", 5, 4, .ro, 0x0, false⟩,
      ⟨"STATE", 2, 0, .ro, 0x0, false⟩]⟩,
  ⟨.cfgResult, 0x1000004, 0x0, 1, 0x0, 1, [
      ⟨"REASON", 31, 24, .ro, 0x0, false⟩,
      ⟨"STATUS", 23, 16, .ro, 0x0, false⟩,
      ⟨"SRC", 15, 12, .ro, 0x0, false⟩]⟩,
  ⟨.cfgResultAt, 0x1000008, 0x0, 1, 0x0, 1, [
      ⟨"OFFSET", 31, 0, .ro, 0x0, false⟩]⟩,
  ⟨.cfgFrames, 0x100000C, 0x0, 1, 0x0, 1, [
      ⟨"COUNT", 11, 0, .ro, 0x0, false⟩]⟩,
  ⟨.cfgCorrected, 0x1000010, 0x0, 1, 0x0, 1, [
      ⟨"COUNT", 31, 0, .rc, 0x0, false⟩]⟩,
  ⟨.cfgBoot, 0x1000014, 0x0, 1, 0x0, 1, [
      ⟨"SLOT", 1, 1, .rw, 0x0, false⟩,
      ⟨"AUTO", 0, 0, .rw, 0x1, false⟩]⟩,
  ⟨.cfgSlot, 0x1000020, 0x4, 2, 0x0, 1, [
      ⟨"LAST_REASON", 31, 24, .ro, 0x0, false⟩,
      ⟨"STORING", 2, 2, .ro, 0x0, false⟩,
      ⟨"IN_FORCE", 1, 1, .ro, 0x0, false⟩,
      ⟨"VALID", 0, 0, .ro, 0x0, false⟩]⟩,
  ⟨.cfgImageHash, 0x1000040, 0x4, 12, 0x0, 1, [
      ⟨"HASH", 31, 0, .ro, 0x0, false⟩]⟩]

/-- Registers of block AON (R303, R452 to R455). -/
def regsAon : List RegDesc := [
  ⟨.aonStatus, 0x1100000, 0x0, 1, 0x0, 1, [
      ⟨"XDLY", 13, 12, .ro, 0x0, false⟩,
      ⟨"WAKE", 10, 8, .ro, 0x0, false⟩,
      ⟨"LID_OPEN", 6, 6, .ro, 0x0, false⟩,
      ⟨"OVER_TEMP", 5, 5, .ro, 0x0, false⟩,
      ⟨"VBAK_LOW", 4, 4, .ro, 0x0, false⟩,
      ⟨"VIN_WARN", 3, 3, .ro, 0x0, false⟩,
      ⟨"SLEEPING", 2, 2, .ro, 0x0, false⟩,
      ⟨"XO_OK", 1, 1, .ro, 0x0, false⟩,
      ⟨"TIME_VALID", 0, 0, .ro, 0x0, false⟩]⟩,
  ⟨.aonCfg, 0x1100004, 0x0, 1, 0x0, 1, [
      ⟨"ALARM_EN", 9, 9, .rw, 0x0, false⟩,
      ⟨"LID_EN", 8, 8, .rw, 0x1, false⟩,
      ⟨"TEMP", 7, 0, .rw, 0x69, false⟩]⟩,
  ⟨.aonEvent, 0x1100008, 0x0, 1, 0x0, 1, [
      ⟨"LID_OPEN", 4, 4, .w1c, 0x0, false⟩,
      ⟨"OVER_TEMP", 3, 3, .w1c, 0x0, false⟩,
      ⟨"VBAK_LOW", 2, 2, .w1c, 0x0, false⟩,
      ⟨"WAKE_N", 1, 1, .w1c, 0x0, false⟩,
      ⟨"ALARM", 0, 0, .w1c, 0x0, false⟩]⟩,
  ⟨.aonCountLo, 0x1100010, 0x0, 1, 0x0, 1, [
      ⟨"VALUE", 31, 0, .rw, 0x0, false⟩]⟩,
  ⟨.aonCountHi, 0x1100014, 0x0, 1, 0x0, 1, [
      ⟨"VALUE", 31, 0, .rw, 0x0, false⟩]⟩,
  ⟨.aonAlarmLo, 0x1100018, 0x0, 1, 0x0, 1, [
      ⟨"VALUE", 31, 0, .rw, 0x0, false⟩]⟩,
  ⟨.aonAlarmHi, 0x110001C, 0x0, 1, 0x0, 1, [
      ⟨"VALUE", 31, 0, .rw, 0x0, false⟩]⟩,
  ⟨.ldrStatus, 0x1100800, 0x0, 1, 0x0, 1, [
      ⟨"FILL", 15, 8, .ro, 0x0, false⟩,
      ⟨"HOST_MODE", 3, 3, .ro, 0x0, false⟩,
      ⟨"HOLD", 2, 2, .ro, 0x0, false⟩,
      ⟨"COMPACTING", 1, 1, .ro, 0x0, false⟩,
      ⟨"ACTIVE", 0, 0, .ro, 0x0, false⟩]⟩,
  ⟨.ldrCtrl, 0x1100804, 0x0, 1, 0x0, 1, [
      ⟨"COMPACT", 0, 0, .wo, 0x0, false⟩]⟩,
  ⟨.ldrSeq, 0x1100808, 0x0, 1, 0x0, 1, [
      ⟨"SEQ", 31, 0, .ro, 0x0, false⟩]⟩,
  ⟨.ldrLost, 0x110080C, 0x0, 1, 0x0, 1, [
      ⟨"COUNT", 31, 0, .rc, 0x0, false⟩]⟩]

/-- Registers of block DBG (R482 to R494). -/
def regsDbg : List RegDesc := [
  ⟨.dbgStatus, 0x1200000, 0x0, 1, 0x0, 1, [
      ⟨"CAUSE", 5, 4, .ro, 0x0, false⟩,
      ⟨"LOCK_BROKEN", 3, 3, .w1c, 0x0, false⟩,
      ⟨"PEEK_BLOCKED", 2, 2, .w1c, 0x0, false⟩,
      ⟨"TOKEN", 1, 1, .ro, 0x0, false⟩,
      ⟨"PIN_ACCESS", 0, 0, .ro, 0x0, false⟩]⟩]

/-- Registers of block FAB (R208 to R240). -/
def regsFab : List RegDesc := [
  ⟨.fabStatus, 0x1300000, 0x0, 1, 0x0, 1, [
      ⟨"CLK_CONFLICT", 4, 4, .ro, 0x0, false⟩,
      ⟨"GPIO_SAFE", 3, 3, .ro, 0x0, false⟩,
      ⟨"HOOKS_IDLE", 2, 2, .ro, 0x0, false⟩,
      ⟨"CAPPED", 1, 1, .ro, 0x0, false⟩,
      ⟨"RELEASED", 0, 0, .ro, 0x0, false⟩]⟩,
  ⟨.fabHookCfg, 0x1300010, 0x4, 18, 0x0, 1, [
      ⟨"LAT", 3, 1, .rw, 0x1, true⟩,
      ⟨"EN", 0, 0, .rw, 0x0, true⟩]⟩,
  ⟨.fabHookLate, 0x1300080, 0x4, 18, 0x0, 1, [
      ⟨"EXTRA", 31, 16, .rc, 0x0, false⟩,
      ⟨"LATE", 15, 0, .rc, 0x0, false⟩]⟩,
  ⟨.fabGpioIn, 0x1300100, 0x4, 4, 0x0, 1, [
      ⟨"PINS", 31, 0, .ro, 0x0, false⟩]⟩,
  ⟨.fabGpioSafeOut, 0x1300110, 0x4, 4, 0x0, 1, [
      ⟨"OUT", 31, 0, .rw, 0x0, false⟩]⟩,
  ⟨.fabGpioSafeOe, 0x1300120, 0x4, 4, 0x0, 1, [
      ⟨"OE", 31, 0, .rw, 0x0, false⟩]⟩,
  ⟨.fabFck, 0x1300140, 0x4, 8, 0x0, 1, [
      ⟨"CAPPED", 31, 31, .ro, 0x0, false⟩,
      ⟨"MHZ", 9, 0, .ro, 0x0, false⟩]⟩,
  ⟨.fabBmemErr, 0x1300160, 0x0, 1, 0x0, 1, [
      ⟨"COUNT", 31, 0, .rc, 0x0, false⟩]⟩,
  ⟨.fabScrubStatus, 0x1300200, 0x0, 1, 0x0, 1, [
      ⟨"PASSES", 31, 16, .ro, 0x0, false⟩,
      ⟨"CANARY_OK", 2, 2, .ro, 0x0, false⟩,
      ⟨"STATE", 1, 0, .ro, 0x0, false⟩]⟩,
  ⟨.fabScrubCfg, 0x1300204, 0x0, 1, 0x0, 1, [
      ⟨"PERIOD", 15, 0, .rv, 0x1F4, false⟩]⟩,
  ⟨.fabScrubCmd, 0x1300208, 0x0, 1, 0x0, 1, [
      ⟨"FRAME", 31, 0, .wo, 0x0, false⟩]⟩,
  ⟨.fabScrubResult, 0x130020C, 0x0, 1, 0x0, 1, [
      ⟨"BUSY", 2, 2, .ro, 0x0, false⟩,
      ⟨"OUTCOME", 1, 0, .ro, 0x0, false⟩]⟩]

/-- Registers of block FLT (R456). -/
def regsFlt : List RegDesc := [
  ⟨.fltStatus, 0xFF000, 0x100000, 20, 0x0, 1, [
      ⟨"ACTIVE", 31, 16, .ro, 0x0, false⟩,
      ⟨"SRC", 15, 0, .w1c, 0x0, false⟩]⟩,
  ⟨.fltEnable, 0xFF004, 0x100000, 20, 0x0, 1, [
      ⟨"EN", 15, 0, .rv, 0xFFFF, false⟩]⟩,
  ⟨.fltSeverity, 0xFF008, 0x100000, 20, 0x0, 1, [
      ⟨"SEV", 31, 0, .rv, 0x0, false⟩]⟩,
  ⟨.fltCountCfg, 0xFF00C, 0x100000, 20, 0x0, 1, [
      ⟨"WINDOW", 31, 16, .rv, 0x0, false⟩,
      ⟨"N", 15, 0, .rv, 0x0, false⟩]⟩,
  ⟨.fltBucket, 0xFF010, 0x100000, 20, 0x0, 1, [
      ⟨"LEAK", 23, 8, .rv, 0x64, false⟩,
      ⟨"CAP", 7, 0, .rv, 0x10, false⟩]⟩,
  ⟨.fltFirst, 0xFF014, 0x100000, 20, 0x0, 1, [
      ⟨"VALID", 31, 31, .w1c, 0x0, false⟩,
      ⟨"CORR", 30, 30, .ro, 0x0, false⟩,
      ⟨"SRC", 29, 26, .ro, 0x0, false⟩,
      ⟨"TIME", 25, 0, .ro, 0x0, false⟩]⟩,
  ⟨.fltVote, 0xFF018, 0x100000, 20, 0x0, 1, [
      ⟨"NO_MAJ", 31, 31, .ro, 0x0, false⟩,
      ⟨"COUNT", 15, 0, .rc, 0x0, false⟩]⟩]

/-- The registers of an F-die beside IDENT_DIE (R16, R240). -/
def regsFdie : List RegDesc := [
  ⟨.fabDieStatus, 0x10, 0x0, 1, 0x0, 1, [
      ⟨"SEAM_E_OK", 2, 2, .ro, 0x1, false⟩,
      ⟨"SEAM_W_OK", 1, 1, .ro, 0x1, false⟩,
      ⟨"RELEASED", 0, 0, .ro, 0x0, false⟩]⟩,
  ⟨.fabNocPortEn, 0x20, 0x0, 1, 0x0, 1, [
      ⟨"EN", 31, 0, .rw, 0x0, false⟩]⟩,
  ⟨.fabBench, 0x100, 0x4, 120, 0x0, 1, [
      ⟨"REACH", 5, 4, .ro, 0x0, false⟩,
      ⟨"EN", 3, 3, .ro, 0x0, false⟩,
      ⟨"FCK", 2, 0, .ro, 0x0, false⟩]⟩]

/-- All registers of a T-die. -/
def tdieRegs : List RegDesc :=
  regsIdent ++ regsClk ++ regsSafe ++ regsTsk ++ regsTch ++ regsShelf ++ regsFace ++ regsDrl ++
  regsQry ++ regsCal ++ regsCel ++ regsAtt ++ regsXts ++ regsHaul ++ regsStw ++ regsHst ++
  regsCfg ++ regsAon ++ regsDbg ++ regsFab ++ regsFlt

end Sys2Proof
end

