-- ==== Sys2Proof/Machine/State.lean ====
section
/-! DEFINITION. The state of the module as plain data, block by block, and its value right after reset. Registers that
are plain storage stand in one sparse register file (`Dev.regs`), at the reset values of the register tables; registers
that show the state of a sequencer or table are computed from the typed fields below when they are read. -/
namespace Sys2Proof.Machine

/-- Sparse table: keys strictly rising, and no entry equal to what an unlisted key reads as. -/
abbrev Tbl (α : Type) := List (Nat × α)

/-- Reasons a step stops the whole machine. No command of this block raises one: the spec gives each an effect. -/
inductive Fault where
  /-- Raised by nobody; kept so that the type has a member. Safe. -/
  | unreachable
deriving DecidableEq, Repr

/-- Reasons a command has no meaning. -/
inductive Refusal where
  /-- Raised by `exec` for a row that has no meaning yet. Safe. -/
  | notModelled (mnemonic : String)
deriving DecidableEq, Repr

/-! ## What the module sends -/

/-- A Hoist frame of the device (R343): flags as bits, payload bytes in network order as R355 lays them out. -/
structure Frame where
  session : Nat
  /-- where it goes (R342) -/
  dst     : Nat := 0
  /-- SEQUENCE: the device's own number in a sealed message (R346) -/
  seq     : Nat := 0
  tag     : Nat := 0
  op      : Nat
  status  : Nat := 0
  sealed  : Bool := true
  dup     : Bool := false
  replay  : Bool := false
  payload : List Byte := []
deriving DecidableEq, Repr, Inhabited

/-- Everything one command makes the module send or show outside, in order. -/
inductive Out where
  /-- a Hoist frame (R342), and its bytes on the wire from the header on (R343, R344) -/
  | hoist (f : Frame) (wire : List Nat)
  /-- ARP reply or neighbour advertisement (R341) -/
  | arpReply
  | naReply
  /-- a sequenced or control frame on a Haul quad: kind (BTYPE or FTYPE) and its fields -/
  | haul (side : Side) (quad : Nat) (kind : Nat) (fields : List Nat) (wire : List (Nat × Nat × Nat))
  /-- a frame on the Stairwell from this end -/
  | stw (side : Side) (nak : Bool) (fields : List Nat) (wire : List (Nat × Nat))
  /-- a response on the Trapdoor line (R483) -/
  | trap (bytes : List Byte)
  /-- an edge on a drive pair of a channel: the enable or the data pair, its new level, coarse tick and fine code (R44) -/
  | edge (side : Side) (ch : Nat) (enable level : Bool) (tick : Int) (code : Nat)
  /-- a slot presented to a fabric hook (R229): side, hook, issue, which slot of the FC cycle, and its bits as a number -/
  | hook (side : Side) (hook issue slot bits : Nat)
  /-- a response packet to a fabric NoC port: die, port, and its bytes (R406) -/
  | noc (die port : Nat) (packet : List Byte)
  /-- what a block memory port will show on DOUT, COR and ERR two edges later (R222, R224): bit 64 is COR, bit 65 ERR -/
  | bmem (die mem : Nat) (portB : Bool) (v : BitVec 66)
  /-- a word that a register access on a core or the Trapdoor returned -/
  | word (v : Word)
  /-- the status of a register write that carries no response of its own -/
  | wrote (status : Nat)
deriving DecidableEq, Repr

/-! ## Fault pages (chapter 18) -/

/-- One fault page (R456) with what its sources hold. -/
structure Page where
  /-- FLT_STATUS.SRC -/
  src       : BitVec 16 := 0
  /-- FLT_STATUS.ACTIVE: lasting conditions that hold now -/
  active    : BitVec 16 := 0
  enable    : BitVec 16 := 0xFFFF
  severity  : Word := 0
  countCfg  : Word := 0
  bucket    : Word := 0x6410
  first     : Word := 0
  noMaj     : Bool := false
  voteCount : Nat := 0
  /-- sources that hold a safe request (R459, R469) -/
  req       : BitVec 16 := 0
  /-- open counting windows: count by unit counted (R460) -/
  counts    : Tbl Nat := []
  /-- level of each bucket (R297) -/
  levels    : Tbl Nat := []
  /-- event entries held back by a full queue (R418) -/
  held      : BitVec 16 := 0
  /-- raises at severity 0 not yet in the counters record (R459) -/
  journal   : Tbl Nat := []
deriving DecidableEq, Repr

/-! ## Timing channels (chapter 2) -/

/-- An open window of a channel: its expectation and the first deviating state seen (R56). -/
structure Win where
  expect : Sampled
  seen   : Option Sampled := none
deriving DecidableEq, Repr

/-- What a channel holds beside its registers (R49 to R58). Instants are in 0.125 ps units from T0. -/
structure Chan where
  data    : Bool := false
  en      : Bool := false
  /-- an event of the kind has come since the fire, so levels no longer show idle values (R65) -/
  dataSet : Bool := false
  enSet   : Bool := false
  win     : Option Win := none
  /-- nominal and placed instants of the last event of each kind (R51, R53) -/
  nomD    : Option Int := none
  nomS    : Option Int := none
  plD     : Option Int := none
  plS     : Option Int := none
  /-- levels of the latest edge strobe, and the SC cycle of cascade time in which it was taken -/
  cmph    : Bool := false
  cmpl    : Bool := false
  cmpAt   : Option Nat := none
deriving DecidableEq, Repr

/-- The half's timing channels. -/
structure TchSt where
  chans : Tbl Chan := []
  /-- TCH_HALF_STATUS.CAUSE of the half's own inhibit, 0 none (R69) -/
  cause : Nat := 0
  /-- alignment cycle of the last issue of each local group that reached the compare stream (R47) -/
  align : Tbl (Option Int) := []
  /-- during a partial reset that holds TCH: data levels latched from TCH_SAFE (R447), one bit a channel -/
  resetSafe : Option (BitVec 256) := none
deriving DecidableEq, Repr

/-! ## Shelf (chapter 3) -/

inductive SlotSt where
  | invalid | loading | valid
deriving DecidableEq, Repr

/-- A load in progress (R93). -/
structure ShelfLoad where
  slot   : Nat
  /-- shelf reference of the plan -/
  ref    : Nat
  /-- SC cycles of the load that have passed -/
  cycle  : Nat := 0
deriving DecidableEq, Repr

structure ShelfSt where
  /-- slot words by word offset in the shelf RAM window (R84) -/
  ram    : Tbl Word := []
  /-- SHELF_PERIOD by 16p + ts (R85) -/
  period : Tbl Word := []
  active : Nat := 0
  st0    : SlotSt := .invalid
  st1    : SlotSt := .invalid
  load   : Option ShelfLoad := none
  /-- SHELF_LOAD of the current or last load -/
  groups : Nat := 0
  lines  : Nat := 0
  /-- loads that the present ARM has completed, and whether its check of one has failed (R90, R94) -/
  armLoads : Nat := 0
  armFail  : Bool := false
deriving DecidableEq, Repr

/-! ## Face sequencer (chapter 4) -/

inductive FaceState where
  | idle | loaded | armed | running | draining | done | aborted
deriving DecidableEq, Repr

/-- A position in the execution of a plan: the step reached, the active loops innermost first (LOOP index and runs
still to start), and where a RUN or DRUN in progress stands. -/
structure Cur where
  pc    : Nat := 0
  loops : List (Nat × Nat) := []
  /-- a RUN or DRUN of step pc is in progress -/
  busy  : Bool := false
  /-- prefetch entry and half-vector within its data -/
  ent   : Nat := 0
  hv    : Nat := 0
  /-- half-vectors (RUN) or issues (DRUN) still to issue, the present one included -/
  left  : Nat := 0
  /-- issues of the present half-vector still to come, the next one included -/
  rep   : Nat := 0
deriving DecidableEq, Repr

/-- A stored half-vector read ahead of its first issue (R116): its 132 bytes. -/
abbrev HalfVec := List Byte

/-- A result that a channel has delivered for an issue (R163). -/
structure Res where
  ch      : Nat
  slot    : Nat
  instant : Int
  sampled : Sampled
  /-- none: masked by SX -/
  expect  : Option Sampled
  /-- sampled while the half was inhibited (R68) -/
  inhib   : Bool := false
deriving DecidableEq, Repr

/-- A drill's output for an issue (R143): logical X, Y, data, CTL, MODE. `running` is false when the drill did not
execute the issue. The physical addresses attached to the issue (R151) are computed from it. -/
structure DrillOut where
  running : Bool := false
  pc      : Nat := 0
  x       : Nat := 0
  y       : Nat := 0
  d       : BitVec 64 := 0
  ctl     : BitVec 16 := 0
  mode    : Nat := 0
deriving DecidableEq, Repr

/-- An issue in the pipelines (R45, R96, R189). -/
structure Issue where
  idx    : Nat
  tvs    : Nat
  period : Nat
  header : Word
  step   : Nat
  page   : Nat
  epoch  : Nat
  /-- enabled sites of the selected site-mask set -/
  sites  : BitVec 64
  /-- symbol of each local channel, 4 bits each -/
  symbols : BitVec 1024
  srcMap : Nat := 0
  out0   : DrillOut := {}
  out1   : DrillOut := {}
  results : List Res := []
  /-- overrides of the compare hooks: key 64 * group + 2 * channel + slot, 1 pass, 2 fail, 3 masked (R229) -/
  overrides : Tbl Nat := []
  /-- event slots of each channel that have reached their instants (R52) -/
  taken : Tbl (BitVec 6) := []
  /-- groups whose results have reached the compare stream -/
  doneGroups : BitVec 8 := 0
deriving DecidableEq, Repr

/-- The loaded plan. Its image stands at the head of the staging partition (R105). -/
structure Plan where
  fileId    : Nat
  hash      : Nat
  cls       : Bool
  /-- shortest period that any path uses, and the longest path in 0.125 ps units, both from the audit -/
  minPeriod : Nat := 0
  longest   : Nat := 0
deriving DecidableEq, Repr

/-- A written result record not yet released (R137). -/
structure Record where
  burst : Nat
  bytes : List Byte
  /-- a RESULT_GET of it has been answered (R362) -/
  got   : Bool := false
deriving DecidableEq, Repr

/-- A command whose final response is still to come. -/
structure Reply where
  session : Nat
  seq     : Nat
  tag     : Nat
  op      : Nat
  src     : Nat := 0
  encap   : Nat := 0
deriving DecidableEq, Repr

/-- Counters of the burst in progress or the last one, as the result record needs them (R137). -/
structure Burst where
  fireSrc    : Nat := 0
  fireTime   : BitVec 64 := 0
  calValid   : Bool := false
  issues     : Nat := 0
  /-- start of the next vector on the burst time axis, 0.125 ps units (R43) -/
  tvs        : Nat := 0
  /-- end of the last issued vector -/
  endAt      : Nat := 0
  /-- present SC cycle from T0, plus 48 -/
  cycle      : Nat := 0
  steps      : Nat := 0
  lastStep   : Nat := 0
  /-- step of the last vector issued -/
  vecStep    : Nat := 0
  calSlots   : Nat := 0
  forksTrue  : Nat := 0
  exhausted  : Nat := 0
  timingRule : Bool := false
  integ      : Bool := false
  abortIssue : Option Nat := none
  /-- abort cause of the burst: FACE_CAUSE.CAUSE as its record takes it, which a later ARM clears in the register -/
  cause      : Nat := 0
  /-- SC cycle in which the first abort cause arose (R135) -/
  abortAt    : Option Nat := none
  /-- the burst has fired and its record is not yet written (R134) -/
  unwritten  : Bool := false
  /-- hash and class of its plan and the slot RESULT_KEY names: the record needs them when the plan has gone -/
  planHash   : Nat := 0
  cls        : Bool := false
  key        : Nat := 0
deriving DecidableEq, Repr

structure FaceSt where
  state     : FaceState := .idle
  arming    : Bool := false
  plan      : Option Plan := none
  /-- PLAN_LOADs in progress, oldest first: the plan file and its response -/
  loading   : List (Nat × Reply) := []
  /-- half-vectors and drills in hand: execution position, read-ahead position, half-vectors read and not yet used -/
  cur       : Cur := {}
  ahead     : Cur := {}
  aheadIdx  : Nat := 0
  fetched   : List HalfVec := []
  /-- half-vector being issued -/
  present   : HalfVec := []
  issues    : List Issue := []
  /-- the last issue made, for the end-close results (R163) -/
  last      : Option Issue := none
  /-- sampled fork flags by fork index (R115) -/
  samples   : Tbl Nat := []
  seen      : BitVec 8 := 0
  failed    : BitVec 8 := 0
  srcMap    : Nat := 0
  /-- starts of each step, trigger count of each entry (R122) -/
  starts    : Tbl Nat := []
  trigs     : Tbl Nat := []
  /-- triggers that have come and whose transfer is not complete: entry and its trigger count (R124) -/
  undone    : List (Nat × Nat) := []
  burst     : Burst := {}
  /-- count of fires since power-on (R137) -/
  fires     : Nat := 0
  lastFire  : Nat := 0
  blocked   : Bool := false
  cause     : Nat := 0
  causeSet  : BitVec 9 := 0
  records   : List Record := []
  ready     : Bool := false
  /-- trigger queue of the chute: entries with their trigger counts, in trigger order, and whether the head has started
  (R122) -/
  chuteQ    : List (Nat × Nat) := []
  chuteOn   : Bool := false
  /-- SC cycle in which the head started (R271) -/
  chuteAt   : Nat := 0
deriving DecidableEq, Repr

/-! ## Drills (chapter 5) -/

structure Drill where
  /-- 0 IDLE, 1 STOPPED, 2 RUNNING, 3 HALTED (R155) -/
  st     : Fin 4 := 0
  /-- the program image loaded at ARM (R158) -/
  img    : List Byte := []
  pc     : Nat := 0
  /-- instruction of the most recent issue, as DRL_STATUS.PC shows -/
  pcLast : Nat := 0
  x      : Nat := 0
  y      : Nat := 0
  c0     : Nat := 0
  c1     : Nat := 0
  c2     : Nat := 0
  c3     : Nat := 0
  d      : BitVec 64 := 0
  rep    : Nat := 0
  ctl    : BitVec 16 := 0
  mode   : Nat := 0
  issues : Nat := 0
  fault  : Bool := false
  /-- flag of the drill hook as returned before the burst, and the latest returns of the burst, newest first, with the SC
  cycles of their issues (R154) -/
  flag   : Bool := false
  recent : List (Nat × Bool) := []
deriving DecidableEq, Repr

/-! ## Quarry engine (chapter 6) -/

/-- A spoil record (R166). -/
structure Rec where
  issue  : Nat
  step   : Nat
  group  : Nat
  mark   : Bool := false
  valid  : Bool := false
  endClose : Bool := false
  count  : Nat := 1
  fail0  : BitVec 32 := 0
  fail1  : BitVec 32 := 0
  x      : Nat := 0
  y      : Nat := 0
  ctl    : Nat := 0
  inval  : BitVec 32 := 0
deriving DecidableEq, Repr

/-- A bitmap update waiting for the spoil cache (R177): site, bit of its bitmap, and the drill whose counters it may
step (R178) with the counters' row and column. -/
structure Upd where
  site  : Nat
  bit   : Nat
  drill : Option Nat := none
  row   : Nat := 0
  col   : Nat := 0
deriving DecidableEq, Repr

/-- A line of the spoil cache: line of the BITMAP file, the way of its set that holds it, dirty, its bytes, and the updates
merged into it since it was last written back (R294). -/
structure CLine where
  line  : Nat
  dirty : Bool
  bytes : Tbl Byte
  way   : Nat := 0
  held  : Nat := 0
deriving DecidableEq, Repr

inductive QryState where
  | idle | capturing | flushing
deriving DecidableEq, Repr

structure QrySt where
  state      : QryState := .idle
  overflow   : Bool := false
  quarantined : Bool := false
  sitePass   : BitVec 64 := 0
  siteActive : BitVec 64 := 0
  siteFails  : Tbl Nat := []
  /-- open LOG record of each group (R170) -/
  openRecs   : Tbl (Option Rec) := []
  queue      : List Rec := []
  peak       : Nat := 0
  /-- sites whose first record was admitted to the queue (R172), records admitted per site (R169) -/
  firsts     : BitVec 64 := 0
  ffCounts   : Tbl Nat := []
  compares   : Tbl Nat := []
  fails      : Tbl Nat := []
  misr       : Tbl (BitVec 64) := []
  misrIssues : Nat := 0
  /-- row counters at 8192 d + row, column counters at 8192 d + 4096 + column (R178) -/
  repair     : Tbl Nat := []
  updates    : List Upd := []
  /-- line reads on their way, each with the update that missed (R177) -/
  misses     : List (Nat × Upd) := []
  /-- SC cycle in which each of those reads was accepted, by line (R271) -/
  asked      : Tbl Nat := []
  /-- sets of the spoil cache, most recently used line first (R177) -/
  cache      : Tbl (List CLine) := []
  /-- spoil files of the burst by KIND (R181) -/
  files      : List (Nat × Nat) := []
  /-- sites that got a bitmap -/
  bmSites    : BitVec 64 := 0
  logLen     : Nat := 0
  records    : Nat := 0
  lost       : Nat := 0
  /-- the REPAIR, COUNT and SIGNATURE files are written (R183) -/
  written    : Bool := false
deriving DecidableEq, Repr

/-! ## Calibration (chapter 7) -/

/-- Correction type entry (R187). -/
structure CalEntry where
  offset : Int := 0
  deskew : Int := 0
  tcoef  : Int := 0
  pcurve : List Int := [0, 0, 0, 0, 0, 0, 0, 0]
  wref   : Int := 0
  wlast  : Int := 0
deriving DecidableEq, Repr, Inhabited

/-- Channel block (R187). -/
structure CalBlock where
  tref   : Int := 400
  cflags : Nat := 0
  swing  : Nat := 0
  phiref : Int := 0
  tlast  : Int := 0
  entries : List CalEntry := [{}, {}, {}, {}, {}, {}]
deriving DecidableEq, Repr, Inhabited

/-- A correction epoch: the blocks and the group temperatures that corrections use (R189, R199). -/
structure CalEpoch where
  num    : Nat := 0
  blocks : Tbl CalBlock := []
  temps  : List Int := []
deriving DecidableEq, Repr

structure CalSt where
  blocks  : Tbl CalBlock := []
  /-- the epoch in force for the next issue, and older ones that issues in the pipeline still carry -/
  epoch   : CalEpoch := {}
  older   : List CalEpoch := []
  temps   : List Int := [0, 0, 0, 0, 0, 0, 0, 0]
  /-- channels measured or written since the last invalidating event; channels whose last measurement is over 1 s old -/
  anchored : BitVec 256 := 0
  aged    : BitVec 256 := 0
  pointer : Nat := 0
  phi     : Int := 0
  /-- readings of the cross-half comparator not yet averaged (R204) -/
  phs     : List Int := []
  /-- self-check of each witness at its last run, none before the first (R195) -/
  witness : List (Option Bool) := [none, none, none, none]
  /-- the tables are loaded; before that CAL_STATUS stands at its reset values -/
  loaded  : Bool := false
  /-- a sweep is in progress, and the channels it has measured (R201) -/
  sweeping : Bool := false
  swept   : BitVec 256 := 0
  /-- tick of the half's task unit at each channel's last measurement (R201) -/
  when    : Tbl Nat := []
  lost    : Bool := false
  /-- channels of TE that the last phase found drifted by more than 1.0 ps (R204) -/
  drifted : BitVec 256 := 0
  /-- the tables changed since the last journal record (R192) -/
  changed : Bool := false
deriving DecidableEq, Repr

/-! ## Files and key slots (chapters 10, 12) -/

/-- A file of a half's Cellar (R326). Its data is kept as the plaintext the ciphertext stands for (log entry 4). -/
structure FileRec where
  id       : Nat
  slot     : Nat
  length   : Nat
  received : Nat := 0
  /-- open for writing since FILE_OPEN -/
  isOpen   : Bool := false
  data     : Tbl Byte := []
  /-- KIND of a spoil file (R181), 0 for a file of FILE_OPEN, 6 for a received SPOIL file (R390) -/
  spoil    : Nat := 0
  /-- a spoil file of a burst being captured or flushed -/
  live     : Bool := false
  epoch    : Nat := 0
  /-- sectors that the running re-key took ahead of their place in the order (R337) -/
  ahead    : List Nat := []
  /-- write counter of each sector (R328) -/
  wc       : Tbl Nat := []
  /-- writes of each node of the counter tree below the root, at 2^32 * level + index (R330) -/
  nodes    : Tbl Nat := []
  /-- the region is stale (R332) -/
  stale    : Bool := false
  /-- writes are refused until the file is dropped (R337, R338) -/
  refused  : Bool := false
deriving DecidableEq, Repr

/-- Kind of a key slot (R317). -/
inductive SlotKind where
  | empty | root | owner | file | result | image
deriving DecidableEq, Repr

structure KeySlot where
  kind    : SlotKind := .empty
  /-- signing OWNER slot -/
  owner   : Nat := 0
  /-- public key of ROOT and OWNER slots, secret of the others -/
  key     : Nat := 0
  /-- an IMAGE slot's copy of its OWNER slot's public key -/
  pub     : Nat := 0
  /-- expected length and hash of a FILE slot -/
  length  : Nat := 0
  hash    : Nat := 0
  /-- the FILE slot already has a file (R320) -/
  used    : Bool := false
  /-- epoch of the slot's file, kept over FILE_DROP (R338) -/
  epoch   : Nat := 0
  /-- schedules are held in TE (R324) -/
  inTe    : Bool := false
deriving DecidableEq, Repr, Inhabited

/-- Vault and identity (R309 to R325), in TW. -/
structure SecSt where
  slots   : Tbl KeySlot := []
  /-- the identity private key (R312) -/
  idKey   : Option Nat := none
  /-- the installed identity certificate -/
  cert    : Option (List Byte) := none
  nonce   : Nat := 0
  linkKey : Bool := false
  /-- a KEYCTL_LOST waits for the release of the safe state to reinstall the persistent slots (R325) -/
  reinstall : Bool := false
deriving DecidableEq, Repr

/-- The region re-key engine and the verify pipeline of a half (R333 to R338). -/
structure XtsSt where
  /-- file and sector pointer of the running re-key -/
  rekey  : Option (Nat × Nat) := none
  /-- lines whose checks are outstanding, as runs: file, first line, count -/
  checks : List (Nat × Nat × Nat) := []
  /-- a late alarm ended the last burst -/
  alarm  : Bool := false
deriving DecidableEq, Repr

/-! ## Hoist front end (chapter 13) -/

/-- Keys and salts of a session's two directions, to the device and to the host (R345). -/
structure SessionKeys where
  keyIn   : Nat := 0
  keyOut  : Nat := 0
  saltIn  : Nat := 0
  saltOut : Nat := 0
deriving DecidableEq, Repr, Inhabited

/-- A session (R345, R346). -/
structure Session where
  id       : Nat
  maxFrame : Nat
  keys     : SessionKeys := {}
  /-- source address of its latest valid request -/
  src      : Nat := 0
  /-- highest accepted number H -/
  high     : Nat := 0
  /-- accepted numbers inside the window -/
  seen     : List Nat := []
  /-- missing numbers for which a replay request was sent -/
  asked    : List Nat := []
  /-- retained responses by request number -/
  kept     : List (Nat × Frame) := []
  /-- numbers of the requests in progress -/
  busy     : List Nat := []
  devSeq   : Nat := 0
deriving DecidableEq, Repr

/-- An event entry (R363). -/
structure Event where
  seq  : Nat
  time : Word
  code : Nat
  src  : Nat
  arg  : Word
deriving DecidableEq, Repr

/-- An ARM whose response is still to come, with the per-half statuses found so far. -/
structure ArmWait where
  reply : Reply
  w     : Option Nat
  e     : Option Nat
deriving DecidableEq, Repr

/-- A CAL_RUN whose response is still to come, and the halves whose sweep has not ended. -/
structure CalWait where
  reply : Reply
  w     : Bool
  e     : Bool
deriving DecidableEq, Repr

structure HstSt where
  linkUp   : Bool := false
  sessions : List Session := []
  events   : List Event := []
  /-- sequence number of the next event, and of the next one that firmware journals (R363) -/
  next     : Nat := 0
  logged   : Nat := 0
  /-- source addresses whose sessionless frames are ignored (R366) -/
  ignored  : List Nat := []
  /-- DEVICE_STATE and the halves' states as last reported by events 2 and 3 -/
  devState : Nat := 1
  faceW    : FaceState := .idle
  faceE    : FaceState := .idle
  arms     : List ArmWait := []
  cals     : List CalWait := []
deriving DecidableEq, Repr

/-- A half's state as last reported by event 3. -/
def HstSt.face (h : HstSt) : Side → FaceState
  | .w => h.faceW
  | .e => h.faceE

/-! ## SAFE net and self-test (chapter 18) -/

/-- A self-test slice in progress (R478). -/
structure Slice where
  side : Side
  kind : Nat
  unit : Nat
deriving DecidableEq, Repr

/-- A faulty row of a memory (R477): 0 Attic, 1 shelf RAM, 2 calibration RAM, 3 record queue, 4 remap SRAM, 5 block memory;
the die, and the bank, or the memory's number. -/
structure FaultyRow where
  memory : Nat
  die    : Nat
  bank   : Nat
  row    : Nat
deriving DecidableEq, Repr

structure SafeSt where
  safeNLow  : Bool := false
  asserted  : Bool := false
  releasing : Bool := false
  aliveEn   : Bool := false
  /-- level of ALIVE -/
  alive     : Bool := false
  /-- faulty rows recorded since power-on, and fuse repairs blown (R477) -/
  faulty    : List FaultyRow := []
  repaired  : List FaultyRow := []
  /-- slices in progress, the latest started first -/
  slices    : List Slice := []
deriving DecidableEq, Repr

/-! ## Clocks, power, always-on domain (chapter 17) -/

/-- `reset` while TRAP_N holds a module reset (R444); `starting` until firmware of TW runs. -/
inductive PowerState where
  | off | sleep | reset | starting | run
deriving DecidableEq, Repr

/-- A judged clock input (R430, R431): qualified, good windows in a row. -/
structure Qual where
  ok   : Bool := false
  good : Nat := 0
deriving DecidableEq, Repr

structure ClkSt where
  power   : PowerState := .starting
  /-- SC cycles since the start -/
  cycles  : Nat := 0
  ref     : Qual := {}
  eth     : Qual := {}
  xo      : Qual := {}
  /-- locks of PLL-T, F, M, C, H -/
  lock    : BitVec 5 := 0
  backup  : Bool := false
  phaseBusy : Bool := false
  /-- grid delay in force, 0.125 ps (R384) -/
  phase     : Nat := 0
  tick    : Bool := false
  vinMv   : Nat := 0
  ma      : Nat := 0
  k       : Nat := 64
  short   : Bool := false
  /-- frequencies applied to FCK0 to FCK7, MHz -/
  fck     : List Nat := [0, 0, 0, 0, 0, 0, 0, 0]
  budget  : Nat := 0
  demand  : Nat := 0
  /-- evaluations of 1 ms since k last changed (R438) -/
  evals   : Nat := 0
  /-- power admission is host-assisted (R441) -/
  hostMode : Bool := false
deriving DecidableEq, Repr

/-- The always-on domain (R452 to R454). -/
structure AonSt where
  count     : BitVec 64 := 0
  /-- sixteenths of an AC tick modelled on SC cycles (log entry 6) -/
  frac      : Nat := 0
  timeValid : Bool := false
  sleeping  : Bool := false
  wake      : Fin 4 := 0
  lidOpen   : Bool := false
  overTemp  : Bool := false
  vbakLow   : Bool := false
  vinWarn   : Bool := false
  xoOk      : Bool := false
  stopped   : Bool := false
  /-- written HI half that the next write of LO loads (R453) -/
  hiWritten : Word := 0
deriving DecidableEq, Repr

/-! ## Task unit (chapter 16) -/

inductive TaskState where
  | dormant | ready | running | waiting
deriving DecidableEq, Repr

structure Task where
  st       : TaskState := .dormant
  prio     : Nat := 0
  affinity : BitVec 4 := 0xF
  /-- tick at which a delay expires -/
  wake     : Option Nat := none
  /-- tick at which the task last became READY (R419) -/
  since    : Nat := 0
  /-- event queue waited on -/
  queue    : Option Nat := none
  /-- entry received from a queue -/
  got      : BitVec 64 := 0
deriving DecidableEq, Repr, Inhabited

structure EvQueue where
  entries : List (BitVec 64) := []
  peak    : Nat := 0
  push    : Nat := 0
deriving DecidableEq, Repr

structure Core4 where
  /-- out of reset and running -/
  on      : Bool := false
  halted  : Bool := false
  task    : Option Nat := none
  /-- remaining watchdog count -/
  wdog    : Nat := 10000
  /-- tick at which the present task began to run, and the spans of ticks that earlier tasks ran, newest first (R419) -/
  from_   : Nat := 0
  spans   : List (Nat × Nat) := []
deriving DecidableEq, Repr, Inhabited

structure TskSt where
  tasks    : Tbl Task := []
  /-- FIFO of READY tasks of each priority (R416) -/
  ready    : Tbl (List Nat) := []
  queues   : Tbl EvQueue := []
  core0    : Core4 := {}
  core1    : Core4 := {}
  core2    : Core4 := {}
  core3    : Core4 := {}
  slot     : Nat := 0
  version  : Nat := 0
  reload   : Bool := false
  tick     : Nat := 0
  /-- the task that waited longest since TSK_WAIT_MAX was last read, and its ticks (R419) -/
  longest  : Nat × Nat := (0, 0)
  /-- tick of the last firing of each core's watchdog -/
  fired    : List (Nat × Nat) := []
  /-- SHA-384 of the running image with its patches, and whether it is being recomputed (R314, R424) -/
  hash     : Nat := 0
  hashing  : Bool := false
  /-- the firmware region as the boot ROM copied it: bytes other than those of erased flash (R412) -/
  image    : Tbl Byte := []
  /-- firmware has started on this die -/
  started  : Bool := false
deriving DecidableEq, Repr

/-! ## Fabric interface (chapter 8) -/

/-- A channel or drill hook (R229 to R232). -/
structure Hook where
  /-- issues waiting to be presented, at most 8 -/
  queue : List Nat := []
  /-- slots on the inbound bus in the present FC cycle, slot 0 first, as their bits -/
  bus   : List Nat := []
  /-- issues of the burst that a compare hook's window has met -/
  offered : Nat := 0
  /-- presented issues without a return, oldest first, and whether the deadline of the issue has passed -/
  out   : List (Nat × Bool) := []
  /-- MATCH as the fabric last drove it (R119) -/
  flag  : Bool := false
deriving DecidableEq, Repr

/-- A NoC port of an F-die (R236, R237). -/
structure PortSt where
  /-- the port has been enabled and its credits are set up -/
  on     : Bool := false
  /-- beats of the outbound packet in progress, newest first -/
  rx     : List Byte := []
  /-- credit pulses still to give to the fabric, one an FC cycle -/
  owed   : Nat := 0
  /-- credits the fabric holds for the outbound direction, and the port for the inbound one -/
  space  : Nat := 0
  room   : Nat := 0
  /-- packets for the fabric, the one in progress first, and whether its first beat has gone -/
  tx     : List (List Byte) := []
  begun  : Bool := false
  /-- the inbound wires of the present FC cycle (R236) -/
  wires  : BitVec 13 := 0
deriving DecidableEq, Repr

/-- A half's side of the fabric. -/
structure FabSt where
  hooks    : Tbl Hook := []
  /-- NoC ports, port p of the half's higher F-die at 32 + p -/
  ports    : Tbl PortSt := []
  /-- pad registers of OUT and OE, pin i of the half at bit i (R238) -/
  padOut   : BitVec 128 := 0
  padOe    : BitVec 128 := 0
  /-- scrubber passes made (R300) -/
  passes   : Nat := 0
  /-- a scrubber pass or command is in progress -/
  scrubBusy : Bool := false
  quarantined : Bool := false
  cmdFrame : Nat := 0
deriving DecidableEq, Repr

/-! ## Configuration (chapter 9) -/

/-- How far a command stream has come in the order of R247. -/
inductive StreamPos where
  /-- the first command is awaited -/
  | first
  /-- a service image's IDCHECK has passed, GCLR is awaited -/
  | checked
  /-- GCLR is running -/
  | clearing
  /-- WCFG, FAR and FDATA in any order -/
  | cells
  /-- START has come, END is awaited -/
  | started
  | ended
deriving DecidableEq, Repr

/-- The fields of a full image header (R242). -/
structure ImgHeader where
  firstWord : Nat := 1
  family    : Nat := 0
  part      : Nat := 0
  stepping  : Nat := 0
  dieset    : Nat := 0
  length    : Nat := 0
  frames    : Nat := 0
  keyId     : Nat := 0
  iv        : Nat := 0
  bodyHash  : BitVec 384 := 0
  signature : List Nat := []
  /-- every reserved byte is 0 -/
  resvZero  : Bool := true
deriving DecidableEq, Repr, Inhabited

/-- A load or a store in progress (R253, R258). -/
structure Load where
  /-- 1 slot 0, 2 slot 1, 3 Hoist -/
  source   : Nat
  /-- slot that is being stored -/
  store    : Option Nat := none
  /-- session that began it -/
  session  : Nat := 0
  service  : Bool := false
  /-- CHECKING has passed -/
  passed   : Bool := false
  length   : Nat
  /-- image bytes received, and how many of them the loader has taken -/
  image    : List Nat := []
  taken    : Nat := 0
  hdr      : ImgHeader := {}
  pos      : StreamPos := .first
  far      : Option Nat := none
  /-- frame addresses that FAR has named, and FDATA commands taken -/
  seen     : List Nat := []
  frames   : Nat := 0
  /-- configuration registers named, with their values (R248) -/
  wcfg     : Tbl Nat := []
  /-- CFG_STATUS.STATE to return to when a check fails -/
  prev     : Nat := 0
  /-- responses still to come, with the image bytes that each command reaches to; CONFIG_END's reaches beyond all -/
  replies  : List (Nat × Reply) := []
  /-- CONFIG_END has come -/
  finished : Bool := false
deriving DecidableEq, Repr

/-- A flash slot as CFG_SLOT shows it (R258). -/
structure CfgSlot where
  valid  : Bool := false
  reason : Nat := 0
deriving DecidableEq, Repr

/-- How a load of a session ended, while its CONFIG_END is still to come: session, status, reason, offset. -/
abbrev LoadEnd := Nat × Nat × Nat × Nat

structure CfgSt where
  /-- CFG_STATUS.STATE -/
  state   : Nat := 0
  /-- source of the image in force, and whether it is a service image -/
  source  : Nat := 0
  service : Bool := false
  load    : Option Load := none
  ended   : Option LoadEnd := none
  /-- BODY_HASH of the image in force -/
  hash    : BitVec 384 := 0
  /-- KEY_ID of the image in force -/
  keyId   : Nat := 0
  /-- WCFG values in force since the release -/
  wcfg    : Tbl Nat := []
  slot0   : CfgSlot := {}
  slot1   : CfgSlot := {}
  /-- slots auto-load has still to try (R259) -/
  auto    : List Nat := []
  /-- ciphertext of the last Hoist load in the reserved area of the west Cellar (R260) -/
  staged  : List Nat := []
deriving DecidableEq, Repr

/-! ## Cellar and Attic (chapters 10, 11) -/

/-- A half's Cellar controllers and DIMMs (R263 to R279, R298, R299). -/
structure CelSt where
  /-- states of the four channels, coded as CEL_STATUS.STATE -/
  chans   : List Nat := [0, 0, 0, 0]
  /-- the present training runs in host-assisted mode (R277) -/
  host    : Bool := false
  /-- the verify test of the present training runs -/
  verifying : Bool := false
  rate    : Nat := 0
  chGib   : Nat := 0
  dev32   : Bool := false
  x4      : Bool := false
  ranks2  : Bool := false
  /-- delays in force, the host's set before COMMIT, and window edges, by selection -/
  delays  : Tbl Nat := []
  staged  : Tbl Nat := []
  edges   : Tbl Word := []
  /-- sensors that read 85 degrees or more: bit 2 * channel + sensor (R268) -/
  hot     : BitVec 8 := 0
  /-- open row of each bank, plus 1, by bank number (R266, R268) -/
  rows    : Tbl Nat := []
  /-- the DIMMs are held in self-refresh (R279, R434) -/
  selfRef : Bool := false
  /-- same-bank refreshes and ZQ calibrations made, by channel -/
  refreshes : Tbl Nat := []
  zq      : Tbl Nat := []
  /-- next line of the patrol, and the host window left to scrub: next line and end line -/
  patrol  : Nat := 0
  window  : Option (Nat × Nat) := none
  /-- suspect lines, remapped lines with poison of the spare, by channel and line (R298) -/
  suspect : List Nat := []
  remap   : List (Nat × Nat × Bool) := []
  /-- lines found uncorrectable, until they are written whole (R294) -/
  bad     : List Nat := []
deriving DecidableEq, Repr

/-- A fill of the remote-data cache on its way (R287). -/
structure Fill where
  line  : Nat
  key   : Nat
  /-- an invalidation came meanwhile -/
  stale : Bool := false
  /-- SC cycle in which the home accepted the request (R271) -/
  since : Nat := 0
deriving DecidableEq, Repr

/-- A write that the home holds until its invalidation is acknowledged (R286). -/
structure HeldWrite where
  line   : Nat
  file   : Nat
  offset : Nat
  data   : List Byte
  /-- SC cycle in which it was accepted (R271) -/
  since  : Nat := 0
deriving DecidableEq, Repr

/-- A line of the remote-data cache: the remote line, its key index, and the way of its set that holds it (R285). -/
structure RLine where
  line : Nat
  key  : Nat
  way  : Nat := 0
deriving DecidableEq, Repr

structure AttSt where
  /-- lines of the remote-data cache by set, most recently used first (R285) -/
  cache   : Tbl (List RLine) := []
  fills   : List Fill := []
  /-- lines of this half's Cellar that the other half's cache holds (R286) -/
  dir     : List Nat := []
  held    : List HeldWrite := []
  patrol  : Nat := 0
  suspect : List Nat := []
  /-- remapped lines by bank and line, with poison of the spare -/
  spare   : List (Nat × Nat × Bool) := []
  /-- lines found uncorrectable, until they are written whole (R294) -/
  bad     : List Nat := []
deriving DecidableEq, Repr

/-! ## The Larder (chapter 11) -/

/-- What a Larder record carries. -/
inductive LdrData where
  /-- content that nothing restores: its length only -/
  | other (length : Nat)
  /-- remapped lines of a memory: channel or bank, and line (R298) -/
  | remap (entries : List (Nat × Nat))
  | table (blocks : Tbl CalBlock)
  | slot (k : KeySlot)
  | cert (der : List Byte)
  | epoch (e : Nat)
  /-- the root node: its eight entries (R330, R331) -/
  | root (entries : List Nat)
  /-- TCH_SAFE.DRVD of 512 channels, GPIO OUT and OE of 256 pins -/
  | safe (drvd : BitVec 512) (out oe : BitVec 256)
  | boot (w : Word)
  | entry (e : Event)
deriving DecidableEq, Repr

/-- A record of the active area (R303). -/
structure LdrRec where
  seq  : Nat
  type : Nat
  key  : Nat
  data : LdrData
deriving DecidableEq, Repr

/-- A record whose codewords the writer programs one after the other (R307): the SC cycle of the first, its flash address, their
count, and where the area stood before it. -/
structure Burn where
  start  : Nat
  addr   : Nat
  count  : Nat
  seq    : Nat
  sector : Nat
  used   : Nat
deriving DecidableEq, Repr

structure LdrSt where
  /-- 0 area A, 1 area B -/
  active     : Nat := 0
  generation : Nat := 0
  /-- FIRST_SEQ of the area in force (R305) -/
  first      : Nat := 0
  /-- the live records, as firmware's index has them -/
  records    : List LdrRec := []
  /-- what the records of each area carry whose payload layout the spec does not give; the flash holds their bytes as free
  values (log entry 65) -/
  texts      : List (Nat × LdrRec) := []
  seq        : Nat := 0
  /-- sector of the next append and codewords used in it -/
  sector     : Nat := 0
  used       : Nat := 0
  /-- records being programmed or about to be, oldest first, and the SC cycle of a halt that stops the writer (R307, R487) -/
  burning    : List Burn := []
  frozen     : Option Nat := none
  compacting : Bool := false
  hostMode   : Bool := false
  hold       : Bool := false
  /-- records refused during the warning, counted at the next start-up (R307) -/
  refused    : Nat := 0
deriving DecidableEq, Repr

/-! ## Haul (chapter 14) -/

inductive QuadState where
  | down | clock | adapt | align | link | up
deriving DecidableEq, Repr

/-- A sequenced frame in a replay buffer: SEQ, FTYPE, fields. -/
abbrev HFrame := Nat × Nat × List Nat

structure Quad where
  st       : QuadState := .down
  clkLock  : Bool := false
  /-- the present adaptation and alignment are host-assisted -/
  hostAdapt : Bool := false
  hostAlign : Bool := false
  /-- next SEQ to send and next expected -/
  tx       : Nat := 0
  rx       : Nat := 0
  credits  : Nat := 0
  replay   : List HFrame := []
  /-- FLAG, FIRE and TIME frames that wait for a credit or for the link: FTYPE and fields -/
  hold     : List (Nat × List Nat) := []
  /-- cookies of received ECHO frames to be returned -/
  echoes   : List (BitVec 64) := []
  /-- the relay key is agreed (R389), and its value -/
  keyed    : Bool := false
  key      : Nat := 0
  /-- RELAY frames sent since the last RELAY_TAG, the first issue they cover, and the bytes of their data blocks -/
  tagged   : Nat := 0
  tagFirst : Nat := 0
  tagData  : List Nat := []
  /-- bytes of the data blocks of the RELAY frames received since the last RELAY_TAG -/
  heard    : List Nat := []
  /-- the present alignment follows a loss of UP -/
  retrain  : Bool := false
  /-- INJECT flips a bit of the next data block -/
  inject   : Bool := false
  /-- relay data collected for the next frame: first issue, and symbols of the quad's 64 channels per issue -/
  first    : Nat := 0
  pack     : List Nat := []
  /-- relayed issues received: issue and symbols of 64 channels -/
  relayed  : Tbl (Option Nat) := []
deriving DecidableEq, Repr, Inhabited

/-- The half's side of the Haul. -/
structure HaulSt where
  q0      : Quad := {}
  q1      : Quad := {}
  q2      : Quad := {}
  q3      : Quad := {}
  /-- flags waiting for their apply cycle: A, mask, values (R383) -/
  flags   : List (Nat × BitVec 8 × BitVec 8) := []
  /-- receive file of the present sending burst (R390) -/
  spoilRx : Option Nat := none
deriving DecidableEq, Repr

/-- Cascade time and fires of the module, in TW. -/
structure CascSt where
  ctime : BitVec 64 := 0
  /-- fires to come (R381): cascade time, and the halves it is for, bit 0 west and bit 1 east -/
  fires : List (BitVec 64 × Nat) := []
deriving DecidableEq, Repr

/-! ## Stairwell and NoC (chapter 15) -/

/-- A flit: its ten words (R394). -/
abbrev Flit := List Nat

/-- A flit frame kept for replay: SEQ, virtual network, flit. -/
abbrev SFrame := Nat × Nat × Flit

/-- A fabric NoC port request (R406). -/
structure NocReq where
  write : Bool := false
  txn   : Nat := 0
  /-- the fields that a request must hold at 0 do, and its TYPE is READ or WRITE -/
  lawful : Bool := true
  key   : Nat := 0
  keyed : Bool := false
  addr  : Nat := 0
  len   : Nat := 1
  data  : List Byte := []
deriving DecidableEq, Repr, Inhabited

/-- A NoC request of a fabric port that awaits its response (R405, R406). -/
structure NocPend where
  die     : Nat
  port    : Nat := 0
  req     : NocReq
  /-- outcome of the check of the line it names -/
  line    : LineOutcome := .pass
  /-- the Stairwell holds it -/
  held    : Bool := false
  /-- answered in its own half, from the remote-data cache -/
  here    : Bool := false
  /-- its flit was dropped for a parity error -/
  dropped : Bool := false
  /-- the response on its way: status and payload -/
  ready   : Option (Nat × List Byte) := none
deriving DecidableEq, Repr

structure StwSt where
  /-- STW_STATUS.STATE -/
  state    : Nat := 0
  epoch    : Nat := 0
  width    : Nat := 0
  attempts : Nat := 0
  /-- training began from OFF: its attempt takes 1 ms -/
  fresh    : Bool := false
  tx       : Nat := 0
  rx       : Nat := 0
  /-- credits per virtual network -/
  credits  : List Nat := [0, 0, 0, 0]
  replay   : List SFrame := []
  /-- flits that wait for the link, a credit or a replay place, with their virtual networks -/
  wait     : List (Nat × Flit) := []
  /-- host stop point of R401 reached -/
  stop     : Bool := false
  pend     : List NocPend := []
  /-- requests answered with TIMEOUT whose real response is still to come -/
  late     : List Nat := []
  /-- lanes that fail continuity -/
  broken   : BitVec 16 := 0
deriving DecidableEq, Repr

/-! ## Trapdoor (chapter 19) -/

structure DbgSt where
  nonce : Option Nat := none
  scope : Option Word := none
  pins  : Bool := false
  /-- pins set in pin-access mode: OE and OUT -/
  drive : Tbl (Nat × Nat) := []
  /-- TRAP_N lows of 18 to 20 µs that firmware has logged, in a form the spec does not give (R444) -/
  lows  : Nat := 0
  /-- T-die and core that the last HALT named (R487) -/
  halter : Option (Side × Nat) := none
  /-- flash bytes written, addresses from 0; erased bytes read 0xFF -/
  flash : Tbl Byte := []
deriving DecidableEq, Repr

/-- A block memory port: accesses captured one and two edges ago, and what it shows (R224). -/
structure BPort where
  p0   : Option (BitVec 66) := none
  p1   : Option (BitVec 66) := none
  dout : BitVec 66 := 0
deriving DecidableEq, Repr

/-- What the fabric holds (R209 to R227): configuration bytes of each logic frame, the cells they configure by global column,
block memory rows as codewords, and the registers of the array. -/
structure ArraySt where
  cells : Tbl (List Nat) := []
  logic : Tbl (List CellCfg) := []
  /-- rows of block memories, check bytes above the data (R293) -/
  bmem  : Tbl (BitVec 80) := []
  bports : Tbl BPort := []
  /-- flip-flops at 128 * cell + m and wire registers at 128 * cell + 64 + wire that differ from their initial values -/
  regs  : Tbl Bool := []
  /-- registers of seam wires and synchronisers at 64 * cell + inbound wire: bit 0 the value shown, bit 1 the first
  register, bit 2 the level last seen (R217, R219) -/
  sync  : Tbl Nat := []
  /-- phase of each fabric clock in MHz of an SC cycle's 800 -/
  phase : List Nat := [0, 0, 0, 0, 0, 0, 0, 0]
deriving DecidableEq, Repr

/-! ## The whole -/

/-- One half: a T-die with its channels, memories and links. -/
structure Half where
  tch   : TchSt := {}
  shelf : ShelfSt := {}
  face  : FaceSt := {}
  drl0  : Drill := {}
  drl1  : Drill := {}
  qry   : QrySt := {}
  cal   : CalSt := {}
  fab   : FabSt := {}
  cel   : CelSt := {}
  att   : AttSt := {}
  haul  : HaulSt := {}
  stw   : StwSt := {}
  files : List FileRec := []
  xts   : XtsSt := {}
  tsk   : TskSt := {}
  /-- Attic contents by offset, bytes that the host wrote above the free user space, and fill tags of the staging lines by
  line (R31, R123, R283) -/
  attic : Tbl Byte := []
  upper : Tbl (Option Byte) := []
  tags  : Tbl Nat := []
  /-- blocks of a RESET_PART in progress (R446), and its response -/
  reset : BitVec 12 := 0
  /-- blocks that a failing checker keeps in reset, by fault page (R295) -/
  stuck : BitVec 20 := 0
  resetReply : Option Reply := none
  /-- bit f: function f is host-assisted in this half (R425) -/
  modes : BitVec 8 := 0
deriving DecidableEq, Repr

/-- Everything the module holds beside the queue of commands and the fuses. -/
structure Dev where
  /-- plain registers by die, register and index -/
  regs  : Tbl Word := []
  pages : Tbl Page := []
  west  : Half := {}
  east  : Half := {}
  hst   : HstSt := {}
  sec   : SecSt := {}
  cfg   : CfgSt := {}
  array : ArraySt := {}
  ldr   : LdrSt := {}
  casc  : CascSt := {}
  dbg   : DbgSt := {}
  /-- HI halves latched by reads of LO, by register key of the HI register -/
  latch : Tbl (Option Word) := []
  safe  : SafeSt := {}
  /-- T-dies that read an invalid position strap at power-on and hold themselves in reset: bit 0 TW, bit 1 TE (R13) -/
  held  : BitVec 2 := 0
  clk   : ClkSt := {}
  aon   : AonSt := {}
  /-- shadows that an upset of firmware's state has left with another code than the data path's, by unit (R33) -/
  shadow : Tbl (Option Nat) := []
  /-- unit, shadow state and data-path state of the latest divergence logged (R35) -/
  diverged : Option (Nat × Nat × Nat) := none
  /-- the model's own counter of free values drawn (log entry 2) -/
  free  : Nat := 0
  /-- what the last command made the module send -/
  out   : List Out := []
deriving DecidableEq, Repr

/-- Life-cycle states (R309). -/
inductive Life where
  | blank | manufacture | deployed | returned | retired
deriving DecidableEq, Repr

/-- Fuses and straps: set outside operation, but for the life cycle, which LIFECYCLE_ADVANCE blows (R309, R16). -/
structure Fuse where
  life     : Life := .blank
  stepping : Nat := 0x41
  dieset   : Nat := 0
  mac      : BitVec 48 := 0
  xdly     : Fin 4 := 0
  /-- Dwesol's public keys, whose SHA-384 is fused in TW: device root, firmware key, service key (R311, R313, R314) -/
  rootKey    : Nat := 0
  firmwareKey : Nat := 0
  serviceKey : Nat := 0
  /-- position strap of TW, TE and F0 to F3 (R12) -/
  straps   : List (Fin 4) := [0, 1, 0, 1, 2, 3]
deriving DecidableEq, Repr

structure State where
  /-- commands waiting, first in first out -/
  pending : List Instr := []
  fuse    : Fuse := {}
  dev     : Dev := {}
deriving DecidableEq, Repr

/-- The machine right after reset: power stages up, nothing started, everything at its reset value. -/
def State.reset : State := {}

end Sys2Proof.Machine
end

