-- ==== Sys2Proof/Machine/Ops.lean ====
section
/-! DEFINITION. The named operations over tables, bytes, registers, halves, fault pages, events and responses that every
meaning shares. -/
namespace Sys2Proof.Machine

/-! ## Tables and memory -/

/-- What key k reads as; d gives the unlisted keys. -/
def tgetF (d : Nat → α) : Tbl α → Nat → α
  | [], k => d k
  | (a, v) :: t, k => if a = k then v else tgetF d t k

/-- Put an entry in its place in the order of the keys. -/
def tput : Tbl α → Nat → α → Tbl α
  | [], k, v => [(k, v)]
  | (a, w) :: t, k, v =>
    if k < a then (k, v) :: (a, w) :: t else if k = a then (k, v) :: t else (a, w) :: tput t k v

/-- Write v at key k and keep the canonical form: the default value takes the entry away. -/
def tsetF [DecidableEq α] (d : Nat → α) (t : Tbl α) (k : Nat) (v : α) : Tbl α :=
  if v = d k then t.filter (fun kv => decide (kv.1 ≠ k)) else tput t k v

/-- The canonical form of a table: keys strictly rising, no entry equal to its default. -/
def twf [DecidableEq α] (d : Nat → α) : Tbl α → Bool
  | [] => true
  | [(a, v)] => decide (v ≠ d a)
  | (a, v) :: (b, w) :: t => decide (v ≠ d a) && decide (a < b) && twf d ((b, w) :: t)

/-- Tables whose unlisted keys all read as one value. -/
def tget (d : α) (t : Tbl α) (k : Nat) : α := tgetF (fun _ => d) t k

def tset [DecidableEq α] (d : α) (t : Tbl α) (k : Nat) (v : α) : Tbl α := tsetF (fun _ => d) t k v

/-- The canonical form of a byte memory whose unlisted bytes read as 0. -/
def Memory.wf (m : Tbl Byte) : Bool := twf (fun _ => (0 : Byte)) m

/-- Read n bytes from offset a. -/
def memRead (m : Tbl Byte) (a : Nat) : Nat → List Byte
  | 0 => []
  | n + 1 => tget 0 m a :: memRead m (a + 1) n

/-- Replace the entries from key base on by a run of values. -/
def tblit [DecidableEq α] (d : α) (t : Tbl α) (base : Nat) (vals : List α) : Tbl α :=
  t.filter (fun kv => decide (kv.1 < base))
    ++ vals.zipIdx.filterMap (fun vi => if vi.1 = d then none else some (base + vi.2, vi.1))
    ++ t.filter (fun kv => decide (base + vals.length ≤ kv.1))

/-- Write bytes from offset a up. -/
def memWrite (m : Tbl Byte) (a : Nat) (bs : List Byte) : Tbl Byte := tblit 0 m a bs

/-- Drop every entry with a key from lo up to but not including hi. -/
def tdropRange (t : Tbl α) (lo hi : Nat) : Tbl α := t.filter fun kv => !(decide (lo ≤ kv.1) && decide (kv.1 < hi))

/-- Remapped lines after a write of whole lines: a spare written whole is poisoned no longer (R298). `covers` tells the
lines written. -/
def unpoison (covers : Nat → Bool) (l : List (Nat × Nat × Bool)) : List (Nat × Nat × Bool) :=
  l.map fun r => if covers r.2.1 then (r.1, r.2.1, false) else r

/-- A line is held by a poisoned spare (R298). -/
def poisoned (l : List (Nat × Nat × Bool)) (line : Nat) : Bool := l.any fun r => decide (r.2.1 = line) && r.2.2

/-- A read of a Cellar line cannot be corrected: its codeword is uncorrectable, or its spare poisoned (R294, R298). -/
def CelSt.poison (c : CelSt) (line : Nat) : Bool := c.bad.contains line || poisoned c.remap line

/-- Cellar lines written whole are good again. -/
def CelSt.cleanse (c : CelSt) (covers : Nat → Bool) : CelSt :=
  { c with remap := unpoison covers c.remap, bad := c.bad.filter fun l => !covers l }

/-- The same of an Attic line. -/
def AttSt.poison (a : AttSt) (line : Nat) : Bool := a.bad.contains line || poisoned a.spare line

def AttSt.cleanse (a : AttSt) (covers : Nat → Bool) : AttSt :=
  { a with spare := unpoison covers a.spare, bad := a.bad.filter fun l => !covers l }

/-! ## Bits and bytes -/

/-- Bits hi down to lo of a word, as a number. -/
def fld (w : Word) (hi lo : Nat) : Nat := w.toNat / 2 ^ lo % 2 ^ (hi + 1 - lo)

/-- w with bits hi down to lo replaced by v. -/
def setFld (w : Word) (hi lo v : Nat) : Word :=
  let m := 2 ^ (hi + 1 - lo)
  BitVec.ofNat 32 (w.toNat - fld w hi lo * 2 ^ lo + v % m * 2 ^ lo)

/-- A word from fields given by their lowest bit. -/
def pack (l : List (Nat × Nat)) : Word := BitVec.ofNat 32 (l.foldl (fun a p => a + p.2 * 2 ^ p.1) 0)

/-- 1 for true. -/
def b1 (b : Bool) : Nat := if b then 1 else 0

/-- n bytes of v, lowest first. -/
def leBytes : Nat → Nat → List Byte
  | 0, _ => []
  | n + 1, v => BitVec.ofNat 8 v :: leBytes n (v / 256)

/-- n bytes of v, highest first: network order. -/
def beBytes (n v : Nat) : List Byte := (leBytes n v).reverse

/-- n bytes from offset a, read as one little-endian number. -/
def rdLE (rd : Nat → Byte) (a : Nat) : Nat → Nat
  | 0 => 0
  | n + 1 => (rd a).toNat + 256 * rdLE rd (a + 1) n

/-- A little-endian number as a signed one of n bytes. -/
def sgn (n v : Nat) : Int := if v < 2 ^ (8 * n - 1) then (v : Int) else (v : Int) - (2 ^ (8 * n) : Nat)

/-- The n-byte code of a signed number. -/
def unsgn (n : Nat) (i : Int) : Nat := (i % (2 ^ (8 * n) : Nat)).toNat

/-- Nearest integer to n / m, a half rounding toward positive (R46, R190, R196). -/
def roundDiv (n m : Int) : Int := (2 * n + m) / (2 * m)

def bitSet (b : BitVec n) (i : Nat) : BitVec n := b ||| (BitVec.ofNat n 1 <<< i)

def bitClear (b : BitVec n) (i : Nat) : BitVec n := b &&& ~~~(BitVec.ofNat n 1 <<< i)

/-- How many of the lowest k bits are set. -/
def popBelow (b : BitVec n) : Nat → Nat
  | 0 => 0
  | k + 1 => popBelow b k + b1 (b.getLsbD k)

def pop (b : BitVec n) : Nat := popBelow b n

/-! ## Halves -/

def Dev.half (d : Dev) : Side → Half
  | .w => d.west
  | .e => d.east

def Dev.setHalf (d : Dev) (s : Side) (h : Half) : Dev :=
  match s with
  | .w => { d with west := h }
  | .e => { d with east := h }

/-- Change one half. -/
def Dev.mod (d : Dev) (s : Side) (f : Half → Half) : Dev := d.setHalf s (f (d.half s))

def Half.drl (h : Half) (n : Nat) : Drill := if n = 0 then h.drl0 else h.drl1

def Half.setDrl (h : Half) (n : Nat) (x : Drill) : Half := if n = 0 then { h with drl0 := x } else { h with drl1 := x }

def TskSt.core (t : TskSt) (c : Nat) : Core4 :=
  match c with
  | 0 => t.core0
  | 1 => t.core1
  | 2 => t.core2
  | _ => t.core3

def TskSt.setCore (t : TskSt) (c : Nat) (x : Core4) : TskSt :=
  match c with
  | 0 => { t with core0 := x }
  | 1 => { t with core1 := x }
  | 2 => { t with core2 := x }
  | _ => { t with core3 := x }

/-- State of a half's Cellar: the lowest of its channels' (R274). -/
def CelSt.state (c : CelSt) : Nat := c.chans.foldl min 3

/-- The file of a half with an id. -/
def Half.file (h : Half) (id : Nat) : Option FileRec := h.files.find? fun f => decide (f.id = id)

/-- Sectors of a region (R326). -/
def FileRec.sectors (f : FileRec) : Nat := (f.length + 4095) / 4096

/-- Levels of the counter tree: the least D with 8^D sectors or more (R330); a region of one sector has one level too. -/
def FileRec.levels (f : FileRec) : Nat := (((List.range 11).map (· + 1)).find? fun n => decide (f.sectors ≤ 8 ^ n)).getD 11

/-- Key of a node of the counter tree below the root. -/
def nodeKey (level i : Nat) : Nat := 2 ^ 32 * level + i

/-- The counter of a sector takes a value, and each node on its path below the root counts a write (R330, R331). -/
def FileRec.count (f : FileRec) (k v : Nat) : FileRec :=
  { f with
    wc := tset 0 f.wc k v
    nodes := (List.range (f.levels - 1)).foldl (fun t l =>
      let i := nodeKey l (k / 8 ^ (l + 1))
      tset 0 t i (tget 0 t i + 1)) f.nodes }

/-- The eight entries of the root node (R330). -/
def FileRec.root (f : FileRec) : List Nat :=
  (List.range 8).map fun j => if f.levels = 1 then tget 0 f.wc j else tget 0 f.nodes (nodeKey (f.levels - 2) j)

/-- Bytes of the Cellar that the nodes below the root take after the region's data (R330). -/
def FileRec.nodeBytes (f : FileRec) : Nat :=
  (List.range (f.levels - 1)).foldl (fun a l => a + 64 * ((f.sectors + 8 ^ (l + 1) - 1) / 8 ^ (l + 1))) 0

/-- A write of bytes into a file of a half: data and the write counters of the sectors it touches (R328). -/
def FileRec.put (f : FileRec) (off : Nat) (bs : List Byte) : FileRec :=
  if bs.isEmpty then f else
  (List.range ((off + bs.length - 1) / 4096 - off / 4096 + 1)).foldl
    (fun f k => f.count (off / 4096 + k) (tget 0 f.wc (off / 4096 + k) + 1)) { f with data := memWrite f.data off bs }

/-- A file as it stands once the writes that its home holds are performed: what a read of it returns (R269). -/
def Half.fileNow (h : Half) (id : Nat) : Option FileRec :=
  (h.file id).map fun f => h.att.held.foldl (fun f w => if w.file = f.id then f.put w.offset w.data else f) f

/-- Change the file with an id. -/
def Half.modFile (h : Half) (id : Nat) (f : FileRec → FileRec) : Half :=
  { h with files := h.files.map fun r => if r.id = id then f r else r }

def HaulSt.quad (h : HaulSt) (q : Nat) : Quad :=
  match q with
  | 0 => h.q0
  | 1 => h.q1
  | 2 => h.q2
  | _ => h.q3

def HaulSt.setQuad (h : HaulSt) (q : Nat) (x : Quad) : HaulSt :=
  match q with
  | 0 => { h with q0 := x }
  | 1 => { h with q1 := x }
  | 2 => { h with q2 := x }
  | _ => { h with q3 := x }

/-- A draw of the model's free counter (log entry 2). -/
def Dev.draw (d : Dev) : Dev := { d with free := d.free + 1 }

/-- A half's self-test slice is abandoned and its region restored (R479). -/
def Dev.abandon (d : Dev) (s : Side) : Dev :=
  { d with safe := { d.safe with slices := d.safe.slices.filter fun x => decide (x.side ≠ s) } }

def Dev.emit (d : Dev) (o : Out) : Dev := { d with out := d.out ++ [o] }

/-! ## Where a line lies (R266) -/

/-- Place of a half-local Cellar address: a DRAM bank, its row and the burst in the row. -/
structure CelPlace where
  ch    : Nat
  sub   : Nat
  burst : Nat
  group : Nat
  bank  : Nat
  rank  : Nat
  row   : Nat
deriving DecidableEq, Repr

/-- The mapping of a half-local Cellar address (R266). -/
def celPlace (ranks2 : Bool) (a : Nat) : CelPlace :=
  { ch := a / 2 ^ 6 % 4, sub := a / 2 ^ 8 % 2, burst := a / 2 ^ 9 % 8 + 8 * (a / 2 ^ 17 % 8), group := a / 2 ^ 12 % 8
    bank := a / 2 ^ 15 % 4, rank := if ranks2 then a / 2 ^ 20 % 2 else 0
    row := if ranks2 then a / 2 ^ 21 % 2 ^ 15 else a / 2 ^ 20 % 2 ^ 16 }

/-- Column address of a place. -/
def CelPlace.column (p : CelPlace) : Nat := 16 * p.burst

/-- Number of a bank in the half: bank lowest, so that a same-bank refresh takes one bank of every group. -/
def CelPlace.key (p : CelPlace) : Nat := (((p.ch * 2 + p.sub) * 2 + p.rank) * 8 + p.group) * 4 + p.bank

/-- An access to a line opens its row, which stays open until an access needs another row of the bank (R268). -/
def CelSt.access (c : CelSt) (line : Nat) : CelSt :=
  let p := celPlace c.ranks2 (64 * line)
  { c with rows := tset 0 c.rows p.key (p.row + 1) }

def Half.modCel (h : Half) (f : CelSt → CelSt) : Half := { h with cel := f h.cel }

/-- Accesses to n lines from a line on. -/
def Half.celTouch (h : Half) (line n : Nat) : Half :=
  h.modCel fun c => (List.range n).foldl (fun c k => c.access (line + k)) c

/-! ## The register file -/

/-- Every register table of the module. -/
def allRegs : List RegDesc := tdieRegs ++ regsFdie

def descOf (r : Rg) : Option RegDesc := allRegs.find? fun x => decide (x.reg = r)

/-- Reset values of CEL_QOS by port: latency target in [15:0] in 10 ns, cap in [31:16] in 0.1 GB/s (R270). -/
def qosReset : Nat → Nat
  | 0 => 100
  | 1 => 400
  | 2 => 1000 + 160 * 65536
  | 3 => 10000 + 10 * 65536
  | _ => 10000 + 20 * 65536

/-- Reset value of a register: from the register tables. -/
def resetVal (r : Rg) (i : Nat) : Word :=
  if r = .celQos then BitVec.ofNat 32 (qosReset i) else
  match descOf r with
  | none => 0
  | some x => BitVec.ofNat 32 (x.fields.foldl (fun a f => a + f.reset * 2 ^ f.lo) 0)

/-- Key of element i of a register of a die: 0 TW, 1 TE, 2 to 5 F0 to F3. -/
def regKey (die : Nat) (r : Rg) (i : Nat) : Nat := (die * 512 + r.ctorIdx) * 8192 + i

/-- What an unlisted key of the register file reads as. -/
def regDefault (k : Nat) : Word :=
  match allRegs.find? fun x => decide (x.reg.ctorIdx = k / 8192 % 512) with
  | none => 0
  | some x => resetVal x.reg (k % 8192)

def Dev.rg (d : Dev) (die : Nat) (r : Rg) (i : Nat := 0) : Word := tgetF regDefault d.regs (regKey die r i)

def Dev.setRg (d : Dev) (die : Nat) (r : Rg) (i : Nat) (v : Word) : Dev :=
  { d with regs := tsetF regDefault d.regs (regKey die r i) v }

/-- A field of a register. -/
def Dev.rf (d : Dev) (die : Nat) (r : Rg) (i hi lo : Nat) : Nat := fld (d.rg die r i) hi lo

def Dev.setRf (d : Dev) (die : Nat) (r : Rg) (i hi lo v : Nat) : Dev :=
  d.setRg die r i (setFld (d.rg die r i) hi lo v)

/-- Add n to a counting field and saturate. -/
def Dev.bump (d : Dev) (die : Nat) (r : Rg) (i : Nat := 0) (hi : Nat := 31) (lo : Nat := 0) (n : Nat := 1) : Dev :=
  d.setRf die r i hi lo (min (d.rf die r i hi lo + n) (2 ^ (hi + 1 - lo) - 1))

/-- Set register r of a die to its reset value, all elements. -/
def Dev.resetRg (d : Dev) (die : Nat) (r : Rg) : Dev :=
  { d with regs := tdropRange d.regs (regKey die r 0) (regKey die r 8192) }

/-- Set all registers of a list of tables to reset values in one die. -/
def Dev.resetRegs (d : Dev) (die : Nat) (l : List RegDesc) : Dev := l.foldl (fun d x => d.resetRg die x.reg) d

/-! ## Status codes (R344) -/

def stOk : Nat := 0
def stPending : Nat := 1
def stWrong : Nat := 2
def stBadArg : Nat := 3
def stDenied : Nat := 4
def stBusy : Nat := 5
def stDup : Nat := 6
def stExpired : Nat := 7
def stIntegrity : Nat := 8
def stTimeout : Nat := 9
def stMalformed : Nat := 10
def stUnknown : Nat := 11
def stDegraded : Nat := 12
def stHalted : Nat := 13
def stTruncated : Nat := 14

/-! ## Events (R363) -/

/-- Append an event; the front end keeps the newest 1 024. -/
def Dev.event (d : Dev) (code src : Nat) (arg : Nat) : Dev :=
  let e : Event := { seq := d.hst.next, time := d.aon.count.truncate 32, code := code, src := src, arg := BitVec.ofNat 32 arg }
  let l := d.hst.events ++ [e]
  { d with hst := { d.hst with events := l.drop (l.length - 1024), next := d.hst.next + 1 } }

/-- SRC of an event: die select and block (R363). -/
def evSrc (s : Side) (blk : Nat) : Nat := s.code * 4096 + blk

/-! ## Fault pages (chapter 18) -/

def blkIdent : Nat := 0
def blkClk : Nat := 1
def blkSafe : Nat := 2
def blkTsk : Nat := 3
def blkTch : Nat := 4
def blkShelf : Nat := 5
def blkFace : Nat := 6
def blkDrl : Nat := 7
def blkQry : Nat := 8
def blkCal : Nat := 9
def blkCel : Nat := 10
def blkAtt : Nat := 11
def blkXts : Nat := 12
def blkHaul : Nat := 13
def blkStw : Nat := 14
def blkHst : Nat := 15
def blkCfg : Nat := 16
def blkAon : Nat := 17
def blkDbg : Nat := 18
def blkFab : Nat := 19

/-- Fault page of a bit of BLOCKS (R446). -/
def resetPage : Nat → Nat
  | 0 => blkTch
  | 1 => blkShelf
  | 2 => blkFace
  | 3 => blkDrl
  | 4 => blkQry
  | 5 => blkCal
  | 6 => blkCel
  | 7 => blkAtt
  | 8 => blkXts
  | 9 => blkHaul
  | 10 => blkStw
  | _ => blkTsk

/-- A block, by its bit of BLOCKS, is in reset: a RESET_PART holds it, or its checkers failed (R295, R446). -/
def Half.down (h : Half) (b : Nat) : Bool := h.reset.getLsbD b || h.stuck.getLsbD (resetPage b)

/-- Blocks active in TW only (R17, R29). -/
def twOnly (blk : Nat) : Bool := [blkClk, blkSafe, blkHst, blkCfg, blkAon, blkDbg].contains blk

/-- How a source is classified (R458): by severity with its default and whether it is fixed, by counting, or by bucket. -/
inductive SrcClass where
  | sev (n : Nat) (fixed : Bool)
  | counting
  | bucket
deriving DecidableEq, Repr

/-- Classifications of sources 0 up of each block, by the fault source tables; index 15 is CHECKER_FAIL (R308, R456). -/
def srcTable (blk : Nat) : List SrcClass :=
  match blk with
  | 1 => [.sev 3 true, .sev 3 true, .sev 0 false, .sev 1 false, .sev 1 false, .sev 3 true, .sev 1 false, .sev 1 false]
  | 2 => [.sev 3 true, .sev 3 true, .sev 1 false, .sev 0 false]
  | 3 => [.sev 1 false, .sev 1 false, .sev 1 false, .sev 1 false, .sev 1 false, .sev 0 false, .sev 1 false]
  | 4 => [.sev 3 false, .sev 1 false, .sev 1 false, .sev 1 false, .counting, .sev 1 false]
  | 5 => [.sev 3 false, .sev 1 false, .sev 0 false, .bucket]
  | 6 => [.sev 1 false, .sev 1 false, .sev 0 false, .sev 0 false, .sev 3 false, .sev 1 false]
  | 7 => [.sev 1 false, .sev 0 false, .sev 1 false]
  | 8 => [.sev 0 false, .sev 1 false, .sev 0 false, .sev 1 false, .bucket]
  | 9 => [.sev 1 false, .sev 1 false, .sev 1 false, .sev 1 false, .sev 0 false, .sev 1 false, .bucket, .sev 1 false]
  | 10 => [.sev 1 false, .sev 2 false, .sev 0 false, .sev 1 false, .bucket, .sev 1 false, .sev 1 false]
  | 11 => [.sev 0 false, .sev 1 false, .bucket, .sev 1 false, .sev 1 false]
  | 12 => [.sev 1 false, .sev 0 false, .sev 1 false, .sev 0 false, .sev 1 false, .sev 1 false, .sev 3 true,
           .sev 2 false, .sev 1 false]
  | 13 => [.counting, .sev 1 false, .sev 1 false, .sev 0 false, .sev 1 false, .sev 1 false]
  | 14 => [.sev 0 false, .sev 2 false, .sev 3 true, .sev 0 false, .sev 0 false, .sev 1 false, .sev 1 false]
  | 15 => [.counting, .sev 0 false, .sev 0 false]
  | 16 => [.sev 0 false, .sev 1 false, .sev 1 false]
  | 17 => [.sev 3 true, .sev 1 false, .sev 3 false, .sev 3 false, .sev 1 false, .sev 1 false, .sev 1 false, .sev 1 false,
           .bucket, .sev 1 false, .sev 1 false, .sev 1 false]
  | 18 => [.sev 1 false, .sev 0 false]
  | 19 => [.sev 1 false, .sev 1 false, .sev 1 false, .sev 3 true, .sev 0 false, .bucket, .bucket, .sev 1 false, .sev 3 false]
  | _ => []

/-- Classification of a source; none for an index no chapter lists. The AON page lists 0 to 3 and 8 to 11 (R455). -/
def srcClass (blk idx : Nat) : Option SrcClass :=
  if idx = 15 then some (.sev 3 true)
  else if blk = blkAon ∧ 4 ≤ idx ∧ idx ≤ 7 then none
  else (srcTable blk)[idx]?

/-- Default severity of a source in FLT_SEVERITY. -/
def sevDefault (blk idx : Nat) : Nat :=
  match srcClass blk idx with
  | some (.sev n _) => n
  | _ => 0

def srcFixed (blk idx : Nat) : Bool := srcClass blk idx = some (.sev 3 true)

/-- A mask of the 16 source indexes for which p holds. -/
def mask16 (p : Nat → Bool) : BitVec 16 :=
  BitVec.ofNat 16 ((List.range 16).foldl (fun a i => a + b1 (p i) * 2 ^ i) 0)

/-- FLT_COUNT_CFG at reset: N and WINDOW of the page's counting source (R60, R366, R391). -/
def countDefault (blk : Nat) : Word :=
  if blk = blkTch then pack [(0, 256), (16, 100)]
  else if blk = blkHst then pack [(0, 64), (16, 10000)]
  else if blk = blkHaul then pack [(0, 16), (16, 10)] else 0

/-- A fault page at its reset values. -/
def pageDefault (blk : Nat) : Page :=
  { severity := BitVec.ofNat 32 ((List.range 16).foldl (fun a i => a + sevDefault blk i * 2 ^ (2 * i)) 0)
    countCfg := countDefault blk }

def pageKey (s : Side) (blk : Nat) : Nat := s.code * 32 + blk

def Dev.page (d : Dev) (s : Side) (blk : Nat) : Page := tgetF (fun k => pageDefault (k % 32)) d.pages (pageKey s blk)

def Dev.setPage (d : Dev) (s : Side) (blk : Nat) (p : Page) : Dev :=
  { d with pages := tsetF (fun k => pageDefault (k % 32)) d.pages (pageKey s blk) p }

/-- Severity in force of a source (R458, R459). -/
def Page.sev (p : Page) (blk idx : Nat) : Nat :=
  match srcClass blk idx with
  | some (.sev _ true) => 3
  | some (.sev _ false) => fld p.severity (2 * idx + 1) (2 * idx)
  | _ => 1

/-- FLT_FIRST takes a capture of a raise unless a raise is held (R462). -/
def Page.capture (p : Page) (idx time : Nat) : Page :=
  if fld p.first 31 31 = 1 ∧ fld p.first 30 30 = 0 then p
  else { p with first := pack [(31, 1), (26, idx), (0, time % 2 ^ 26)] }

/-- Capacity of an event queue, 16 to 256 as firmware set it (R418). -/
def queueCap (s : Side) (q : Nat) : Nat := 16 + Config.queueCapacity s.code q % 241

/-- A page's raise without its event queue entry: SRC, capture, FAULT event or counters record, safe request (R459). -/
def Dev.raiseQuiet (d : Dev) (s : Side) (blk idx : Nat) : Dev :=
  if (s = .e ∧ twOnly blk) ∨ srcClass blk idx = none then d else
  let p := d.page s blk
  if !p.enable.getLsbD idx then d else
  let p := { p.capture idx d.aon.count.toNat with src := bitSet p.src idx }
  match p.sev blk idx with
  | 0 => d.setPage s blk { p with journal := tset 0 p.journal idx (tget 0 p.journal idx + 1) }
  | 3 => (d.setPage s blk { p with req := bitSet p.req idx }).event 1 (evSrc s blk) (idx + 3 * 256)
  | v => (d.setPage s blk p).event 1 (evSrc s blk) (idx + v * 256)

/-- Post an entry to event queue q of a T-die. A full queue pushes back (R418): the count grows and QUEUE_PUSHBACK is
raised the first time since its last clear; true when the entry was taken. -/
def Dev.post (d : Dev) (s : Side) (q : Nat) (e : BitVec 64) : Dev × Bool :=
  let t := (d.half s).tsk
  let eq := tget {} t.queues q
  if eq.entries.length < queueCap s q then
    let eq := { eq with entries := eq.entries ++ [e], peak := max eq.peak (eq.entries.length + 1) }
    (d.mod s fun h => { h with tsk := { h.tsk with queues := tset {} h.tsk.queues q eq } }, true)
  else
    let eq := { eq with push := min (eq.push + 1) (2 ^ 32 - 1) }
    let d := d.mod s fun h => { h with tsk := { h.tsk with queues := tset {} h.tsk.queues q eq } }
    (if (d.page s blkTsk).src.getLsbD 5 then d else d.raiseQuiet s blkTsk 5, false)

/-- A source of a fault page is raised (R459). Block b posts to event queue b of its T-die (log entry 7); an entry that
meets a full queue stays latched in the page. -/
def Dev.raise (d : Dev) (s : Side) (blk idx : Nat) : Dev :=
  if (s = .e ∧ twOnly blk) ∨ srcClass blk idx = none then d else
  let p := d.page s blk
  if !p.enable.getLsbD idx then d else
  let d := d.raiseQuiet s blk idx
  if p.sev blk idx = 0 then d else
  let (d, ok) := d.post s blk (Config.faultEntry s.code blk idx)
  if ok then d else
  let p := d.page s blk
  d.setPage s blk { p with held := bitSet p.held idx }

/-- The lasting condition of a source begins (ACTIVE) and raises it (R456). -/
def Dev.condOn (d : Dev) (s : Side) (blk idx : Nat) : Dev :=
  let p := d.page s blk
  (d.setPage s blk { p with active := bitSet p.active idx }).raise s blk idx

/-- Safe requests of these sources are withdrawn when their condition ends (R469). -/
def automatic (blk idx : Nat) : Bool :=
  (blk = blkSafe && idx = 0) || (blk = blkClk && (idx = 0 || idx = 1 || idx = 5)) || (blk = blkAon && idx = 0)

/-- SRC bits and requests of these sources end with power-on or module reset only (R469). -/
def resetOnly (blk idx : Nat) : Bool :=
  idx = 15 || (blk = blkFab && idx = 3) || (blk = blkStw && idx = 2) || (blk = blkSafe && idx = 1)

/-- The lasting condition of a source ends. -/
def Dev.condOff (d : Dev) (s : Side) (blk idx : Nat) : Dev :=
  let p := d.page s blk
  d.setPage s blk { p with active := bitClear p.active idx
                           req := if automatic blk idx then bitClear p.req idx else p.req }

/-- An event of a counting source for the named unit of count (R460). The answer says whether the count reached N. -/
def Dev.countEvent (d : Dev) (s : Side) (blk idx inst : Nat) : Dev × Bool :=
  let p := d.page s blk
  let n := tget 0 p.counts inst + 1
  if n < fld p.countCfg 15 0 then
    (d.setPage s blk { p with counts := tset 0 p.counts inst n }, false)
  else ((d.setPage s blk { p with counts := tset 0 p.counts inst 0 }).raise s blk idx, true)

/-- A request of a Cellar port, accepted in an SC cycle, completes: late beyond its target, in 10 ns units, it counts (R271). -/
def Dev.completed (d : Dev) (s : Side) (port since : Nat) : Dev :=
  if 8 * d.rf s.code .celQos port 15 0 < d.clk.cycles - since then d.bump s.code .celExpired port else d

/-- A correction of a bucket source (R297): the level rises by one; one that finds it at CAP raises the source; one that
finds it empty may be captured (R462). -/
def Dev.correction (d : Dev) (s : Side) (blk idx : Nat) : Dev :=
  let p := d.page s blk
  let lv := tget 0 p.levels idx
  if lv ≥ fld p.bucket 7 0 then d.raise s blk idx else
  let p1 := { p with levels := tset 0 p.levels idx (lv + 1) }
  let p2 := if lv = 0 ∧ fld p.first 31 31 = 0
            then { p1 with first := pack [(31, 1), (30, 1), (26, idx), (0, d.aon.count.toNat % 2 ^ 26)] } else p1
  d.setPage s blk p2

/-- A page requests the SAFE net (R464). -/
def Page.requests (p : Page) : Bool := p.req ≠ 0 || p.noMaj

/-- Something requests the SAFE net now (R464). -/
def Dev.safeWanted (d : Dev) : Bool := d.safe.safeNLow || d.pages.any fun kv => kv.2.requests

/-! ## Hooks (R230) -/

def Half.hook (h : Half) (k : Nat) : Hook := tget {} h.fab.hooks k

def Half.setHook (h : Half) (k : Nat) (x : Hook) : Half := { h with fab := { h.fab with hooks := tset {} h.fab.hooks k x } }

/-- A slot that is not presented, or a return that is late, is counted (R230, R232). -/
def Dev.hookMissed (d : Dev) (s : Side) (hook : Nat) : Dev := (d.bump s.code .fabHookLate hook 15 0).raise s blkFab 0

/-- An issue enters the queue between a window and the inbound bus; one that finds 8 waiting is not presented (R230). -/
def Dev.offer (d : Dev) (s : Side) (hook n : Nat) : Dev :=
  let x := (d.half s).hook hook
  if 8 ≤ x.queue.length then d.hookMissed s hook
  else d.mod s fun h => h.setHook hook { x with queue := x.queue ++ [n] }

end Sys2Proof.Machine
end

