-- ==== Sys2Proof/Machine/Wire.lean ====
section
/-! DEFINITION. Bits on the wires between dies and modules: the self-synchronous scrambler (R371), the blocks and frames of
a Haul quad (R371 to R375), the PRBS checker (R374) and the frames of the Stairwell (R393, R394). -/
namespace Sys2Proof.Machine

/-- One bit through the scrambler x^58 + x^39 + 1: its register holds the last 58 bits sent, the newest lowest (R371). -/
def scrambleBit (reg : Nat) (b : Bool) : Nat :=
  (2 * reg + (b ^^ reg.testBit 57 ^^ reg.testBit 38).toNat) % 2 ^ 58

/-- Bits of a number scrambled, the least significant first: the register afterwards and the bits sent. -/
def scramble (n reg v : Nat) : Nat × Nat :=
  (List.range n).foldl (fun a i =>
    let reg := scrambleBit a.1 (v.testBit i)
    (reg, a.2 + reg % 2 * 2 ^ i)) (reg, 0)

/-- Bits received and descrambled: each is recovered from itself and the earlier bits received. -/
def descramble (n reg v : Nat) : Nat × Nat :=
  (List.range n).foldl (fun a i =>
    let b := v.testBit i
    ((2 * a.1 + b.toNat) % 2 ^ 58, a.2 + (b ^^ a.1.testBit 57 ^^ a.1.testBit 38).toNat * 2 ^ i)) (reg, 0)

/-! ## PRBS (R374) -/

/-- Taps of a PRBS code of HAUL_LANE_CTRL: PRBS7, PRBS13, PRBS31. -/
def prbsTaps : Nat → List Nat
  | 1 => [7, 6]
  | 2 => [13, 12, 2, 1]
  | 3 => [31, 28]
  | _ => []

/-- The bit that follows n earlier bits, the newest first. -/
def prbsNext (code : Nat) (past : List Bool) : Bool := (prbsTaps code).foldl (fun a t => a ^^ past.getD (t - 1) false) false

/-- A self-synchronising checker: every bit after the first of the generator's length is held to the ones before it. -/
def prbsErrors (code : Nat) : List Bool → List Bool → Nat
  | _, [] => 0
  | past, b :: rest =>
    (if (prbsTaps code).headD 0 ≤ past.length ∧ b ≠ prbsNext code past then 1 else 0) + prbsErrors code (b :: past) rest

/-! ## Haul blocks and frames -/

/-- A 64b/66b block: its sync header, 1 for data and 2 for control, and its 64 bits (R371). -/
abbrev Block := Nat × Nat

def syncData : Nat := 1
def syncControl : Nat := 2

/-- Block types of control blocks: frame header, IDLE and ALIGN, and the blocks between two ALIGN blocks (R372, R375). -/
def btHeader : Nat := 0xD2
def btIdle : Nat := 0x1E
def btAlign : Nat := 0x87
def alignEvery : Nat := 16384

/-- A number's 64-bit words, the lowest first. -/
def words64 : Nat → Nat → List Nat
  | 0, _ => []
  | n + 1, v => v % 2 ^ 64 :: words64 n (v / 2 ^ 64)

/-- A frame: its header block and its data blocks. The CRC covers header bits [31:0] and the data (R375). -/
def haulFrame (ft seq : Nat) (data : List Nat) : List Block :=
  let low := btHeader + ft % 256 * 2 ^ 8 + data.length % 128 * 2 ^ 16 + seq % 256 * 2 ^ 24
  let crc := crc32 (leNats 4 low ++ data.flatMap (leNats 8))
  (syncControl, low + crc * 2 ^ 32) :: data.map fun w => (syncData, w % 2 ^ 64)

/-- A frame that a receiver may take: its header's type, length and CRC (R375, R391). -/
def frameGood : List Block → Bool
  | [] => false
  | h :: data =>
    h.1 = syncControl && h.2 % 256 = btHeader && decide (h.2 / 2 ^ 16 % 128 = data.length) && data.all (fun w => decide (w.1 = syncData))
      && decide (h.2 / 2 ^ 32 = crc32 (leNats 4 (h.2 % 2 ^ 32) ++ data.flatMap fun w => leNats 8 w.2))

/-- An injected error flips one bit of the first data block (R374). -/
def injectBit (k : Nat) : List Block → List Block
  | h :: w :: rest => h :: (w.1, w.2 ^^^ 2 ^ (k % 64)) :: rest
  | l => l

/-- Blocks striped over the four lanes from a block number on, each lane's bits scrambled from its register on: lane, sync
header and scrambled bits (R371, R372). -/
def stripe (first : Nat) (regs : Nat → Nat) (blocks : List Block) : List (Nat × Block) :=
  (blocks.zipIdx first).foldl (fun (a : (Nat → Nat) × List (Nat × Block)) b =>
    let lane := b.2 % 4
    let (reg, bits) := scramble 64 (a.1 lane) b.1.2
    (fun l => if l = lane then reg else a.1 l, a.2 ++ [(lane, b.1.1, bits)])) (regs, []) |>.2

/-! ## Stairwell frames (R393, R394) -/

/-- Words of a frame: header, flit, trailer with its CRC. -/
def stwWords (header : Nat) (flit : List Nat) (trailer : Nat) : List Nat :=
  let body := header :: flit
  body ++ [trailer + crc32 (body.flatMap (leNats 8) ++ leNats 4 trailer) * 2 ^ 32]

/-- Lanes of a mask, in rising order. -/
def lanesOf (mask : Nat) : List Nat := (List.range 16).filter mask.testBit

/-- Bits of a frame on its active lanes: bit i on the i mod W-th lane, in UI i / W, scrambled lane by lane. -/
def stwWire (lanes : List Nat) (regs : Nat → Nat) (words : List Nat) : List (Nat × Nat) :=
  let v := words.zipIdx.foldl (fun a w => a + w.1 % 2 ^ 64 * 2 ^ (64 * w.2)) 0
  let w := lanes.length
  lanes.zipIdx.map fun l =>
    let bits := (List.range (768 / w)).foldl (fun a u => a + (v.testBit (w * u + l.2)).toNat * 2 ^ u) 0
    (l.1, (scramble (768 / w) (regs l.1) bits).2)

end Sys2Proof.Machine
end

