-- ==== Sys2Proof/Machine/Flags.lean ====
section
/-! DEFINITION. The status computations of the module: the sequencer states, DEVICE_STATE, the STATUS block, and the
responses and halts of a burst that depend on them. -/
namespace Sys2Proof.Machine

/-- FACE_STATUS.STATE code. -/
def FaceState.code : FaceState → Nat
  | .idle => 0
  | .loaded => 1
  | .armed => 2
  | .running => 3
  | .draining => 4
  | .done => 5
  | .aborted => 6

/-- RUNNING or DRAINING. -/
def FaceSt.bursting (f : FaceSt) : Bool := f.state = .running || f.state = .draining

/-- ARMED, RUNNING or DRAINING. -/
def FaceSt.active (f : FaceSt) : Bool := f.state = .armed || f.bursting

/-- The burst has ended ABORTED and its flush runs (R130, R135). -/
def FaceSt.flushing (f : FaceSt) : Bool := f.burst.unwritten && !f.active

/-- The burst lock of R32 holds in the half. -/
def Half.locked (h : Half) : Bool := h.face.active || h.face.arming

/-- IDLE, LOADED, DONE or ABORTED with ARMING = 0. -/
def Half.quiet (h : Half) : Bool := !h.locked

/-- Function f is host-assisted in this half (R425). -/
def Half.assisted (h : Half) (f : Nat) : Bool := h.modes.getLsbD f

/-- Life-cycle code in registers and attestation (R309). -/
def Life.code : Life → Nat
  | .blank => 0
  | .manufacture => 1
  | .deployed => 2
  | .returned => 3
  | .retired => 4

/-- MANUFACTURE or RETURNED. -/
def Life.open : Life → Bool
  | .manufacture => true
  | .returned => true
  | _ => false

/-- A control core of a T-die is halted. -/
def TskSt.halted (t : TskSt) : Bool := t.core0.halted || t.core1.halted || t.core2.halted || t.core3.halted

/-- The device is CONFIGURED; the checks of a new load change nothing in that (R253). -/
def Dev.configured (d : Dev) : Bool :=
  d.cfg.state = 5 || (d.cfg.state = 1 && (match d.cfg.load with
    | some l => decide (l.prev = 5)
    | none => false))

/-- The Stairwell is down for the host: TW's end shows DOWN, or TE's firmware has not started (R23, R400, R413). -/
def Dev.stwDown (d : Dev) : Bool := d.west.stw.state = 4 || !d.east.tsk.started

/-- The Stairwell is not down. -/
def Dev.stwUp (d : Dev) : Bool := !d.stwDown

/-- DEVICE_STATE: the first row of R353 whose condition holds. -/
def Dev.state (d : Dev) : Nat :=
  if d.clk.power = .sleep then 9
  else if d.safe.asserted then 8
  else if !d.west.tsk.started then 1
  else if d.west.face.bursting || d.east.face.bursting then 6
  else if d.west.locked || d.east.locked then 5
  else if d.west.tsk.halted || d.east.tsk.halted || d.west.reset ≠ 0 || d.east.reset ≠ 0 then 7
  else if d.west.face.plan.isSome || d.east.face.plan.isSome then 4
  else if d.configured then 3
  else 2

/-- A channel is CURRENT (R202); T is the latest sample of its group. -/
def Dev.current (d : Dev) (s : Side) (ch : Nat) : Bool :=
  let h := d.half s
  let b := tget {} h.cal.blocks ch
  let t := h.cal.temps.getD (ch / 32) 0
  let cfg := d.rg s.code .tchCfg ch
  h.cal.anchored.getLsbD ch
    && decide (t - b.tref ≤ 80) && decide (b.tref - t ≤ 80)
    && (h.assisted 1 || !h.cal.aged.getLsbD ch)
    && decide (b.swing = fld cfg 15 12 * 16 + fld cfg 11 8)

/-- A channel of TE has drifted by more than 1.0 ps (R204). -/
def CalSt.drift (c : CalSt) (ch : Nat) : Bool :=
  let p := (tget {} c.blocks ch).phiref
  decide (1000 < c.phi - p) || decide (1000 < p - c.phi)

/-- R204 holds in the half: no channel of TE has drifted by more than 1.0 ps. -/
def Dev.xhalfOk (d : Dev) (s : Side) : Bool :=
  match s with
  | .w => true
  | .e => (List.range 256).all fun ch => !d.east.cal.drift ch

/-- A half's calibration is valid (R203). Before its tables are loaded it is not (R192). -/
def Dev.calValid (d : Dev) (s : Side) : Bool :=
  (d.half s).cal.loaded && ((List.range 256).all fun ch => d.rf s.code .tchCfg ch 0 0 = 0 || d.current s ch)
    && (d.half s).cal.witness.all (fun w => decide (w ≠ some false)) && d.xhalfOk s

/-- Unreleased records in the module (R137). -/
def Dev.recordCount (d : Dev) : Nat := d.west.face.records.length + d.east.face.records.length

/-- Fired bursts whose records are not yet written (R134). -/
def Dev.openBursts (d : Dev) : Nat := b1 d.west.face.burst.unwritten + b1 d.east.face.burst.unwritten

/-- Record slots free (R134). -/
def Dev.slotsFree (d : Dev) : Nat := 64 - (d.recordCount + d.openBursts)

/-- BURST_ID of the newest ready record of a half. -/
def FaceSt.readyId (f : FaceSt) : Nat := f.records.foldl (fun a r => if a = 0xFFFFFFFF then r.burst else max a r.burst) 0xFFFFFFFF

/-- The 32-byte STATUS block (R355). -/
def Dev.statusBlock (d : Dev) (life : Life) : List Byte :=
  let up := d.stwUp
  beBytes 1 d.state ++ beBytes 1 life.code ++ beBytes 1 d.west.face.state.code
    ++ beBytes 1 (if up then d.east.face.state.code else 0xFF)
    ++ beBytes 1 d.cfg.state ++ beBytes 1 d.west.cel.state ++ beBytes 1 (if up then d.east.cel.state else 0xFF)
    ++ beBytes 1 (b1 (d.west.stw.state = 2) + 2 * b1 d.west.tsk.halted + 4 * b1 d.east.tsk.halted
        + 8 * b1 (d.west.face.blocked || d.east.face.blocked) + 16 * b1 (d.calValid .w) + 32 * b1 (d.calValid .e)
        + 64 * b1 d.west.face.arming + 128 * b1 d.east.face.arming)
    ++ beBytes 1 d.recordCount ++ beBytes 1 d.hst.sessions.length ++ beBytes 2 0
    ++ beBytes 4 d.hst.next ++ beBytes 8 d.aon.count.toNat
    ++ beBytes 4 d.west.face.readyId ++ beBytes 4 d.east.face.readyId

/-! ## Responses -/

/-- Change a session. -/
def Dev.modSession (d : Dev) (id : Nat) (f : Session → Session) : Dev :=
  { d with hst := { d.hst with sessions := d.hst.sessions.map fun x => if x.id = id then f x else x } }

/-- Bookkeeping of a WRONG_STATE rejection (R351): the count, the event and the fault source. -/
def Dev.rejected (d : Dev) (op : Nat) : Dev :=
  ((d.bump 0 .hstRejectCnt).event 5 (evSrc .w blkHst) (op * 256 + d.state)).raise .w blkHst 2

/-- The session with an id. -/
def Dev.session (d : Dev) (id : Nat) : Option Session := d.hst.sessions.find? fun x => decide (x.id = id)

/-- FLAGS of a frame of the device: RSP, SEALED, DUPLICATE, REPLAY_REQ (R343). -/
def Frame.flags (f : Frame) : Nat := 1 + 2 * b1 f.sealed + 4 * b1 f.dup + 8 * b1 f.replay

/-- The 24 bytes of the Hoist header (R343). -/
def Frame.header (f : Frame) : List Nat :=
  [1, f.flags, f.op % 256, f.status % 256] ++ beNats 4 f.session ++ beNats 4 f.seq ++ beNats 4 f.tag
    ++ beNats 4 f.payload.length ++ beNats 4 0

/-- A message on the wire: header and payload, or header, ciphertext and GCM tag. The nonce is the salt of the direction,
SEQUENCE and zeros, the additional data is the header (R344). -/
def Frame.wire (k : SessionKeys) (f : Frame) : List Nat :=
  let p := f.payload.map fun (b : Byte) => b.toNat
  f.header ++ if f.sealed then gcmSeal k.keyOut (k.saltOut * 2 ^ 64 + f.seq % 2 ^ 32 * 2 ^ 32) f.header p else p

/-- The Ethernet port sends a frame; nothing leaves it while the link is down. -/
def Dev.transmit (d : Dev) (f : Frame) : Dev :=
  let keys := match d.session f.session with
    | some x => x.keys
    | none => {}
  if d.hst.linkUp then d.emit (.hoist f (f.wire keys)) else d

/-- A frame goes to the host: sealed under the session's next device number, or as it stands without a session (R346). A
session that has ended gets nothing. -/
def Dev.send (d : Dev) (f : Frame) : Dev :=
  if f.session = 0 then d.transmit f else
  match d.session f.session with
  | none => d
  | some x => (d.transmit { f with seq := x.devSeq + 1 }).modSession f.session fun x => { x with devSeq := x.devSeq + 1 }

/-- The device ends a session (R348): SESSION_CLOSE with its reason, SESSION_CLOSED, and the keys are gone. -/
def Dev.closeSession (d : Dev) (id reason : Nat) (frame : Bool) : Dev :=
  match d.session id with
  | none => d
  | some x =>
  let d := if frame then d.send { session := id, dst := x.src, op := 4, payload := beBytes 1 reason } else d
  let l := d.hst.sessions.filter fun x => decide (x.id ≠ id)
  Dev.event { d with hst := { d.hst with sessions := l } } 8 (evSrc .w blkHst) (reason * 256 + l.length)

/-- Every session ends with a reason. -/
def Dev.closeAll (d : Dev) (reason : Nat) : Dev := d.hst.sessions.foldl (fun d x => d.closeSession x.id reason true) d

/-- The final response of a command (R350): sent under the next device number, retained when its payload has at most 512
bytes (R346). A WRONG_STATE carries the STATUS block, ahead of what the opcode adds, and is counted (R351). -/
def Dev.finishWith (d : Dev) (life : Life) (r : Reply) (status : Nat) (payload : List Byte) (dup : Bool) : Dev :=
  let pl := if status = stWrong then d.statusBlock life ++ payload else payload
  let d := if status = stWrong then d.rejected r.op else d
  let f : Frame := { session := r.session, dst := r.src, tag := r.tag, op := r.op, status := status, dup := dup
                     sealed := decide (r.session ≠ 0), payload := pl }
  (d.send f).modSession r.session fun x =>
    { x with busy := x.busy.filter (fun q => decide (q ≠ r.seq))
             kept := if pl.length ≤ 512 then x.kept ++ [(r.seq, f)] else x.kept }

def Dev.finish (d : Dev) (life : Life) (r : Reply) (status : Nat) (payload : List Byte) : Dev :=
  d.finishWith life r status payload false

/-- Bytes before the Hoist header in an encapsulation (R341). -/
def encapBytes : Nat → Nat
  | 0 => 0
  | 1 => 28
  | _ => 48

/-- A response payload of n bytes fits in the session's MAX_FRAME, or in 1 500 bytes without a session (R356). -/
def Dev.fits (d : Dev) (r : Reply) (n : Nat) : Bool :=
  match d.session r.session with
  | some x => decide (encapBytes r.encap + 24 + n + 16 ≤ x.maxFrame)
  | none => decide (encapBytes r.encap + 24 + n ≤ 1500)

/-- A refusal: BUSY carries RETRY, any other status nothing (R344). -/
def Dev.refuse (d : Dev) (life : Life) (r : Reply) (status : Nat) : Dev :=
  if status = stBusy then (d.finish life r status (beBytes 4 (Config.retry d.free % 2 ^ 32))).draw
  else d.finish life r status []

/-- A half's status enters an ARM that waits for it. -/
def ArmWait.take (a : ArmWait) (s : Side) (st : Nat) : ArmWait :=
  match s with
  | .w => if a.w.isNone then { a with w := some st } else a
  | .e => if a.e.isNone then { a with e := some st } else a

/-- The half's part of an ARM ends with a status. The response follows when every named half has its status: OK and the
per-half statuses (R361), 0xFF for a half not named. -/
def Dev.armPart (d : Dev) (life : Life) (s : Side) (st : Nat) : Dev :=
  let l := d.hst.arms.map fun a => a.take s st
  let ended (a : ArmWait) : Bool := a.w.isSome && a.e.isSome
  (l.filter ended).foldl (fun d a => d.finish life a.reply stOk
      (beBytes 1 (a.w.getD 0xFF) ++ beBytes 1 (a.e.getD 0xFF) ++ beBytes 2 0))
    { d with hst := { d.hst with arms := l.filter fun a => !ended a } }

/-! ## Attic reads -/

/-- An Attic line that a read corrected, or could not correct, is suspect (R294, R298). -/
def Dev.attSuspect (d : Dev) (s : Side) (line : Nat) : Dev :=
  d.mod s fun h => { h with att := { h.att with suspect := if h.att.suspect.contains line then h.att.suspect else h.att.suspect ++ [line] } }

def Dev.attCorr (d : Dev) (s : Side) (line : Nat) : Dev := (d.attSuspect s line).correction s blkAtt 2

/-- An uncorrectable read of an Attic line: it stays so until it is written whole (R294). -/
def Dev.attUncorr (d : Dev) (s : Side) (line : Nat) : Dev :=
  ((d.attSuspect s line).mod s fun h => { h with att := { h.att with bad := if h.att.bad.contains line then h.att.bad else h.att.bad ++ [line] } }).raise
    s blkAtt 3

/-- What a read of an Attic line gives: what the decoder finds, or that the line is known to be lost (R294, R298). -/
def Half.atticRead (h : Half) (line : Nat) (e : Ecc) : Ecc := if h.att.poison line then .uncorr else e

/-! ## Ending a burst -/

/-- TCH_HALF_STATUS.CAUSE that an abort cause sets (R135). The inhibit of cause SAFE is the net's own, and ends with it
(R69): it leaves no cause in the half. -/
def causeTch : Nat → Nat
  | 1 => 5
  | 5 => 2
  | 6 => 4
  | 7 => 6
  | 8 => 7
  | 9 => 0
  | _ => 3

/-- Priority of an abort cause, 1 the highest (R135). -/
def causePrio : Nat → Nat
  | 1 => 9
  | 2 => 5
  | 3 => 6
  | 4 => 7
  | 5 => 2
  | 6 => 8
  | 7 => 3
  | 8 => 4
  | _ => 1

/-- The loader stops and leaves its slot INVALID (R97). -/
def ShelfSt.stopLoad (x : ShelfSt) : ShelfSt :=
  match x.load with
  | none => x
  | some l => if l.slot = 0 then { x with st0 := .invalid, load := none } else { x with st1 := .invalid, load := none }

/-- A running or halted drill stops with its registers kept (R155). -/
def Drill.stop (x : Drill) : Drill := if x.st = 2 ∨ x.st = 3 then { x with st := 1 } else x

/-- A spoil file that was created for a burst that never fired is discarded (R181). -/
def Half.dropLive (h : Half) : Half :=
  { h with files := h.files.filter (fun f => !f.live), qry := { h.qry with files := [], state := .idle } }

/-- An abort cause reaches a half (R130, R135, R136). While RUNNING or DRAINING it ends the burst; while the flush of an
aborted burst runs it joins FACE_CAUSE.SET, and takes CAUSE when it arose in the same SC cycle with a higher priority;
while ARMED it ends the arming without a record. -/
def Half.abort (h : Half) (cause : Nat) : Half :=
  let f := h.face
  let set := bitSet f.causeSet (cause - 1)
  let quarantine : QrySt := if cause = 5 then { h.qry with quarantined := true } else h.qry
  if f.bursting then
    { h with
      face := { f with state := .aborted, cause := cause, causeSet := set, chuteQ := [], chuteOn := false,
                       burst := { f.burst with abortIssue := some f.burst.issues, abortAt := some f.burst.cycle, cause := cause,
                                               lastStep := f.cur.pc, integ := f.burst.integ || cause = 5 } }
      tch := { h.tch with cause := causeTch cause }
      shelf := h.shelf.stopLoad
      drl0 := h.drl0.stop
      drl1 := h.drl1.stop
      qry := { quarantine with state := .flushing } }
  else if f.flushing then
    let first : Bool := decide (f.burst.abortAt = some f.burst.cycle) && decide (causePrio cause < causePrio f.burst.cause)
    { h with
      face := { f with causeSet := set, cause := if first && !f.arming then cause else f.cause,
                       burst := { f.burst with integ := f.burst.integ || cause = 5
                                               cause := if first then cause else f.burst.cause } }
      tch := if (first || h.tch.cause = 0) && cause ≠ 9 && f.state = .aborted && !f.arming
             then { h.tch with cause := causeTch cause } else h.tch
      qry := quarantine }
  else if f.state = .armed ∧ (cause = 1 ∨ cause = 9) then
    let h := h.dropLive
    { h with face := { f with state := .aborted, cause := cause, causeSet := set }
             tch := { h.tch with cause := causeTch cause } }
  else h

def Dev.abort (d : Dev) (s : Side) (cause : Nat) : Dev := d.mod s fun h => h.abort cause

/-- Inhibit is in force on the half (R69). -/
def Dev.inhibited (d : Dev) (s : Side) : Bool := d.safe.asserted || (d.half s).tch.cause ≠ 0

/-- The ARM work of a half stops: nothing of it stays (R130). `plan` says whether the plan is kept. -/
def Half.stopArming (h : Half) (plan : Bool) : Half :=
  let h := if h.face.flushing then h else h.dropLive
  { h with
    face := { h.face with arming := false, state := if plan then .loaded else .idle, chuteQ := [], chuteOn := false
                          plan := if plan then h.face.plan else none }
    xts := { h.xts with checks := if h.face.flushing then h.xts.checks else [] }
    shelf := h.shelf.stopLoad }

end Sys2Proof.Machine
end

