-- ==== Sys2Proof/Machine/Drills.lean ====
section
/-! DEFINITION. The drill units (chapter 5): the program check, one instruction per issue, scrambling and the pin map. -/
namespace Sys2Proof.Machine

/-- Little-endian field of a drill image (R158). -/
def Drill.le (x : Drill) (off n : Nat) : Nat := rdLE (fun i => x.img.getD i 0) off n

def Drill.usesHook (x : Drill) : Bool := x.le 6 1 % 2 = 1
def Drill.xstart (x : Drill) : Nat := x.le 0x10 4
def Drill.xend (x : Drill) : Nat := x.le 0x14 4
def Drill.ystart (x : Drill) : Nat := x.le 0x18 4
def Drill.yend (x : Drill) : Nat := x.le 0x1C 4

/-- Bits hi down to lo of the instruction at address a (R144). -/
def Drill.ins (x : Drill) (a hi lo : Nat) : Nat := x.le (0x980 + 16 * a) 16 / 2 ^ lo % 2 ^ (hi + 1 - lo)

/-- Bit i of {Y, X} (R148). -/
def addrBit (x y i : Nat) : Bool := if i < 24 then x.testBit i else y.testBit (i - 24)

/-- One address scramble entry (R148). -/
def scrBit (e x y : Nat) : Bool :=
  let a := addrBit x y (e % 64)
  let b := addrBit x y (e / 64 % 64)
  match e / 4096 % 4 with
  | 0 => a
  | 1 => !a
  | 2 => a != b
  | _ => !(a != b)

/-- n bits from a function, as a number. -/
def bitsOf (n : Nat) (f : Nat → Bool) : Nat := (List.range n).foldl (fun a i => a + b1 (f i) * 2 ^ i) 0

/-- Physical X′ and Y′ of a logical address (R148). -/
def Drill.phys (x : Drill) (lx ly : Nat) : Nat × Nat :=
  (bitsOf 24 fun i => scrBit (x.le (0x80 + 2 * i) 2) lx ly, bitsOf 24 fun i => scrBit (x.le (0x80 + 2 * (24 + i)) 2) lx ly)

/-- D′ from D at a physical address (R149). -/
def Drill.physData (x : Drill) (px py : Nat) (v : BitVec 64) : Nat :=
  bitsOf 64 fun i =>
    let e := x.le (0xE0 + 2 * i) 2
    let a := addrBit px py (e % 64)
    let b := addrBit px py (e / 64 % 64)
    let inv := match e / 4096 % 4 with
      | 0 => false
      | 1 => a
      | 2 => a != b
      | _ => true
    v.getLsbD i != inv

/-- Symbol of a channel from a drill's output (R150); a drill that is not RUNNING gives HOLD. -/
def Drill.symbol (x : Drill) (o : DrillOut) (px py pd ch : Nat) : Nat :=
  let e := x.le (0x180 + 8 * ch) 8
  if !o.running then e / 2 ^ 40 % 16 else
  let src := e / 2 ^ 32 % 128
  let b := if src < 24 then px.testBit src
           else if src < 48 then py.testBit (src - 24)
           else if src < 112 then pd.testBit (src - 48)
           else o.ctl.getLsbD (src - 112)
  e / 16 ^ (2 * o.mode + b1 b) % 16

/-- X operation (R145): the next X, and whether it was INC at XEND or DEC at XSTART. -/
def Drill.xop (x : Drill) (op imm : Nat) : Nat :=
  match op with
  | 1 => if x.x = x.xend then x.xstart else (x.x + 1) % 2 ^ 24
  | 2 => if x.x = x.xstart then x.xend else (x.x + 2 ^ 24 - 1) % 2 ^ 24
  | 3 => x.xstart
  | 4 => x.xend
  | 5 => imm
  | _ => x.x

/-- Y operation (R145); CINC and CDEC act on the wrap of X by this issue's X operation. -/
def Drill.yop (x : Drill) (op xop imm : Nat) : Nat :=
  let inc := if x.y = x.yend then x.ystart else (x.y + 1) % 2 ^ 24
  let dec := if x.y = x.ystart then x.yend else (x.y + 2 ^ 24 - 1) % 2 ^ 24
  match op with
  | 1 => inc
  | 2 => dec
  | 3 => x.ystart
  | 4 => x.yend
  | 5 => imm
  | 6 => if xop = 1 ∧ x.x = x.xend then inc else x.y
  | 7 => if xop = 2 ∧ x.x = x.xstart then dec else x.y
  | _ => x.y

/-- Data operation (R146). -/
def Drill.dop (x : Drill) (op sel px py : Nat) : BitVec 64 :=
  let bg : BitVec 64 := BitVec.ofNat 64 (x.le (0x48 + 8 * sel) 8)
  match op with
  | 1 => bg
  | 2 => ~~~x.d
  | 3 => ~~~bg
  | 4 => x.d.rotateLeft 1
  | 5 => x.d.rotateRight 1
  | 6 => BitVec.ofNat 64 (py * 2 ^ 24 + px)
  | _ => x.d

def Drill.cnt (x : Drill) : Nat → Nat
  | 0 => x.c0
  | 1 => x.c1
  | 2 => x.c2
  | _ => x.c3

def Drill.setCnt (x : Drill) (n v : Nat) : Drill :=
  match n with
  | 0 => { x with c0 := v }
  | 1 => { x with c1 := v }
  | 2 => { x with c2 := v }
  | _ => { x with c3 := v }

/-- The hook's flag that the condition of an issue of SC cycle k uses: returned for an issue at least 20 cycles before (R154);
it reads 0 without USES_HOOK (R153). -/
def Drill.flagAt (x : Drill) (k : Nat) : Bool :=
  x.usesHook && match x.recent.find? fun r => decide (r.1 + 20 ≤ k) with
    | some r => r.2
    | none => x.flag

/-- A flag is returned for an issue of SC cycle k. At most 40 issues lie within 20 cycles (R44). -/
def Drill.flagged (x : Drill) (k : Nat) (v : Bool) : Drill := { x with recent := ((k, v) :: x.recent).take 64 }

/-- The latest flag of a burst that is over. -/
def Drill.settleFlag (x : Drill) : Drill :=
  match x.recent with
  | [] => x
  | r :: _ => { x with flag := r.2, recent := [] }

/-- Condition of R147 on the values before the update, in an issue of SC cycle k: jump or not, and the drill with a counter
stepped. -/
def Drill.cond (x : Drill) (k c : Nat) : Bool × Drill :=
  match c with
  | 1 => (true, x)
  | 2 | 3 | 4 | 5 =>
    let n := c - 2
    if x.cnt n = 0 then (false, x.setCnt n (x.le (0x28 + 4 * n) 4)) else (true, x.setCnt n (x.cnt n - 1))
  | 6 => (!(x.x = x.xend && x.y = x.yend), x)
  | 7 => (!(x.x = x.xstart && x.y = x.ystart), x)
  | 8 => (!(x.x = x.xend : Bool), x)
  | 9 => (!(x.x = x.xstart : Bool), x)
  | 10 => (x.flagAt k, x)
  | 11 => (!x.flagAt k, x)
  | _ => (false, x)

/-- A running drill executes one instruction for an issue of SC cycle k (R143, R144, R155). -/
def Drill.execute (x : Drill) (k : Nat) : Drill × DrillOut :=
  if x.st ≠ 2 then (x, {}) else
  let a := x.pc
  let (px, py) := x.phys x.x x.y
  let dv := x.dop (x.ins a 35 32) (x.ins a 37 36) px py
  let ctl : BitVec 16 := BitVec.ofNat 16 (x.ins a 55 40)
  let mode := x.ins a 31 30
  let out : DrillOut := { running := true, pc := a, x := x.x, y := x.y, d := dv, ctl := ctl, mode := mode }
  let last := x.rep ≥ x.ins a 23 16
  let (jump, xc) := if last then x.cond k (x.ins a 15 12) else (false, x)
  let imm := x.ins a 79 56
  let nx := x.xop (x.ins a 26 24) imm
  let ny := x.yop (x.ins a 29 27) (x.ins a 26 24) imm
  let halt := last && x.ins a 15 12 = 12
  ({ xc with
      x := nx, y := ny, d := dv, ctl := ctl, mode := mode, pcLast := a
      issues := min (x.issues + 1) (2 ^ 32 - 1)
      rep := if last then 0 else x.rep + 1
      pc := if !last then a else if jump then x.ins a 11 0 else (a + 1) % 4096
      st := if halt then 3 else 2 }, out)

/-- DSTART takes effect (R155). -/
def Drill.start (x : Drill) (addr : Nat) : Drill :=
  if x.st ≠ 1 then x else
  { x with st := 2, x := x.le 0x20 4, y := x.le 0x24 4, d := BitVec.ofNat 64 (x.le 0x40 8)
           c0 := x.le 0x28 4, c1 := x.le 0x2C 4, c2 := x.le 0x30 4, c3 := x.le 0x34 4
           pc := addr, rep := 0, issues := 0 }

/-- ARM loads a checked program image; the registers keep their values until DSTART (R155, R157, R158). -/
def Drill.load (img : List Byte) (old : Drill) : Drill := { old with img := img, st := 1 }

/-- ARM of a plan that does not name the drill discards its program (R155). -/
def Drill.discard (x : Drill) : Drill := { x with img := [], st := 0 }

/-- All bytes of img from off up to off + n are zero. -/
def zeroBytes (img : List Byte) (off n : Nat) : Bool := ((img.drop off).take n).all (fun b => decide (b = 0))

/-- The first condition of R159 that an image meets: reason, area and index. starts are the DSTART addresses the plan
names for the drill; fabric is USES_FABRIC of the plan. Within a condition the header comes first, then the tables, then the
instructions, whose reserved bits count where SIZE holds; ENTRY names the header (DESIGN CHOICE, log entry 58). -/
def drillCheck (img : List Byte) (len : Nat) (starts : List Nat) (fabric : Bool) : Option (Nat × Nat × Nat) :=
  let x : Drill := { img := img }
  let n := x.le 4 2
  let hdr := x.le 0 4 ≠ 1 || x.le 6 1 ≥ 2 || !zeroBytes img 7 9 || !zeroBytes img 0x38 8 || !zeroBytes img 0x68 24
    || !zeroBytes img 0x160 32
  let scrResv := (List.range 112).find? fun i => decide (x.le (0x80 + 2 * i) 2 ≥ 2 ^ 14)
  let pinResv := (List.range 256).find? fun i =>
    let e := x.le (0x180 + 8 * i) 8
    e / 2 ^ 39 % 2 = 1 || e ≥ 2 ^ 44
  let insResv := (List.range n).find? fun a => x.ins a 39 38 ≠ 0 || x.ins a 127 80 ≠ 0
  let range := x.xstart > x.xend || x.ystart > x.yend
    || x.le 0x20 4 < x.xstart || x.xend < x.le 0x20 4 || x.le 0x24 4 < x.ystart || x.yend < x.le 0x24 4
    || (List.range 10).any fun i => decide (x.le (0x10 + 4 * i) 4 ≥ 2 ^ 24)
  let scr := (List.range 112).find? fun i =>
    let e := x.le (0x80 + 2 * i) 2
    decide (e % 64 ≥ 48) || decide (e / 64 % 64 ≥ 48)
  let code := (List.range n).find? fun a =>
    let c := x.ins a 15 12
    decide (x.ins a 26 24 ≥ 6) || decide (x.ins a 35 32 ≥ 7) || decide (c ≥ 13)
      || ((c = 0 || c = 12) && decide (x.ins a 11 0 ≠ 0))
  let target := (List.range n).find? fun a =>
    let c := x.ins a 15 12
    (c ≠ 0 && c ≠ 12 && decide (x.ins a 11 0 ≥ n)) || (a + 1 = n && c ≠ 1 && c ≠ 12)
  let hook := (List.range n).find? fun a =>
    let c := x.ins a 15 12
    (c = 10 || c = 11) && !x.usesHook
  let size := n < 1 ∨ 4096 < n ∨ len ≠ 2432 + 16 * n
  if hdr then some (1, 0, 0)
  else match scrResv, pinResv, (if size then none else insResv) with
  | some i, _, _ => some (1, 1, i)
  | _, some i, _ => some (1, 2, i)
  | _, _, some i => some (1, 3, i)
  | none, none, none =>
    if size then some (2, 0, 0)
    else if range then some (3, 0, 0) else
    match scr, code, target, hook with
    | some i, _, _, _ => some (4, 1, i)
    | _, some i, _, _ => some (5, 3, i)
    | _, _, some i, _ => some (6, 3, i)
    | _, _, _, some i => some (7, 3, i)
    | none, none, none, none =>
      if x.usesHook && !fabric then some (7, 0, 0)
      else if starts.any fun a => decide (a ≥ n) then some (8, 0, 0) else none

end Sys2Proof.Machine
end

