-- ==== Sys2Proof/Machine/Plan.lean ====
section
/-! DEFINITION. The plan image (R105 to R125): its fields, and the checks of the audit that need no path (R128). The
reader `rd` gives the image's bytes: the head of the staging partition for a loaded plan, the file's plaintext for one
under audit. -/
namespace Sys2Proof.Machine

/-- The bytes of a half's Attic, which at offset 0 hold the loaded plan image (R281, R283). -/
def Half.planRd (h : Half) : Nat → Byte := fun i => tget 0 h.attic i

/-- The plaintext of a file. -/
def FileRec.rd (f : FileRec) : Nat → Byte := fun i => tget 0 f.data i

namespace PlanImg
variable (rd : Nat → Byte)

def half : Nat := rdLE rd 0x04 1
def cls : Nat := rdLE rd 0x05 1
def fireSrc : Nat := rdLE rd 0x06 1
def usesFabric : Bool := rdLE rd 0x07 1 % 2 = 1
def length : Nat := rdLE rd 0x08 4
def resultKey : Nat := rdLE rd 0x0C 2
def initShelf : Nat := rdLE rd 0x0E 1
def initSrcMap : Nat := rdLE rd 0x0F 1
def steps : Nat := rdLE rd 0x10 4
def forks : Nat := rdLE rd 0x14 4
def entries : Nat := rdLE rd 0x18 4
def buffers : Nat := rdLE rd 0x1C 4
def files : Nat := rdLE rd 0x20 4
def shelves : Nat := rdLE rd 0x24 4
def srcMaps : Nat := rdLE rd 0x28 4
def drills : Nat := rdLE rd 0x2C 4

/-- Offset of section n of the header: 0 steps, 1 forks, 2 entries, 3 buffers, 4 files, 5 shelves, 6 source maps,
7 drills, 8 masks, 9 certificate. -/
def off (n : Nat) : Nat := rdLE rd (0x30 + 4 * n) 4

/-- A field of item i of a section whose items have a size. -/
def item (sec size i o n : Nat) : Nat := rdLE rd (off rd sec + size * i + o) n

def op (i : Nat) : Nat := item rd 0 16 i 0 1
def sflags (i : Nat) : Nat := item rd 0 16 i 1 1
def fa (i : Nat) : Nat := item rd 0 16 i 2 2
def fb (i : Nat) : Nat := item rd 0 16 i 4 4
def fc (i : Nat) : Nat := item rd 0 16 i 8 8

def forkLead (i : Nat) : Nat := item rd 1 16 i 0 2
def forkSrc (i : Nat) : Nat := item rd 1 16 i 2 1
def forkSel (i : Nat) : Nat := item rd 1 16 i 3 1
def forkInv (i : Nat) : Bool := item rd 1 16 i 4 1 % 2 = 1
def forkTrue (i : Nat) : Nat := item rd 1 16 i 6 2

def entTrig (i : Nat) : Nat := item rd 2 32 i 0 2
def entEach (i : Nat) : Bool := item rd 2 32 i 2 2 % 2 = 1
def entArm (i : Nat) : Bool := item rd 2 32 i 2 2 / 2 % 2 = 1
def entTrigOff (i : Nat) : Nat := item rd 2 32 i 4 4
def entDeadline (i : Nat) : Nat := item rd 2 32 i 8 4
def entFile (i : Nat) : Nat := item rd 2 32 i 0xC 2
def entBuf (i : Nat) : Nat := item rd 2 32 i 0xE 1
def entSrc (i : Nat) : Nat := item rd 2 32 i 0x10 8
def entLen (i : Nat) : Nat := item rd 2 32 i 0x18 4
def entDst (i : Nat) : Nat := item rd 2 32 i 0x1C 4

def bufOff (i : Nat) : Nat := item rd 3 16 i 0 4
def bufSize (i : Nat) : Nat := item rd 3 16 i 4 4
def bufKind (i : Nat) : Nat := item rd 3 16 i 8 1

def fileId (i : Nat) : Nat := item rd 4 16 i 0 4
def fileLen (i : Nat) : Nat := item rd 4 16 i 8 8

def shFile (i : Nat) : Nat := item rd 5 24 i 0 2
def shBuf (i : Nat) : Nat := item rd 5 24 i 2 1
def shLen (i : Nat) : Nat := item rd 5 24 i 4 4
def shOff (i : Nat) : Nat := item rd 5 24 i 8 8
def shBufOff (i : Nat) : Nat := item rd 5 24 i 0x10 4

/-- Source of a local channel in a source map: 0 stored stream, 1 drill 0, 2 drill 1. -/
def src (map ch : Nat) : Nat := item rd 6 64 map (ch / 4) 1 / 4 ^ (ch % 4) % 4

def drFile (i : Nat) : Nat := item rd 7 16 i 0 2
def drDrill (i : Nat) : Nat := item rd 7 16 i 2 1
def drLen (i : Nat) : Nat := item rd 7 16 i 4 4
def drOff (i : Nat) : Nat := item rd 7 16 i 8 8

/-- Initial site-mask set m. -/
def mask (m : Nat) : Nat := rdLE rd (off rd 8 + 8 * m) 8

def certNeed (i : Nat) : Nat := item rd 9 16 (i + 1) 0 8

/-- The section counts with item sizes, in header order. -/
def sections : List (Nat × Nat × Nat) :=
  [(0, steps rd, 16), (1, forks rd, 16), (2, entries rd, 32), (3, buffers rd, 16), (4, files rd, 16),
   (5, shelves rd, 24), (6, srcMaps rd, 64), (7, drills rd, 16), (8, 16, 8), (9, entries rd + 1, 16)]

/-- KIND of FACE_AUDIT for a section. -/
def secKind : Nat → Nat
  | 0 => 1
  | 1 => 2
  | 2 => 3
  | 3 => 4
  | 4 => 5
  | 5 => 6
  | 6 => 7
  | 7 => 9
  | 9 => 8
  | _ => 0

/-- n bytes from a are zero. -/
def zero (a n : Nat) : Bool := (List.range n).all fun k => decide (rd (a + k) = 0)

end PlanImg

/-- A failure of the audit: reason, KIND of the item, its index (R128). -/
abbrev AuditFail := Nat × Nat × Nat

/-- First index below n that fails. -/
def firstBad (n : Nat) (bad : Nat → Bool) : Option Nat := (List.range n).find? bad

/-- The first failure in a list of checks. -/
def firstFail : List (Option AuditFail) → Option AuditFail
  | [] => none
  | some f :: _ => some f
  | none :: l => firstFail l

/-- A failure of an item of a section. -/
def itemFail (reason kind : Nat) (o : Option Nat) : Option AuditFail := o.map fun i => (reason, kind, i)

open PlanImg

/-- FORMAT of R128: header and section layout of R105, reserved fields. The layouts of all sections come before the reserved
fields of any item; a bad layout is recorded under its section's KIND with index 0; a certificate whose ENTRY_COUNT differs from
the header's breaks FORMAT (DESIGN CHOICE, log entry 58). -/
def auditFormat (rd : Nat → Byte) (side : Side) (flen : Nat) : Option AuditFail :=
  let secs := sections rd
  let present := secs.filter fun x => decide (0 < x.2.1)
  let badSec := secs.find? fun x =>
    let o := off rd x.1
    if x.2.1 = 0 then decide (o ≠ 0) else
      decide (o % 16 ≠ 0) || decide (o < 0x80) || decide (length rd < o + x.2.1 * x.2.2)
        || present.any fun y => decide (y.1 < x.1) && decide (o < off rd y.1 + y.2.1 * y.2.2)
              && decide (off rd y.1 < o + x.2.1 * x.2.2)
  firstFail [
    if rdLE rd 0 4 ≠ 1 ∨ half rd ≠ side.code ∨ 1 < cls rd ∨ fireSrc rd = 0 ∨ 7 < fireSrc rd ∨ 1 < rdLE rd 7 1
        ∨ 6 * 2 ^ 20 < length rd ∨ flen < length rd ∨ !zero rd 0x58 40 then some (1, 0, 0) else none,
    badSec.map fun x => (1, secKind x.1, 0),
    itemFail 1 2 (firstBad (forks rd) fun i => decide (1 < item rd 1 16 i 4 1) || decide (item rd 1 16 i 5 1 ≠ 0)
      || decide (item rd 1 16 i 8 8 ≠ 0)),
    itemFail 1 3 (firstBad (entries rd) fun i => decide (3 < item rd 2 32 i 2 2) || decide (item rd 2 32 i 0xF 1 ≠ 0)),
    itemFail 1 4 (firstBad (buffers rd) fun i => decide (bufOff rd i % 4096 ≠ 0) || decide (bufSize rd i % 4096 ≠ 0)
      || decide (1 < bufKind rd i) || decide (item rd 3 16 i 9 7 ≠ 0)),
    itemFail 1 5 (firstBad (files rd) fun i => decide (item rd 4 16 i 4 4 ≠ 0)),
    itemFail 1 6 (firstBad (shelves rd) fun i => decide (item rd 5 24 i 3 1 ≠ 0) || decide (item rd 5 24 i 0x14 4 ≠ 0)
      || decide (shOff rd i % 64 ≠ 0) || decide (shBufOff rd i % 64 ≠ 0)),
    itemFail 1 9 (firstBad (drills rd) fun i => decide (item rd 7 16 i 3 1 ≠ 0) || decide (drOff rd i % 64 ≠ 0)),
    if item rd 9 16 0 4 4 ≠ entries rd ∨ item rd 9 16 0 8 8 ≠ 0 then some (1, 8, 0) else none,
    itemFail 1 8 (firstBad (entries rd) fun i => decide (item rd 9 16 (i + 1) 12 4 ≠ 0))]

/-- LIMITS of R128, and RESULT_KEY under R321: `resultOk` says that it names a RESULT slot of the plan's owner. A count out
of range is recorded at its section (log entry 15). A fork's SRC or SEL out of its range breaks LIMITS, its LEAD below 64 breaks
STRUCTURE (DESIGN CHOICE, log entry 58). -/
def auditLimits (rd : Nat → Byte) (resultOk : Bool) : Option AuditFail :=
  let out (lo hi n : Nat) : Bool := decide (n < lo) || decide (hi < n)
  firstFail [
    ([(1, out 1 65536 (steps rd)), (2, out 0 1024 (forks rd)), (3, out 1 65536 (entries rd)), (4, out 1 64 (buffers rd)),
      (5, out 1 256 (files rd)), (6, out 1 256 (shelves rd)), (7, out 1 16 (srcMaps rd)), (9, out 0 2 (drills rd))].find?
        fun x => x.2).map fun x => (2, x.1, 0),
    if decide (shelves rd ≤ initShelf rd) || decide (srcMaps rd ≤ initSrcMap rd) || !resultOk then some (2, 0, 0) else none,
    itemFail 2 1 (firstBad (steps rd) fun i =>
      match op rd i with
      | 1 => decide (fb rd i = 0) || decide (entries rd ≤ fc rd i % 2 ^ 16)
      | 2 => decide (fc rd i % 2 ^ 32 = 0)
      | 3 => decide (steps rd ≤ fa rd i)
      | 4 => decide (steps rd ≤ fa rd i) || (decide (sflags rd i % 2 = 1) && decide (forks rd ≤ fc rd i % 1024))
      | 5 => decide (forks rd ≤ fc rd i % 1024)
      | 7 => decide (fb rd i = 0)
      | 8 => decide (1 < fa rd i) || decide (4095 < fb rd i)
      | 9 => decide (1 < fa rd i)
      | 10 => decide (shelves rd ≤ fa rd i)
      | 12 => decide (15 < fa rd i)
      | 13 => decide (srcMaps rd ≤ fa rd i)
      | _ => false),
    itemFail 2 2 (firstBad (forks rd) fun i => decide (2 < forkSrc rd i)
      || (decide (forkSrc rd i ≠ 0) && decide (7 < forkSel rd i)) || decide (steps rd ≤ forkTrue rd i)),
    itemFail 2 3 (firstBad (entries rd) fun i => (!entArm rd i && decide (steps rd ≤ entTrig rd i))
      || decide (files rd ≤ entFile rd i) || decide (buffers rd ≤ entBuf rd i)),
    itemFail 2 6 (firstBad (shelves rd) fun i => decide (files rd ≤ shFile rd i) || decide (buffers rd ≤ shBuf rd i)),
    itemFail 2 9 (firstBad (drills rd) fun i => decide (files rd ≤ drFile rd i) || decide (1 < drDrill rd i))]

/-- Reserved fields of a step are 0 (R107). -/
def stepResv (rd : Nat → Byte) (i : Nat) : Bool :=
  let sf := sflags rd i
  let a := fa rd i
  let b := fb rd i
  let c := fc rd i
  match op rd i with
  | 1 => sf = 0 && a = 0 && c < 2 ^ 48
  | 2 => sf = 0 && a = 0 && c < 2 ^ 32
  | 3 => sf = 0 && c = 0
  | 4 => sf < 2 && b = 0 && (if sf = 1 then c < 1024 else c = 0)
  | 5 => sf = 0 && a = 0 && b = 0 && c < 1024
  | 6 => sf = 0 && a = 0 && b = 0 && c = 0
  | 7 => sf = 0 && a = 0 && c = 0
  | 8 => sf = 0 && c = 0
  | 9 => sf = 0 && b = 0 && c = 0
  | 10 => sf = 0 && b = 0 && c = 0
  | 11 => sf = 0 && a = 0 && b = 0 && c = 0
  | 12 => sf = 0 && b = 0
  | 13 => sf = 0 && b = 0 && c = 0
  | 15 => sf = 0 && a = 0 && b = 0 && c = 0
  | _ => false

/-- STEP_CODE of R128. -/
def auditStepCode (rd : Nat → Byte) : Option AuditFail :=
  firstFail [
    itemFail 3 1 (firstBad (steps rd) fun i => !stepResv rd i),
    itemFail 3 7 (firstBad (srcMaps rd) fun m => (List.range 256).any fun ch => decide (src rd m ch = 3))]

/-- LOOP index of the innermost body that holds a step, walking the list once (R113): the loops open at step i. -/
def openLoops (rd : Nat → Byte) : Nat → List Nat
  | 0 => []
  | i + 1 =>
    let l := openLoops rd i
    if op rd i = 3 then i :: l else if op rd i = 4 then l.drop 1 else l

/-- Steps reachable from a list by list order, forks and exits, with a bound on the passes. -/
def reach (rd : Nat → Byte) : Nat → List Nat → List Nat → List Nat
  | 0, seen, _ => seen
  | _ + 1, seen, [] => seen
  | n + 1, seen, i :: todo =>
    if seen.contains i || decide (steps rd ≤ i) then reach rd n seen todo else
    let next := match op rd i with
      | 15 => []
      | 4 => if sflags rd i = 1 then [i + 1, forkTrue rd (fc rd i % 1024)] else [i + 1]
      | 5 => [i + 1, forkTrue rd (fc rd i % 1024)]
      | _ => [i + 1]
    reach rd n (i :: seen) (next ++ todo)

/-- STRUCTURE of R128 without its path counts: R113, R114 with LEAD at least 64 (log entry 58), R120, LOOP count 0, no
reachable END, drill references. -/
def auditStructure (rd : Nat → Byte) : Option AuditFail :=
  let n := steps rd
  let r := reach rd (3 * n + 3) [] [0]
  firstFail [
    itemFail 4 1 (firstBad n fun i =>
      let enc := openLoops rd i
      match op rd i with
      | 3 => decide (fb rd i = 0) || decide (8 ≤ enc.length) || decide (fa rd i ≤ i) || decide (op rd (fa rd i) ≠ 4)
              || decide (fa rd (fa rd i) ≠ i)
      | 4 => decide (enc.head? ≠ some (fa rd i)) || decide (fa rd (fa rd i) ≠ i)
              || (decide (sflags rd i = 1) &&
                  (let t := forkTrue rd (fc rd i % 1024)
                   decide (t ≤ i) || decide (openLoops rd t ≠ enc.drop 1)))
      | 5 => let t := forkTrue rd (fc rd i % 1024)
             decide (t ≤ i) || decide (openLoops rd t ≠ enc)
      | 8 => !(List.range (drills rd)).any fun k => decide (drDrill rd k = fa rd i)
      | _ => false),
    if openLoops rd n ≠ [] ∨ !(r.any fun i => decide (op rd i = 15)) ∨ r.any (fun i => decide (op rd i ≠ 15) && decide (i + 1 = n))
      then some (4, 1, n - 1) else none,
    itemFail 4 2 (firstBad (forks rd) fun i => decide (forkLead rd i < 64)),
    if drills rd = 2 ∧ drDrill rd 0 = drDrill rd 1 then some (4, 9, 1) else none]

/-- The part of FORK_LEAD that needs no path: one fork index serves one step (R115). -/
def auditForkUse (rd : Nat → Byte) : Option AuditFail :=
  let uses (i : Nat) : Option Nat :=
    if op rd i = 5 ∨ (op rd i = 4 ∧ sflags rd i = 1) then some (fc rd i % 1024) else none
  let l := (List.range (steps rd)).filterMap uses
  itemFail 5 2 (firstBad (forks rd) fun f => decide (1 < l.count f))

/-- Two ranges overlap. -/
def overlap (a la b lb : Nat) : Bool := decide (a < b + lb) && decide (b < a + la)

/-- BUFFERS of R128: R106, R121, the shelf references, and the staging of the initial image by ARM-flagged entries. -/
def auditBuffers (rd : Nat → Byte) (stage : Nat) : Option AuditFail :=
  let armed (addr : Nat) : Bool := (List.range (entries rd)).any fun e =>
    entArm rd e && decide (bufOff rd (entBuf rd e) + entDst rd e ≤ addr)
      && decide (addr < bufOff rd (entBuf rd e) + entDst rd e + entLen rd e)
  let k := initShelf rd
  let base := bufOff rd (shBuf rd k) + shBufOff rd k
  firstFail [
    itemFail 6 3 (firstBad (entries rd) fun e => decide (entLen rd e < 64) || decide (16777216 < entLen rd e)
      || decide (entLen rd e % 64 ≠ 0) || decide (entSrc rd e % 64 ≠ 0) || decide (entDst rd e % 64 ≠ 0)
      || decide (bufSize rd (entBuf rd e) < entDst rd e + entLen rd e)),
    itemFail 6 4 (firstBad (buffers rd) fun i => decide (stage < bufOff rd i + bufSize rd i)
      || decide (bufOff rd i < length rd)
      || (List.range i).any fun j => overlap (bufOff rd i) (bufSize rd i) (bufOff rd j) (bufSize rd j)),
    itemFail 6 6 (firstBad (shelves rd) fun i => decide (bufKind rd (shBuf rd i) ≠ 1)
      || decide (bufSize rd (shBuf rd i) < shBufOff rd i + shLen rd i)),
    if (List.range ((shLen rd k + 63) / 64)).all fun l => armed (base + 64 * l) then none else some (6, 6, k)]

/-- FILES of R128: `ok` says that a reference names a closed file of the half of that length, of the plan's owner, whose
slot is installed (R321, R522). -/
def auditFiles (rd : Nat → Byte) (ok : Nat → Nat → Bool) : Option AuditFail :=
  firstFail [
    itemFail 7 3 (firstBad (entries rd) fun e => decide (fileLen rd (entFile rd e) < entSrc rd e + entLen rd e)),
    itemFail 7 5 (firstBad (files rd) fun i => !ok (fileId rd i) (fileLen rd i)),
    itemFail 7 6 (firstBad (shelves rd) fun i => decide (fileLen rd (shFile rd i) < shOff rd i + shLen rd i)),
    itemFail 7 9 (firstBad (drills rd) fun i => decide (fileLen rd (drFile rd i) < drOff rd i + drLen rd i))]

end Sys2Proof.Machine
end

