-- ==== Sys2Proof/Machine/HaulLink.lean ====
section
/-! DEFINITION. The sending side of the Haul link layer (chapter 14), which the engines of a half use: frames, credits,
relay packing and spoil copies. -/
namespace Sys2Proof.Machine

/-- Change a local quad of a half. -/
def Dev.modQuad (d : Dev) (s : Side) (q : Nat) (f : Quad → Quad) : Dev :=
  d.mod s fun h => { h with haul := h.haul.setQuad q (f (h.haul.quad q)) }

def Dev.quad (d : Dev) (s : Side) (q : Nat) : Quad := (d.half s).haul.quad q

/-- HAUL_Q_CTRL.MODE: 0 OFF, 1 CASCADE, 2 RELAY, 3 SPOIL, 4 BERT. -/
def Dev.quadMode (d : Dev) (s : Side) (q : Nat) : Nat := d.rf s.code .haulQCtrl q 2 0

/-- HAUL_Q_CTRL.ROLE: 0 send, 1 receive. -/
def Dev.quadRole (d : Dev) (s : Side) (q : Nat) : Nat := d.rf s.code .haulQCtrl q 4 4

/-- Frame types (R375). -/
def ftRelay : Nat := 1
def ftSpoil : Nat := 2
def ftFire : Nat := 3
def ftTime : Nat := 4
def ftFlag : Nat := 5
def ftRelayTag : Nat := 6
def ftKey : Nat := 7
def ftAck : Nat := 8
def ftCreditReset : Nat := 9
def ftEcho : Nat := 10
def ftEchoReply : Nat := 11

/-- Data blocks of a frame from its fields (R375); SEQ, which a sequenced frame's fields begin with, is not among them. -/
def haulData (ft : Nat) (f : List Nat) : List Nat :=
  let a := f.getD 0 0
  let b := f.getD 1 0
  if ft = ftRelay then (a % 2 ^ 48 + b % 16 * 2 ^ 48) :: (f.drop 2).flatMap (words64 4)
  else if ft = ftSpoil then (List.range 10).map fun k => ofLe ((f.drop (8 * k)).take 8)
  else if ft = ftFlag then [a % 2 ^ 48 + b % 256 * 2 ^ 48 + f.getD 2 0 % 256 * 2 ^ 56]
  else if ft = ftRelayTag then (a % 2 ^ 48) :: words64 2 b
  else if ft = ftKey then (f.take 64).map (· % 2 ^ 64)
  else if ft = ftAck then [a % 256 + b % 256 * 2 ^ 8 + f.getD 2 0 % 2 * 2 ^ 16]
  else if ft = ftCreditReset then []
  else [a % 2 ^ 64]

/-- A frame as blocks: types up to KEY are sequenced (R375). -/
def haulBlocks (ft : Nat) (fields : List Nat) : List Block :=
  if ft ≤ ftKey then haulFrame ft (fields.headD 0) (haulData ft fields.tail) else haulFrame ft 0 (haulData ft fields)

/-- A frame leaves on a quad, as blocks striped over its lanes and scrambled (R371, R372). 256 is added to its type when an
injected bit error spoils its CRC (R374); a frame without data blocks leaves the injection for the next one. -/
def Dev.haulOut (d : Dev) (s : Side) (q ft : Nat) (fields : List Nat) : Dev :=
  let spoils : Bool := (d.quad s q).inject && decide (ft ≠ ftCreditReset)
  let frame := if spoils then injectBit (Config.firmware 22 d.free) (haulBlocks ft fields) else haulBlocks ft fields
  let d' := d.modQuad s q fun x => if spoils then { x with inject := false } else x
  (d'.emit (.haul s q (ft + 256 * b1 spoils) fields (stripe (Config.blockNumber d.free) (Config.scrambler d.free) frame))).draw

/-- A sequenced frame can leave: the quad is UP, the SAFE net is released (R465), a credit and a replay place are free
(R376). -/
def Dev.canSend (d : Dev) (s : Side) (q : Nat) : Bool :=
  let x := d.quad s q
  x.st = .up && !d.safe.asserted && decide (0 < x.credits) && decide (x.replay.length < 128)

/-- A sequenced frame is sent, or not; it takes a sequence number, a credit and a replay place (R376). -/
def Dev.haulSend (d : Dev) (s : Side) (q ft : Nat) (fields : List Nat) : Dev × Bool :=
  if !d.canSend s q then (d, false) else
  let n := (d.quad s q).tx
  let d := d.modQuad s q fun x =>
    { x with tx := (n + 1) % 256, credits := x.credits - 1, replay := x.replay ++ [(n, ft, fields)] }
  (d.haulOut s q ft (n :: fields), true)

/-- A FLAG, FIRE or TIME frame is sent, or held until it can be (R376). -/
def Dev.haulPost (d : Dev) (s : Side) (q ft : Nat) (fields : List Nat) : Dev :=
  let keep (d : Dev) : Dev := d.modQuad s q fun x => { x with hold := x.hold ++ [(ft, fields)] }
  if !(d.quad s q).hold.isEmpty then keep d else
  match d.haulSend s q ft fields with
  | (d, true) => d
  | (_, false) => keep d

/-- Held frames leave while they can. -/
def Dev.haulHeld (d : Dev) (s : Side) (q : Nat) : Nat → Dev
  | 0 => d
  | n + 1 =>
    match (d.quad s q).hold with
    | [] => d
    | (ft, fields) :: rest =>
      match d.haulSend s q ft fields with
      | (_, false) => d
      | (d, true) => (d.modQuad s q fun x => { x with hold := rest }).haulHeld s q n

/-- Everything a quad holds that can leave does. -/
def Dev.haulFlush (d : Dev) (s : Side) (q : Nat) : Dev := d.haulHeld s q (d.quad s q).hold.length

/-- Local quads of a half. -/
def quads : List Nat := [0, 1, 2, 3]

/-- All four quads are in RELAY with a ROLE. -/
def Dev.allRelay (d : Dev) (s : Side) (role : Nat) : Bool :=
  quads.all fun q => d.quadMode s q = 2 && d.quadRole s q = role

/-- The half sends relay (R387). -/
def Dev.relays (d : Dev) (s : Side) : Bool := d.allRelay s 0

/-- The half receives relay (R388). -/
def Dev.relayed (d : Dev) (s : Side) : Bool := d.allRelay s 1 && d.rf s.code .haulRelay 0 8 8 = 1

/-- Key stream of the 32 bytes of a quad's issue: AES-256 in counter mode, the issue index as counter (R389). -/
def relayStream (key issue : Nat) : Nat :=
  ofLe ((List.range 2).flatMap fun b => beNats 16 (Config.aes key (Config.relayCounter issue b)))

/-- GMAC over RELAY frames' data blocks, from the first issue they cover on (R389). -/
def relayMac (key first : Nat) (data : List Nat) : Nat := ofLe (gcmTag key (Config.relayIv first) data [])

/-- The RELAY frame of a quad closes (R387): it leaves, or its data is dropped and counted, as it is before the relay key is
agreed. Each 64 frames a RELAY_TAG follows (R389). -/
def Dev.relayClose (d : Dev) (s : Side) (q : Nat) : Dev :=
  let x := d.quad s q
  if x.pack.isEmpty then d else
  let d := d.modQuad s q fun x => { x with pack := [], first := x.first + x.pack.length }
  if !x.keyed then d.bump s.code .haulRelay 0 31 28 else
  let cipher := x.pack.zipIdx.map fun v => v.1 ^^^ relayStream x.key (x.first + v.2)
  let fields := x.first :: x.pack.length :: cipher
  match d.haulSend s q ftRelay fields with
  | (d, false) => d.bump s.code .haulRelay 0 31 28
  | (d, true) =>
    let d := d.modQuad s q fun y =>
      { y with tagged := y.tagged + 1, tagFirst := if y.tagged = 0 then x.first else y.tagFirst
               tagData := y.tagData ++ (haulData ftRelay fields).flatMap (leNats 8) }
    let y := d.quad s q
    if y.tagged < 64 then d else
    (d.modQuad s q fun y => { y with tagged := 0, tagData := [] }).haulPost s q ftRelayTag
      [y.tagFirst, relayMac y.key y.tagFirst y.tagData]

/-- The symbols of a quad's two local groups in an issue (R387). -/
def quadSymbols (q : Nat) (symbols : BitVec 1024) : Nat := symbols.toNat / 2 ^ (256 * q) % 2 ^ 256

/-- A relaying half adds an issue to the open frame of each quad; a frame of 15 issues closes first. -/
def Dev.relaySend (d : Dev) (s : Side) (issue : Nat) (symbols : BitVec 1024) : Dev :=
  if !d.relays s then d else
  quads.foldl (fun d q =>
    let d := if 15 ≤ (d.quad s q).pack.length then d.relayClose s q else d
    d.modQuad s q fun x =>
      { x with first := if x.pack.isEmpty then issue else x.first, pack := x.pack ++ [quadSymbols q symbols] }) d

/-- The symbols that entered the shelf lookup after a symbol or drill hook replaced them (R387). -/
def Half.relayRefresh (h : Half) (issue : Nat) (symbols : BitVec 1024) : Half :=
  quads.foldl (fun h q =>
    let x := h.haul.quad q
    if issue < x.first then h
    else { h with haul := h.haul.setQuad q { x with pack := x.pack.set (issue - x.first) (quadSymbols q symbols) } }) h

/-- The symbols of an issue with the relayed groups replaced; none when a relayed issue that is needed has not come
(R388). Both of a quad's groups take their place by the mask GROUPS. -/
def Dev.relaySymbols (d : Dev) (s : Side) (issue : Nat) (symbols : BitVec 1024) : Option (BitVec 1024) :=
  if !d.relayed s then some symbols else
  let groups := d.rf s.code .haulRelay 0 7 0
  (List.range 8).foldl (fun acc g =>
    match acc with
    | none => none
    | some (v : BitVec 1024) =>
      if !groups.testBit g then some v else
      match tget none (d.quad s (g / 2)).relayed issue with
      | none => none
      | some r =>
        let old := v.toNat / 2 ^ (128 * g) % 2 ^ 128
        some (BitVec.ofNat 1024 (v.toNat - old * 2 ^ (128 * g) + r / 2 ^ (128 * (g % 2)) % 2 ^ 128 * 2 ^ (128 * g))))
    (some symbols)

/-- The relayed data of an issue has been used. -/
def Half.relayUsed (h : Half) (issue : Nat) : Half :=
  quads.foldl (fun h q =>
    let x := h.haul.quad q
    { h with haul := h.haul.setQuad q { x with relayed := tset none x.relayed issue none } }) h

/-- Relay data of an earlier burst is forgotten: the half becomes ARMED. -/
def Half.relayClear (h : Half) : Half :=
  quads.foldl (fun h q =>
    let x := h.haul.quad q
    { h with haul := h.haul.setQuad q { x with relayed := [], pack := [], tagged := 0, tagData := [], heard := [] } }) h

/-- The outgoing cascade flags at a COMPARE sample (R383): bit f is 1 when every group in its source mask has SEEN = 1
and FAILED = 0. -/
def Dev.cascadeMask (d : Dev) (s : Side) (f : Nat) : Nat :=
  if f < 4 then d.rf s.code .haulFlagSrcLo 0 (8 * f + 7) (8 * f) else d.rf s.code .haulFlagSrcHi 0 (8 * f - 25) (8 * f - 32)

/-- The FLAG frame of a COMPARE sample leaves on the quads of HAUL_FLAG_CFG.QUADS (R383). -/
def Dev.flagSend (d : Dev) (s : Side) : Dev :=
  let f := (d.half s).face
  let masks := (List.range 8).map fun k => d.cascadeMask s k
  let carried := masks.zipIdx.foldl (fun a m => a + b1 (decide (m.1 ≠ 0)) * 2 ^ m.2) 0
  let values := masks.zipIdx.foldl (fun a m =>
    a + b1 (decide (m.1 ≠ 0) && (List.range 8).all fun g => !m.1.testBit g || (f.seen.getLsbD g && !f.failed.getLsbD g)) * 2 ^ m.2) 0
  let at_ := f.burst.cycle + d.rf s.code .haulFlagCfg 0 15 0 + 2 ^ 48 - 48
  quads.foldl (fun d q =>
    if (d.rf s.code .haulFlagCfg 0 19 16).testBit q then d.haulPost s q ftFlag [at_ % 2 ^ 48, carried, values] else d) d

/-! ## Lines of a file as stored -/

/-- Epoch of a sector: one more than the region's when the running re-key has passed it (R336, R337). -/
def Half.sectorEpoch (h : Half) (f : FileRec) (k : Nat) : Nat :=
  match h.xts.rekey with
  | some (id, p) => if id = f.id ∧ (k < p ∨ f.ahead.contains k) then f.epoch + 1 else f.epoch
  | none => f.epoch

/-- Key of a file's slot. -/
def Dev.fileKey (d : Dev) (f : FileRec) : Nat := (tget {} d.sec.slots f.slot).key

/-- Where a received SPOIL line keeps its tag and metadata in the file's table. -/
def tagBase : Nat := 2 ^ 40

/-- Sixteen bytes of a file's XTS ciphertext at an epoch: block b of the file and its plaintext (R326). -/
def Dev.cipherBlock (d : Dev) (f : FileRec) (e b : Nat) (p : List Byte) : List Nat :=
  xtsBlock (xtsKeys (d.fileKey f) e) (b / 256) (b % 256) (p.map fun (x : Byte) => x.toNat)

/-- The 64 bytes of a line as stored: ciphertext, zeros in a sector never written, and for a received SPOIL file what the
sender stored (R326, R328, R390). -/
def Dev.storedLine (d : Dev) (s : Side) (f : FileRec) (line : Nat) : List Byte :=
  if f.spoil = 6 then memRead f.data (64 * line) 64
  else if tget 0 f.wc (line / 64) = 0 then List.replicate 64 0
  else (List.range 4).flatMap fun b =>
    (d.cipherBlock f ((d.half s).sectorEpoch f (line / 64)) (4 * line + b) (memRead f.data (64 * line + 16 * b) 16)).map
      (BitVec.ofNat 8)

/-- The 80-byte message of a line tag (R327): ciphertext, file id, logical block number, line index, epoch, key index and
write counter. -/
def lineMessage (ct : List Nat) (file lbn line epoch key wc : Nat) : List Nat :=
  ct ++ leNats 4 file ++ leNats 4 lbn ++ leNats 1 line ++ leNats 1 epoch ++ leNats 2 key ++ leNats 4 wc

/-- Metadata of a line: KEY_INDEX, EPOCH, WC_LO and NODE (R327). -/
def lineMeta (key epoch wc : Nat) (node : Bool) : List Nat :=
  leNats 5 (key % 1024 + epoch % 64 * 2 ^ 10 + wc % 2 ^ 16 * 2 ^ 16 + b1 node * 2 ^ 32)

/-- The 8-byte tag and 5-byte metadata of a line (R327). -/
def Dev.storedTag (d : Dev) (s : Side) (f : FileRec) (line : Nat) : List Byte :=
  let c := tget 0 f.wc (line / 64)
  let e := (d.half s).sectorEpoch f (line / 64)
  if f.spoil = 6 then memRead f.data (tagBase + 16 * line) 13
  else if c = 0 then List.replicate 13 0
  else
    let ct := (d.storedLine s f line).map fun (x : Byte) => x.toNat
    let tag := (cmac (tagKey (d.fileKey f) e) 5 (lineMessage ct f.id (line / 64) (line % 64) e f.slot c)).take 8
    (tag ++ lineMeta f.slot e c false).map (BitVec.ofNat 8)

/-- The codeword of a line in its Cellar: data, tag, metadata and check bytes (R292, R293). -/
def Dev.lineWord (d : Dev) (s : Side) (f : FileRec) (line : Nat) : List Nat :=
  rsEncode 3 ((d.storedLine s f line ++ d.storedTag s f line).map fun (x : Byte) => x.toNat)

/-- Where byte j of a line's codeword travels: its beat of the burst, and the first of its eight data lanes of the 40-bit
subchannel (R293). -/
def lineBeat (j : Nat) : Nat × Nat := (j / 5, 8 * (j % 5))

/-- A line of a LOG file has been written: each of the half's quads in SPOIL with ROLE 0 sends a copy of it as stored,
with tag and metadata, or drops it (R390). -/
def Dev.spoilCopy (d : Dev) (s : Side) (id line : Nat) : Dev :=
  match (d.half s).file id with
  | none => d
  | some f =>
    let stored := ((d.storedLine s f line) ++ d.storedTag s f line ++ [0, 0, 0]).map fun (b : Byte) => b.toNat
    quads.foldl (fun d q =>
      if d.quadMode s q = 3 ∧ d.quadRole s q = 0 then (d.haulSend s q ftSpoil stored).1 else d) d

end Sys2Proof.Machine
end

