-- ==== Sys2Proof/Machine/Timing.lean ====
section
/-! DEFINITION. The timing channels (chapter 2): corrections, drive events, strobes and windows. Instants are in
0.125 ps units from T0. -/
namespace Sys2Proof.Machine

/-- Breakpoints of the period curve in 0.125 ps units (R190). -/
def breakpoints : List Int := [5000, 10000, 20000, 40000, 80000, 800000, 8000000, 256000000]

/-- The period term between breakpoints, in 0.001 ps, rounded to the nearest (R190). -/
def periodTerm (u : Int) : List Int → List Int → Int
  | b0 :: b1 :: bs, p0 :: p1 :: ps =>
    if u ≤ b0 then p0
    else if u ≤ b1 then roundDiv (p0 * (b1 - b0) + (p1 - p0) * (u - b0)) (b1 - b0)
    else periodTerm u (b1 :: bs) (p1 :: ps)
  | _, p0 :: _ => p0
  | _, [] => 0

/-- Sum of the three terms of R188 in 1/16 of 0.001 ps, so that the temperature term is exact. -/
def correctionSum (b : CalBlock) (e : CalEntry) (t : Int) (period : Nat) : Int :=
  16 * (125 * (e.offset + e.deskew) + periodTerm period breakpoints e.pcurve) + e.tcoef * (t - b.tref)

/-- The correction in 0.125 ps units, and whether it was clamped (R46). -/
def clampedCorrection (sum16 : Int) : Int × Bool :=
  if sum16 < -80000000 then (-40000, true)
  else if 80000000 < sum16 then (40000, true)
  else (roundDiv sum16 2000, false)

/-- The correction epoch that an issue carries (R189). -/
def CalSt.epochOf (c : CalSt) (n : Nat) : CalEpoch :=
  match c.older.find? fun e => decide (e.num = n) with
  | some e => e
  | none => c.epoch

/-- Correction of a channel for one of the six event types in an issue. -/
def Half.correction (h : Half) (i : Issue) (ch type : Nat) : Int × Bool :=
  let ep := h.cal.epochOf i.epoch
  let b := tget {} ep.blocks ch
  clampedCorrection (correctionSum b (b.entries.getD type {}) (ep.temps.getD (ch / 32) 0) i.period)

/-- Word offset of a slot word in the shelf RAM window (R84). -/
def slotWord (ch page ts wave slot : Nat) : Nat := ch * 0xC00 + page * 0x600 + ts * 0x60 + wave * 6 + slot

/-- Symbol of a channel in an issue. -/
def Issue.symbol (i : Issue) (ch : Nat) : Nat := i.symbols.toNat / 16 ^ ch % 16

/-- TSET of an issue's header (R100). -/
def Issue.tset (i : Issue) : Nat := fld i.header 3 0

/-- The event word that a channel reads for an issue and slot (R86, R96). -/
def Half.eventWord (h : Half) (i : Issue) (ch slot : Nat) : Word :=
  tget 0 h.shelf.ram (slotWord ch i.page i.tset (i.symbol ch) slot)

def Half.issue (h : Half) (n : Nat) : Option Issue := h.face.issues.find? fun i => decide (i.idx = n)

def Half.modIssue (h : Half) (n : Nat) (f : Issue → Issue) : Half :=
  let g (i : Issue) : Issue := if i.idx = n then f i else i
  { h with face := { h.face with issues := h.face.issues.map g, last := h.face.last.map g } }

def Half.chan (h : Half) (ch : Nat) : Chan := tget {} h.tch.chans ch

def Half.modChan (h : Half) (ch : Nat) (f : Chan → Chan) : Half :=
  { h with tch := { h.tch with chans := tset {} h.tch.chans ch (f (h.chan ch)) } }

/-- The result record of the burst marks a timing rule (R51, R53, R46, R58). -/
def Half.timingRule (h : Half) : Half :=
  { h with face := { h.face with burst := { h.face.burst with timingRule := true } } }

/-- A timing rule acts on a channel: its flag, the fault source, and the mark in the result record. -/
def Dev.ruleBroken (d : Dev) (s : Side) (ch flag src : Nat) : Dev :=
  let d := d.setRg s.code .tchFlags ch (bitSet (d.rg s.code .tchFlags ch) flag)
  (d.mod s Half.timingRule).raise s blkTch src

/-- R51: an event of a kind at a nominal instant, after the last kept one of its kind, is discarded when they lie closer
than 156.25 ps. -/
def tooClose (last : Option Int) (nominal : Int) : Bool :=
  match last with
  | none => false
  | some n => decide (nominal - n < 1250)

/-- R53: an event placed less than 100 ps after the last placed one of its kind is held to exactly 100 ps after it. -/
def heldAt (last : Option Int) (placed : Int) : Int × Bool :=
  match last with
  | none => (placed, false)
  | some p => if placed < p + 800 then (p + 800, true) else (placed, false)

/-- The kinds of R80. -/
inductive EvKind where
  | drive | strobe
deriving DecidableEq, Repr

/-- Kind of an event code (R80, R82). -/
def kindOf (code : Nat) : Option EvKind :=
  if code = 0 then none else if code ≤ 4 then some .drive else if code ≤ 12 then some .strobe else none

/-- Coarse tick and interpolator code of a placed instant (R44). -/
def tickOf (placed : Int) : Int × Nat := (placed / 1250, (placed % 1250).toNat)

/-- SC cycle of a placed instant (R44). -/
def scOf (placed : Int) : Int := (tickOf placed).1 / 8

/-- Events of a kind that a channel has in an issue: nominal instant and slot. -/
def Half.eventsOf (h : Half) (i : Issue) (ch : Nat) (k : EvKind) : List (Nat × Nat) :=
  (List.range 6).filterMap fun slot =>
    let w := h.eventWord i ch slot
    if kindOf (fld w 31 28) = some k then some (i.tvs + fld w 27 0, slot) else none

/-- An event slot of a channel has reached its instant. -/
def Issue.took (i : Issue) (ch slot : Nat) : Bool := (tget 0 i.taken ch).getLsbD slot

/-- Every event of a kind that a channel has in an issue has reached its instant. -/
def Half.allTaken (h : Half) (i : Issue) (ch : Nat) (k : EvKind) : Bool :=
  (h.eventsOf i ch k).all fun e => i.took ch e.2

/-- An event is the next of its kind on its channel: those with an earlier nominal instant, or an equal one and a lower slot,
have come (R51, R52, R81). -/
def Half.due (h : Half) (i : Issue) (ch slot : Nat) (k : EvKind) : Bool :=
  let me := i.tvs + fld (h.eventWord i ch slot) 27 0
  !i.took ch slot && h.face.issues.all fun j => (h.eventsOf j ch k).all fun e =>
    j.took ch e.2 || !(decide (e.1 < me) || decide (e.1 = me) && decide (e.2 < slot))

/-- An event slot reaches its instant. -/
def Half.take (h : Half) (n ch slot : Nat) : Half :=
  h.modIssue n fun i => { i with taken := tset 0 i.taken ch (bitSet (tget 0 i.taken ch) slot) }

/-- Place one event: the spacing rule, the correction with its clamp, and the hold. None: discarded under R51. -/
def Dev.place (d : Dev) (s : Side) (ch : Nat) (i : Issue) (k : EvKind) (type : Nat) (time : Nat) : Dev × Option Int :=
  let h := d.half s
  let c := h.chan ch
  let nominal : Int := i.tvs + time
  let lastN := match k with
    | .drive => c.nomD
    | .strobe => c.nomS
  let lastP := match k with
    | .drive => c.plD
    | .strobe => c.plS
  if tooClose lastN nominal then
    ((d.bump s.code .tchSpacingCnt ch).ruleBroken s ch 0 1, none)
  else
    let (corr, clamped) := h.correction i ch type
    let d := if clamped then d.ruleBroken s ch 3 3 else d
    let (placed, held) := heldAt lastP (nominal + corr)
    let d := if held then d.ruleBroken s ch 5 5 else d
    let d := d.mod s fun h => h.modChan ch fun c =>
      match k with
      | .drive => { c with nomD := some nominal, plD := some placed }
      | .strobe => { c with nomS := some nominal, plS := some placed }
    (d, some placed)

/-- The correction type of a drive code (R80). -/
def driveType : Nat → Nat
  | 1 => 1
  | 2 => 0
  | 3 => 3
  | _ => 2

/-- D0, D1, DZ and DN set the channel's levels (R49). -/
def Chan.drive (c : Chan) (code : Nat) : Chan :=
  match code with
  | 1 => { c with data := false, dataSet := true }
  | 2 => { c with data := true, dataSet := true }
  | 3 => { c with en := false, enSet := true }
  | 4 => { c with en := true, enSet := true }
  | _ => c

/-- The channel is enabled (TCH_CFG.EN). -/
def Dev.chanOn (d : Dev) (s : Side) (ch : Nat) : Bool := d.rf s.code .tchCfg ch 0 0 = 1

/-- Level of the data or enable generator of a channel: as the events set it, its idle level until the first one (R65). -/
def Dev.level (d : Dev) (s : Side) (ch : Nat) (enable : Bool) : Bool :=
  let c := (d.half s).chan ch
  let idle := d.rg s.code .tchIdle ch
  if enable then (if c.enSet then c.en else idle.getLsbD 1) else if c.dataSet then c.data else idle.getLsbD 0

/-- A drive pair of a channel goes to a level at a placed instant; no edge appears when it has that level (R44, R49). -/
def Dev.edge (d : Dev) (s : Side) (ch : Nat) (enable level : Bool) (placed : Int) : Dev :=
  if d.level s ch enable = level then d else d.emit (.edge s ch enable level (tickOf placed).1 (tickOf placed).2)

/-- DRIVE_EVENT: a drive event of an issue, the next of its channel, reaches its instant (R49, R51 to R53). Events of a
disabled channel and of an inhibited half are not placed (R65, R68). -/
def driveEvent (s : Side) (ch issue slot : Nat) (d : Dev) : Dev :=
  let h := d.half s
  if !h.face.bursting || d.inhibited s || !d.chanOn s ch then d else
  match h.issue issue with
  | none => d
  | some i =>
    let w := h.eventWord i ch slot
    let code := fld w 31 28
    if kindOf code ≠ some .drive || !h.due i ch slot .drive then d else
    match (d.mod s fun h => h.take issue ch slot).place s ch i .drive (driveType code) (fld w 27 0) with
    | (d, none) => d
    | (d, some placed) =>
      (d.edge s ch (decide (3 ≤ code)) (code % 2 = 0) placed).mod s fun h => h.modChan ch fun c => c.drive code

/-- The sampled state of R54 from the two comparators, logic values of the channel's side. -/
def sampledOf (cmph cmpl : Bool) : Sampled :=
  match cmph, cmpl with
  | true, false => .h
  | false, true => .l
  | false, false => .z
  | true, true => .invalid

/-- Expectation of a strobe code (R80). -/
def strobeExpect : Nat → Option Sampled
  | 5 => some .h
  | 6 => some .l
  | 7 => some .z
  | _ => none

/-- Expectation of a WO code (R80). -/
def windowExpect : Nat → Sampled
  | 10 => .h
  | 11 => .l
  | _ => .z

/-- A comparator anomaly on an enabled channel (R60): its count, its flag, and the half's CMP_ANOMALY count, which at the
threshold ends the burst with FRONT_END. -/
def Dev.anomaly (d : Dev) (s : Side) (ch : Nat) : Dev :=
  if !d.chanOn s ch then d else
  let d := d.bump s.code .tchAnomalyCnt ch
  let d := d.setRg s.code .tchFlags ch (bitSet (d.rg s.code .tchFlags ch) 4)
  match d.countEvent s blkTch 4 s.code with
  | (d, true) => d.abort s 6
  | (d, false) => d

/-- A result joins its issue (R163). -/
def Half.addResult (h : Half) (issue : Nat) (r : Res) : Half :=
  h.modIssue issue fun i => { i with results := i.results ++ [r] }

/-- The half still samples: a burst runs, or an aborted one is being flushed (R68). -/
def FaceSt.sampling (f : FaceSt) : Bool := f.bursting || f.flushing

/-- EDGE_STROBE: the sampler captures both comparators at a strobe (R54, R55, R41). -/
def edgeStrobe (s : Side) (ch issue slot : Nat) (cmph cmpl : Bool) (d : Dev) : Dev :=
  let h := d.half s
  if !h.face.sampling then d else
  match h.issue issue with
  | none => d
  | some i =>
    let w := h.eventWord i ch slot
    let code := fld w 31 28
    if code < 5 || 8 < code || !h.due i ch slot .strobe then d else
    let cfg := d.rg s.code .tchCfg ch
    let hi := cmph != cfg.getLsbD 2
    let lo := cmpl != cfg.getLsbD 3
    match (d.mod s fun h => h.take issue ch slot).place s ch i .strobe 4 (fld w 27 0) with
    | (d, none) => d
    | (d, some placed) =>
      let v := sampledOf hi lo
      let r : Res := { ch := ch, slot := slot, instant := placed, sampled := v, expect := strobeExpect code,
                       inhib := d.inhibited s }
      let d := d.mod s fun h => (h.addResult issue r).modChan ch fun c =>
        { c with cmph := hi, cmpl := lo, cmpAt := some d.casc.ctime.toNat }
      if v = .invalid then d.anomaly s ch else d

/-- WINDOW_OPEN: a WO event opens a window, or is discarded inside an open one (R56, R58). The window rule is checked before
the spacing rule, and what it discards takes no part in spacing (DESIGN CHOICE, log entry 58). -/
def windowOpen (s : Side) (ch issue slot : Nat) (d : Dev) : Dev :=
  let h := d.half s
  if !h.face.sampling then d else
  match h.issue issue with
  | none => d
  | some i =>
    let w := h.eventWord i ch slot
    let code := fld w 31 28
    if code < 10 || 12 < code || !h.due i ch slot .strobe then d else
    let d := d.mod s fun h => h.take issue ch slot
    if (h.chan ch).win.isSome then d.ruleBroken s ch 1 2 else
    match d.place s ch i .strobe 5 (fld w 27 0) with
    | (d, none) => d
    | (d, some _) => d.mod s fun h => h.modChan ch fun c => { c with win := some { expect := windowExpect code } }

/-- WINDOW_CLOSE: a WC event closes the window and reports its expectation or the first deviating state (R56), or is
discarded when none is open (R58), ahead of the spacing rule (DESIGN CHOICE, log entry 58). INVALID seen at any time in the
window is an anomaly (R60). -/
def windowClose (s : Side) (ch issue slot : Nat) (seen : Option Sampled) (invalid : Bool) (d : Dev) : Dev :=
  let h := d.half s
  if !h.face.sampling then d else
  match h.issue issue with
  | none => d
  | some i =>
    let w := h.eventWord i ch slot
    if fld w 31 28 ≠ 9 || !h.due i ch slot .strobe then d else
    let d := d.mod s fun h => h.take issue ch slot
    match (h.chan ch).win with
    | none => d.ruleBroken s ch 2 2
    | some win =>
      match d.place s ch i .strobe 5 (fld w 27 0) with
      | (d, none) => d
      | (d, some placed) =>
        let v := seen.getD win.expect
        let r : Res := { ch := ch, slot := slot, instant := placed, sampled := v, expect := some win.expect,
                         inhib := d.inhibited s }
        let d := d.mod s fun h => (h.addResult issue r).modChan ch fun c => { c with win := none }
        if invalid || v = .invalid then d.anomaly s ch else d

/-- PIPE_FAULT: a parity error in a pipeline or in the shelf lookup output (R77, R78). The burst ends at any severity;
at severity 3 with the source enabled it is the SAFE net that ends it. During the flush of an aborted burst it joins the
causes (R135); with no burst in progress it ends nothing. -/
def pipeFault (s : Side) (d : Dev) : Dev :=
  let p := d.page s blkTch
  let safe := p.enable.getLsbD 0 && p.sev blkTch 0 = 3
  let d := d.raise s blkTch 0
  if safe then d else d.abort s 7

/-- What the drive pins of a channel show: data and enable (R65, R66, R69). -/
def Dev.pins (d : Dev) (s : Side) (ch : Nat) : Bool × Bool :=
  let h := d.half s
  let force := d.rg s.code .tchForce ch
  let safe := (d.rg s.code .tchSafe ch).getLsbD 0
  let idle := d.rg s.code .tchIdle ch
  match h.tch.resetSafe with
  | some l => (l.getLsbD ch, false)
  | none =>
    if d.inhibited s || h.face.state = .aborted && !h.face.arming then (safe, false)
    else if h.face.bursting && d.chanOn s ch then
      (d.level s ch false, d.level s ch true)
    else if force.getLsbD 31 && !h.face.arming && (h.face.state = .idle || h.face.state = .loaded || h.face.state = .done) then
      (force.getLsbD 0, force.getLsbD 1)
    else (idle.getLsbD 0, idle.getLsbD 1)

end Sys2Proof.Machine
end

