-- ==== Sys2Proof/Machine/Quarry.lean ====
section
/-! DEFINITION. Compare, capture and the Quarry engine (chapter 6). -/
namespace Sys2Proof.Machine

/-! ## Outcomes -/

/-- Outcome of a compare result as it reaches the stream (R162, R164). -/
inductive Outcome where
  | pass | fail | masked | suppressed | inhibited
deriving DecidableEq, Repr

/-- The compare rule (R162), without masks. -/
def compareRule (expect : Option Sampled) (v : Sampled) : Outcome :=
  match expect with
  | none => .masked
  | some e => if v = e then .pass else .fail

/-- The channel takes part in comparison for this issue (R62). -/
def Dev.compares (d : Dev) (s : Side) (i : Issue) (ch : Nat) : Bool :=
  let cfg := d.rg s.code .tchCfg ch
  cfg.getLsbD 0 && cfg.getLsbD 22 && i.sites.getLsbD (fld cfg 21 16)

/-- A hook override on a present result (R229, R231). -/
def overridden (code : Nat) (o : Outcome) : Outcome :=
  match o, code with
  | .suppressed, _ => .suppressed
  | .inhibited, _ => .inhibited
  | _, 1 => .pass
  | _, 2 => .fail
  | _, 3 => .masked
  | o, _ => o

/-- Outcome of a result of an issue. -/
def Dev.outcome (d : Dev) (s : Side) (i : Issue) (r : Res) (slot : Nat) : Outcome :=
  if r.inhib then .inhibited
  else if !d.compares s i r.ch then .suppressed
  else overridden (tget 0 i.overrides (64 * (r.ch / 32) + 2 * (r.ch % 32) + slot)) (compareRule r.expect r.sampled)

/-- The at most two results of a channel in an issue, in result slot order (R163). -/
def Issue.slots (i : Issue) (ch : Nat) : List Res :=
  let rs := i.results.filter fun r => decide (r.ch = ch)
  match rs with
  | a :: b :: _ =>
    if b.instant < a.instant ∨ (b.instant = a.instant ∧ b.slot < a.slot) then [b, a] else [a, b]
  | l => l

/-- The results of a group with their channel, result slot and outcome, channels ascending. -/
def Dev.groupResults (d : Dev) (s : Side) (i : Issue) (g : Nat) : List (Nat × Nat × Sampled × Outcome) :=
  (List.range 32).flatMap fun c =>
    ((i.slots (32 * g + c)).zipIdx).map fun rk => (c, rk.2, rk.1.sampled, d.outcome s i rk.1 rk.2)

/-- Bits of the channels whose result in a slot has a property. -/
def chanMask (l : List (Nat × Nat × Sampled × Outcome)) (p : Nat → Sampled → Outcome → Bool) : BitVec 32 :=
  l.foldl (fun m x => if p x.2.1 x.2.2.1 x.2.2.2 then bitSet m x.1 else m) 0

/-! ## Loss -/

/-- n items of spoil output are lost (R172, R177, R178, R181, R183). -/
def Dev.lose (d : Dev) (s : Side) (n : Nat) : Dev :=
  if n = 0 then d else
  let first := !(d.half s).qry.overflow
  let d := d.mod s fun h => { h with qry := { h.qry with lost := h.qry.lost + n, overflow := true } }
  if first then d.raise s blkQry 0 else d

/-! ## The record queue -/

/-- Sites with a failing channel in a record (R172). -/
def Dev.recSites (d : Dev) (s : Side) (r : Rec) : BitVec 64 :=
  (List.range 32).foldl (fun m c =>
    if r.fail0.getLsbD c || r.fail1.getLsbD c then bitSet m (d.rf s.code .tchCfg (32 * r.group + c) 21 16) else m) 0

/-- A ready record asks for admission (R172). -/
def Dev.letIn (d : Dev) (s : Side) (r : Rec) : Dev :=
  let q := (d.half s).qry
  let sites := d.recSites s r
  let free := 4096 - q.queue.length
  if 65 ≤ free ∨ (0 < free ∧ sites &&& ~~~q.firsts ≠ 0) then
    d.mod s fun h =>
      { h with qry := { h.qry with
          queue := h.qry.queue ++ [r], peak := max h.qry.peak (h.qry.queue.length + 1), firsts := h.qry.firsts ||| sites
          ffCounts := (List.range 64).foldl (fun t k =>
            if sites.getLsbD k then tset 0 t k (tget 0 t k + 1) else t) h.qry.ffCounts } }
  else d.lose s 1

/-- FIRST_FAIL removes the channels of sites that have their FF_LIMIT records (R169). -/
def Dev.ffFilter (d : Dev) (s : Side) (r : Rec) : Rec :=
  let lim := d.rf s.code .qryCfg 0 15 8
  let counts := (d.half s).qry.ffCounts
  let keep := (List.range 32).foldl (fun (m : BitVec 32) c =>
    if tget 0 counts (d.rf s.code .tchCfg (32 * r.group + c) 21 16) < lim then bitSet m c else m) 0
  { r with fail0 := r.fail0 &&& keep, fail1 := r.fail1 &&& keep, inval := r.inval &&& keep }

/-- A candidate merges into an open record (R170). -/
def Rec.merges (o c : Rec) : Bool :=
  decide (c.issue = o.issue + o.count) && decide (o.count < 65535) && decide ({ o with issue := c.issue, count := c.count } = c)

/-- A LOG candidate merges into its group's open record, or closes it and opens its own (R170). -/
def Dev.logRecord (d : Dev) (s : Side) (r : Rec) : Dev :=
  let put (o : Option Rec) (d : Dev) : Dev :=
    d.mod s fun h => { h with qry := { h.qry with openRecs := tset none h.qry.openRecs r.group o } }
  match tget none (d.half s).qry.openRecs r.group with
  | none => put (some r) d
  | some o => if o.merges r then put (some { o with count := o.count + 1 }) d else put (some r) (d.letIn s o)

/-- A candidate record takes the path of the record mode (R168 to R170, R185). -/
def Dev.record (d : Dev) (s : Side) (r : Rec) : Dev :=
  if (d.half s).assisted 4 then d.letIn s r else
  match d.rf s.code .qryCfg 0 1 0 with
  | 1 =>
    let f := d.ffFilter s r
    if f.fail0 = 0 ∧ f.fail1 = 0 then d else d.letIn s f
  | 2 => d.logRecord s r
  | _ => d

/-- The 32 bytes of a spoil record (R166). -/
def Rec.bytes (r : Rec) : List Byte :=
  leBytes 6 (r.issue % 2 ^ 48) ++ leBytes 2 r.step ++ leBytes 1 r.group
    ++ leBytes 1 (b1 r.mark + 2 * b1 r.valid + 4 * b1 (decide (1 < r.count)) + 8 * b1 r.endClose)
    ++ leBytes 2 r.count ++ leBytes 4 r.fail0.toNat ++ leBytes 4 r.fail1.toNat
    ++ leBytes 3 r.x ++ leBytes 3 r.y ++ leBytes 2 r.ctl ++ leBytes 4 r.inval.toNat

/-- File id of a spoil product of the burst, if it was created. -/
def QrySt.fileOf (q : QrySt) (kind : Nat) : Option Nat := (q.files.find? fun f => decide (f.1 = kind)).map Prod.snd

/-- The head of the record queue is written to the LOG file, or is lost when the file is absent or full (R172). A line
that becomes full goes to the quads in SPOIL (R390). -/
def Dev.drainRecord (d : Dev) (s : Side) : Dev :=
  let q := (d.half s).qry
  match q.queue with
  | [] => d
  | r :: rest =>
    let d := d.mod s fun h => { h with qry := { h.qry with queue := rest } }
    match q.fileOf 1 with
    | none => d.lose s 1
    | some id =>
      match (d.half s).file id with
      | none => d.lose s 1
      | some f =>
        if f.length < q.logLen + 32 then d.lose s 1 else
        let d := d.mod s fun h =>
          { (h.modFile id fun f => f.put q.logLen r.bytes) with
            qry := { h.qry with logLen := q.logLen + 32, records := min (q.records + 1) (2 ^ 32 - 1) } }
        if (q.logLen + 32) % 64 = 0 then d.spoilCopy s id (q.logLen / 64) else d

/-! ## Bitmaps, the spoil cache and the repair counters -/

/-- Bytes of one site's bitmap (R175). -/
def Dev.bmSize (d : Dev) (s : Side) : Nat :=
  max 64 (2 ^ (d.rf s.code .qryBmCfg 0 4 0 + d.rf s.code .qryBmCfg 0 9 5) / 8)

/-- Line of the BITMAP file and bit within the line that hold a bit of a site's bitmap (R175). -/
def Dev.bmPlace (d : Dev) (s : Side) (u : Upd) : Nat × Nat :=
  let before := popBelow (d.half s).qry.bmSites u.site
  let bit := before * d.bmSize s * 8 + u.bit
  (bit / 512, bit % 512)

/-- Set of the spoil cache that a line of the BITMAP file goes to (R177). -/
def Dev.cacheSet (s : Side) (id line : Nat) : Nat := (Config.place s.code id + line) % 2048

/-- One step of a 16-bit repair counter; an increment of a full one is lost (R178). -/
def Dev.stepRepair (d : Dev) (s : Side) (k : Nat) : Dev :=
  let n := tget 0 (d.half s).qry.repair k
  if n ≥ 65535 then d.lose s 1 else
  d.mod s fun h => { h with qry := { h.qry with repair := tset 0 h.qry.repair k (n + 1) } }

/-- Row and column counters of a drill count one failing cell (R178). -/
def Dev.stepCounters (d : Dev) (s : Side) (drill row col : Nat) : Dev :=
  (d.stepRepair s (8192 * drill + row)).stepRepair s (8192 * drill + 4096 + col)

/-- The line of the BITMAP file that a read on its way brings. -/
def QrySt.missing (q : QrySt) (line : Nat) : Bool := q.misses.any fun m => decide (m.1 = line)

/-- An update whose line the cache holds sets its bit; when that changes the bit, the repair counters step (R177, R178). -/
def Dev.merge (d : Dev) (s : Side) (id : Nat) (u : Upd) : Dev :=
  let q := (d.half s).qry
  let (line, bit) := d.bmPlace s u
  let set := Dev.cacheSet s id line
  let ways := tget [] q.cache set
  match ways.find? fun c => decide (c.line = line) with
  | none => d
  | some c =>
    let b := tget 0 c.bytes (bit / 8)
    let was := b.getLsbD (bit % 8)
    let c' : CLine := { c with dirty := c.dirty || !was, bytes := tset 0 c.bytes (bit / 8) (bitSet b (bit % 8))
                               held := c.held + 1 }
    let d := d.mod s fun h => { h with qry := { h.qry with
      cache := tset [] h.qry.cache set (c' :: ways.filter (fun c => decide (c.line ≠ line))) } }
    match u.drill with
    | some k => if was then d else d.stepCounters s k u.row u.col
    | none => d

/-- The head of the update queue is looked up (R177): a hit merges it; a miss starts a line read that takes it along. It
waits at the head, and nothing passes it, while its line is on its way for an earlier update or 64 reads are on their way.
False when the head waits. -/
def Dev.pumpOne (d : Dev) (s : Side) : Dev × Bool :=
  let q := (d.half s).qry
  match q.updates, q.fileOf 2 with
  | u :: rest, some id =>
    let line := (d.bmPlace s u).1
    let took (d : Dev) : Dev := d.mod s fun h => { h with qry := { h.qry with updates := rest } }
    if (tget [] q.cache (Dev.cacheSet s id line)).any fun c => decide (c.line = line) then ((took d).merge s id u, true)
    else if q.missing line || decide (q.misses.length ≥ 64) then (d, false)
    else ((took d).mod s fun h => { h with qry := { h.qry with
      misses := h.qry.misses ++ [(line, u)], asked := tset 0 h.qry.asked line d.clk.cycles } }, true)
  | _, _ => (d, false)

/-- Updates are taken from the head until one waits. -/
def Dev.pump (d : Dev) (s : Side) : Nat → Dev
  | 0 => d
  | n + 1 =>
    match d.pumpOne s with
    | (d, true) => d.pump s n
    | (d, false) => d

/-- A dirty cache line goes back to the BITMAP file. -/
def Half.writeBack (h : Half) (id : Nat) (c : CLine) : Half :=
  if !c.dirty then h else
  h.modFile id fun f => f.put (64 * c.line) ((List.range 64).map fun k => tget 0 c.bytes k)

/-- The lowest way of a set that holds no line. -/
def freeWay (ways : List CLine) : Nat := ((List.range 16).find? fun k => ways.all fun c => decide (c.way ≠ k)).getD 0

/-- A missed line arrives: it enters its set as the most recently used one, the least recently used one of a full set
leaves, written back when dirty, and the update that missed merges (R177). -/
def Dev.cacheFill (d : Dev) (s : Side) (line : Nat) : Dev :=
  let q := (d.half s).qry
  match q.fileOf 2 with
  | none => d
  | some id =>
    if !q.missing line then d else
    let set := Dev.cacheSet s id line
    let bytes : Tbl Byte := match (d.half s).file id with
      | none => []
      | some f => memWrite [] 0 (memRead f.data (64 * line) 64)
    let old := tget [] q.cache set
    let kept := old.take 15
    let way := freeWay kept
    let d := d.mod s fun h =>
      let h := (old.drop 15).foldl (fun h c => h.writeBack id c) h
      { h with qry := { h.qry with
          misses := h.qry.misses.filter (fun m => decide (m.1 ≠ line))
          asked := tset 0 h.qry.asked line 0
          cache := tset [] h.qry.cache set ({ line := line, dirty := false, bytes := bytes, way := way } :: kept) } }
    let d := (q.misses.filter fun m => decide (m.1 = line)).foldl (fun d m => d.merge s id m.2) d
    d.pump s 1024

/-- First line of the spoil cache's partition in the Attic, and of the remote-data cache's behind it (R283). -/
def spoilBase : Nat := 0x680000 / 64
def remoteBase : Nat := 0x880000 / 64

/-- Line of the Attic that holds a way of a set of the spoil cache: ways of a set side by side (DESIGN CHOICE, log entry 59). -/
def spoilLine (set way : Nat) : Nat := spoilBase + 16 * set + way

/-- A line of the spoil cache is discarded; each update it held counts as lost (R294). -/
def Dev.dropSpoil (d : Dev) (s : Side) (set way : Nat) : Dev :=
  let ways := tget [] (d.half s).qry.cache set
  match ways.find? fun c => decide (c.way = way) with
  | none => d
  | some c =>
    (d.mod s fun h => { h with qry := { h.qry with
      cache := tset [] h.qry.cache set (ways.filter fun x => decide (x.way ≠ way)) } }).lose s c.held

/-- What the decoder finds at the spoil cache's next lookup, when that is a hit: a corrected line feeds the bucket; an
uncorrectable one is discarded, so that the update misses (R294). -/
def Dev.spoilLookup (d : Dev) (s : Side) (u : Upd) (e : Ecc) : Dev :=
  match (d.half s).qry.fileOf 2 with
  | none => d
  | some id =>
    let line := (d.bmPlace s u).1
    let set := Dev.cacheSet s id line
    match (tget [] (d.half s).qry.cache set).find? fun c => decide (c.line = line) with
    | none => d
    | some c =>
      match (d.half s).atticRead (spoilLine set c.way) e with
      | .clean => d
      | .corr => d.attCorr s (spoilLine set c.way)
      | .uncorr => (d.attUncorr s (spoilLine set c.way)).dropSpoil s set c.way

/-- A bitmap or repair update of a candidate record for one site (R176, R178), with what the Attic's decoder finds at its
lookup. -/
def Dev.update (d : Dev) (s : Side) (u : Upd) (e : Ecc) : Dev :=
  let q := (d.half s).qry
  if !q.bmSites.getLsbD u.site then d.lose s 1
  else if q.updates.length ≥ 1024 then d.lose s 1
  else
    let d := if q.updates.isEmpty then d.spoilLookup s u e else d
    (d.mod s fun h => { h with qry := { h.qry with updates := h.qry.updates ++ [u] } }).pump s 1024

/-- The bitmap and repair updates of a candidate record (R176, R178). -/
def Dev.updates (d : Dev) (s : Side) (r : Rec) (e : Ecc) : Dev :=
  let c := s.code
  let cfg := d.rg c .qryCfg 0
  if !r.valid || (d.half s).assisted 4 then d else
  let sites := d.recSites s r
  let drill := b1 (cfg.getLsbD (16 + r.group))
  let mr := if drill = 0 then d.rf c .qryMrSite 0 5 0 else d.rf c .qryMrSite 0 13 8
  let repair := cfg.getLsbD 5 && sites.getLsbD mr && ((d.half s).qry.fileOf 5).isSome
  let xb := d.rf c .qryBmCfg 0 4 0
  let yb := d.rf c .qryBmCfg 0 9 5
  let wanted (k : Nat) : Bool :=
    if k < 32 then (d.rg c .qryBmSitesLo 0).getLsbD k else (d.rg c .qryBmSitesHi 0).getLsbD (k - 32)
  let bit := r.y % 2 ^ yb * 2 ^ xb + r.x % 2 ^ xb
  let d1 := if !cfg.getLsbD 2 then d else
    (List.range 64).foldl (fun d k =>
      if !(sites.getLsbD k && wanted k) then d else
      d.update s { site := k, bit := bit, drill := if repair && k = mr then some drill else none,
                   row := r.y % 4096, col := r.x % 4096 } e) d
  if repair && !(cfg.getLsbD 2 && (d.half s).qry.bmSites.getLsbD mr) then
    d1.stepCounters s drill (r.y % 4096) (r.x % 4096)
  else d1

/-! ## Products of a group's results -/

/-- Site counts (R165). -/
def Dev.countSites (d : Dev) (s : Side) (g : Nat) (l : List (Nat × Nat × Sampled × Outcome)) : Dev :=
  let site (c : Nat) : Nat := d.rf s.code .tchCfg (32 * g + c) 21 16
  let add (q : QrySt) (x : Nat × Nat × Sampled × Outcome) : QrySt :=
    let k := site x.1
    match x.2.2.2 with
    | .pass => { q with siteActive := bitSet q.siteActive k }
    | .fail => { q with siteActive := bitSet q.siteActive k, sitePass := bitClear q.sitePass k,
                        siteFails := tset 0 q.siteFails k (min (tget 0 q.siteFails k + 1) (2 ^ 32 - 1)) }
    | _ => q
  d.mod s fun h => { h with qry := l.foldl add h.qry }

/-- Channel counts (R179). -/
def Dev.countChannels (d : Dev) (s : Side) (g : Nat) (l : List (Nat × Nat × Sampled × Outcome)) : Dev :=
  if !(d.rg s.code .qryCfg 0).getLsbD 3 then d else
  let up (t : Tbl Nat) (k : Nat) : Tbl Nat := tset 0 t k (min (tget 0 t k + 1) (2 ^ 32 - 1))
  let add (q : QrySt) (x : Nat × Nat × Sampled × Outcome) : QrySt :=
    let k := 32 * g + x.1
    match x.2.2.2 with
    | .pass => { q with compares := up q.compares k }
    | .fail => { q with compares := up q.compares k, fails := up q.fails k }
    | _ => q
  d.mod s fun h => { h with qry := l.foldl add h.qry }

/-- The 2-bit code of a result in a signature step (R180). -/
def sigCode (v : Sampled) (o : Outcome) : Nat :=
  match o, v with
  | .suppressed, _ => 0
  | .inhibited, _ => 0
  | _, .l => 1
  | _, .h => 2
  | _, _ => 3

/-- One step of a group's MISR (R180). -/
def misrStep (s w : BitVec 64) : BitVec 64 :=
  let n := (s <<< 1) ^^^ w
  if s.getLsbD 63 then n ^^^ 0x1B else n

/-- The two MISR steps of an issue for a group (R180). -/
def Dev.signature (d : Dev) (s : Side) (i : Issue) (g : Nat) (l : List (Nat × Nat × Sampled × Outcome)) : Dev :=
  if !((d.rg s.code .qryCfg 0).getLsbD 4 && i.header.getLsbD 10 && !i.header.getLsbD 9) then d else
  let word (slot : Nat) : BitVec 64 :=
    BitVec.ofNat 64 (l.foldl (fun a x => if x.2.1 = slot then a + sigCode x.2.2.1 x.2.2.2 * 4 ^ x.1 else a) 0)
  d.mod s fun h => { h with qry := { h.qry with
    misr := tset 0 h.qry.misr g (misrStep (misrStep (tget 0 h.qry.misr g) (word 0)) (word 1))
    misrIssues := h.qry.misrIssues + b1 (g = 0) } }

/-- The match logic (R117). -/
def Dev.matchLogic (d : Dev) (s : Side) (i : Issue) (g : Nat) (l : List (Nat × Nat × Sampled × Outcome)) : Dev :=
  if !i.header.getLsbD 8 then d else
  let pass := l.any fun x => x.2.2.2 = .pass
  let fail := l.any fun x => x.2.2.2 = .fail
  d.mod s fun h => { h with face := { h.face with
    seen := if pass || fail then bitSet h.face.seen g else h.face.seen
    failed := if fail then bitSet h.face.failed g else h.face.failed } }

/-- The address fields that a record takes from its group's address drill (R151, R167). -/
def Dev.address (d : Dev) (s : Side) (i : Issue) (g : Nat) : Option (Nat × Nat × Nat) :=
  let k := b1 ((d.rg s.code .qryCfg 0).getLsbD (16 + g))
  let o := if k = 0 then i.out0 else i.out1
  if !o.running then none else
  let (px, py) := ((d.half s).drl k).phys o.x o.y
  some (px, py, o.ctl.toNat)

/-- The candidate record of a group (R166), none when no counted result fails. -/
def Dev.candidate (d : Dev) (s : Side) (i : Issue) (g : Nat) (l : List (Nat × Nat × Sampled × Outcome)) (endClose : Bool) :
    Option Rec :=
  let f0 := chanMask l fun slot _ o => decide (slot = 0) && decide (o = .fail)
  let f1 := chanMask l fun slot _ o => decide (slot = 1) && decide (o = .fail)
  if f0 = 0 ∧ f1 = 0 then none else
  let inv := chanMask l fun _ v o => decide (v = .invalid) && decide (o = .fail)
  let a := d.address s i g
  some { issue := i.idx % 2 ^ 48, step := i.step, group := g, mark := i.header.getLsbD 11, valid := a.isSome
         endClose := endClose, fail0 := f0, fail1 := f1, inval := inv
         x := (a.getD (0, 0, 0)).1, y := (a.getD (0, 0, 0)).2.1, ctl := (a.getD (0, 0, 0)).2.2 }

/-- The Quarry engine takes a group's results (R164 to R170, R176 to R180). -/
def Dev.capture (d : Dev) (s : Side) (i : Issue) (g : Nat) (l : List (Nat × Nat × Sampled × Outcome)) (endClose : Bool)
    (e : Ecc) : Dev :=
  if i.header.getLsbD 9 then d else
  let d := (d.countSites s g l).countChannels s g l
  match d.candidate s i g l endClose with
  | none => d
  | some r => (d.updates s r e).record s r

/-- Every drive event of the enabled channels of an issue has reached its instant. -/
def Dev.driven (d : Dev) (s : Side) (i : Issue) : Bool :=
  (List.range 256).all fun ch => !d.chanOn s ch || (d.half s).allTaken i ch .drive

/-- An issue leaves the pipelines once all its groups are done and its drive events have come; an inhibited half discards
those (R68). -/
def Dev.dropIssues (d : Dev) (s : Side) : Dev :=
  let h := d.half s
  let gone (i : Issue) : Bool :=
    decide (i.doneGroups = 0xFF) && (!h.face.bursting || d.inhibited s || d.driven s i)
  d.mod s fun h => { h with face := { h.face with issues := h.face.issues.filter fun i => !gone i } }

/-- Correction epochs that no issue carries any more are forgotten. -/
def Half.dropEpochs (h : Half) : Half :=
  { h with cal := { h.cal with older := h.cal.older.filter fun e => h.face.issues.any fun i => decide (i.epoch = e.num) } }

/-! ## The return pipeline -/

/-- An event code that yields a result when it is placed: an edge strobe or a window's close (R55, R56). -/
def yields (code : Nat) : Bool := decide (5 ≤ code) && decide (code ≤ 9)

/-- Sampling instants of a channel's results of an issue: as placed, or, for a strobe that is still to come, as its nominal
instant and correction will place it (R47). -/
def Half.samplings (h : Half) (i : Issue) (ch : Nat) : List Int :=
  ((i.results.filter fun r => decide (r.ch = ch)).map fun r => r.instant)
    ++ (List.range 6).filterMap fun slot =>
      let w := h.eventWord i ch slot
      let code := fld w 31 28
      if yields code && !i.took ch slot then
        some ((i.tvs : Int) + fld w 27 0 + (h.correction i ch (if code = 9 then 5 else 4)).1)
      else none

/-- Alignment cycle J of an issue in a local group: the SC cycle of its latest sampling instant, or of the vector's start
when it has no result, and not before the previous issue's (R47). -/
def Half.alignment (h : Half) (i : Issue) (g : Nat) : Int :=
  let instants := (List.range 32).flatMap fun c => h.samplings i (32 * g + c)
  let own := match instants with
    | [] => scOf i.tvs
    | a :: l => scOf (l.foldl max a)
  match tget none h.tch.align g with
  | none => own
  | some j => max own j

/-- The issue of a group that reaches the compare stream next. -/
def Half.nextResult (h : Half) (g : Nat) : Option Issue := h.face.issues.find? fun i => !i.doneGroups.getLsbD g

/-- Every strobe event of a group's channels in an issue has come. -/
def Half.sampledAll (h : Half) (i : Issue) (g : Nat) : Bool :=
  (List.range 32).all fun c => h.allTaken i (32 * g + c) .strobe

/-- Issues of a group whose results are aligned meet the compare hook's window and enter its queue, in their order (R47,
R230). -/
def Dev.offerAligned (d : Dev) (s : Side) (g : Nat) : List Issue → Dev
  | [] => d
  | i :: rest =>
    if !(d.half s).sampledAll i g then d
    else if i.idx < ((d.half s).hook (8 + g)).offered then d.offerAligned s g rest
    else ((d.offer s (8 + g) i.idx).mod s fun h =>
      h.setHook (8 + g) { (h.hook (8 + g)) with offered := i.idx + 1 }).offerAligned s g rest

def Dev.offerCompare (d : Dev) (s : Side) (g : Nat) : Dev := d.offerAligned s g (d.half s).face.issues

/-- An issue reaches the compare stream: one that still waits for its hook is not presented any more (R230). -/
def Dev.passHook (d : Dev) (s : Side) (g n : Nat) : Dev :=
  let d := d.offerCompare s g
  let x := (d.half s).hook (8 + g)
  if x.queue.contains n then (d.mod s fun h => h.setHook (8 + g) { x with queue := x.queue.erase n }).hookMissed s (8 + g)
  else d

/-- The results of an issue in a group are the next on the compare stream: the group's earlier issues have passed, all its
strobes have come, and no other group has an issue with an earlier alignment cycle, or an equal one and a lower group
number (R47, R171). -/
def Half.streamNext (h : Half) (i : Issue) (g : Nat) : Bool :=
  let j := h.alignment i g
  decide ((h.nextResult g).map (fun x => x.idx) = some i.idx) && h.sampledAll i g
    && (List.range 8).all fun k => decide (k = g) || match h.nextResult k with
      | none => true
      | some x => decide (j < h.alignment x k) || decide (j = h.alignment x k) && decide (g < k)

/-- COMPARE_RESULT: the results of one issue and local group reach the compare stream in SC cycle J + 16 (R47), with the
upsets the Attic codeword of the spoil cache lookup they cause holds. -/
def compareResult (s : Side) (g issue : Nat) (e : Faults) (d : Dev) : Dev :=
  let h := d.half s
  if !h.face.sampling then d else
  match h.issue issue with
  | none => d
  | some i =>
    if !h.streamNext i g then d else
    let d := if d.configured && h.reset = 0 then d.passHook s g issue else d
    let l := d.groupResults s i g
    let d := ((d.matchLogic s i g l).signature s i g l).capture s i g l false (atticClass e)
    let d := d.mod s fun x => { (x.modIssue issue fun i => { i with doneGroups := bitSet i.doneGroups g }) with
      tch := { x.tch with align := tset none x.tch.align g (some (h.alignment i g)) } }
    (d.dropIssues s).mod s Half.dropEpochs

/-! ## Spoil files -/

/-- Bytes of the spoil files a half holds (R181). -/
def Half.spoilUsed (h : Half) : Nat := h.files.foldl (fun a f => if f.spoil = 0 then a else a + f.length) 0

/-- Free bytes of the reserve. -/
def Dev.reserveFree (d : Dev) (s : Side) : Nat := d.rf s.code .qryReserve 0 15 0 * 2 ^ 20 - (d.half s).spoilUsed

/-- A file id that no file of the half has, from a draw: bit 31 names the half (R355). -/
def freshFile (used : List Nat) (base : Nat) : Nat → Nat
  | 0 => base
  | n + 1 => if used.contains base then freshFile used ((base / 2 ^ 31) * 2 ^ 31 + (base + 1) % 2 ^ 31) n else base

def Dev.newFileId (d : Dev) (s : Side) : Nat :=
  let used := (d.half s).files.map fun f => f.id
  freshFile used (s.code * 2 ^ 31 + Config.fileId s.code d.free % 2 ^ 31) used.length

/-- A spoil file of a KIND and length is created for the burst. -/
def Dev.createSpoil (d : Dev) (s : Side) (kind len slot : Nat) : Dev :=
  let id := d.newFileId s
  (d.mod s fun h => { h with
    files := h.files ++ [{ id := id, slot := slot, length := len, received := len, spoil := kind, live := true }]
    qry := { h.qry with files := h.qry.files ++ [(kind, id)] } }).draw

/-- A COUNT, SIGNATURE or REPAIR file that does not fit is lost as a whole (R181). -/
def Dev.createFixed (d : Dev) (s : Side) (on : Bool) (kind len slot : Nat) : Dev :=
  if !on then d
  else if len ≤ d.reserveFree s then d.createSpoil s kind len slot
  else
    let first := !(d.half s).qry.overflow
    let d := (d.mod s fun h => { h with qry := { h.qry with overflow := true } }).raise s blkQry 2
    if first then d.raise s blkQry 0 else d

/-- The LOG file of a burst (R181). -/
def Dev.createLog (d : Dev) (s : Side) (slot : Nat) : Dev :=
  let mode := d.rf s.code .qryCfg 0 1 0
  if !((d.half s).assisted 4 || mode = 1 || mode = 2) then d else
  let want := 32 * (d.rg s.code .qryLogLimit 0).toNat
  let len := min want (d.reserveFree s / 32 * 32)
  let d := if len < want then d.raise s blkQry 2 else d
  if len = 0 then d else d.createSpoil s 1 len slot

/-- The BITMAP file of a burst: enabled sites in ascending order while they fit (R181). -/
def Dev.createBitmap (d : Dev) (s : Side) (slot : Nat) : Dev :=
  if (d.half s).assisted 4 || !(d.rg s.code .qryCfg 0).getLsbD 2 then d else
  let c := s.code
  let wanted : BitVec 64 := BitVec.ofNat 64 ((d.rg c .qryBmSitesHi 0).toNat * 2 ^ 32 + (d.rg c .qryBmSitesLo 0).toNat)
  let n := min (pop wanted) (d.reserveFree s / d.bmSize s)
  let got := (List.range 64).foldl (fun (m : BitVec 64) k =>
    if wanted.getLsbD k && decide (popBelow wanted k < n) then bitSet m k else m) 0
  let d := if n < pop wanted then d.raise s blkQry 2 else d
  if n = 0 then d else
  (d.createSpoil s 2 (n * d.bmSize s) slot).mod s fun h => { h with qry := { h.qry with bmSites := got } }

/-- The engine's state at the end of ARM: cleared, with the spoil files created (R181). -/
def Dev.armQuarry (d : Dev) (s : Side) (slot : Nat) : Dev :=
  let d := d.mod s fun h => { h with qry := {} }
  let cfg := d.rg s.code .qryCfg 0
  let d := (d.createLog s slot).createBitmap s slot
  let d := d.createFixed s (cfg.getLsbD 3) 3 2048 slot
  let d := d.createFixed s (cfg.getLsbD 4) 4 72 slot
  d.createFixed s (cfg.getLsbD 5 && !(d.half s).assisted 4) 5 32768 slot

/-! ## The flush -/

/-- Open LOG records close, in group order (R171, R183). -/
def Dev.closeRecords (d : Dev) (s : Side) : Dev :=
  let l := (d.half s).qry.openRecs.filterMap fun kv => kv.2
  let d := l.foldl (fun d r => d.letIn s r) d
  d.mod s fun h => { h with qry := { h.qry with openRecs := [] } }

/-- The record queue drains, n records at most. -/
def Dev.drainAll (d : Dev) (s : Side) : Nat → Dev
  | 0 => d
  | n + 1 => if (d.half s).qry.queue.isEmpty then d else (d.drainRecord s).drainAll s n

/-- Every waiting update is served, with the lines it needs (R183). -/
def Dev.pumpAll (d : Dev) (s : Side) : Nat → Dev
  | 0 => d
  | n + 1 =>
    match (d.half s).qry.misses with
    | [] => if (d.half s).qry.updates.isEmpty then d else (d.pump s 1024).pumpAll s n
    | m :: _ => (d.cacheFill s m.1).pumpAll s n

/-- The spoil cache is written back and empty (R177, R183). -/
def Dev.flushCache (d : Dev) (s : Side) : Dev :=
  d.mod s fun h =>
    match h.qry.fileOf 2 with
    | none => { h with qry := { h.qry with cache := [] } }
    | some id =>
      let h := h.qry.cache.foldl (fun h kv => kv.2.foldl (fun h c => h.writeBack id c) h) h
      { h with qry := { h.qry with cache := [] } }

/-- The COUNT, SIGNATURE and REPAIR files (R178 to R180). -/
def Half.writeProducts (h : Half) : Half :=
  let q := h.qry
  let w (kind : Nat) (bs : List Byte) (h : Half) : Half :=
    match q.fileOf kind with
    | none => h
    | some id => h.modFile id fun f => f.put 0 bs
  let h := w 5 ((List.range 16384).flatMap fun k => leBytes 2 (tget 0 q.repair k)) h
  let h := w 3 ((List.range 256).flatMap fun k => leBytes 4 (tget 0 q.compares k) ++ leBytes 4 (tget 0 q.fails k)) h
  let h := w 4 ((List.range 8).flatMap (fun k => leBytes 8 (tget 0 q.misr k).toNat) ++ leBytes 8 q.misrIssues) h
  { h with qry := { h.qry with written := true } }

/-- Bytes written into a spoil file, as SPOIL_FILES lists it: a COUNT, SIGNATURE or REPAIR file that an abandoned flush left
unwritten has none (R181, R183). A BITMAP file counts whole, since its lines read as zeros until they are written (DESIGN
CHOICE, log entry 59). -/
def Half.spoilLen (h : Half) (kind id : Nat) : Nat :=
  if kind = 1 then h.qry.logLen
  else if decide (3 ≤ kind) && !h.qry.written then 0
  else match h.file id with
    | some f => f.length
    | none => 0

/-- The result record (R137); END and CAUSE follow the state the burst ends in. -/
def Dev.resultRecord (d : Dev) (s : Side) : List Byte :=
  let h := d.half s
  let f := h.face
  let b := f.burst
  let q := h.qry
  let ab := b.abortIssue.isSome
  let calOk := b.cls && b.calValid && !h.cal.lost && d.calValid s
  let body :=
    leBytes 4 1 ++ leBytes 4 f.fires ++ leBytes 1 s.code ++ leBytes 1 (if ab then 2 else 1)
    ++ leBytes 1 (if ab then b.cause else 0) ++ leBytes 1 b.fireSrc ++ leBytes 1 (b1 calOk) ++ leBytes 1 (b1 b.integ)
    ++ leBytes 2 (b1 b.timingRule + 2 * b1 q.overflow + 4 * b1 (decide (0 < b.exhausted)))
    ++ beBytes 48 b.planHash
    ++ leBytes 8 b.fireTime.toNat ++ leBytes 8 b.issues ++ leBytes 8 b.endAt ++ leBytes 4 b.steps ++ leBytes 4 b.lastStep
    ++ leBytes 4 b.calSlots ++ leBytes 4 b.forksTrue ++ leBytes 4 b.exhausted ++ leBytes 2 f.causeSet.toNat ++ leBytes 2 0
    ++ leBytes 8 (if b.integ then 0 else q.sitePass.toNat) ++ leBytes 8 q.siteActive.toNat
    ++ (List.range 64).flatMap (fun k => leBytes 4 (tget 0 q.siteFails k))
    ++ leBytes 8 q.records ++ leBytes 8 q.lost ++ leBytes 8 (b.abortIssue.getD (2 ^ 64 - 1)) ++ leBytes 8 0
    ++ (List.range 8).flatMap (fun k => match q.files[k]? with
        | some (kind, id) => leBytes 4 id ++ leBytes 2 (kind + 32768 * b1 b.integ) ++ leBytes 2 0 ++ leBytes 8 (h.spoilLen kind id)
        | none => leBytes 16 0)
  body ++ (cmac (recordKey (tget {} d.sec.slots b.key).key) 34 (body.map fun (x : Byte) => x.toNat)).map (BitVec.ofNat 8)

/-- One pin's part of the end event (R66): its level goes to the idle value under the correction of the direction of the
change, clamped and held as any event. No spacing rule acts on it (DESIGN CHOICE, log entry 58). -/
def Dev.endPin (d : Dev) (s : Side) (ch : Nat) (i : Issue) (enable : Bool) : Dev :=
  let idle := (d.rg s.code .tchIdle ch).getLsbD (b1 enable)
  if d.level s ch enable = idle then d else
  let h := d.half s
  let (corr, clamped) := h.correction i ch (if enable then (if idle then 2 else 3) else if idle then 0 else 1)
  let d := if clamped then d.ruleBroken s ch 3 3 else d
  let (placed, held) := heldAt (h.chan ch).plD (h.face.burst.endAt + corr)
  let d := if held then d.ruleBroken s ch 5 5 else d
  (d.edge s ch enable idle placed).mod s fun h => h.modChan ch fun c => { c with plD := some placed }

/-- The end of a burst that ends DONE: every channel's pins go to their idle values (R66). -/
def Dev.endEvent (d : Dev) (s : Side) : Dev :=
  match (d.half s).face.last with
  | none => d
  | some i =>
    (d.half s).tch.chans.foldl (fun d kv =>
      let d := if d.chanOn s kv.1 then (d.endPin s kv.1 i false).endPin s kv.1 i true else d
      d.mod s fun h => h.modChan kv.1 fun c => { c with dataSet := false, enSet := false }) d

/-- The sequencer's own state at the start of the ARM work: nothing of an earlier burst, and the ARM-flagged entries listed
for the chutes (R131). -/
def Half.openArm (h : Half) : Half :=
  let rd := h.planRd
  { h with
    face := { h.face with
      cur := {}, ahead := {}, aheadIdx := 0, fetched := [], present := [], issues := [], last := none, samples := [], seen := 0
      failed := 0, srcMap := PlanImg.initSrcMap rd, starts := [], trigs := [], undone := [], chuteOn := false
      chuteQ := ((List.range (PlanImg.entries rd)).filter fun e => PlanImg.entArm rd e).map fun e => (e, 0) }
    shelf := { h.shelf with armLoads := 0, armFail := false } }

/-- The half's flush is over: spoil files close, the record is written, the burst ends (R130, R137, R183); an ARM that waited
for it begins its work. -/
def Dev.endBurst (d : Dev) (s : Side) : Dev :=
  let d := if (d.half s).face.state = .draining then
    (d.endEvent s).mod s fun h => { h with face := { h.face with state := .done } } else d
  let rec_ := d.resultRecord s
  let d := d.mod s fun h =>
    { h with
      files := h.files.map fun f => { f with live := false }
      face := { h.face with records := h.face.records ++ [{ burst := h.face.fires, bytes := rec_ }], ready := true, issues := [],
                            burst := { h.face.burst with unwritten := false } }
      qry := { h.qry with state := .idle, quarantined := h.qry.quarantined || h.face.burst.integ }
      drl0 := h.drl0.stop
      drl1 := h.drl1.stop
      shelf := h.shelf.stopLoad
      xts := { h.xts with checks := [] }
      cal := { h.cal with older := [] } }
  let d := d.mod s fun h => if h.face.arming then h.openArm else h
  d.event 4 (evSrc s blkFace) (d.half s).face.fires

/-- Windows still open at the end of a DONE burst close at the end of the last vector and report (R58, R163). What the
sampler saw until then is a free value where no event told it (log entry 2). -/
def Dev.closeWindows (d : Dev) (s : Side) : Dev :=
  let h := d.half s
  let b := h.face.burst
  let open_ := h.tch.chans.filterMap fun kv => kv.2.win.map fun w => (kv.1, w)
  match h.face.last with
  | none => d
  | some last =>
  if open_.isEmpty then d else
  let seen (ch : Nat) (w : Win) : Sampled :=
    match Config.firmware 1 (d.free * 256 + ch) % 5 with
    | 0 => .h
    | 1 => .l
    | 2 => .z
    | 3 => .invalid
    | _ => w.seen.getD w.expect
  let d := open_.foldl (fun d cw =>
    let d := (d.ruleBroken s cw.1 2 2).mod s fun h => h.modChan cw.1 fun c => { c with win := none }
    if seen cw.1 cw.2 = .invalid then d.anomaly s cw.1 else d) d
  let res : List Res := open_.map fun cw =>
    { ch := cw.1, slot := 0, instant := b.endAt, sampled := seen cw.1 cw.2, expect := some cw.2.expect }
  let d := (List.range 8).foldl (fun d g =>
    let l := (res.filter fun r => decide (r.ch / 32 = g)).map fun r => (r.ch % 32, 0, r.sampled, d.outcome s { last with overrides := [] } r 0)
    if l.isEmpty then d else d.capture s last g l true .clean) d
  d.draw

/-- The last result is past the return pipeline: no issue has a result that is still to reach the compare stream (R130). -/
def Half.drained (h : Half) : Bool :=
  h.face.issues.all fun i => (List.range 256).all fun ch => i.doneGroups.getLsbD (ch / 32) || (h.samplings i ch).isEmpty

/-- QUARRY_FLUSH_COMPLETE: the last results have entered the engine and its flush completes (R183). -/
def quarryFlushComplete (s : Side) (d : Dev) : Dev :=
  let f := (d.half s).face
  if !(f.state = .draining && (d.half s).drained || f.flushing) then d else
  let d := if f.state = .draining then d.closeWindows s else d
  let d := ((d.closeRecords s).drainAll s 4200).pumpAll s 2200
  let d := (d.flushCache s).mod s Half.writeProducts
  let q := (d.half s).qry
  let d := match q.fileOf 1 with
    | some id => if q.logLen % 64 = 32 then d.spoilCopy s id (q.logLen / 64) else d
    | none => d
  d.endBurst s

/-- FLUSH_TIMEOUT: 10 ms after the flush started its writes have not all completed; the engine abandons it (R183). -/
def flushTimeout (s : Side) (d : Dev) : Dev :=
  let h := d.half s
  if !(h.face.state = .draining || h.face.flushing) then d else
  let d := if h.face.state = .draining then d.closeWindows s else d
  let d := d.closeRecords s
  let q := (d.half s).qry
  let dirty := q.cache.foldl (fun a kv => a + (kv.2.filter fun c => c.dirty).length) 0
  let products := ([3, 4, 5].filter fun k => (q.fileOf k).isSome).length
  let d := d.lose s (q.queue.length + q.updates.length + q.misses.length + dirty + products)
  let d := d.mod s fun h => { h with qry := { h.qry with queue := [], updates := [], misses := [], cache := [] } }
  (d.endBurst s).raise s blkQry 1

end Sys2Proof.Machine
end

