-- ==== Sys2Proof/Machine/Shelf.lean ====
section
/-! DEFINITION. The shelf loader (chapter 3): the check of R87, loads, swaps and their states. -/
namespace Sys2Proof.Machine

open PlanImg

/-- A failure of the shelf check: reason, channel, timing set, waveform, slot (R87). -/
abbrev ShelfFail := Nat × Nat × Nat × Nat × Nat

/-- The slots of one waveform in ascending order, with the drive and strobe counts so far (R87): reason and slot. -/
def waveCheck (period : Nat) : List Word → Nat → Nat → Nat → Option (Nat × Nat)
  | [], _, _, _ => none
  | w :: ws, slot, drives, strobes =>
    let code := fld w 31 28
    let time := fld w 27 0
    if 12 < code then some (5, slot)
    else if code = 0 ∧ time ≠ 0 then some (6, slot)
    else if period ≤ time ∧ code ≠ 0 then some (7, slot)
    else
      let dr := drives + b1 (decide (1 ≤ code) && decide (code ≤ 4))
      let sb := strobes + b1 (decide (5 ≤ code))
      if 4 < dr then some (8, slot)
      else if 2 < sb then some (9, slot)
      else waveCheck period ws (slot + 1) dr sb

/-- A period entry is legal (R85). -/
def periodOk (w : Nat) : Bool := decide (5000 ≤ w) && decide (w ≤ 256000000)

/-- First success of a search below n, trying indexes upward. -/
def firstSome (n : Nat) (f : Nat → Option α) : Option α :=
  (List.range n).findSome? f

/-- The first failure of the header and the period table of a shelf page image of a length (R87, R92). `initial` marks a
plan's initial page image. -/
def headCheck (rd : Nat → Byte) (len : Nat) (initial : Bool) : Option ShelfFail :=
  let mask := rdLE rd 4 4
  let n := ((List.range 8).filter fun k => mask.testBit k).length
  if rdLE rd 0 4 ≠ 1 ∨ rdLE rd 8 8 ≠ 0 then some (1, 0, 0, 0, 0)
  else if len ≠ 80 + 196608 * n then some (2, 0, 0, 0, 0)
  else if mask = 0 ∨ 256 ≤ mask ∨ (initial ∧ mask ≠ 255) then some (3, 0, 0, 0, 0)
  else ((List.range 16).find? fun t => !periodOk (rdLE rd (0x10 + 4 * t) 4)).map fun t => (4, 0, t, 0, 0)

/-- The first failure of a shelf page image of a length (R87, R92). -/
def shelfCheck (rd : Nat → Byte) (len : Nat) (initial : Bool) : Option ShelfFail :=
  match headCheck rd len initial with
  | some f => some f
  | none =>
    let groups := (List.range 8).filter fun k => (rdLE rd 4 4).testBit k
    firstSome (32 * groups.length) fun c =>
      let ch := 32 * groups.getD (c / 32) 0 + c % 32
      firstSome 16 fun t =>
        firstSome 16 fun w =>
          let at_ := 0x50 + c * 6144 + t * 0x180 + w * 0x18
          let words := (List.range 6).map fun k => BitVec.ofNat 32 (rdLE rd (at_ + 4 * k) 4)
          (waveCheck (rdLE rd (0x10 + 4 * t) 4) words 0 0 0).map fun x => (x.1, ch, t, w, x.2)

/-- SHELF_CHECK records a failure unless one is held. CHANNEL, WAVE and SLOT of a failing period entry read 0, as for the
reasons before it (DESIGN CHOICE, log entry 58). -/
def Dev.shelfFail (d : Dev) (s : Side) (src : Nat) (f : ShelfFail) : Dev :=
  if d.rf s.code .shelfCheck 0 0 0 = 1 then d else
  let place := if f.1 < 4 then [] else [(18, f.2.1), (14, f.2.2.1), (10, f.2.2.2.1), (7, f.2.2.2.2)]
  d.setRg s.code .shelfCheck 0 (pack ([(0, 1), (28, f.1), (26, src)] ++ place))

def ShelfSt.slot (x : ShelfSt) (n : Nat) : SlotSt := if n = 0 then x.st0 else x.st1

def ShelfSt.setSlot (x : ShelfSt) (n : Nat) (v : SlotSt) : ShelfSt := if n = 0 then { x with st0 := v } else { x with st1 := v }

/-- The shadow slot. -/
def ShelfSt.shadow (x : ShelfSt) : Nat := 1 - x.active

/-- Where a shelf reference's image is staged in the Attic (R93). -/
def stagedAt (rd : Nat → Byte) (ref : Nat) : Nat := bufOff rd (shBuf rd ref) + shBufOff rd ref

/-- A load starts into a slot (R93, R97). -/
def Half.startLoad (h : Half) (slot ref : Nat) : Half :=
  let a := stagedAt h.planRd ref
  { h with shelf := { (h.shelf.setSlot slot .loading) with
      load := some { slot := slot, ref := ref }, groups := rdLE h.planRd (a + 4) 4 % 256, lines := 0 } }

/-- The local groups that a staged image covers, ascending (R92). -/
def imageGroups (rd : Nat → Byte) (a : Nat) : List Nat := (List.range 8).filter fun k => (rdLE rd (a + 4) 4).testBit k

/-- Lines of group data of a staged image, and the SC cycles its load takes (R93). -/
def imageLines (rd : Nat → Byte) (a : Nat) : Nat := 3072 * (imageGroups rd a).length

def loadCycles (rd : Nat → Byte) (a : Nat) : Nat := 18 + 16 + imageLines rd a

/-- A load writes lines from lo up to but not including hi of an image's group data into a slot (R93). -/
def Half.writeLines (h : Half) (slot a lo hi : Nat) : Half :=
  let rd := h.planRd
  let groups := imageGroups rd a
  let ram := (List.range (32 * groups.length)).foldl (fun (m : Tbl Word) c =>
    let ch := 32 * groups.getD (c / 32) 0 + c % 32
    let w0 := max (16 * lo) (1536 * c)
    let w1 := min (16 * hi) (1536 * c + 1536)
    if w1 ≤ w0 then m else
    tblit 0 m (slotWord ch slot 0 0 0 + (w0 - 1536 * c))
      ((List.range (w1 - w0)).map fun k => BitVec.ofNat 32 (rdLE rd (a + 0x50 + 4 * (w0 + k)) 4))) h.shelf.ram
  { h with shelf := { h.shelf with ram := ram, lines := 1 + hi } }

/-- A load writes an image's period table into a slot (R93). -/
def Half.writePeriods (h : Half) (slot a : Nat) : Half :=
  let periods := (List.range 16).map fun t => BitVec.ofNat 32 (rdLE h.planRd (a + 0x10 + 4 * t) 4)
  { h with shelf := { h.shelf with period := tblit 0 h.shelf.period (16 * slot) periods, lines := 1 } }

/-- The waveform check while lines lo up to hi are written: the first waveform whose last word lies in them and that fails
(R87, R90). -/
def lineCheck (rd : Nat → Byte) (a lo hi : Nat) : Option ShelfFail :=
  let groups := imageGroups rd a
  let w0 := 16 * lo / 6
  firstSome (16 * hi / 6 - w0) fun k =>
    let w := w0 + k
    let ch := 32 * groups.getD (w / 8192) 0 + w / 256 % 32
    let words := (List.range 6).map fun k => BitVec.ofNat 32 (rdLE rd (a + 0x50 + 24 * w + 4 * k) 4)
    (waveCheck (rdLE rd (a + 0x10 + 4 * (w / 16 % 16)) 4) words 0 0 0).map fun x => (x.1, ch, w / 16 % 16, w % 16, x.2)

/-- The part of a load from SC cycle c up to but not including c': cycles 0 to 17 hold off, the header and the period table
end with cycle 33, then one line a cycle; what fails its check is not written (R90, R93). -/
def Half.loadSpan (h : Half) (l : ShelfLoad) (c c' : Nat) (initial : Bool) : Half × Option ShelfFail :=
  let rd := h.planRd
  let a := stagedAt rd l.ref
  let head := decide (c ≤ 33) && decide (33 < c')
  match if head then headCheck (fun i => rd (a + i)) (shLen rd l.ref) initial else none with
  | some f => (h, some f)
  | none =>
    let h := if head then h.writePeriods l.slot a else h
    let lo := c - 34
    let hi := min (c' - 34) (imageLines rd a)
    if hi ≤ lo then (h, none) else
    match lineCheck rd a lo hi with
    | some f => (h, some f)
    | none => (h.writeLines l.slot a lo hi, none)

/-- A staging line that a load reads from SC cycle c up to but not including c' and that is uncorrectable (R294). -/
def Half.loadPoison (h : Half) (l : ShelfLoad) (c c' : Nat) : Option Nat :=
  let a := stagedAt h.planRd l.ref
  let lo := if c ≤ 33 then a else a + 0x50 + 64 * (c - 34)
  let hi := if c' ≤ 33 then a else a + 0x50 + 64 * min (c' - 34) (imageLines h.planRd a)
  let hit (l : Nat) : Bool := decide (lo / 64 ≤ l) && decide (64 * l < hi)
  match h.att.bad.find? hit with
  | some l => some l
  | none => (h.att.spare.find? fun r => r.2.2 && hit r.2.1).map fun r => r.2.1

/-- The loader meets a poisoned line: the load fails without an entry at fault (R90, R294, DEDUCED, log entry 59). -/
def Dev.loadPoisoned (d : Dev) (s : Side) (line : Nat) : Dev :=
  ((d.attUncorr s line).mod s fun h => { h with shelf := { h.shelf.stopLoad with armFail := h.face.arming } }).raise s blkShelf 0

/-- The loader's check finds a failing entry while it writes (R90): the load stops and the slot is INVALID. An ARM's load
that fails ends the ARM (R131). -/
def Dev.loadFails (d : Dev) (s : Side) (src : Nat) (f : ShelfFail) : Dev :=
  ((d.mod s fun h => { h with shelf := { h.shelf.stopLoad with armFail := h.face.arming } }).shelfFail s src f).raise s blkShelf 0

/-- Active and shadow exchange (R95). -/
def Dev.swapSlots (d : Dev) (s : Side) : Dev :=
  (d.mod s fun h => { h with shelf := { h.shelf with active := h.shelf.shadow } }).bump s.code .shelfSwapCnt

/-- A load's last line is written: its slot is VALID. After the first load of an ARM the slots exchange and the second one
starts (R94, R97). -/
def Dev.loadDone (d : Dev) (s : Side) (l : ShelfLoad) : Dev :=
  let d := (d.mod s fun h => { h with shelf := { (h.shelf.setSlot l.slot .valid) with load := none } }).bump s.code .shelfLoadCnt
  if !(d.half s).face.arming then d else
  let n := (d.half s).shelf.armLoads
  let d := d.mod s fun h => { h with shelf := { h.shelf with armLoads := n + 1 } }
  if n ≠ 0 then d else (d.swapSlots s).mod s fun h => h.startLoad h.shelf.shadow l.ref

/-- k SC cycles of the load in progress pass (R93). -/
def Dev.loadCyclesPass (d : Dev) (s : Side) (k : Nat) : Dev :=
  let h := d.half s
  match h.shelf.load with
  | none => d
  | some l =>
    let n := loadCycles h.planRd (stagedAt h.planRd l.ref)
    let c' := min (l.cycle + k) n
    match h.loadPoison l l.cycle c' with
    | some x => d.loadPoisoned s x
    | none =>
    match h.loadSpan l l.cycle c' h.face.arming with
    | (h, some f) => (d.setHalf s h).loadFails s (if h.face.arming then 1 else 2) f
    | (h, none) =>
      let d := d.setHalf s { h with shelf := { h.shelf with load := some { l with cycle := c' } } }
      if n ≤ c' then d.loadDone s l else d

/-- What remains of the load in progress passes at once. -/
def Dev.finishLoad (d : Dev) (s : Side) : Dev :=
  let h := d.half s
  match h.shelf.load with
  | none => d
  | some l => d.loadCyclesPass s (loadCycles h.planRd (stagedAt h.planRd l.ref))

/-- SHELF_LOAD_COMPLETE: the last line of the load in progress is written and its check passed (R93, R97). -/
def shelfLoadComplete (s : Side) (d : Dev) : Dev :=
  let f := (d.half s).face
  if f.bursting || f.arming then d.finishLoad s else d

/-- LOAD_CHECK: the loader finds a failing entry, which only corruption can cause (R90). -/
def loadCheck (s : Side) (f : ShelfFail) (d : Dev) : Dev :=
  let h := d.half s
  if h.shelf.load.isNone || !(h.face.bursting || h.face.arming) then d else
  d.loadFails s (if h.face.arming then 1 else 2) f

/-- The half's SC time reaches a cycle of its burst, and the load in progress with it (R43, R93). -/
def Dev.timeTo (d : Dev) (s : Side) (cycle : Nat) : Dev :=
  let b := (d.half s).face.burst
  if cycle ≤ b.cycle then d else
  (d.mod s fun h => { h with face := { h.face with burst := { h.face.burst with cycle := cycle } } }).loadCyclesPass s
    (cycle - b.cycle)

/-- A step's own instant comes: the end of the issue before its boundary and the pauses since (R108, R122). -/
def Dev.stepTime (d : Dev) (s : Side) : Dev := d.timeTo s ((d.half s).face.burst.tvs / 10000)

/-- SHELF_LATE: a load or swap step meets a shadow slot that cannot take it; the burst ends (R97, R98). -/
def Dev.shelfLate (d : Dev) (s : Side) : Dev :=
  ((d.mod s fun h => { h with shelf := h.shelf.stopLoad }).raise s blkShelf 1).abort s 4

/-- A shelf load step (R95, R97). -/
def Dev.loadStep (d : Dev) (s : Side) (ref : Nat) : Dev :=
  let x := (d.half s).shelf
  if x.slot x.shadow = .loading then d.shelfLate s else d.mod s fun h => h.startLoad x.shadow ref

/-- A shelf swap step (R95, R97). -/
def Dev.swapStep (d : Dev) (s : Side) : Dev :=
  let x := (d.half s).shelf
  if x.slot x.shadow = .valid then d.swapSlots s else d.shelfLate s

/-- The shelf part of ARM (R94) from where it stands: the initial image goes into the shadow slot, the slots exchange, and it
goes into the other. -/
def Dev.armShelf (d : Dev) (s : Side) : Dev :=
  let x := (d.half s).shelf
  if x.armFail || decide (2 ≤ x.armLoads) then d else
  let d := if x.load.isSome then d else d.mod s fun h => h.startLoad h.shelf.shadow (initShelf h.planRd)
  (d.finishLoad s).finishLoad s

end Sys2Proof.Machine
end

