-- ==== Sys2Proof/Machine/Face.lean ====
section
/-! DEFINITION. The face sequencer (chapter 4): steps, issues, the read-ahead, forks and the prefetch triggers. -/
namespace Sys2Proof.Machine

open PlanImg

/-! ## Cursors -/

/-- What stops a cursor before its next issue. -/
inductive Stop where
  /-- END reached -/
  | ended
  /-- a fork whose flag is not sampled -/
  | blocked
deriving DecidableEq, Repr

/-- Value of a sampled fork flag, after INV (R114). -/
def sampled (samples : Tbl Nat) (fork : Nat) : Option Bool :=
  match tget 2 samples fork with
  | 0 => some false
  | 1 => some true
  | _ => none

/-- A cursor passes a step that issues nothing, or begins a RUN or DRUN (R107 to R120). -/
def Cur.pass (rd : Nat → Byte) (samples : Tbl Nat) (c : Cur) : Except Stop Cur :=
  let next : Cur := { c with pc := c.pc + 1 }
  match op rd c.pc with
  | 1 => .ok { c with busy := true, ent := fc rd c.pc % 2 ^ 16, hv := fc rd c.pc / 2 ^ 16 % 2 ^ 32 * 132, left := fb rd c.pc, rep := 0 }
  | 2 => .ok { c with busy := true, left := fc rd c.pc % 2 ^ 32, rep := 0 }
  | 3 => .ok { next with loops := (c.pc, fb rd c.pc - 1) :: c.loops }
  | 4 =>
    match c.loops with
    | [] => .ok next
    | (l, n) :: outer =>
      let again : Cur := if n = 0 then { next with loops := outer } else { c with pc := l + 1, loops := (l, n - 1) :: outer }
      if sflags rd c.pc = 1 then
        let f := fc rd c.pc % 1024
        match sampled samples f with
        | none => .error .blocked
        | some true => .ok { c with pc := forkTrue rd f, loops := outer }
        | some false => .ok again
      else .ok again
  | 5 =>
    let f := fc rd c.pc % 1024
    match sampled samples f with
    | none => .error .blocked
    | some true => .ok { c with pc := forkTrue rd f }
    | some false => .ok next
  | 15 => .error .ended
  | _ => .ok next

/-- The entry and offset of a byte that lies o bytes behind the start of entry e's data: data that is exhausted goes on in the
next entry's (R109). The fuel bounds the entries passed. -/
def spotFrom (rd : Nat → Byte) : Nat → Nat → Nat → Nat × Nat
  | 0, e, o => (e, o)
  | n + 1, e, o => if o < entLen rd e then (e, o) else spotFrom rd n (e + 1) (o - entLen rd e)

/-- More entries than a plan can have (R105). -/
def entryFuel : Nat := 65536

/-- Where the half-vector of a RUN cursor starts when the data of its entry is exhausted (R109). -/
def Cur.settle (rd : Nat → Byte) (c : Cur) : Cur :=
  let x := spotFrom rd entryFuel c.ent c.hv
  { c with ent := x.1, hv := x.2 }

/-- The (entry, offset in its data) of each of the 132 bytes of a half-vector (R103, R109). -/
def Cur.spot (rd : Nat → Byte) (c : Cur) (k : Nat) : Nat × Nat := spotFrom rd entryFuel c.ent (c.hv + k)

/-- One issue of a busy cursor is done: the repeat, the half-vector and the step move on. `reps` is REPEAT + 1 of the
half-vector that begins, used when rep is 0. -/
def Cur.issued (rd : Nat → Byte) (c : Cur) (reps : Nat) : Cur :=
  let rep := (if c.rep = 0 then reps else c.rep) - 1
  if op rd c.pc = 2 then
    if c.left ≤ 1 then { c with busy := false, left := 0, pc := c.pc + 1 } else { c with left := c.left - 1 }
  else if rep ≠ 0 then { c with rep := rep }
  else if c.left ≤ 1 then { c with busy := false, left := 0, rep := 0, pc := c.pc + 1 }
  else ({ c with left := c.left - 1, rep := 0, hv := c.hv + 132 } : Cur).settle rd

/-- A cursor runs through steps that issue nothing until it stands at an issue; the steps' bound is the fuel. -/
def Cur.toIssue (rd : Nat → Byte) (samples : Tbl Nat) : Nat → Cur → Except Stop Cur
  | 0, _ => .error .ended
  | n + 1, c =>
    if c.busy then .ok (c.settle rd) else
    match c.pass rd samples with
    | .error e => .error e
    | .ok c => Cur.toIssue rd samples n c

/-! ## Staged reads -/

/-- The fill tag of a line that trigger n of an entry stages (R123). -/
def fillTag (rd : Nat → Byte) (e n : Nat) : Nat := 2 ^ 17 + (if entEach rd e then n % 2 else 0) * 2 ^ 16 + e

/-- The fill tag that the plan implies for a line of an entry: its latest trigger's (R123). -/
def Half.tagOf (h : Half) (e : Nat) : Nat := fillTag h.planRd e (tget 0 h.face.trigs e)

/-- Attic offset of a byte of an entry's data. -/
def stageAddr (rd : Nat → Byte) (e o : Nat) : Nat := bufOff rd (entBuf rd e) + entDst rd e + o

/-- What a read of a half-vector gives: its bytes, with the line whose correction the decoder reports; an UNDERFLOW; or a
poisoned read with its line (R123, R294). -/
inductive HvRead where
  | ok (v : HalfVec) (corr : Option Nat)
  | underflow
  | poisoned (line : Nat)

/-- The face sequencer reads a half-vector, with what the Attic's decoder finds in its first line (R116, R294). A line's fill
tag that is not the one implied is an UNDERFLOW (R123). -/
def Half.readHv (h : Half) (c : Cur) (e : Ecc) : HvRead :=
  let rd := h.planRd
  let spots := (List.range 132).map fun k => c.spot rd k
  let line (x : Nat × Nat) : Nat := stageAddr rd x.1 x.2 / 64
  let first := line (c.spot rd 0)
  match spots.find? fun x => h.att.poison (line x) with
  | some x => .poisoned (line x)
  | none =>
    if e = .uncorr then .poisoned first
    else if spots.all fun x => decide (tget 0 h.tags (line x) = h.tagOf x.1)
    then .ok (spots.map fun x => tget 0 h.attic (stageAddr rd x.1 x.2)) (if e = .corr then some first else none)
    else .underflow

/-- REPEAT of a half-vector's header (R100). -/
def HalfVec.repeats (v : HalfVec) : Nat := rdLE (fun i => v.getD i 0) 2 2

/-- Outcome of one read-ahead step: the half after it, with the line of a corrected read; an UNDERFLOW; or a poisoned read. -/
inductive Ahead where
  | ok (h : Half) (corr : Option Nat)
  | underflow
  | poisoned (line : Nat)

/-- The read-ahead moves by one issue; a half-vector that begins there is read (R116). In the issues that ARM reads, a
RUN does not count as started (R122). -/
def Half.readAhead (h : Half) (arming : Bool) (e : Ecc) : Ahead :=
  let rd := h.planRd
  let f := h.face
  match f.ahead.toIssue rd f.samples 64 with
  | .error _ => .ok { h with face := { f with aheadIdx := f.aheadIdx + 1 } } none
  | .ok c =>
    let begins := !f.ahead.busy && op rd c.pc = 1
    let starts := if begins && !arming then tset 0 f.starts c.pc (tget 0 f.starts c.pc + 1) else f.starts
    if op rd c.pc = 2 ∨ c.rep ≠ 0 then
      .ok { h with face := { f with ahead := c.issued rd 1, aheadIdx := f.aheadIdx + 1 } } none
    else match h.readHv c e with
      | .underflow => .underflow
      | .poisoned l => .poisoned l
      | .ok v corr => .ok { h with face := { f with ahead := c.issued rd (v.repeats + 1), aheadIdx := f.aheadIdx + 1,
                                                    fetched := f.fetched ++ [v], starts := starts } } corr

/-- The reads of issues 0 to 63 during ARM (R116). -/
def Half.readFirst (h : Half) : Nat → Ahead
  | 0 => .ok h none
  | n + 1 =>
    match h.readAhead true .clean with
    | .underflow => .underflow
    | .poisoned l => .poisoned l
    | .ok h _ => h.readFirst n

/-! ## Forks -/

/-- REPEAT + 1 of the half-vector at a cursor, from the plaintext of the file that its entry names: the issue counts
that the plan fixes before the data is staged (R115). -/
def Half.plannedReps (h : Half) (c : Cur) : Nat :=
  let rd := h.planRd
  let byte (k : Nat) : Byte :=
    let x := c.spot rd k
    match h.fileNow (fileId rd (entFile rd x.1)) with
    | some f => tget 0 f.data (entSrc rd x.1 + x.2)
    | none => 0
  rdLE byte 2 2 + 1

/-- The next fork on the path from a cursor, and how many issues lie before its step boundary, the next issue
included. Counts above 65 535 need no answer, since no LEAD is larger. -/
def Half.nextFork (h : Half) : Nat → Cur → Nat → Option (Nat × Nat)
  | 0, _, _ => none
  | n + 1, c, count =>
    let rd := h.planRd
    if 65535 < count then none
    else if c.busy then
      if op rd c.pc = 2 then h.nextFork n { c with busy := false, pc := c.pc + 1 } (count + c.left)
      else
        let c := c.settle rd
        let r := if c.rep = 0 then h.plannedReps c else c.rep
        h.nextFork n (({ c with rep := 1 } : Cur).issued rd 1) (count + r)
    else
      let o := op rd c.pc
      if o = 5 ∨ (o = 4 ∧ sflags rd c.pc = 1) then some (fc rd c.pc % 1024, count) else
      match c.pass rd [] with
      | .error _ => none
      | .ok c => h.nextFork n c count

/-- The flag of a fork before INV (R117, R119). A HAUL flag is HAUL_FLAG_IN as last applied. -/
def Dev.forkFlag (d : Dev) (s : Side) (f : Nat) : Bool :=
  let h := d.half s
  let rd := h.planRd
  let sel := forkSel rd f
  match forkSrc rd f with
  | 0 => (List.range 8).all fun g => !sel.testBit g || (h.face.seen.getLsbD g && !h.face.failed.getLsbD g)
  | 1 => h.reset = 0 && (h.hook (8 + sel)).flag
  | _ => (d.rg s.code .haulFlagIn 0).getLsbD sel

/-- A fork's sample point: the flag is taken, and a COMPARE sample sends the cascade flags and clears the match bits
(R115, R117, R383). -/
def Dev.sampleFork (d : Dev) (s : Side) (f : Nat) : Dev :=
  let rd := (d.half s).planRd
  let v := d.forkFlag s f != forkInv rd f
  let d := if forkSrc rd f = 0 then d.flagSend s else d
  d.mod s fun h =>
    let x := { h.face with samples := tset 2 h.face.samples f (b1 v) }
    { h with face := if forkSrc rd f = 0 then { x with seen := 0, failed := 0 } else x }

/-- The fork whose sample point is the next issue, if any. -/
def Half.dueFork (h : Half) : Option Nat :=
  let rd := h.planRd
  match h.nextFork 70000 h.face.cur 0 with
  | some (f, n) => if forkLead rd f = n then some f else none
  | none => none

/-! ## Steps -/

/-- The half runs and its sequencer stands at a step of this opcode with no RUN or DRUN in progress. -/
def Half.atStep (h : Half) (o : Nat) : Bool :=
  h.face.state = .running && !h.face.cur.busy && decide (op h.planRd h.face.cur.pc = o)

/-- A step counts as executed and, unless it is a RUN, as started (R122, R137). -/
def FaceSt.stepped (f : FaceSt) (start : Bool) : FaceSt :=
  { f with burst := { f.burst with steps := f.burst.steps + 1, lastStep := f.cur.pc }
           starts := if start then tset 0 f.starts f.cur.pc (tget 0 f.starts f.cur.pc + 1) else f.starts }

/-- At a step boundary the half takes the committed updates and the latest temperatures as a new correction epoch, when
they differ from those in force; older epochs stay for the issues that carry them (R189, R199). The boundary begins with
the end of a RUN or DRUN, so what a CAL step commits within a boundary waits for the next one. -/
def Half.newEpoch (h : Half) : Half :=
  let c := h.cal
  if c.epoch.blocks = c.blocks ∧ c.epoch.temps = c.temps then h else
  { h with cal := { c with epoch := { num := c.epoch.num + 1, blocks := c.blocks, temps := c.temps }
                           older := c.epoch :: c.older } }

/-- A step that issues nothing: it counts, and the sequencer moves on by the cursor rule. -/
def Half.passStep (h : Half) : Half :=
  let f := h.face.stepped true
  match f.cur.pass h.planRd f.samples with
  | .ok c => { h with face := { f with cur := c } }
  | .error _ => h

/-- RUN: the step begins; its half-vectors are issued one by one by VECTOR_ISSUE (R109). -/
def runStep (s : Side) (d : Dev) : Dev :=
  d.mod s fun h => if !h.atStep 1 then h else
    let f := h.face.stepped (decide (h.face.burst.issues < 64))
    match f.cur.pass h.planRd f.samples with
    | .ok c => { h with face := { f with cur := c } }
    | .error _ => h

/-- DRUN: the fixed-header step begins (R110). -/
def drunStep (s : Side) (d : Dev) : Dev := d.mod s fun h => if h.atStep 2 then h.passStep else h

/-- LOOP: a body begins (R113). -/
def loopStep (s : Side) (d : Dev) : Dev := d.mod s fun h => if h.atStep 3 then h.passStep else h

/-- LEND: the body repeats, a match loop exits on its flag, or the loop ends (R113, R120). The sample of the flag is used
up; an exhausted match loop is counted. -/
def lendStep (s : Side) (d : Dev) : Dev :=
  d.mod s fun h => if !h.atStep 4 then h else
    let rd := h.planRd
    let pc := h.face.cur.pc
    if sflags rd pc ≠ 1 then h.passStep else
    let fk := fc rd pc % 1024
    let left := match h.face.cur.loops with
      | (_, n) :: _ => n
      | [] => 0
    match sampled h.face.samples fk with
    | none => h
    | some v =>
      let h := h.passStep
      let b := h.face.burst
      { h with face := { h.face with
          samples := tset 2 h.face.samples fk 2
          burst := { b with forksTrue := b.forksTrue + b1 v, exhausted := b.exhausted + b1 (!v && left = 0) } } }

/-- FORK: continue at TRUE_STEP when the sampled flag is 1 (R114). -/
def forkStep (s : Side) (d : Dev) : Dev :=
  d.mod s fun h => if !h.atStep 5 then h else
    let fk := fc h.planRd h.face.cur.pc % 1024
    match sampled h.face.samples fk with
    | none => h
    | some v =>
      let h := h.passStep
      { h with face := { h.face with samples := tset 2 h.face.samples fk 2
                                     burst := { h.face.burst with forksTrue := h.face.burst.forksTrue + b1 v } } }

/-- A CAL or PAUSE step inserts SC cycles into the burst time axis (R111). -/
def Half.insertTime (h : Half) (cycles : Nat) : Half :=
  { h with face := { h.face with burst := { h.face.burst with tvs := h.face.burst.tvs + 10000 * cycles } } }

/-- PAUSE (R111). -/
def pauseStep (s : Side) (d : Dev) : Dev :=
  d.mod s fun h => if h.atStep 7 then h.passStep.insertTime (fb h.planRd h.face.cur.pc) else h

/-- DSTART: drill A starts at address B (R112, R155). -/
def dstartStep (s : Side) (d : Dev) : Dev :=
  d.mod s fun h => if !h.atStep 8 then h else
    let n := fa h.planRd h.face.cur.pc
    (h.setDrl n ((h.drl n).start (fb h.planRd h.face.cur.pc))).passStep

/-- DSTOP: drill A stops (R112, R155). -/
def dstopStep (s : Side) (d : Dev) : Dev :=
  d.mod s fun h => if !h.atStep 9 then h else
    let n := fa h.planRd h.face.cur.pc
    (h.setDrl n (h.drl n).stop).passStep

/-- SLOAD: a load of shelf reference A starts into the shadow slot (R95). -/
def sloadStep (s : Side) (d : Dev) : Dev :=
  let h := d.half s
  if !h.atStep 10 then d else ((d.stepTime s).mod s Half.passStep).loadStep s (fa h.planRd h.face.cur.pc)

/-- SSWAP: active and shadow exchange (R95). -/
def sswapStep (s : Side) (d : Dev) : Dev :=
  if !(d.half s).atStep 11 then d else ((d.stepTime s).mod s Half.passStep).swapStep s

/-- Write site-mask set m (R64). -/
def Dev.setSiteMask (d : Dev) (s : Side) (m v : Nat) : Dev :=
  (d.setRg s.code .tchSiteMaskLo m (BitVec.ofNat 32 v)).setRg s.code .tchSiteMaskHi m (BitVec.ofNat 32 (v / 2 ^ 32))

/-- SMASK: site-mask set A takes the value C (R64, R112). -/
def smaskStep (s : Side) (d : Dev) : Dev :=
  let h := d.half s
  if !h.atStep 12 then d else
  (d.mod s Half.passStep).setSiteMask s (fa h.planRd h.face.cur.pc) (fc h.planRd h.face.cur.pc)

/-- SRC: source map A comes into force (R112). -/
def srcStep (s : Side) (d : Dev) : Dev :=
  d.mod s fun h => if !h.atStep 13 then h else
    let m := fa h.planRd h.face.cur.pc
    let h := h.passStep
    { h with face := { h.face with srcMap := m } }

/-- END takes effect at a boundary: issue stops, the half drains (R130). -/
def endStep (s : Side) (d : Dev) : Dev :=
  if !(d.half s).atStep 15 then d else
  (d.stepTime s).mod s fun h =>
    { h with
      face := { (h.face.stepped true) with state := .draining, chuteQ := [], chuteOn := false }
      qry := { h.qry with state := .flushing } }

/-! ## Issues -/

/-- The symbols of an issue: from the stored half-vector or from the drills by the source map in force (R45, R100,
R101, R150). A DRUN has no stored half-vector: its stored-sourced channels, which are disabled ones (R110), carry symbol 0
(DESIGN CHOICE, log entry 58). -/
def Half.symbols (h : Half) (map : Nat) (v : HalfVec) (o0 o1 : DrillOut) : BitVec 1024 :=
  let rd := h.planRd
  let p0 := h.drl0.phys o0.x o0.y
  let p1 := h.drl1.phys o1.x o1.y
  let d0 := h.drl0.physData p0.1 p0.2 o0.d
  let d1 := h.drl1.physData p1.1 p1.2 o1.d
  BitVec.ofNat 1024 ((List.range 256).foldl (fun a ch =>
    a + (match src rd map ch with
      | 1 => h.drl0.symbol o0 p0.1 p0.2 d0 ch
      | 2 => h.drl1.symbol o1 p1.1 p1.2 d1 ch
      | _ => (v.getD (4 + ch / 2) 0).toNat / 16 ^ (ch % 2) % 16) * 16 ^ ch) 0)

/-- The hook on the stream of an issue, none while the fabric is not released or a partial reset holds the half (R220,
R235). -/
def Dev.queueHook (d : Dev) (s : Side) (hook n : Nat) : Dev :=
  if !d.configured ∨ (d.half s).reset ≠ 0 then d else d.offer s hook n

/-- Site-mask set m as the data path holds it (R64). -/
def Dev.siteMask (d : Dev) (s : Side) (m : Nat) : BitVec 64 :=
  BitVec.ofNat 64 ((d.rg s.code .tchSiteMaskHi m).toNat * 2 ^ 32 + (d.rg s.code .tchSiteMaskLo m).toNat)

/-- An UNDERFLOW ends the burst (R123). -/
def Dev.underflow (d : Dev) (s : Side) : Dev := (d.raise s blkFace 0).abort s 2

/-- A poisoned read of a staging line ends the burst with INTEGRITY (R182, R294). -/
def Dev.poisonedRead (d : Dev) (s : Side) (line : Nat) : Dev := (d.attUncorr s line).abort s 5

/-- The issue itself: drills execute, symbols form, the vector enters the pipelines and its period passes (R43, R45,
R101, R142). Relayed groups take the received symbols, whose absence is an UNDERFLOW (R388); a relaying half sends its
own (R387). -/
def Dev.makeIssue (d : Dev) (s : Side) (header : Word) (v : HalfVec) (next : Cur) : Dev :=
  let h := d.half s
  let f := h.face
  let b := f.burst
  let page := h.shelf.active
  let period := (tget 0 h.shelf.period (16 * page + fld header 3 0)).toNat
  let (x0, o0) := h.drl0.execute (b.tvs / 10000)
  let (x1, o1) := h.drl1.execute (b.tvs / 10000)
  match d.relaySymbols s b.issues (h.symbols f.srcMap v o0 o1) with
  | none => d.underflow s
  | some symbols =>
  let i : Issue :=
    { idx := b.issues, tvs := b.tvs, period := period, header := header, step := f.cur.pc, page := page
      epoch := h.cal.epoch.num, sites := d.siteMask s (fld header 7 4), srcMap := f.srcMap, out0 := o0, out1 := o1
      symbols := symbols }
  let d := (d.relaySend s b.issues symbols).mod s fun h => h.relayUsed b.issues
  let d := d.mod s fun h => { h with
    drl0 := x0, drl1 := x1
    face := { h.face with
      issues := h.face.issues ++ [i], last := some i, cur := next, present := v
      burst := { h.face.burst with issues := b.issues + 1, tvs := b.tvs + period, endAt := b.tvs + period,
                                   lastStep := f.cur.pc, vecStep := f.cur.pc } } }
  let d := if next.busy then d else d.mod s Half.newEpoch
  (List.range 10).foldl (fun d k =>
    if k < 8 then d.queueHook s k b.issues
    else if ((d.half s).drl (k - 8)).st = 2 ∨ (d.half s).drl (k - 8) ≠ h.drl (k - 8)
      then (if ((d.half s).drl (k - 8)).usesHook then d.queueHook s (k + 8) b.issues else d) else d) d

/-- VECTOR_ISSUE: the sequencer issues the next vector of the RUN or DRUN in progress. The fork sample of the cycle comes
first, then the read 64 issues ahead (R115, R116), with the upsets it meets; a read that fails leaves the issue
unmade (R136). -/
def issueVector (s : Side) (e : Faults) (d : Dev) : Dev :=
  let h := d.half s
  if h.face.state ≠ .running || !h.face.cur.busy then d else
  let d := d.stepTime s
  let d := match h.dueFork with
    | some f => d.sampleFork s f
    | none => d
  match (d.half s).readAhead false (atticClass e) with
  | .underflow => d.underflow s
  | .poisoned l => d.poisonedRead s l
  | .ok h corr =>
    let d := d.setHalf s h
    let d := match corr with
      | some l => d.attCorr s l
      | none => d
    let rd := h.planRd
    let c := h.face.cur
    if op rd c.pc = 2 then
      let d := d.mod s fun h => { h with face := { h.face with present := [] } }
      d.makeIssue s (BitVec.ofNat 32 (fb rd c.pc)) [] (c.issued rd 1)
    else
      let (v, rest) := if c.rep = 0 then (h.face.fetched.headD [], h.face.fetched.drop 1) else (h.face.present, h.face.fetched)
      let d := d.mod s fun h => { h with face := { h.face with fetched := rest } }
      d.makeIssue s (BitVec.ofNat 32 (rdLE (fun i => v.getD i 0) 0 4)) v ((c.settle rd).issued rd (v.repeats + 1))

/-! ## Prefetch and the chute -/

/-- Triggers of an entry that have come (R121, R122). -/
def Half.trigWanted (h : Half) (e : Nat) : Nat :=
  let rd := h.planRd
  let n := tget 0 h.face.starts (entTrig rd e)
  if entArm rd e then 0 else if entEach rd e then n else min n 1

/-- PREFETCH_TRIGGER: TRIG_OFFSET after a start of its step, an entry joins the trigger queue (R122). -/
def prefetchTrigger (s : Side) (e : Nat) (d : Dev) : Dev :=
  d.mod s fun h =>
    if !h.face.bursting || decide (entries h.planRd ≤ e) || decide (h.trigWanted e ≤ tget 0 h.face.trigs e) then h else
    let n := tget 0 h.face.trigs e + 1
    { h with face := { h.face with trigs := tset 0 h.face.trigs e n, undone := h.face.undone ++ [(e, n)]
                                   chuteQ := h.face.chuteQ ++ [(e, n)] } }

/-- The chutes execute entries: a burst runs, or an ARM whose entries are listed (R122, R131). -/
def FaceSt.chuting (f : FaceSt) : Bool := f.bursting || f.arming

/-- CHUTE_ENTRY_START: the chute takes the oldest triggered entry, whose lines go to the verify pipeline (R122, R280,
R333). -/
def chuteEntryStart (s : Side) (d : Dev) : Dev :=
  d.mod s fun h =>
    match h.face.chuteQ with
    | [] => h
    | e :: _ =>
      if !h.face.chuting || h.face.chuteOn then h else
      { h with face := { h.face with chuteOn := true, chuteAt := d.clk.cycles }
               xts := { h.xts with checks := h.xts.checks
                  ++ [(fileId h.planRd (entFile h.planRd e.1), entSrc h.planRd e.1 / 64, entLen h.planRd e.1 / 64)] } }

/-- The chute writes an entry's lines into its buffer with the fill tags of its trigger n, which is complete then (R123,
R124, R280). -/
def Half.fillEntry (h : Half) (e n : Nat) : Half :=
  let rd := h.planRd
  let base := stageAddr rd e 0
  let data := match h.fileNow (fileId rd (entFile rd e)) with
    | some f => memRead f.data (entSrc rd e) (entLen rd e)
    | none => []
  let whole (l : Nat) : Bool := decide (base / 64 ≤ l) && decide (l < base / 64 + entLen rd e / 64)
  { h with
    attic := memWrite h.attic base data
    att := h.att.cleanse whole
    tags := tblit 0 h.tags (base / 64) (List.replicate (entLen rd e / 64) (fillTag rd e n))
    face := { h.face with undone := h.face.undone.filter fun x => decide (x ≠ (e, n)) } }

/-- The entry in flight ends: its last line is written, or an error leaves it not complete (R124, R280). -/
def Half.chuteEnd (h : Half) (error : Bool) : Half :=
  match h.face.chuteQ with
  | [] => h
  | e :: rest =>
    if !h.face.chuting || !h.face.chuteOn then h else
    let h := if error then h else h.fillEntry e.1 e.2
    { h with face := { h.face with chuteQ := rest, chuteOn := false } }

/-- The entry in flight has read its lines, whose rows are open. Its reads are counted as one request of port 0 that is
accepted when 180 bytes an SC cycle would bring the last line (R268, R271, R272, log entry 62). -/
def Dev.chuteDone (d : Dev) (s : Side) : Dev :=
  let h := d.half s
  match h.face.chuteQ with
  | [] => d
  | e :: _ =>
    let rd := h.planRd
    let len := entLen rd e.1
    let first := Config.place s.code (fileId rd (entFile rd e.1)) + entSrc rd e.1 / 64
    (d.mod s fun h => h.celTouch (first % 2 ^ 30) (len / 64)).completed s 0 (h.face.chuteAt + (len + 179) / 180)

/-- The ARM work goes on to the shelf loads once every ARM-flagged entry is complete (R131). -/
def Dev.armLoad (d : Dev) (s : Side) : Dev :=
  d.mod s fun h =>
    if h.face.arming && h.face.chuteQ.isEmpty && !h.face.flushing && decide (h.shelf.armLoads = 0) && h.shelf.load.isNone
        && !h.shelf.armFail
    then h.startLoad h.shelf.shadow (initShelf h.planRd) else h

/-- CHUTE_LATE: an entry is not complete at its deadline, and the burst ends (R124). In the SC cycle in which another cause
has ended the burst it joins that cause (R135). -/
def chuteLate (s : Side) (e : Nat) (d : Dev) : Dev :=
  let h := d.half s
  let now := h.face.bursting || (h.face.flushing && decide (h.face.burst.abortAt = some h.face.burst.cycle))
  if !now || !(h.face.undone.any fun x => decide (x.1 = e)) then d else
  (d.raise s blkFace 1).abort s 3

/-! ## Faults of the sequencer and the drills -/

/-- PLAN_PARITY: a parity error in the plan image in the Attic (R139): severity 3 by default. It has no abort cause of
its own; at severity 3 the SAFE net ends the burst. -/
def planParity (s : Side) (d : Dev) : Dev := if (d.half s).face.plan.isNone then d else d.raise s blkFace 4

/-- DRILL_PARITY: a parity error in a drill (R155, R160). -/
def drillParity (s : Side) (n : Nat) (d : Dev) : Dev :=
  let x := (d.half s).drl n
  if x.st = 0 then d
  else if x.st = 1 then d.raise s blkDrl 0
  else
    let d := d.mod s fun h => h.setDrl n { (h.drl n).stop with fault := true }
    (d.raise s blkDrl 0).abort s 8

end Sys2Proof.Machine
end

