-- ==== Sys2Proof/Machine/Cal.lean ====
section
/-! DEFINITION. Timing calibration (chapter 7): updates, slots, sweeps, validity and the table image. -/
namespace Sys2Proof.Machine

/-- SWING as a channel block stores it (R187). -/
def Dev.swingCode (d : Dev) (s : Side) (ch : Nat) : Nat :=
  d.rf s.code .tchCfg ch 15 12 * 16 + d.rf s.code .tchCfg ch 11 8

/-- The first limit of R191 that a block breaks: reason and type. -/
def CalBlock.check (b : CalBlock) : Option (Nat × Nat) :=
  let e (y : Nat) : CalEntry := b.entries.getD y {}
  let od (y : Nat) : Int := (e y).offset + (e y).deskew
  let types (bad : Nat → Bool) : Option Nat := (List.range 6).find? bad
  let spread (x y : Nat) : Bool :=
    let pc := (List.range 8).foldl (fun (m : Nat) i => max m (((e x).pcurve.getD i 0) - ((e y).pcurve.getD i 0)).natAbs) 0
    decide (56125 < 125 * (od x - od y).natAbs + 110 * ((e x).tcoef - (e y).tcoef).natAbs + pc)
  let pairs : List (Nat × Nat) := [(0, 1), (0, 2), (0, 3), (1, 2), (1, 3), (2, 3), (4, 5)]
  match types (fun y => decide (32000 < (od y).natAbs)) with
  | some y => some (3, y)
  | none => match types (fun y => decide (500 < (e y).tcoef.natAbs)) with
    | some y => some (4, y)
    | none => match types (fun y => (e y).pcurve.any fun v => decide (20000 < v.natAbs)) with
      | some y => some (5, y)
      | none =>
        if b.tref < -160 ∨ 1600 < b.tref then some (6, 0)
        else (pairs.find? fun p => spread p.1 p.2).map fun p => (7, p.2)

/-- CAL_CHECK records a failure unless one is held. -/
def Dev.calFail (d : Dev) (s : Side) (src ch : Nat) (f : Nat × Nat) : Dev :=
  if d.rf s.code .calCheck 0 0 0 = 1 then d
  else d.setRg s.code .calCheck 0 (pack [(0, 1), (14, src), (15, f.2), (18, ch), (28, f.1)])

/-- Validity is lost in a burst (R203). -/
def Dev.loseCal (d : Dev) (s : Side) : Dev :=
  if !(d.half s).face.bursting || (d.half s).cal.lost then d
  else (d.mod s fun h => { h with cal := { h.cal with lost := true } }).raise s blkCal 4

/-- R203 looked at again after something that validity depends on has changed. -/
def Dev.recheckCal (d : Dev) (s : Side) : Dev :=
  if (d.half s).face.bursting && !d.calValid s then d.loseCal s else d

/-- Residual r of R196 in 1/16 of 0.001 ps. -/
def residual (e : CalEntry) (w t tref phiShift : Int) : Int :=
  16 * (w - e.wref) + e.tcoef * (t - tref) + 16 * phiShift

/-- The entry re-anchored by a reading (R196). -/
def CalEntry.anchor (e : CalEntry) (w t tref phiShift : Int) : CalEntry :=
  { e with offset := roundDiv (2000 * e.offset + e.tcoef * (t - tref) - residual e w t tref phiShift) 2000
           wref := w, wlast := w }

/-- A witness has measured a channel: the readings of its six types (R196, R197). -/
def Dev.measure (d : Dev) (s : Side) (ch : Nat) (readings : List Int) : Dev :=
  let h := d.half s
  let b := tget {} h.cal.blocks ch
  let t := h.cal.temps.getD (ch / 32) 0
  let put (b : CalBlock) (d : Dev) : Dev := d.mod s fun h =>
    { h with cal := { h.cal with blocks := tset {} h.cal.blocks ch b, changed := true } }
  let fresh (d : Dev) : Dev := d.mod s fun h => { h with cal := { h.cal with
    aged := bitClear h.cal.aged ch, when := tset 0 h.cal.when ch h.tsk.tick } }
  if h.assisted 1 then
    fresh (put { b with tlast := t, entries := b.entries.zipIdx.map fun e => { e.1 with wlast := readings.getD e.2 0 } } d)
  else
    let shift := match s with
      | .w => 0
      | .e => h.cal.phi - b.phiref
    let rs := b.entries.zipIdx.map fun e => residual e.1 (readings.getD e.2 0) t b.tref shift
    let big := rs.any fun r => decide (24000 < r.natAbs)
    let top := rs.foldl (fun (m : Nat) r => max m ((r.natAbs + 8) / 16)) 0
    let nb : CalBlock :=
      { b with entries := b.entries.zipIdx.map fun e => e.1.anchor (readings.getD e.2 0) t b.tref shift
               tref := t, tlast := t, swing := d.swingCode s ch, phiref := h.cal.phi
               cflags := (if big then b.cflags / 8 * 8 + 4 + b.cflags % 2 else b.cflags / 4 * 4 + b.cflags % 2) }
    match nb.check with
    | some f =>
      ((d.mod s fun h => { h with cal := { h.cal with anchored := bitClear h.cal.anchored ch } }).calFail s 1 ch f).raise s blkCal 1
    | none =>
      let d := (fresh (put nb d)).bump s.code .calUpdateCnt
      let d := d.mod s fun h => { h with cal := { h.cal with anchored := bitSet h.cal.anchored ch, drifted := bitClear h.cal.drifted ch } }
      let d := d.setRg s.code .calResidMax 0
        (setFld (d.rg s.code .calResidMax 0) 15 0 (max (d.rf s.code .calResidMax 0 15 0) (min top 0xFFFF)))
      if big then (d.raise s blkCal 2).loseCal s else d

/-- The witnesses' self-checks at the start of a slot or sweep (R195). -/
def Dev.selfCheck (d : Dev) (s : Side) (ok : List Bool) : Dev :=
  let l := (List.range 4).map fun w => ok.getD w false
  let d := d.mod s fun h => { h with cal := { h.cal with witness := l.map some } }
  let d := if l.all id then d else d.raise s blkCal 0
  d.recheckCal s

/-- CAL: a calibration slot of 8 000 SC cycles (R111, R198). Readings stand witness by witness, first channel first. -/
def calStep (s : Side) (selfOk : List Bool) (readings : List (List Int)) (d : Dev) : Dev :=
  if !(d.half s).atStep 6 then d else
  let d := d.mod s fun h =>
    let h := h.passStep.insertTime 8000
    { h with face := { h.face with burst := { h.face.burst with calSlots := h.face.burst.calSlots + 1 } } }
  let p := (d.half s).cal.pointer
  let d := d.selfCheck s selfOk
  let d := (List.range 8).foldl (fun d k =>
    if selfOk.getD (k / 2) false then d.measure s (64 * (k / 2) + 32 * (k % 2) + p) (readings.getD k []) else d) d
  let d := d.mod s fun h => { h with cal := { h.cal with pointer := (p + 1) % 32 } }
  (d.bump s.code .calSlotCnt).recheckCal s

/-- The half may sweep (R201). -/
def Half.canSweep (h : Half) : Bool := !h.face.bursting && !h.face.arming

def CalWait.waits (c : CalWait) (s : Side) : Bool :=
  match s with
  | .w => c.w
  | .e => c.e

/-- A sweep is due: a CAL_RUN waits for the half, or in hardware mode a channel is STALE or was last measured more than
500 ms ago, 50 000 ticks of the half's task unit (R201, log entry 60). -/
def Dev.sweepDue (d : Dev) (s : Side) : Bool :=
  let h := d.half s
  d.hst.cals.any (fun c => c.waits s)
    || (!h.assisted 1 && (List.range 256).any fun ch =>
          !d.current s ch || decide (tget 0 h.cal.when ch + 50000 < h.tsk.tick))

/-- SWEEP_START: a sweep that is due starts (R195, R201). -/
def sweepStart (s : Side) (selfOk : List Bool) (d : Dev) : Dev :=
  let h := d.half s
  if !h.canSweep || h.cal.sweeping || h.reset ≠ 0 || !d.sweepDue s then d else
  ((d.abandon s).mod s fun h => { h with cal := { h.cal with sweeping := true, swept := 0 } }).selfCheck s selfOk

/-- The witness of a channel passed its last self-check (R195). -/
def CalSt.passed (c : CalSt) (ch : Nat) : Bool := decide (c.witness.getD (ch / 64) none = some true)

/-- A sweep waits for a channel's measurement. -/
def CalSt.awaits (c : CalSt) (ch : Nat) : Bool := c.sweeping && c.passed ch && !c.swept.getLsbD ch

/-- A channel's measurement in a sweep is complete (R201). -/
def Dev.sweepMeasure (d : Dev) (s : Side) (ch : Nat) (readings : List Int) : Dev :=
  (d.mod s fun h => { h with cal := { h.cal with swept := bitSet h.cal.swept ch } }).measure s ch readings

def CalWait.take (c : CalWait) (s : Side) : CalWait :=
  match s with
  | .w => { c with w := false }
  | .e => { c with e := false }

/-- A half's sweep for a CAL_RUN has ended; the response follows the last one, or the first that was stopped. -/
def Dev.calPart (d : Dev) (life : Life) (s : Side) (st : Nat) : Dev :=
  let l := d.hst.cals.map fun c => (c, c.take s)
  let ended (x : CalWait × CalWait) : Bool := x.1.waits s && (decide (st ≠ stOk) || !(x.2.w || x.2.e))
  (l.filter ended).foldl (fun d x => d.finish life x.1.reply st [])
    { d with hst := { d.hst with cals := (l.filter fun x => !ended x).map Prod.snd } }

/-- Every channel of the sweep is measured, but for those of a witness that failed its self-check (R195, R201). -/
def CalSt.sweepDone (c : CalSt) : Bool := (List.range 256).all fun ch => c.swept.getLsbD ch || !c.passed ch

/-- SWEEP_END: every channel is measured. TW's witness 0 has measured the FIRE_IN path unless it failed its self-check, and
firmware writes the result to both halves while neither is ARMED, RUNNING or DRAINING (R195, R200). -/
def sweepEnd (life : Life) (s : Side) (fireOffset : Int) (d : Dev) : Dev :=
  let c := (d.half s).cal
  if !c.sweeping || !c.sweepDone then d else
  let d := d.mod s fun h => { h with cal := { h.cal with sweeping := false } }
  let d := if s = .w && c.passed 0 && !d.west.face.active && !d.east.face.active then
      (d.setRg 0 .faceFireOffset 0 (BitVec.ofNat 32 (unsgn 2 fireOffset))).setRg 1 .faceFireOffset 0
        (BitVec.ofNat 32 (unsgn 2 fireOffset))
    else d
  d.calPart life s stOk

/-- An accepted ARM or a fire stops a sweep in the same cycle; what is committed stands (R201). A CAL_RUN waiting for it
is answered WRONG_STATE (log entry 12). -/
def Dev.stopSweep (d : Dev) (life : Life) (s : Side) : Dev :=
  (d.mod s fun h => { h with cal := { h.cal with sweeping := false } }).calPart life s stWrong

/-- TEMP_SAMPLE: the sensors of a half are sampled (R189). Corrections take it at step boundaries in a burst. -/
def tempSample (s : Side) (temps : List Int) (d : Dev) : Dev :=
  let d := d.mod s fun h =>
    let t := (List.range 8).map fun g => temps.getD g (h.cal.temps.getD g 0)
    let c := { h.cal with temps := t }
    { h with cal := if h.face.bursting then c else { c with epoch := { c.epoch with temps := t } } }
  d.recheckCal s

/-- PHASE_COMPARE: a reading of the cross-half comparator; sixteen are averaged into φ, and a channel that drifts with it
raises XHALF_DRIFT, once until it is restored (R204). -/
def phaseCompare (reading : Int) (d : Dev) : Dev :=
  let l := d.east.cal.phs ++ [reading]
  if l.length < 16 then d.mod .e fun h => { h with cal := { h.cal with phs := l } } else
  let phi := roundDiv (l.foldl (· + ·) 0) 16
  let d := d.mod .e fun h => { h with cal := { h.cal with phi := phi, phs := [] } }
  let was := d.east.cal.drifted
  let now : BitVec 256 := BitVec.ofNat 256 ((List.range 256).foldl (fun a ch => a + b1 (d.east.cal.drift ch) * 2 ^ ch) 0)
  let d := d.mod .e fun h => { h with cal := { h.cal with drifted := now } }
  let d := if now &&& ~~~was ≠ 0 then d.raise .e blkCal 3 else d
  d.recheckCal .e

/-- CAL_MEASUREMENT_AGED: a channel's last measurement is more than 1 s old (R202). -/
def calMeasurementAged (s : Side) (ch : Nat) (d : Dev) : Dev :=
  (d.mod s fun h => { h with cal := { h.cal with aged := bitSet h.cal.aged ch } }).recheckCal s

/-- An invalidating event makes every channel of a half STALE (R202). -/
def Dev.staleAll (d : Dev) (s : Side) : Dev :=
  (d.mod s fun h => { h with cal := { h.cal with anchored := 0 } }).recheckCal s

/-! ## The table image (R187, R193) -/

def CalEntry.bytes (e : CalEntry) : List Byte :=
  leBytes 2 (unsgn 2 e.offset) ++ leBytes 2 (unsgn 2 e.deskew) ++ leBytes 2 (unsgn 2 e.tcoef) ++ leBytes 2 0
    ++ (List.range 8).flatMap (fun i => leBytes 2 (unsgn 2 (e.pcurve.getD i 0)))
    ++ leBytes 4 (unsgn 4 e.wref) ++ leBytes 4 (unsgn 4 e.wlast)

/-- The 256 bytes of a channel block (R187). -/
def CalBlock.bytes (b : CalBlock) : List Byte :=
  leBytes 2 (unsgn 2 b.tref) ++ leBytes 2 b.cflags ++ leBytes 1 b.swing ++ leBytes 1 0 ++ leBytes 2 (unsgn 2 b.phiref)
    ++ leBytes 2 (unsgn 2 b.tlast) ++ leBytes 6 0
    ++ (List.range 6).flatMap (fun y => (b.entries.getD y {}).bytes) ++ leBytes 48 0

/-- The table image that CAL_TABLE_GET returns (R193, R355). -/
def Half.tableImage (h : Half) (s : Side) (first count : Nat) : List Byte :=
  leBytes 4 1 ++ leBytes 1 s.code ++ leBytes 1 0 ++ leBytes 2 first ++ leBytes 2 count ++ leBytes 2 3 ++ leBytes 4 0
    ++ (List.range count).flatMap fun k => (tget {} h.cal.blocks (first + k)).bytes

/-- A block after a CAL_TABLE_SET of the parts named (R193, R194). rd gives the image's block. -/
def CalBlock.write (b : CalBlock) (rd : Nat → Byte) (device deskew : Bool) (phi : Int) : CalBlock :=
  let i16 (o : Nat) : Int := sgn 2 (rdLE rd o 2)
  let ent (y : Nat) (e : CalEntry) : CalEntry :=
    let o := 0x10 + 32 * y
    let e := if device then { e with offset := i16 o, tcoef := i16 (o + 4), wref := sgn 4 (rdLE rd (o + 0x18) 4)
                                     pcurve := (List.range 8).map fun i => i16 (o + 8 + 2 * i) } else e
    if deskew then { e with deskew := i16 (o + 2) } else e
  let b := { b with entries := b.entries.zipIdx.map fun e => ent e.2 e.1 }
  let b := if device then { b with tref := i16 0, swing := rdLE rd 4 1, phiref := phi
                                   cflags := b.cflags / 4 * 4 + 2 + b.cflags % 2 } else b
  if deskew then { b with cflags := b.cflags / 2 * 2 + 1 } else b

/-- Reserved fields and bits of a block in an image are 0 (R187, R193). -/
def blockResv (rd : Nat → Byte) : Bool :=
  decide (rdLE rd 2 2 < 8) && decide (rdLE rd 5 1 = 0) && decide (rdLE rd 0x0A 6 = 0)
    && (List.range 6).all (fun y => decide (rdLE rd (0x10 + 32 * y + 6) 2 = 0)) && decide (rdLE rd 0xD0 48 = 0)

/-- The half that a table image names. -/
def tableSide (img : List Byte) : Side := if img.getD 4 0 = 1 then .e else .w

/-- First failure of a table image against the table of its half: channel, reason, type (R193). -/
def Half.tableCheck (h : Half) (img : List Byte) : Option (Nat × Nat × Nat) :=
  let rd (i : Nat) : Byte := img.getD i 0
  let first := rdLE rd 6 2
  let count := rdLE rd 8 2
  let parts := rdLE rd 10 2
  if rdLE rd 0 4 ≠ 1 ∨ parts = 0 ∨ 3 < parts ∨ rd 5 ≠ 0 ∨ rdLE rd 12 4 ≠ 0 then some (0, 1, 0)
  else if 1 < (rd 4).toNat ∨ count = 0 ∨ 256 < first + count then some (0, 2, 0)
  else firstSome count fun k =>
    let brd (i : Nat) : Byte := rd (16 + 256 * k + i)
    if !blockResv brd then some (first + k, 1, 0) else
    (((tget {} h.cal.blocks (first + k)).write brd (decide (parts % 2 = 1)) (decide (2 ≤ parts)) h.cal.phi).check).map
      fun f => (first + k, f.1, f.2)

/-- The body of CAL_TABLE_SET (R193, R194): status and state. -/
def Dev.tableSet (d : Dev) (img : List Byte) : Nat × Dev :=
  let s := tableSide img
  let h := d.half s
  let rd (i : Nat) : Byte := img.getD i 0
  let first := rdLE rd 6 2
  let parts := rdLE rd 10 2
  if h.locked || (decide (parts % 2 = 1) && !h.assisted 1) then (stWrong, d) else
  match h.tableCheck img with
  | some f => (stBadArg, d.calFail s 0 f.1 f.2)
  | none =>
    let d := (List.range (rdLE rd 8 2)).foldl (fun d k => d.mod s fun h =>
      let b := (tget {} h.cal.blocks (first + k)).write (fun i => rd (16 + 256 * k + i)) (decide (parts % 2 = 1))
        (decide (2 ≤ parts)) h.cal.phi
      { h with cal := { h.cal with
          blocks := tset {} h.cal.blocks (first + k) b
          anchored := if parts % 2 = 1 then bitSet h.cal.anchored (first + k) else h.cal.anchored
          drifted := if parts % 2 = 1 then bitClear h.cal.drifted (first + k) else h.cal.drifted
          aged := if parts % 2 = 1 then bitClear h.cal.aged (first + k) else h.cal.aged } }) d
    (stOk, d.mod s fun h => { h with cal := { h.cal with changed := false } })

end Sys2Proof.Machine
end

