-- ==== Sys2Proof/Machine/Fabric.lean ====
section
/-! DEFINITION. The fabric's interface to a half (chapter 8): hooks, clocks of benches, block memory ports. -/
namespace Sys2Proof.Machine

/-- The half over which an F-die lies (R15). -/
def dieSide (f : Nat) : Side := if f < 2 then .w else .e

/-- START has released the fabric and the device is CONFIGURED. -/
def Dev.released (d : Dev) : Bool := d.configured

/-- FAB_BENCH of a bench (R216, R248): 0 unless the fabric is released. -/
def Dev.benchReg (d : Dev) (die b : Nat) : Nat := if d.released then tget 0 d.cfg.wcfg (0x100 + 120 * die + b) else 0

/-- The image's setting of a fabric clock in MHz. -/
def Dev.imgMhz (d : Dev) (n : Nat) : Nat := if d.released then tget 0 d.cfg.wcfg n else 0

/-- Bench of a cell by local column and row (R208). -/
def benchOf (x y : Nat) : Nat := 15 * (y / 16) + x / 16

/-- The fabric clock of a bench, none when it has none. -/
def Dev.benchClock (d : Dev) (die b : Nat) : Option Nat :=
  let r := d.benchReg die b
  if r.testBit 3 then some (r % 8) else none

/-- The one clock of all benches in a list, none when they differ or a bench has none (R224, R230). -/
def Dev.oneClock (d : Dev) (die : Nat) : List Nat → Option Nat
  | [] => none
  | b :: bs => if bs.all fun c => decide (d.benchClock die c = d.benchClock die b) then d.benchClock die b else none

/-- F-die and first and last local column of a hook of a half (R228). -/
def hookCols (s : Side) (hook : Nat) : Nat × Nat × Nat :=
  let base := 2 * s.code
  if hook < 8 then (base + hook / 4, 47 * (hook % 4), 47 * (hook % 4) + 17)
  else if hook < 16 then (base + (hook - 8) / 4, 47 * (hook % 4) + 18, 47 * (hook % 4) + 46)
  else (base + (hook - 16), 188, 205)

/-- The fabric clock a hook works in; none when its columns conflict (R230). -/
def Dev.hookClock (d : Dev) (s : Side) (hook : Nat) : Option Nat :=
  let (die, lo, hi) := hookCols s hook
  d.oneClock die ((List.range (hi / 16 - lo / 16 + 1)).map fun k => benchOf (16 * (lo / 16 + k)) 0)

/-- The hook can work: fabric released, no reset holding it, no conflict (R220, R230, R235). -/
def Dev.hookLive (d : Dev) (s : Side) (hook : Nat) : Bool :=
  d.released && decide ((d.half s).reset = 0) && (d.hookClock s hook).isSome

/-- FAB_HOOK_CFG.EN. -/
def Dev.hookOn (d : Dev) (s : Side) (hook : Nat) : Bool := d.rf s.code .fabHookCfg hook 0 0 = 1

/-- Fields of given widths, the first lowest, as one number. -/
def packBits : List (Nat × Nat) → Nat
  | [] => 0
  | (w, v) :: t => v % 2 ^ w + 2 ^ w * packBits t

/-- Width of a hook's inbound slot (R229). -/
def slotWidth (hook : Nat) : Nat := if hook < 8 then 139 else if hook < 16 then 231 else 143

/-- STATE of a result in a compare slot. -/
def stateCode : Sampled → Nat
  | .z => 0
  | .l => 1
  | .h => 2
  | .invalid => 3

/-- The inbound slot of an issue on a hook, VALID included (R229). -/
def Dev.hookSlot (d : Dev) (s : Side) (hook : Nat) (i : Issue) : Nat :=
  if hook < 8 then
    packBits ((1, 1) :: (6, i.idx) :: (4, i.tset) :: (List.range 32).map fun c => (4, i.symbol (32 * hook + c)))
  else if hook < 16 then
    let l := d.groupResults s i (hook - 8)
    let fail := (chanMask l fun _ _ o => decide (o = .fail)).toNat
    packBits ((1, 1) :: (6, i.idx) :: (32, fail) :: (List.range 64).map fun k =>
      match l.find? fun x => decide (x.1 = k / 2) && decide (x.2.1 = k % 2) with
      | some (_, _, v, o) => (3, if o = .suppressed ∨ o = .inhibited then 0 else 1 + 2 * stateCode v)
      | none => (3, 0))
  else
    let o := if hook = 16 then i.out0 else i.out1
    packBits [(1, 1), (12, o.pc), (24, o.x), (24, o.y), (64, o.d.toNat), (16, o.ctl.toNat), (2, o.mode)]

/-- A slot goes onto the inbound bus, which carries two in an FC cycle (R229). -/
def Hook.show (x : Hook) (bits : Nat) : Hook × Nat :=
  if x.bus.length = 1 then ({ x with bus := x.bus ++ [bits] }, 1) else ({ x with bus := [bits] }, 0)

/-- The next issue of a queue goes onto the inbound bus. One whose issue has left the pipelines can no longer be presented
(R230). -/
def Dev.presentNext (d : Dev) (s : Side) (hook : Nat) : List Nat → Dev
  | [] => d.mod s fun h => h.setHook hook { (h.hook hook) with queue := [] }
  | n :: rest =>
    match (d.half s).issue n with
    | none => (d.hookMissed s hook).presentNext s hook rest
    | some i =>
      let bits := d.hookSlot s hook i
      let (x, slot) := { ((d.half s).hook hook) with queue := rest }.show bits
      let x := if d.hookOn s hook then { x with out := x.out ++ [(n, false)] } else x
      (d.mod s fun h => h.setHook hook x).emit (.hook s hook n slot bits)

/-- HOOK_SLOT_PRESENT: a hook that can work presents its next issue (R220, R230, R235). -/
def hookSlotPresent (s : Side) (hook : Nat) (d : Dev) : Dev :=
  if !d.hookLive s hook then d else
  let d := if 8 ≤ hook ∧ hook < 16 then d.offerCompare s (hook - 8) else d
  d.presentNext s hook ((d.half s).hook hook).queue

/-- The symbols of a drill-sourced channel follow the drill's replaced output (R153). -/
def Half.remapDrill (h : Half) (i : Issue) (k : Nat) (o : DrillOut) : Issue :=
  let x := h.drl k
  let (px, py) := x.phys o.x o.y
  let pd := x.physData px py o.d
  let old := i.symbols.toNat
  let sym := (List.range 256).foldl (fun a ch =>
    a + (if PlanImg.src h.planRd i.srcMap ch = k + 1 then x.symbol o px py pd ch else old / 16 ^ ch % 16) * 16 ^ ch) 0
  if k = 0 then { i with symbols := BitVec.ofNat 1024 sym, out0 := o } else { i with symbols := BitVec.ofNat 1024 sym, out1 := o }

/-- What a return on time does to its issue (R231). -/
def Half.applyReturn (h : Half) (hook n : Nat) (r : HookRet) : Half :=
  match h.issue n with
  | none => h
  | some i =>
    if hook < 8 then
      if r.keep then h else
      let old := i.symbols.toNat
      h.modIssue n fun i => { i with symbols := BitVec.ofNat 1024 ((List.range 256).foldl (fun a ch =>
        a + (if ch / 32 = hook then r.vals.getD (ch % 32) 0 % 16 else old / 16 ^ ch % 16) * 16 ^ ch) 0) }
    else if hook < 16 then
      if r.keep then h else
      h.modIssue n fun i => { i with overrides := (List.range 64).foldl (fun t k =>
        tset 0 t (64 * (hook - 8) + k) (r.vals.getD k 0 % 4)) i.overrides }
    else
      let k := hook - 16
      let h := h.setDrl k ((h.drl k).flagged (i.tvs / 10000) r.flag)
      if r.keep then h else
      let o := if k = 0 then i.out0 else i.out1
      if !o.running then h else
      h.modIssue n fun i => h.remapDrill i k { o with d := r.d, ctl := r.ctl }

/-- A slot on the outbound bus. A compare hook's MATCH follows the bus, whether or not a slot is valid. A valid slot pairs with
the oldest presented one without a return; a late one is discarded, and one with none outstanding is extra (R229, R231,
R232). -/
def hookReturn (s : Side) (hook : Nat) (r : HookRet) (d : Dev) : Dev :=
  if !d.hookLive s hook then d else
  let d := if 8 ≤ hook ∧ hook < 16 then d.mod s fun h => h.setHook hook { (h.hook hook) with flag := r.flag } else d
  if !r.valid || !d.hookOn s hook then d else
  let x := (d.half s).hook hook
  match x.out with
  | [] => (d.bump s.code .fabHookLate hook 31 16).raise s blkFab 1
  | (n, late) :: rest =>
    let d := d.mod s fun h => h.setHook hook { x with out := rest }
    if late then d else d.mod s fun h =>
      let h := h.applyReturn hook n r
      match h.issue n with
      | some i => h.relayRefresh n i.symbols
      | none => h

/-- The first presented slot whose deadline has not passed is marked late. -/
def markLate : List (Nat × Bool) → List (Nat × Bool)
  | [] => []
  | (n, true) :: t => (n, true) :: markLate t
  | (n, false) :: t => (n, true) :: t

/-- HOOK_LATE: the deadline of the oldest presented slot without a return has passed (R232). -/
def hookLate (s : Side) (hook : Nat) (d : Dev) : Dev :=
  if !d.hookLive s hook || !d.hookOn s hook then d else
  let x := (d.half s).hook hook
  if !(x.out.any fun o => !o.2) then d else
  (d.mod s fun h => h.setHook hook { x with out := markLate x.out }).hookMissed s hook

/-- The pairing of a hook's returns starts over: it was enabled, START released the fabric, or a partial reset ended (R231,
R235). -/
def Half.restartHook (h : Half) (hook : Nat) : Half := h.setHook hook { (h.hook hook) with out := [] }

/-- A burst starts: no issue waits, and every slot of an earlier burst has passed its deadline (R232). -/
def Dev.hooksFire (d : Dev) (s : Side) : Dev :=
  (List.range 18).foldl (fun d k =>
    let x := (d.half s).hook k
    if x = {} then d else
    let n := (x.out.filter fun o => !o.2).length
    let d := d.mod s fun h => h.setHook k { x with queue := [], offered := 0, out := x.out.map fun o => (o.1, true) }
    (List.replicate n ()).foldl (fun d _ => d.hookMissed s k) d) d

/-- A hook is on time at a clock of mhz for the shortest period used, in 0.125 ps units (R233). -/
def hookOnTime (mhz lat minPeriod : Nat) : Bool :=
  decide ((2 + lat) * 1000000 ≤ 7500 * mhz) && decide (4000000 ≤ mhz * minPeriod)

/-! ## Block memories (R221 to R226) -/

/-- Stripe 1 to 9, tile, and memory within the tile of a block memory of an F-die. -/
def bmemPlace (mem : Nat) : Nat × Nat × Nat := (mem / 256 + 1, mem / 4 % 64, mem % 4)

/-- The clock of a port; none when its six tapped cells conflict (R222, R224). -/
def Dev.bmemClock (d : Dev) (die mem : Nat) (portB : Bool) : Option Nat :=
  let (k, t, m) := bmemPlace mem
  let first := if portB then 24 * k + 3 * m else 24 * k - 3 * m - 3
  d.oneClock die ((List.range 6).map fun j => benchOf (first + j % 3) (2 * t + j / 3))

/-- A hook or a block memory port of the half's F-dies works in no one clock and is held disabled (R224, R230). -/
def Dev.clkConflict (d : Dev) (s : Side) : Bool :=
  ((List.range 18).any fun h =>
    let (die, lo, _) := hookCols s h
    (d.benchClock die (benchOf lo 0)).isSome && (d.hookClock s h).isNone) ||
  [2 * s.code, 2 * s.code + 1].any fun die => (List.range 2304).any fun mem =>
    let (k, t, m) := bmemPlace mem
    ((d.benchClock die (benchOf (24 * k + 3 * m) (2 * t))).isSome && (d.bmemClock die mem true).isNone) ||
    ((d.benchClock die (benchOf (24 * k - 3 * m - 1) (2 * t))).isSome && (d.bmemClock die mem false).isNone)

/-- Key of a row of a block memory: F-die, memory within the die, row. -/
def bmemKey (die mem row : Nat) : Nat := (die * 2304 + mem) * 512 + row

/-- A row as it is stored: byte k holds bits 8k + 7 to 8k, and two check bytes follow (R293). -/
def bmemRow (v : BitVec 64) : BitVec 80 := BitVec.ofNat 80 (ofLe (rsEncode 2 (leNats 8 v.toNat)))

/-- What a port's read of a stored row gives (R226). -/
def bmemDecode (row : BitVec 80) : Decoded := rsDecode 2 (leNats 10 row.toNat)

/-- Global column and row of tap cell j of a port: outward from the stripe (R222). -/
def tapCell (die mem : Nat) (portB : Bool) (j : Nat) : Nat × Nat :=
  let (k, t, m) := bmemPlace mem
  (240 * die + (if portB then 24 * k + 3 * m + j % 3 else 24 * k - 3 * m - 1 - j % 3), 2 * t + j / 3)

/-- The cell a frame configures at a global column and row; the cleared cell where none does (R248). -/
def ArraySt.cell (a : ArraySt) (c r : Nat) : CellCfg := (tget [] a.logic c).getD r {}

/-- Width of a port, set by the image: 1, 2, 4, 8, 16, 32 or 64 (R223). -/
def Dev.portWidth (d : Dev) (die mem : Nat) (portB : Bool) : Nat :=
  let (c, r) := tapCell die mem portB 0
  let w := (d.array.cell c r).width
  if [1, 2, 4, 8, 16, 32, 64].contains w then w else 1

def bportKey (die mem : Nat) (portB : Bool) : Nat := 2 * (2304 * die + mem) + b1 portB

/-- What one access does to the rows it meets: its row, the bits it writes there with their values, and what the port will
show, COR at bit 64 and ERR at bit 65 (R222, R223, R226). A narrow write to an uncorrectable row writes nothing. -/
structure PortDone where
  row   : Nat
  mask  : BitVec 64 := 0
  bits  : BitVec 64 := 0
  shown : BitVec 66
  report : Ecc
deriving DecidableEq, Repr

def Dev.portAccess (d : Dev) (die mem : Nat) (portB : Bool) (x : PortAcc) : PortDone :=
  let width := d.portWidth die mem portB
  let w := x.addr % (32768 / width)
  let row := w * width / 64
  let sh := w * width % 64
  let q := bmemDecode (tget 0 d.array.bmem (bmemKey die mem row))
  let old := ofLe q.data
  let writes := x.we && !(decide (q.report = .uncorr) && decide (width < 64))
  { row := row
    mask := if writes then BitVec.ofNat 64 ((2 ^ width - 1) * 2 ^ sh) else 0
    bits := x.din <<< sh
    shown := BitVec.ofNat 66 (old / 2 ^ sh % 2 ^ width + 2 ^ 64 * b1 (decide (q.report = .corr)) + 2 ^ 65 * b1 (decide (q.report = .uncorr)))
    report := q.report }

/-- Bits of a row written: a row that stays partly old keeps what its decoder delivers, and the check bytes are made anew. -/
def ArraySt.putRow (a : ArraySt) (key : Nat) (mask bits : BitVec 64) : ArraySt :=
  if mask = 0 then a else
  let old := BitVec.ofNat 64 (ofLe (bmemDecode (tget 0 a.bmem key)).data)
  { a with bmem := tset 0 a.bmem key (bmemRow ((old &&& ~~~mask) ||| (bits &&& mask))) }

/-- Upsets strike the stored row that an access meets. -/
def Dev.strike (d : Dev) (die mem : Nat) (portB : Bool) (x : PortAcc) : Dev :=
  if x.hit.isEmpty then d else
  let key := bmemKey die mem (d.portAccess die mem portB x).row
  let w := ofLe (upset (leNats 10 (tget 0 d.array.bmem key).toNat) x.hit)
  { d with array := { d.array with bmem := tset 0 d.array.bmem key (BitVec.ofNat 80 w) } }

/-- The reports of an access: a correction feeds the bucket, an uncorrectable row is counted and raised; the port takes what
it will show (R224, R226). -/
def Dev.portReport (d : Dev) (die mem : Nat) (portB : Bool) (x : PortDone) : Dev :=
  let s := dieSide die
  let d := match x.report with
    | .clean => d
    | .corr => d.correction s blkFab 5
    | .uncorr => (d.bump s.code .fabBmemErr).raise s blkFab 2
  let k := bportKey die mem portB
  let p : BPort := { (tget ({} : BPort) d.array.bports k) with p0 := some x.shown }
  ({ d with array := { d.array with bports := tset {} d.array.bports k p } }).emit (.bmem die mem portB x.shown)

/-- BMEM_ACCESS: the accesses of a block memory's two ports captured at one FC edge (R224 to R226). Both see the rows as they
stood before the edge; port A's bits prevail where both write. A port without one clock is held disabled. -/
def bmemAccess (die mem : Nat) (a b : Option PortAcc) (d : Dev) : Dev :=
  let live (portB : Bool) (x : Option PortAcc) : Option PortAcc := if (d.bmemClock die mem portB).isNone then none else x
  let a := live false a
  let b := live true b
  let d := match a with
    | some x => d.strike die mem false x
    | none => d
  let d := match b with
    | some x => d.strike die mem true x
    | none => d
  let da := a.map (d.portAccess die mem false)
  let db := b.map (d.portAccess die mem true)
  let put (d : Dev) (x : Option PortDone) : Dev := match x with
    | some x => { d with array := d.array.putRow (bmemKey die mem x.row) x.mask x.bits }
    | none => d
  let d := put (put d db) da
  let d := match da with
    | some x => d.portReport die mem false x
    | none => d
  match db with
  | some x => d.portReport die mem true x
  | none => d

end Sys2Proof.Machine
end

