-- ==== Sys2Proof/Machine/Power.lean ====
section
/-! DEFINITION. The power governor (R437 to R441, R233): budget, demand, floors and the frequencies of the fabric
clocks. Powers are in 0.01 mW. -/
namespace Sys2Proof.Machine

/-- Budget of R437 for VINmin in mV: min(260 W, 0.9 * 30 A * VINmin). -/
def powerBudget (mv : Nat) : Nat := min 26000000 (2700 * mv)

/-- A T-die is counted at 50 W (R437). -/
def Dev.busyDie (d : Dev) (adm : Option Side) (s : Side) : Bool :=
  (d.half s).locked || (d.half s).cal.sweeping || decide (adm = some s)

/-- Benches on a fabric clock (R218). -/
def Dev.benches (d : Dev) (n : Nat) : Nat :=
  (List.range 4).foldl (fun a die => a + ((List.range 120).filter fun b => decide (d.benchClock die b = some n)).length) 0

/-- Projected demand at a choice of frequencies (R437). -/
def Dev.demandAt (d : Dev) (adm : Option Side) (f : Nat → Nat) : Nat :=
  let die (s : Side) : Nat := if d.busyDie adm s then 5000000 else 3000000
  let dyn := (List.range 8).foldl (fun a n => a + d.benches n * f n) 0
  die .w + die .e + (if d.released then 1600000 + 42 * dyn else 0)

/-- Lowest multiple of 10 MHz at which a hook is on time, none when no setting up to 700 MHz is (R233). -/
def onTimeMhz (lat minPeriod : Nat) : Option Nat :=
  ((List.range 61).map fun k => 100 + 10 * k).find? fun m => hookOnTime m lat minPeriod

/-- The shortest period of a half's plan. -/
def Half.minPeriod (h : Half) : Nat :=
  match h.face.plan with
  | some p => p.minPeriod
  | none => 0

/-- Enabled hooks of a half with their clock and the frequency they need. -/
def Dev.hookNeeds (d : Dev) (s : Side) : List (Option Nat × Option Nat) :=
  ((List.range 18).filter fun h => d.hookOn s h).map fun h =>
    (d.hookClock s h, onTimeMhz (d.rf s.code .fabHookCfg h 3 1) (d.half s).minPeriod)

/-- The half's needs count toward the floors: it is ARMED, RUNNING, DRAINING or being admitted (R438). -/
def Dev.holdsFloor (d : Dev) (adm : Option Side) (s : Side) : Bool := (d.half s).locked || decide (adm = some s)

/-- floor(n) of R438. -/
def Dev.floorMhz (d : Dev) (adm : Option Side) (n : Nat) : Nat :=
  let need (s : Side) : Nat := if !d.holdsFloor adm s then 0 else
    (d.hookNeeds s).foldl (fun a x => if x.1 = some n then max a (x.2.getD 700) else a) 0
  min (d.imgMhz n) (max 100 (max (need .w) (need .e)))

/-- f(n) of R438 at a k. -/
def Dev.freqAt (d : Dev) (adm : Option Side) (k n : Nat) : Nat :=
  let img := d.imgMhz n
  if img = 0 then 0 else max (10 * (img * k / 640)) (d.floorMhz adm n)

/-- The greatest k up to a bound whose demand fits a budget (R438). -/
def Dev.bestK (d : Dev) (adm : Option Side) (budget : Nat) : Nat → Option Nat
  | 0 => none
  | k + 1 => if d.demandAt adm (d.freqAt adm (k + 1)) ≤ budget then some (k + 1) else d.bestK adm budget k

/-- Every enabled hook of a half works in a clock that can keep it on time within a limit per clock (R233, R438). -/
def Dev.hooksOk (d : Dev) (s : Side) (limit : Nat → Nat) : Bool :=
  (d.hookNeeds s).all fun x =>
    match x with
    | (some n, some m) => decide (m ≤ limit n)
    | _ => false

/-- Frequencies of host-assisted power admission (R441). -/
def Dev.cappedMhz (d : Dev) (n : Nat) : Nat := min (d.imgMhz n) (d.rf 0 .pwrCap n 9 0)

/-- Power admission, the seventh condition of R131 (R439, R441). The plan's hooks are judged when it uses the fabric. -/
def Dev.admits (d : Dev) (s : Side) : Bool :=
  let hooked : Bool := (d.hookNeeds s).isEmpty
  if d.clk.hostMode then hooked || d.hooksOk s d.cappedMhz
  else (hooked || d.hooksOk s d.imgMhz) && (d.bestK (some s) (powerBudget d.clk.vinMv) 64).isSome

/-- The registers of the governor take the present budget and demand, in 0.1 W. -/
def Dev.showPower (d : Dev) (budget demand : Nat) : Dev :=
  { d with clk := { d.clk with budget := budget / 10000, demand := demand / 10000 } }

/-- Apply a k: the frequencies in force (R218, R438). -/
def Dev.applyK (d : Dev) (adm : Option Side) (k : Nat) : Dev :=
  let f := d.freqAt adm k
  { d with clk := { d.clk with k := k, evals := 0, fck := (List.range 8).map f } }.showPower
    (powerBudget d.clk.vinMv) (d.demandAt adm f)

/-- Every clock at its floor, with POWER_SHORT (R440). -/
def Dev.applyFloors (d : Dev) : Dev :=
  let f (n : Nat) : Nat := if d.imgMhz n = 0 then 0 else d.floorMhz none n
  let d := { d with clk := { d.clk with k := 1, evals := 0, fck := (List.range 8).map f } }.showPower
    (powerBudget d.clk.vinMv) (d.demandAt none f)
  if d.clk.short then d else ({ d with clk := { d.clk with short := true } }).condOn .w blkClk 4

/-- The condition of POWER_SHORT ends. -/
def Dev.endShort (d : Dev) : Dev :=
  if d.clk.short then ({ d with clk := { d.clk with short := false } }).condOff .w blkClk 4 else d

/-- The clocks at a release or a load's end: the greatest k that fits, the caps of the host, or stopped (R257, R441). -/
def Dev.startClocks (d : Dev) (adm : Option Side) : Dev :=
  if d.clk.hostMode then
    let f := d.cappedMhz
    { d with clk := { d.clk with fck := (List.range 8).map f } }.showPower 0 (d.demandAt adm f)
  else match d.bestK adm (powerBudget d.clk.vinMv) 64 with
    | some k => (d.applyK adm k).endShort
    | none => d.applyFloors

/-- GOVERNOR_EVAL: the lowest VIN of the last 1 ms and the input current (R437 to R440). k falls at once; it rises by one
step after ten evaluations of 1 ms, while the demand there stays within 95 % of the budget. -/
def governorEval (mv ma : Nat) (d : Dev) : Dev :=
  let d := { d with clk := { d.clk with vinMv := mv, ma := ma, evals := d.clk.evals + 1 } }
  if d.clk.hostMode then d.showPower 0 (d.demandAt none fun n => d.clk.fck.getD n 0) else
  let budget := powerBudget mv
  match d.bestK none budget 64 with
  | none => d.applyFloors
  | some k =>
    let d := d.endShort
    if k ≤ d.clk.k then
      if k = d.clk.k then
        let f := d.freqAt none k
        { d with clk := { d.clk with fck := (List.range 8).map f } }.showPower budget (d.demandAt none f)
      else d.applyK none k
    else
      let up := d.clk.k + 1
      if 10 ≤ d.clk.evals ∧ 100 * d.demandAt none (d.freqAt none up) ≤ 95 * budget then d.applyK none up
      else
        let f := d.freqAt none d.clk.k
        { d with clk := { d.clk with fck := (List.range 8).map f } }.showPower budget (d.demandAt none f)

/-- A fabric clock runs below its image setting (PWR_STATUS.CAPPED, FAB_STATUS.CAPPED). -/
def Dev.capped (d : Dev) (n : Nat) : Bool := decide (d.clk.fck.getD n 0 < d.imgMhz n)

def Dev.anyCapped (d : Dev) : Bool := (List.range 8).any d.capped

end Sys2Proof.Machine
end

