-- ==== Sys2Proof/Machine/Cfg.lean ====
section
/-! DEFINITION. The image loader (chapter 9): the command stream, the checks, loads, stores and auto-load. -/
namespace Sys2Proof.Machine

/-- Hoist status of a load failure reason (R257). -/
def reasonStatus : Nat → Nat
  | 0 => stOk
  | 1 => stMalformed
  | 7 => stTruncated
  | 8 => stMalformed
  | 9 => stIntegrity
  | 0xA => stIntegrity
  | 0xB => stMalformed
  | 0xC => stDegraded
  | _ => stDenied

def rFormat : Nat := 1
def rLifecycle : Nat := 2
def rIdentity : Nat := 3
def rKey : Nat := 4
def rSignature : Nat := 5
def rIdcheck : Nat := 6
def rTruncated : Nat := 7
def rCommand : Nat := 8
def rFrame : Nat := 9
def rHash : Nat := 0xA
def rTrailer : Nat := 0xB
def rPath : Nat := 0xC

/-- CFG_RESULT.SRC of a load: 0 Hoist, 1 and 2 auto-load, 3 store. -/
def Load.src (l : Load) : Nat := if l.store.isSome then 3 else if l.source = 3 then 0 else l.source

def CfgSt.slot (c : CfgSt) (n : Nat) : CfgSlot := if n = 0 then c.slot0 else c.slot1

def CfgSt.setSlot (c : CfgSt) (n : Nat) (x : CfgSlot) : CfgSt := if n = 0 then { c with slot0 := x } else { c with slot1 := x }

/-- A load that is not a store is in progress: ARM is refused (R255). -/
def Dev.loading (d : Dev) : Bool :=
  match d.cfg.load with
  | some l => l.store.isNone
  | none => decide (d.cfg.state = 4)

def Dev.storing (d : Dev) : Bool :=
  match d.cfg.load with
  | some l => l.store.isSome
  | none => false

/-! ## The image as bytes (R241 to R246) -/

/-- Image bytes received so far. -/
def Load.received (l : Load) : Nat := l.image.length

/-- A little-endian number of n bytes at an offset. -/
def leAt (l : List Nat) (o n : Nat) : Nat := ofLe ((l.drop o).take n)

def zerosAt (l : List Nat) (o n : Nat) : Bool := ((l.drop o).take n).all fun b => decide (b = 0)

/-- The header of a full image (R242): little-endian but for IV, BODY_HASH and SIGNATURE. -/
def parseHeader (l : List Nat) : ImgHeader :=
  { firstWord := leAt l 0 4, family := leAt l 4 2, part := leAt l 6 2, stepping := leAt l 8 1, dieset := leAt l 0x0C 4
    length := leAt l 0x10 8, frames := leAt l 0x18 4, keyId := leAt l 0x1C 2
    iv := ofBe ((l.drop 0x20).take 12), bodyHash := BitVec.ofNat 384 (ofBe ((l.drop 0x30).take 48))
    signature := (l.drop 0x80).take 96
    resvZero := zerosAt l 0x09 3 && zerosAt l 0x1E 2 && zerosAt l 0x2C 4 && zerosAt l 0x60 32 && zerosAt l 0xE0 32 }

/-- The first word of a service image: an IDCHECK command (R241). -/
def serviceWord : Nat := 0x40000004

/-- Body key of an IMAGE slot: bytes 0 to 31 of its 64-byte secret, as a big-endian number (R322). -/
def KeySlot.bodyKey (k : KeySlot) : Nat := k.key / 2 ^ 256 % 2 ^ 256

/-- Byte i of the key stream of AES-256 in counter mode: the counter block is IV and a 32-bit big-endian count from 1 (R244). -/
def keyStream (key iv i : Nat) : Nat :=
  Config.aes key (iv % 2 ^ 96 * 2 ^ 32 + (1 + i / 16) % 2 ^ 32) / 2 ^ (8 * (15 - i % 16)) % 256

/-- What CHECKING needs from the vault: the slot that KEY_ID names. -/
def Dev.imageKey (d : Dev) (l : Load) : KeySlot := tget {} d.sec.slots l.hdr.keyId

/-- Bytes of the command stream: a service image's as received, a full image's body decrypted (R244). -/
def Load.plain (l : Load) (key o n : Nat) : List Nat :=
  let raw := (l.image.drop o).take n
  if l.service then raw else raw.mapIdx fun k b => b ^^^ keyStream key l.hdr.iv (o - 0x100 + k)

/-- Where the command stream ends: a full image closes with 16 bytes of trailer (R245). -/
def Load.streamEnd (l : Load) : Nat := if l.service then l.length else l.length - 16

/-- A command of the stream with its payload words, or its encoded frame (R246). -/
inductive StreamCmd where
  | wcfg (index value : Nat) | far (addr : Nat) | fdata (frame : List Nat) | idcheck (words : List Nat)
  | gclr | start | ending
  /-- an unknown OP, a wrong LEN, or no END where the stream ends -/
  | bad
deriving DecidableEq, Repr

/-- LEN of an OP; FDATA has two (R246). -/
def lenOk (op len : Nat) : Bool :=
  match op with
  | 0x10 => decide (len = 2)
  | 0x20 => decide (len = 1)
  | 0x30 => decide (len = 19041) || decide (len = 4481)
  | 0x40 => decide (len = 4)
  | 0x50 => decide (len = 0)
  | 0x60 => decide (len = 0)
  | 0x70 => decide (len = 0)
  | _ => false

/-- A command from its OP and payload bytes. -/
def mkCmd (op : Nat) (payload : List Nat) : StreamCmd :=
  match op with
  | 0x10 => .wcfg (leAt payload 0 4) (leAt payload 4 4)
  | 0x20 => .far (leAt payload 0 4)
  | 0x30 => .fdata payload
  | 0x40 => .idcheck [leAt payload 0 4, leAt payload 4 4, leAt payload 8 4, leAt payload 12 4]
  | 0x50 => .gclr
  | 0x60 => .start
  | _ => .ending

/-- The next command of the stream and its length in bytes; none while its bytes have not all come (R246). -/
def Load.next (l : Load) (key : Nat) : Option (StreamCmd × Nat) :=
  let o := l.taken
  if l.streamEnd < o + 4 then some (.bad, 0)
  else if l.received < o + 4 then none
  else
    let w := ofLe (l.plain key o 4)
    let op := w / 2 ^ 24 % 256
    let len := w % 2 ^ 24
    if !lenOk op len || decide (l.streamEnd < o + 4 + 4 * len) then some (.bad, 0)
    else if l.received < o + 4 + 4 * len then none
    else some (mkCmd op (l.plain key (o + 4) (4 * len)), 4 + 4 * len)

/-- The loader waits for image data: CHECKING lacks a first word, a header or an IDCHECK, or the stream a whole command (R253,
R255). -/
def Load.hungry (l : Load) (key : Nat) : Bool :=
  if l.passed then l.store.isSome || decide (l.pos = .ended) || (l.next key).isNone
  else decide (l.received < 4)
    || decide (leAt l.image 0 4 = serviceWord) && decide (l.received < 20) && decide (20 ≤ l.length)
    || decide (leAt l.image 0 4 = 1) && decide (l.received < 256) && decide (284 ≤ l.length)

/-- The payload of a CONFIG_END response (R355). -/
def endPayload (reason at_ : Nat) : List Byte := beBytes 1 reason ++ beBytes 3 0 ++ beBytes 4 at_

/-- Payload of the response to a load's pending command: RECEIVED for CONFIG_DATA, the outcome for CONFIG_END. -/
def loadPayload (r : Reply) (received reason at_ : Nat) : List Byte :=
  if r.op = 0x22 then endPayload reason at_ else beBytes 8 received

/-- The slot that a load or store is about, with its last outcome (CFG_SLOT.LAST_REASON). -/
def Load.slotOf (l : Load) : Option Nat :=
  match l.store with
  | some n => some n
  | none => if l.source = 1 then some 0 else if l.source = 2 then some 1 else none

/-- The responses that a load's end owes, each with the image bytes that its command reaches to: data wholly taken is answered
OK, the command in whose data the failure lies gets its status, and later data WRONG_STATE (R359). -/
def Dev.endReplies (d : Dev) (life : Life) (l : Load) (reason at_ : Nat) : List (Nat × Reply) → Dev
  | [] => d
  | (n, r) :: rest =>
    if reason = 0 then (d.finish life r stOk (loadPayload r l.received 0 at_)).endReplies life l reason at_ rest
    else if n ≤ l.taken then (d.finish life r stOk (beBytes 8 n)).endReplies life l reason at_ rest
    else rest.foldl (fun d x => d.finish life x.2 stWrong [])
      (d.finish life r (reasonStatus reason) (loadPayload r l.received reason at_))

/-- The outcome of a load or store is recorded: CFG_RESULT, the slot, LOAD_END, LOAD_FAILED, and the waiting responses or
the record for the CONFIG_END to come (R253, R359). -/
def Dev.recordEnd (d : Dev) (life : Life) (l : Load) (reason at_ : Nat) : Dev :=
  let d := d.setRg 0 .cfgResult 0 (pack [(24, reason), (16, reasonStatus reason), (12, l.src)])
  let d := if reason = 0 then d else d.setRg 0 .cfgResultAt 0 (BitVec.ofNat 32 at_)
  let d := match l.slotOf with
    | some n => { d with cfg := d.cfg.setSlot n { (d.cfg.slot n) with reason := reason } }
    | none => d
  let d := d.event 7 (evSrc .w blkCfg) reason
  let d := if reason = 0 then d else d.raise .w blkCfg 0
  if l.replies.isEmpty ∧ l.source = 3 ∧ !l.finished then
    { d with cfg := { d.cfg with ended := some (l.session, reasonStatus reason, reason, at_) } }
  else d.endReplies life l reason at_ l.replies

/-! ## Slots in the flash (R258, R259) -/

/-- Flash address of an image slot. -/
def slotBase (n : Nat) : Nat := 0x4000000 + 0x8000000 * n

/-- Bytes of a slot as the flash holds them; erased flash reads 0xFF (R303). -/
def Dev.slotBytes (d : Dev) (n len : Nat) : List Nat := (List.range len).map fun i => (tget 0xFF d.dbg.flash (slotBase n + i)).toNat

/-- The flash with a slot erased. -/
def Dev.eraseSlot (d : Dev) (n : Nat) : Dev :=
  { d with dbg := { d.dbg with flash := d.dbg.flash.filter fun kv =>
      !(decide (slotBase n ≤ kv.1) && decide (kv.1 < slotBase n + 0x8000000)) } }

/-- Auto-load of a slot starts: its length stands in its header (R242, R259). -/
def Dev.tryAuto (d : Dev) (n : Nat) (rest : List Nat) : Dev :=
  let len := min (parseHeader (d.slotBytes n 256)).length 0x8000000
  { d with cfg := { d.cfg with auto := rest, state := 1, load := some { source := n + 1, length := len, image := d.slotBytes n len } } }

/-- Auto-load ends or goes on with its next slot; a slot without a valid header is skipped (R259). -/
def Dev.autoNext (d : Dev) : Dev :=
  let none_ (d : Dev) : Dev := ({ d with cfg := { d.cfg with auto := [] } }).raise .w blkCfg 1
  match d.cfg.auto with
  | [] => d
  | a :: rest =>
    if (d.cfg.slot a).valid then d.tryAuto a rest else
    match rest with
    | b :: _ => if (d.cfg.slot b).valid then d.tryAuto b [] else none_ d
    | [] => none_ d

/-- After an auto-load has failed, the other slot follows, or AUTOLOAD_FAILED (R259). -/
def Dev.autoAfter (d : Dev) (l : Load) : Dev :=
  if l.source = 3 ∨ l.store.isSome then d
  else if d.cfg.auto.isEmpty then d.raise .w blkCfg 1 else d.autoNext

/-- The image in force is lost, and the array goes to its cleared state (R248). -/
def Dev.clearArray (d : Dev) : Dev :=
  let c := d.cfg
  let d := { d with
    cfg := { c with source := 0, service := false, hash := 0, keyId := 0, wcfg := [] }
    array := {}
    clk := { d.clk with fck := [0, 0, 0, 0, 0, 0, 0, 0] } }
  let idle (d : Dev) (s : Side) : Dev := d.mod s fun h => { h with fab := { h.fab with
    hooks := [], ports := [], padOut := 0, padOe := 0, scrubBusy := false } }
  let d := idle (idle d .w) .e
  let d := (List.range 4).foldl (fun d f => d.resetRg (2 + f) .fabNocPortEn) d
  (d.resetRg 0 .fabGpioIn).resetRg 1 .fabGpioIn

/-- A check in CHECKING fails: the result is recorded and nothing else changes (R253). -/
def Dev.checkFail (d : Dev) (life : Life) (l : Load) (reason at_ : Nat) : Dev :=
  let d := { d with cfg := { d.cfg with load := none, state := if l.store.isSome then d.cfg.state else l.prev } }
  (d.recordEnd life l reason at_).autoAfter l

/-- A failure after CHECKING: a load goes to CLEARING, a store leaves its slot without a valid header (R256, R258). -/
def Dev.loadFail (d : Dev) (life : Life) (l : Load) (reason at_ : Nat) : Dev :=
  match l.store with
  | some n =>
    let d := { d with cfg := ({ d.cfg with load := none }).setSlot n { valid := false, reason := reason } }
    d.recordEnd life l reason at_
  | none =>
    let d := { d.clearArray with cfg := { d.clearArray.cfg with load := none, state := 4 } }
    d.recordEnd life l reason at_

/-- A load or store fails where it stands. -/
def Dev.failHere (d : Dev) (life : Life) (l : Load) (reason : Nat) : Dev :=
  if l.passed then d.loadFail life l reason l.taken else d.checkFail life l reason l.taken

/-- CONFIG_DATA is answered when the loader has taken what it can take of its data (log entry 13). -/
def Dev.answerData (d : Dev) (life : Life) : Dev :=
  match d.cfg.load with
  | none => d
  | some l =>
    if !l.hungry (d.imageKey l).bodyKey then d else
    (l.replies.filter fun x => decide (x.2.op = 0x21)).foldl (fun d x => d.finish life x.2 stOk (beBytes 8 x.1))
      { d with cfg := { d.cfg with load := some { l with replies := l.replies.filter fun x => decide (x.2.op ≠ 0x21) } } }

/-- The loader has taken n more bytes. -/
def Dev.taken (d : Dev) (life : Life) (l : Load) (n : Nat) : Dev :=
  Dev.answerData { d with cfg := { d.cfg with load := some { l with taken := l.taken + n } } } life

/-- What a command of the stream leads to: the load goes on, or it fails with a reason (R256). -/
inductive Taken where
  | on (l : Load) (d : Dev)
  | fails (reason : Nat) (d : Dev)

/-- The loader meets the next command of the stream, when it is one that `act` answers for; a bad one fails here, and while
GCLR runs no further data is taken (R246, R248, R256). -/
def Dev.streamCmd (d : Dev) (life : Life) (act : StreamCmd → Load → Dev → Option Taken) : Dev :=
  match d.cfg.load with
  | none => d
  | some l =>
    if l.store.isSome ∨ !l.passed ∨ l.pos = .clearing ∨ l.pos = .ended then d else
    match l.next (d.imageKey l).bodyKey with
    | none => d
    | some (.bad, _) => d.loadFail life l rCommand l.taken
    | some (c, n) =>
      match act c l d with
      | none => d
      | some (.fails reason d) => d.loadFail life l reason l.taken
      | some (.on l d) => d.taken life l n

/-- A command that breaks the order of R247 or a range fails as COMMAND. -/
def Taken.unless (ok : Bool) (l : Load) (d : Dev) : Option Taken := some (if ok then .on l d else .fails rCommand d)

/-- The index and value of a WCFG are in the table of R248. -/
def wcfgOk (index value : Nat) : Bool :=
  if index < 8 then decide (value = 0) || (decide (100 ≤ value) && decide (value ≤ 700) && decide (value % 10 = 0))
  else decide (0x100 ≤ index) && decide (index < 0x100 + 480) && decide (value < 64)
    && (if value.testBit 3 then decide (value / 16 ≠ 0) else decide (value / 16 = 0))

/-- WCFG: holds a value for a configuration register, applied at release (R246, R248). No index appears twice, and no FDATA
may follow it without a FAR (R247). -/
def wcfg (life : Life) (d : Dev) : Dev :=
  d.streamCmd life fun c l d => match c with
    | .wcfg index value =>
      Taken.unless (decide (l.pos = .cells) && wcfgOk index value && !(l.wcfg.any fun kv => decide (kv.1 = index)))
        { l with far := none, wcfg := tset (2 ^ 32) l.wcfg index value } d
    | _ => none

/-- The frame address is in the ranges of R250. -/
def farOk (a : Nat) : Bool :=
  let index := a / 2 ^ 21 % 256
  let minor := a / 2 ^ 15 % 64
  decide (a % 2 ^ 15 = 0) &&
    (if a.testBit 29 then decide (1 ≤ index) && decide (index ≤ 9) else decide (index < 240) && decide (minor = 0))

/-- FAR: sets the frame address for the next FDATA (R246, R250). No frame address appears twice (R247). -/
def far (life : Life) (d : Dev) : Dev :=
  d.streamCmd life fun c l d => match c with
    | .far a => Taken.unless (decide (l.pos = .cells) && farOk a && !l.seen.contains a) { l with far := some a, seen := a :: l.seen } d
    | _ => none

/-! ## Frames (R249 to R252) -/

/-- Codewords of a frame at an address: a memory frame has 512, a logic frame 2 176. -/
def frameWords (a : Nat) : Nat := if a.testBit 29 then 512 else 2176

/-- An encoded frame: its data, how many symbols the decoder corrected, and whether a codeword is uncorrectable or the CRC-32
of the data differs (R251). -/
def decodeFrame (a : Nat) (l : List Nat) : List Nat × Nat × Bool :=
  let k := frameWords a
  let r := decodeRun 35 3 k l
  (r.1, r.2.1, r.2.2 || decide (crc32 r.1 ≠ leAt l (35 * k) 4))

/-- A frame goes into the array (R249, R252): a memory frame fills four block memories, byte 8r up of memory m its row r,
with check bytes made as each row is written; a logic frame configures the 128 cells of its column. -/
def Dev.writeFrame (d : Dev) (a : Nat) (data : List Nat) : Dev :=
  let die := a / 2 ^ 30
  let index := a / 2 ^ 21 % 256
  if a.testBit 29 then
    let mem := (index - 1) * 256 + 4 * (a / 2 ^ 15 % 64)
    let row (r : Nat) : BitVec 80 := bmemRow (BitVec.ofNat 64 (leAt data (8 * r) 8))
    { d with array := { d.array with bmem := tblit 0 d.array.bmem (bmemKey die mem 0) ((List.range 2048).map row) } }
  else
    { d with array := { d.array with
        cells := tset [] d.array.cells (240 * die + index) data
        logic := tset [] d.array.logic (240 * die + index) ((List.range 128).map (Config.cellOf data)) } }

/-- FDATA: checks the frame and writes it at the frame address, which then becomes unset (R246, R251). -/
def fdata (life : Life) (d : Dev) : Dev :=
  d.streamCmd life fun c l d => match c with
    | .fdata frame =>
      match l.far with
      | none => some (.fails rCommand d)
      | some a =>
        if l.pos ≠ .cells ∨ frame.length ≠ 35 * frameWords a + 4 then some (.fails rCommand d) else
        let r := decodeFrame a frame
        let d := d.bump 0 .cfgCorrected 0 31 0 r.2.1
        if r.2.2 then some (.fails rFrame d) else
        some (.on { l with far := none, frames := l.frames + 1 }
          ((d.writeFrame a r.1).setRg 0 .cfgFrames 0 (BitVec.ofNat 32 (l.frames + 1))))
    | _ => none

/-- CHECKING has passed: the global clear begins and the image in force is lost (R248, R253). -/
def Dev.enterLoading (d : Dev) (life : Life) (l : Load) (n : Nat) : Dev :=
  let d := d.clearArray.resetRg 0 .cfgFrames
  Dev.taken { d with cfg := { d.cfg with state := 2, staged := [] } } life { l with passed := true } n

/-- A store of a service image is refused with BAD_ARG and no effect (R258). -/
def Dev.refuseStore (d : Dev) (life : Life) (l : Load) : Dev :=
  let d := { d with cfg := { d.cfg with load := none } }
  match l.replies with
  | [] => { d with cfg := { d.cfg with ended := some (l.session, stBadArg, 0, 0) } }
  | (_, r) :: rest => rest.foldl (fun d x => d.finish life x.2 stWrong []) (d.finish life r stBadArg [])

/-- IDCHECK. In CHECKING of a service image the life cycle comes first, then the comparison of the command's words with IDENT
(R241, R242, R254); anywhere later it breaks the order of R247. -/
def idcheck (life : Life) (ident : Word × Nat × Word) (d : Dev) : Dev :=
  match d.cfg.load with
  | none => d
  | some l =>
    if l.passed then d.streamCmd life fun c _ d => match c with
      | .idcheck _ => some (.fails rCommand d)
      | _ => none
    else if l.received < 4 ∨ leAt l.image 0 4 ≠ serviceWord then d
    else if l.store.isSome then d.refuseStore life l
    else if l.source ≠ 3 then d.checkFail life l rFormat 0
    else if l.received < 20 then d
    else if !life.open then d.checkFail life l rLifecycle 0
    else if leAt l.image 4 4 ≠ ident.1.toNat ∨ leAt l.image 8 4 % 256 ≠ ident.2.1
        ∨ leAt l.image 12 4 % 2 ^ 24 ≠ fld ident.2.2 23 0 ∨ leAt l.image 16 4 ≠ 0
      then d.checkFail life l rIdcheck 0
    else d.enterLoading life { l with service := true, pos := .checked } 20

/-- GCLR: the global clear runs, and the loader takes nothing more until it has ended (R248). -/
def gclr (life : Life) (d : Dev) : Dev :=
  d.streamCmd life fun c l d => match c with
    | .gclr => Taken.unless (decide (l.pos = if l.service then .checked else .first)) { l with pos := .clearing } d
    | _ => none

/-- A seam wire fails its check (R240): 0 F0|F1, 1 F1|F2, 2 F2|F3; the F1|F2 seam is reported by TW. -/
def Dev.seamFault (d : Dev) (seam : Nat) : Dev :=
  let d := d.setRf (2 + seam) .fabDieStatus 0 2 2 0
  let d := d.setRf (3 + seam) .fabDieStatus 0 1 1 0
  d.condOn (if seam = 2 then .e else .w) blkFab 3

/-- The outcomes of a seam check on all three seams (R476). -/
def Dev.seamCheck (d : Dev) (ok : List Bool) : Dev :=
  (List.range 3).foldl (fun d k => if ok.getD k true then d else d.seamFault k) d

/-- GCLR_COMPLETE: the clear has ended, its seam check inside it; the loader takes stream data again (R248, R476). -/
def gclrComplete (life : Life) (seamOk : List Bool) (d : Dev) : Dev :=
  match d.cfg.load with
  | some l => if l.pos = .clearing then (d.taken life { l with pos := .cells } 0).seamCheck seamOk else d
  | none => d

/-- A WCFG bench names a fabric clock that no WCFG runs (R248). -/
def Load.stoppedClock (l : Load) : Bool :=
  l.wcfg.any fun kv => decide (0x100 ≤ kv.1) && kv.2.testBit 3 && decide (tget 0 l.wcfg (kv.2 % 8) = 0)

/-- START: the release is requested (R246, R247); an enabled bench on a stopped clock fails here (R248). -/
def startCmd (life : Life) (d : Dev) : Dev :=
  d.streamCmd life fun c l d => match c with
    | .start => Taken.unless (decide (l.pos = .cells) && !l.stoppedClock) { l with pos := .started } d
    | _ => none

/-- The release of R257 and R220: WCFG values apply, the clocks start, and the F-dies are released at one instant, every
register at its initial value (R213). The ciphertext of a Hoist load stays as the staged copy (R260). -/
def Dev.release (d : Dev) (l : Load) : Dev :=
  let keep := l.wcfg.filter fun kv => decide (kv.2 ≠ 0)
  let d := { d with cfg := { d.cfg with load := none, state := 5, source := l.source, service := l.service, wcfg := keep
                                        hash := if l.service then 0 else l.hdr.bodyHash, keyId := l.hdr.keyId
                                        auto := [], staged := if l.source = 3 then l.image else [] }
                    array := { d.array with regs := [], sync := [], bports := [], phase := [0, 0, 0, 0, 0, 0, 0, 0] } }
  let d := d.startClocks none
  let d := if d.clkConflict .w then d.raise .w blkFab 4 else d
  if d.clkConflict .e then d.raise .e blkFab 4 else d

/-- END ends the stream: directly before a full image's trailer the image goes to VERIFYING; a service image passes on its END
alone. Data beyond END fails: as TRAILER where a full image's trailer does not follow directly, else as COMMAND (R245, R247,
R253, R256, R257). -/
def streamEnd (life : Life) (d : Dev) : Dev :=
  let d := d.streamCmd life fun c l d => match c with
    | .ending =>
      if l.pos ≠ .started then some (.fails rCommand d)
      else if l.taken + 4 ≠ l.streamEnd then some (.fails (if l.service then rCommand else rTrailer) d)
      else some (.on { l with pos := .ended } { d with cfg := { d.cfg with state := 3 } })
    | _ => none
  match d.cfg.load with
  | some l => if l.pos = .ended ∧ l.service then (d.release l).recordEnd life l 0 0 else d
  | none => d

/-- What CHECKING finds in a full image's header, in its order: format and length, life cycle, identity, key slot, signature
over header bytes 0x00 to 0x7F (R242, R243, R254). `ident` holds IDENT_PART, the stepping and IDENT_DIESET. -/
def Dev.headerReason (d : Dev) (life : Life) (ident : Word × Nat × Word) (declared : Option Nat) (l : List Nat) : Option Nat :=
  let h := parseHeader l
  let slot := tget {} d.sec.slots h.keyId
  if h.firstWord ≠ 1 ∨ !h.resvZero ∨ h.length % 4 ≠ 0 ∨ h.length < 284 ∨ 134217728 < h.length ∨ 3264 < h.frames
      ∨ (declared.isSome ∧ declared ≠ some h.length) then some rFormat
  else if life ≠ .manufacture ∧ life ≠ .deployed ∧ life ≠ .returned then some rLifecycle
  else if BitVec.ofNat 32 (h.family * 65536 + h.part) ≠ ident.1 ∨ h.stepping ≠ ident.2.1 ∨ h.dieset ≠ fld ident.2.2 23 0
    then some rIdentity
  else if slot.kind ≠ .image then some rKey
  else if !Config.ecdsa slot.pub (l.take 0x80) h.signature then some rSignature
  else none

/-- CONFIG_CHECK_COMPLETE: the checks of a full image's header are done (R254), or its first word or declared length already
rules it out (R241, R242). A load goes to LOADING; a store's slot becomes invalid and is erased (R253, R258). -/
def configCheckComplete (life : Life) (ident : Word × Nat × Word) (d : Dev) : Dev :=
  match d.cfg.load with
  | none => d
  | some l =>
    let first := leAt l.image 0 4
    if l.passed ∨ l.received < 4 then d
    else if first = serviceWord ∧ l.source = 3 then (if l.store.isSome then d.refuseStore life l else d)
    else if first ≠ 1 ∨ l.length < 284 then d.checkFail life l rFormat 0
    else if l.received < 256 then d
    else match d.headerReason life ident (if l.source = 3 then some l.length else none) (l.image.take 256) with
    | some r => d.checkFail life l r 0
    | none =>
      let l := { l with hdr := parseHeader (l.image.take 256) }
      match l.store with
      | some n =>
        let d := d.eraseSlot n
        Dev.taken { d with cfg := d.cfg.setSlot n { valid := false, reason := (d.cfg.slot n).reason } } life { l with passed := true } 256
      | none => d.enterLoading life l 256

/-- The body as stored (R244). -/
def bodyOf (image : List Nat) : List Nat := (image.drop 0x100).take (image.length - 0x110)

/-- SHA-384 of the body ciphertext as BODY_HASH spells it. -/
def bodyHashOf (image : List Nat) : BitVec 384 := BitVec.ofNat 384 (Config.sha384 ((bodyOf image).map (BitVec.ofNat 8)))

/-- The trailer: copies of LENGTH and FRAMES and the CRC-32 of all image bytes before it (R245). -/
def trailerOk (h : ImgHeader) (image : List Nat) : Bool :=
  let o := image.length - 16
  decide (leAt image o 8 = h.length) && decide (leAt image (o + 8) 4 = h.frames)
    && decide (leAt image (o + 12) 4 = crc32 (image.take (image.length - 4)))

/-- CONFIG_VERIFY_COMPLETE: the whole image has come; BODY_HASH, the trailer and the FDATA count are compared, and the fabric is
released or cleared (R257). -/
def configVerifyComplete (life : Life) (d : Dev) : Dev :=
  match d.cfg.load with
  | none => d
  | some l =>
    if l.pos ≠ .ended ∨ l.received < l.length then d else
    let l := { l with taken := l.length }
    if bodyHashOf l.image ≠ l.hdr.bodyHash then d.loadFail life l rHash 0x100
    else if !trailerOk l.hdr l.image ∨ l.frames ≠ l.hdr.frames then d.loadFail life l rTrailer (l.length - 16)
    else (d.release l).recordEnd life l 0 0

/-- CONFIG_CLEAR_COMPLETE: the clear after a failure has ended (R253); auto-load goes on with the other slot (R259). -/
def configClearComplete (d : Dev) : Dev :=
  if d.cfg.state ≠ 4 then d else
  let d := { d with cfg := { d.cfg with state := 0 } }
  let src := d.rf 0 .cfgResult 0 15 12
  if src = 1 ∨ src = 2 then (if d.cfg.auto.isEmpty then d.raise .w blkCfg 1 else d.autoNext) else d

/-- CONFIG_IDLE_TIMEOUT: 50 ms without CONFIG_DATA (R256). The outcome goes to CFG_RESULT and LOAD_END only (R359). -/
def configIdleTimeout (life : Life) (d : Dev) : Dev :=
  match d.cfg.load with
  | none => d
  | some l =>
    if l.source ≠ 3 ∨ l.length ≤ l.received then d else
    let d := d.failHere life { l with finished := true } rTruncated
    { d with cfg := { d.cfg with ended := none } }

/-- CONFIG_STORE_COMPLETE: the slot has been programmed, header last, and read back; it is VALID when BODY_HASH agrees with
what the flash then holds (R258). -/
def configStoreComplete (life : Life) (bad : List (Nat × Byte)) (d : Dev) : Dev :=
  match d.cfg.load with
  | none => d
  | some l =>
    match l.store with
    | none => d
    | some n =>
      if !l.passed ∨ l.received < l.length ∨ !l.finished then d else
      let put := tblit 0xFF d.dbg.flash (slotBase n) (l.image.map (BitVec.ofNat 8))
      let put := bad.foldl (fun t x => tset 0xFF t (slotBase n + x.1 % l.length) (tget 0xFF t (slotBase n + x.1 % l.length) ^^^ x.2)) put
      let d' := { d with dbg := { d.dbg with flash := put } }
      if bodyHashOf (d'.slotBytes n l.length) = (parseHeader (d'.slotBytes n 256)).bodyHash then
        let d := { d' with cfg := ({ d'.cfg with load := none }).setSlot n { valid := true, reason := 0 } }
        d.recordEnd life l 0 0
      else d.loadFail life l rHash 0x100

/-- A flash slot as start-up finds it: VALID when its header passes the checks of CHECKING (R259, CFG_SLOT). -/
def Dev.scanSlots (d : Dev) (life : Life) (ident : Word × Nat × Word) : Dev :=
  let one (d : Dev) (n : Nat) : Dev :=
    { d with cfg := d.cfg.setSlot n { (d.cfg.slot n) with valid := (d.headerReason life ident none (d.slotBytes n 256)).isNone } }
  one (one d 0) 1

/-- AUTOLOAD_START: firmware starts auto-load with the slot CFG_BOOT names when AUTO is 1 (R259). -/
def autoloadStart (d : Dev) : Dev :=
  if d.cfg.state ≠ 0 || d.cfg.load.isSome || !d.west.tsk.started || decide (d.rf 0 .cfgBoot 0 0 0 = 0) then d else
  let first := d.rf 0 .cfgBoot 0 1 1
  ({ d with cfg := { d.cfg with auto := [first, 1 - first] } }).autoNext

/-- The SAFE net ends a load with TRUNCATED; an auto-load goes on with its other slot (R256, R259, R465). -/
def Dev.truncateLoad (d : Dev) (life : Life) : Dev :=
  match d.cfg.load with
  | none => d
  | some l => if l.store.isSome then d else d.failHere life { l with finished := true } rTruncated

/-- A load past CHECKING that a Stairwell in the given state cuts off. -/
def Load.cutOff (l : Load) (down : Bool) : Bool := l.store.isNone && l.passed && down

/-- While the Stairwell is down the frame path of F2 and F3 is lost, and a load past CHECKING ends with PATH (R256). -/
def Dev.pathLost (d : Dev) (life : Life) : Dev :=
  match d.cfg.load with
  | none => d
  | some l => if l.cutOff d.stwDown then d.loadFail life l rPath l.taken else d

/-! ## The Hoist commands of a load -/

/-- CONFIG_BEGIN's refusals, in the order of R255, R258 and R278; none when it is accepted. -/
def Dev.configRefusal (d : Dev) (target length : Nat) : Option Nat :=
  if 2 < target ∨ length = 0 ∨ length % 4 ≠ 0 ∨ 134217728 < length then some stBadArg
  else if d.west.locked || d.east.locked || d.dbg.pins then some stWrong
  else if d.cfg.load.isSome || decide (d.cfg.state = 4) then some stBusy
  else if d.stwDown then some stDegraded
  else if target = 0 ∧ d.west.cel.state = 0 then some stDegraded
  else if target = 0 ∧ d.west.cel.state < 3 then some stBusy
  else if target ≠ 0 ∧ d.cfg.state = 5 ∧ d.cfg.source = target then some stWrong
  else none

/-- CONFIG_BEGIN accepted: CHECKING begins, or a store begins (R253, R258). -/
def Dev.configBegin (d : Dev) (session target length : Nat) : Dev :=
  let l : Load := { source := 3, store := if target = 0 then none else some (target - 1), session := session
                    length := length, prev := d.cfg.state }
  { d with cfg := { d.cfg with load := some l, ended := none, state := if target = 0 then 1 else d.cfg.state } }

/-- CONFIG_DATA: appends data in order; data wholly below RECEIVED is answered OK with no effect (R359). The response of
appended data follows when the loader has taken what it can of it (log entry 13). -/
def Dev.configData (d : Dev) (life : Life) (r : Reply) (offset : Nat) (data : List Byte) : Dev :=
  let bytes := data.length
  match d.cfg.load with
  | none =>
    match d.cfg.ended with
    | some (s, st, reason, at_) =>
      if s = r.session then Dev.finish { d with cfg := { d.cfg with ended := if reason = 0 then some (s, st, reason, at_) else none } } life r
          (if reason = 0 ∧ st = stOk then stWrong else st) [] else d.finish life r stWrong []
    | none => d.finish life r stWrong []
  | some l =>
    if l.source ≠ 3 ∨ l.session ≠ r.session ∨ l.finished then d.finish life r stWrong []
    else if bytes = 0 ∨ bytes % 4 ≠ 0 then d.finish life r stMalformed []
    else if offset + bytes ≤ l.received then d.finish life r stOk (beBytes 8 l.received)
    else if offset ≠ l.received then d.finish life r stBadArg []
    else if l.length < offset + bytes then
      d.failHere life { l with replies := l.replies ++ [(offset + bytes, r)] } (if l.service then rCommand else rTrailer)
    else Dev.answerData { d with cfg := { d.cfg with load := some { l with
      image := l.image ++ data.map (·.toNat), replies := l.replies ++ [(offset + bytes, r)] } } } life

/-- CONFIG_END: before the declared length it truncates the load; otherwise its response follows when the load or store
has ended (R256, R359). -/
def Dev.configEnd (d : Dev) (life : Life) (r : Reply) : Dev :=
  match d.cfg.load with
  | none =>
    match d.cfg.ended with
    | some (s, st, reason, at_) =>
      if s = r.session then Dev.finish { d with cfg := { d.cfg with ended := none } } life r st (endPayload reason at_)
      else d.finish life r stWrong []
    | none => d.finish life r stWrong []
  | some l =>
    if l.source ≠ 3 ∨ l.session ≠ r.session ∨ l.finished then d.finish life r stWrong []
    else if l.received < l.length ∨ (!l.passed ∧ l.length < 20) then
      d.failHere life { l with replies := l.replies ++ [(l.length + 1, r)], finished := true } rTruncated
    else { d with cfg := { d.cfg with load := some { l with replies := l.replies ++ [(l.length + 1, r)], finished := true } } }

end Sys2Proof.Machine
end

