-- ==== Sys2Proof/Machine/Larder.lean ====
section
/-! DEFINITION. The Larder (R303 to R307): appends, compaction and what start-up takes back. -/
namespace Sys2Proof.Machine

/-! ## Records as bytes (R303) -/

/-- The 16 bytes of an event entry as a memory structure (R7, R303, R363). -/
def Event.stored (e : Event) : List Nat := leNats 4 e.seq ++ leNats 4 e.time.toNat ++ leNats 2 e.code ++ leNats 2 e.src ++ leNats 4 e.arg.toNat

/-- An event entry from its bytes. -/
def Event.ofStored (l : List Nat) : Event :=
  { seq := ofLe (l.take 4), time := BitVec.ofNat 32 (ofLe ((l.drop 4).take 4)), code := ofLe ((l.drop 8).take 2)
    src := ofLe ((l.drop 10).take 2), arg := BitVec.ofNat 32 (ofLe ((l.drop 12).take 4)) }

/-- A channel block from its 256 bytes (R187). -/
def CalBlock.ofStored (l : List Nat) : CalBlock :=
  let at_ (o n : Nat) : Nat := ofLe ((l.drop o).take n)
  let entry (y : Nat) : CalEntry :=
    let o := 0x10 + 32 * y
    { offset := sgn 2 (at_ o 2), deskew := sgn 2 (at_ (o + 2) 2), tcoef := sgn 2 (at_ (o + 4) 2)
      pcurve := (List.range 8).map fun i => sgn 2 (at_ (o + 8 + 2 * i) 2)
      wref := sgn 4 (at_ (o + 0x18) 4), wlast := sgn 4 (at_ (o + 0x1C) 4) }
  { tref := sgn 2 (at_ 0 2), cflags := at_ 2 2, swing := at_ 4 1, phiref := sgn 2 (at_ 6 2), tlast := sgn 2 (at_ 8 2)
    entries := (List.range 6).map entry }

/-- Channels of the half's calibration table that a record of type 1 holds. -/
def tableBase (key : Nat) : Nat := 128 * (key % 2)

/-- Payload bytes of a record where the spec gives them; the length of the rest is a free value (R303). -/
def LdrData.length (t key : Nat) : LdrData → Nat
  | .other n => n
  | .table _ => 32768
  | .cert l => l.length
  | .safe _ _ _ => 128
  | .boot _ => 4
  | .entry _ => 16
  | _ => Config.firmware 10 (65536 * t + key) % 59889

/-- A record's payload: the bytes that the spec lays out, and free values where it gives no layout (log entry 65). -/
def LdrRec.payload (r : LdrRec) : List Nat :=
  match r.data with
  | .table b => (List.range 128).flatMap fun k => ((tget {} b (tableBase r.key + k)).bytes).map BitVec.toNat
  | .safe drvd out oe => leNats 64 drvd.toNat ++ leNats 32 out.toNat ++ leNats 32 oe.toNat
  | .boot w => leNats 4 w.toNat
  | .entry e => e.stored
  | .cert l => l.map BitVec.toNat
  | x => (List.range (x.length r.type r.key)).map fun i => (Config.ldrByte r.seq i).toNat

/-- KEY as the record stores it: the number of a file's region is 16 bits of firmware's choice (log entry 65). -/
def LdrRec.keyField (r : LdrRec) : Nat := if r.type = 3 ∨ r.type = 4 then Config.firmware 13 r.key % 65536 else r.key % 65536

/-- Codewords of a record: header and payload in runs of 32 stored bytes (R303). -/
def ldrCodewords (length : Nat) : Nat := (16 + length + 31) / 32

/-- A record as stored: header with its CRC-32, payload, zeros up to whole codewords, and the check bytes (R293, R303). -/
def LdrRec.coded (r : LdrRec) : List Nat :=
  let p := r.payload
  let head := leNats 4 r.seq ++ leNats 2 r.type ++ leNats 2 r.keyField ++ leNats 4 p.length
  let body := head ++ leNats 4 (crc32 (head ++ p)) ++ p
  let n := ldrCodewords p.length
  encodeRun 35 3 n (body ++ List.replicate (32 * n - body.length) 0)

/-! ## Areas and headers in the flash (R303, R305) -/

/-- Flash address of an area, of a sector in it, and of a header copy. -/
def areaBase (area : Nat) : Nat := 0x14000000 + area % 2 * 0x1E00000

def sectorBase (area sector : Nat) : Nat := areaBase area + 65536 * sector

def headerBase (copy : Nat) : Nat := 0x17C00000 + 0x100000 * copy

def flashRead (m : Tbl Byte) (a n : Nat) : List Nat := (List.range n).map fun i => (tget 0xFF m (a + i)).toNat

def flashWrite (m : Tbl Byte) (a : Nat) (l : List Nat) : Tbl Byte := tblit 0xFF m a (l.map (BitVec.ofNat 8))

/-- Flash with n bytes from an address erased. -/
def flashErase (m : Tbl Byte) (a n : Nat) : Tbl Byte := tdropRange m a (a + n)

/-- Erased flash reads 0xFF. -/
def erased (l : List Nat) : Bool := l.all fun b => decide (b = 0xFF)

/-- A header record of two codewords (R305). -/
def headerCoded (generation active first : Nat) : List Nat :=
  let body := leNats 4 generation ++ leNats 1 active ++ leNats 3 0 ++ leNats 4 first ++ List.replicate 48 0
  encodeRun 35 3 2 (body ++ leNats 4 (crc32 body))

/-- A header record read back: GENERATION, ACTIVE, FIRST_SEQ, when it is valid. -/
def headerOf (l : List Nat) : Option (Nat × Nat × Nat) :=
  let r := decodeRun 35 3 2 l
  if r.2.2 ∨ crc32 (r.1.take 60) ≠ ofLe (r.1.drop 60) then none
  else some (ofLe (r.1.take 4), ofLe ((r.1.drop 4).take 1), ofLe ((r.1.drop 8).take 4))

/-- Header records that a copy has room for. -/
def headerRoom : Nat := 0x100000 / 70

/-- Walk a header copy from record i: its last valid record, and the first erased place. -/
def headerWalk (m : Tbl Byte) (copy : Nat) : Nat → Nat → Option (Nat × Nat × Nat) → Option (Nat × Nat × Nat) × Nat
  | 0, i, last => (last, i)
  | n + 1, i, last =>
    let l := flashRead m (headerBase copy + 70 * i) 70
    if erased l then (last, i) else headerWalk m copy n (i + 1) ((headerOf l).orElse fun _ => last)

def headerNow (m : Tbl Byte) (copy : Nat) : Option (Nat × Nat × Nat) := (headerWalk m copy headerRoom 0 none).1

/-- Append a header record to a copy. A full one is erased and rewritten, one copy a switch: the flag tells that this switch has
rewritten one (R305). -/
def headerPut (rec : List Nat) (m : Tbl Byte × Bool) (copy : Nat) : Tbl Byte × Bool :=
  let i := (headerWalk m.1 copy headerRoom 0 none).2
  if i < headerRoom then (flashWrite m.1 (headerBase copy + 70 * i) rec, m.2)
  else if m.2 then m
  else (flashWrite (flashErase m.1 (headerBase copy) 0x100000) (headerBase copy) rec, true)

/-! ## Appends -/

/-- Only the latest record of a TYPE and KEY is live; of the event log the newest 16 384 (R303). -/
def ldrInsert (l : List LdrRec) (r : LdrRec) : List LdrRec :=
  if r.type = 6 then
    let old := l.filter fun x => decide (x.type = 6)
    let rest := l.filter fun x => decide (x.type ≠ 6)
    rest ++ (old ++ [r]).drop (old.length + 1 - 16384)
  else l.filter (fun x => !(decide (x.type = r.type) && decide (x.key = r.key))) ++ [r]

/-- SC cycles that a codeword takes to program: at most 6.25 µs (R307). -/
def burnCycles : Nat := Config.firmware 14 0 % 5000 + 1

/-- The flash takes a record at a place of an area. -/
def Dev.ldrPut (d : Dev) (area sector used : Nat) (r : LdrRec) : Dev :=
  { d with
    dbg := { d.dbg with flash := flashWrite d.dbg.flash (sectorBase area sector + 35 * used) r.coded }
    ldr := { d.ldr with texts := d.ldr.texts ++ [(area, r)] } }

/-- Append a record to the active area (R303, R306, R307). While the VIN warning holds, records are refused and counted
at the next start-up. Reaching sector 360 starts compaction, or raises LARDER_FILL in host-assisted mode. -/
def Dev.ldrAppend (d : Dev) (type key : Nat) (data : LdrData) : Dev :=
  let l := d.ldr
  if l.hold then { d with ldr := { l with refused := l.refused + 1 } } else
  let cw := ldrCodewords (data.length type key)
  let fits : Bool := decide (l.used + cw ≤ 1872)
  let sector := if fits then l.sector else l.sector + 1
  let used := if fits then l.used else 0
  if 480 ≤ sector then (d.bump 0 .ldrLost).raise .w blkAon 10 else
  let r : LdrRec := { seq := (l.seq + 1) % 2 ^ 32, type := type, key := key, data := data }
  let fill : Bool := decide (l.sector < 360) && decide (360 ≤ sector) && !l.compacting
  let now := d.clk.cycles
  let rest := l.burning.filter fun b => decide (now < b.start + b.count * burnCycles)
  let b : Burn := { start := rest.foldl (fun t b => max t (b.start + b.count * burnCycles)) now
                    addr := sectorBase l.active sector + 35 * used, count := cw, seq := l.seq, sector := l.sector, used := l.used }
  let d := d.ldrPut l.active sector used r
  let d := { d with ldr := { d.ldr with
    seq := r.seq, sector := sector, used := used + cw, compacting := l.compacting || (decide (360 ≤ sector) && !l.hostMode)
    burning := rest ++ [b], records := ldrInsert l.records r } }
  if fill && l.hostMode then d.raise .w blkAon 11 else d

/-- The live record of a TYPE and KEY. -/
def LdrSt.find (l : LdrSt) (type key : Nat) : Option LdrData :=
  (l.records.find? fun r => decide (r.type = type) && decide (r.key = key)).map (·.data)

/-- Percent of the active area in use (LDR_STATUS.FILL). -/
def LdrSt.fill (l : LdrSt) : Nat := min 100 (100 * (1872 * l.sector + l.used) / (1872 * 480))

/-- Compaction starts: the other area is erased (R306). -/
def Dev.startCompaction (d : Dev) : Dev :=
  let other := 1 - d.ldr.active
  { d with ldr := { d.ldr with compacting := true, texts := d.ldr.texts.filter fun x => decide (x.1 ≠ other) }
           dbg := { d.dbg with flash := flashErase d.dbg.flash (areaBase other) 0x1E00000 } }

/-- Places of records one after the other in a fresh area: sector and codewords used before each, with its new SEQ; at last
where the area then stands. -/
def ldrPack : List LdrRec → Nat → Nat → Nat → List (Nat × Nat × LdrRec) → (Nat × Nat × Nat) × List (Nat × Nat × LdrRec)
  | [], sec, used, seq, acc => ((sec, used, seq), acc.reverse)
  | r :: t, sec, used, seq, acc =>
    let cw := ldrCodewords (r.data.length r.type r.key)
    let q := (seq + 1) % 2 ^ 32
    if used + cw ≤ 1872 then ldrPack t sec (used + cw) q ((sec, used, { r with seq := q }) :: acc)
    else ldrPack t (sec + 1) cw q ((sec + 1, 0, { r with seq := q }) :: acc)

/-- The three header copies take the area in force (R305). -/
def Dev.putHeaders (d : Dev) (copies : List Nat) : Dev :=
  let l := d.ldr
  let put := copies.foldl (headerPut (headerCoded l.generation l.active l.first)) (d.dbg.flash, false)
  { d with dbg := { d.dbg with flash := put.1 } }

/-- Records go to the other, erased area with new SEQ values, and the areas switch (R305, R306). -/
def Dev.ldrMove (d : Dev) (recs : List LdrRec) : Dev :=
  let l := d.ldr
  let other := 1 - l.active
  let (e, places) := ldrPack recs 0 0 l.seq []
  let d := places.foldl (fun d p => d.ldrPut other p.1 p.2.1 p.2.2) d
  Dev.putHeaders { d with ldr := { d.ldr with
    active := other, generation := l.generation + 1, first := (l.seq + 1) % 2 ^ 32
    records := places.map fun p => p.2.2
    sector := e.1, used := e.2.1, seq := e.2.2, compacting := false } } [0, 1, 2]

/-- LARDER_COMPACTION_COMPLETE: every live record stands in the other area (R306). -/
def larderCompactionComplete (d : Dev) : Dev := if !d.ldr.compacting then d else d.ldrMove d.ldr.records

/-- Records that a test accepts are erased for good: the others move, and the area they stood in is erased (R310; that an erasure
is a move is a DESIGN CHOICE, log entry 65). -/
def Dev.ldrErase (d : Dev) (gone : LdrRec → Bool) : Dev :=
  let old := d.ldr.active
  let d := d.startCompaction.ldrMove (d.ldr.records.filter fun r => !gone r)
  { d with ldr := { d.ldr with texts := d.ldr.texts.filter fun x => decide (x.1 ≠ old) }
           dbg := { d.dbg with flash := flashErase d.dbg.flash (areaBase old) 0x1E00000 } }

/-- The front-end safe values of both halves (R303, type 5). -/
def Dev.safeValues (d : Dev) : LdrData :=
  let drvd := (List.range 512).foldl (fun a n => a + d.rf (n / 256) .tchSafe (n % 256) 0 0 * 2 ^ n) 0
  let words (r : Rg) : Nat := (List.range 8).foldl (fun a i => a + (d.rg (i / 4) r (i % 4)).toNat * 2 ^ (32 * i)) 0
  .safe (BitVec.ofNat 512 drvd) (BitVec.ofNat 256 (words .fabGpioSafeOut)) (BitVec.ofNat 256 (words .fabGpioSafeOe))

/-- Journal a half's calibration tables when they have changed (R192). -/
def Dev.journalCal (d : Dev) (s : Side) : Dev :=
  let c := (d.half s).cal
  if !c.changed then d else
  let part (lo : Nat) : LdrData := .table (c.blocks.filter fun kv => decide (lo ≤ kv.1) && decide (kv.1 < lo + 128))
  let d := (d.ldrAppend 1 (2 * s.code) (part 0)).ldrAppend 1 (2 * s.code + 1) (part 128)
  d.mod s fun h => { h with cal := { h.cal with changed := false } }

/-- CAL_TABLE_JOURNAL: the 10 s point of R192. -/
def calTableJournal (s : Side) (d : Dev) : Dev := d.journalCal s

/-- The oldest event since power-on that firmware has not journaled (R363). -/
def Dev.nextToLog (d : Dev) : Option Event := d.hst.events.find? fun e => decide (d.hst.logged ≤ e.seq)

/-- The remapped lines of a memory: Cellar channel n of half s at 16 s + n, the Attic of half s at 16 s + 8 (R298). -/
def Dev.remapData (d : Dev) (key : Nat) : LdrData :=
  let h := d.half (if key < 16 then .w else .e)
  .remap (if key % 16 = 8 then h.att.spare.map fun r => (r.1, r.2.1)
          else (h.cel.remap.filter fun r => decide (r.1 = key % 16)).map fun r => (r.1, r.2.1))

/-- A memory's remapped lines are journaled (R298). -/
def Dev.journalRemap (d : Dev) (key : Nat) : Dev := d.ldrAppend 8 key (d.remapData key)

/-- What firmware writes for a TYPE and KEY now (R303). -/
def Dev.ldrSnapshot (d : Dev) (type key length : Nat) : Option LdrData :=
  match type with
  | 1 =>
    let c := (d.half (if key < 2 then .w else .e)).cal
    let lo := 128 * (key % 2)
    some (.table (c.blocks.filter fun kv => decide (lo ≤ kv.1) && decide (kv.1 < lo + 128)))
  | 2 => if key = 1024 then d.sec.cert.map .cert else some (.slot (tget {} d.sec.slots key))
  | 3 => ((d.west.files ++ d.east.files).find? fun f => decide (f.id = key)).map fun f => .epoch f.epoch
  | 4 => ((d.west.files ++ d.east.files).find? fun f => decide (f.id = key)).map fun f => .root f.root
  | 5 => some d.safeValues
  | 6 => d.nextToLog.map .entry
  | 8 => some (d.remapData key)
  | 9 => some (.boot (d.rg 0 .cfgBoot))
  | _ => some (.other length)

/-- LARDER_APPEND: firmware appends a journal record (R303). A counters record takes the raises that its page has logged
at severity 0 (R459). -/
def larderAppend (type key length : Nat) (d : Dev) : Dev :=
  match d.ldrSnapshot type key length with
  | none => d
  | some data =>
    let d := d.ldrAppend type key data
    match data with
    | .entry e => { d with hst := { d.hst with logged := e.seq + 1 } }
    | _ =>
      if type = 7 then
        let s : Side := if key / 32 % 2 = 0 then .w else .e
        d.setPage s (key % 32) { (d.page s (key % 32)) with journal := [] }
      else d

/-- Firmware journals every event that waits (R363). -/
def Dev.logEvents (d : Dev) : Dev :=
  (d.hst.events.filter fun e => decide (d.hst.logged ≤ e.seq)).foldl (fun d _ => larderAppend 6 0 0 d) d

/-! ## What start-up takes back -/

/-- A half's tables from the Larder; an absent one, or one that fails R191, becomes zeros and raises CAL_LIMIT (R192). -/
def Dev.loadTables (d : Dev) (s : Side) : Dev :=
  let one (d : Dev) (k : Nat) : Dev :=
    match d.ldr.find 1 (2 * s.code + k) with
    | some (.table b) =>
      if b.all fun kv => kv.2.check.isNone then d.mod s fun h => { h with cal := { h.cal with blocks := h.cal.blocks ++ b } }
      else d.raise s blkCal 1
    | _ => d.raise s blkCal 1
  let d := d.mod s fun h => { h with cal := { h.cal with
    blocks := [], changed := false, anchored := 0, drifted := 0, loaded := true } }
  let d := one (one d 0) 1
  d.mod s fun h => { h with cal := { h.cal with epoch := { h.cal.epoch with blocks := h.cal.blocks }, older := [] } }

/-- A block of the table RAM is uncorrectable: its channel is STALE, and the block comes back from the Larder (R294). -/
def Dev.reloadBlock (d : Dev) (s : Side) (ch : Nat) : Dev :=
  let b : CalBlock := match d.ldr.find 1 (2 * s.code + ch / 128) with
    | some (.table t) => tget {} t ch
    | _ => {}
  let d := d.mod s fun h => { h with cal := { h.cal with
    blocks := tset {} h.cal.blocks ch b, anchored := bitClear h.cal.anchored ch } }
  (d.raise s blkCal 7).recheckCal s

/-- SWEEP_CHANNEL_COMMIT: a channel's measurement in a sweep is complete (R201), with what the decoder of the table RAM found
in its block: a measurement of a lost block is not committed (R294). -/
def sweepChannelCommit (s : Side) (ch : Nat) (readings : List Int) (e : Ecc) (d : Dev) : Dev :=
  if !(d.half s).cal.awaits ch then d else
  match e with
  | .clean => d.sweepMeasure s ch readings
  | .corr => (d.correction s blkCal 6).sweepMeasure s ch readings
  | .uncorr => d.reloadBlock s ch

/-- TCH_SAFE of a half and its GPIO safe values from the Larder (R239, R303). -/
def Dev.loadSafe (d : Dev) (s : Side) (gpio : Bool) : Dev :=
  match d.ldr.find 5 0 with
  | some (.safe drvd out oe) =>
    let d := (List.range 256).foldl (fun d n =>
      d.setRg s.code .tchSafe n (BitVec.ofNat 32 (b1 (drvd.getLsbD (256 * s.code + n))))) d
    if !gpio then d else
    (List.range 4).foldl (fun d i =>
      let sh := 32 * (4 * s.code + i)
      (d.setRg s.code .fabGpioSafeOut i (BitVec.ofNat 32 (out.toNat / 2 ^ sh))).setRg s.code .fabGpioSafeOe i
        (BitVec.ofNat 32 (oe.toNat / 2 ^ sh))) d
  | _ => d

/-- The persistent key slots and the identity certificate from the Larder (R318, R325). -/
def Dev.loadSlots (d : Dev) : Dev :=
  let slots := d.ldr.records.foldl (fun (t : Tbl KeySlot) r => match r.data with
    | .slot k => if r.key < 1024 then tset {} t r.key { k with inTe := false } else t
    | _ => t) []
  let cert := match d.ldr.find 2 1024 with
    | some (.cert n) => some n
    | _ => none
  { d with sec := { d.sec with slots := slots, cert := cert, reinstall := false } }

/-- CFG_BOOT from the Larder (R259). -/
def Dev.loadBoot (d : Dev) : Dev :=
  match d.ldr.find 9 0 with
  | some (.boot w) => d.setRg 0 .cfgBoot 0 w
  | _ => d

/-! ## The scan at start-up (R304, R305) -/

/-- What a scan of an area has found so far. -/
structure Scan where
  /-- counted records: SEQ, TYPE, KEY and payload, newest first -/
  recs  : List (Nat × Nat × Nat × List Nat) := []
  last  : Option Nat := none
  lost  : Nat := 0
  corr  : Nat := 0
  ended : Bool := false
deriving DecidableEq, Repr

/-- Scan a sector from codeword c. -/
def scanSector (m : Tbl Byte) (base : Nat) : Nat → Nat → Scan → Scan
  | 0, _, x => x
  | k + 1, c, x =>
    let w := flashRead m (base + 35 * c) 35
    if 1872 ≤ c then x
    else if erased w then { x with ended := x.ended || decide (c = 0) }
    else
      let head := rsDecode 3 w
      let len := ofLe ((head.data.drop 8).take 4)
      let n := ldrCodewords len
      if head.report = .uncorr ∨ 59888 < len ∨ 1872 < c + n then { x with lost := x.lost + 1 } else
      let run := decodeRun 35 3 n (flashRead m (base + 35 * c) (35 * n))
      let seq := ofLe (run.1.take 4)
      let data := (run.1.drop 16).take len
      let x := { x with corr := x.corr + run.2.1 }
      let good : Bool := !run.2.2 && decide (crc32 (run.1.take 12 ++ data) = ofLe ((run.1.drop 12).take 4))
      let follows : Bool := x.last.all fun s => decide (seq = (s + 1) % 2 ^ 32)
      if good && follows then
        scanSector m base k (c + n) { x with
          recs := (seq, ofLe ((run.1.drop 4).take 2), ofLe ((run.1.drop 6).take 2), data) :: x.recs, last := some seq }
      else if good && decide (c = 0) then { x with ended := true }
      else { x with lost := x.lost + 1 }

/-- Scan an area sector by sector until it ends. -/
def scanFrom (m : Tbl Byte) (area : Nat) : Nat → Nat → Scan → Scan
  | 0, _, x => x
  | k + 1, sec, x => if x.ended then x else scanFrom m area k (sec + 1) (scanSector m (sectorBase area sec) 1873 0 x)

def scanArea (m : Tbl Byte) (area : Nat) : Scan := scanFrom m area 480 0 {}

/-- SEQ of the first record that counts in an area. -/
def Scan.firstSeq (x : Scan) : Option Nat := x.recs.reverse.head?.map fun r => r.1

/-- A counted record's content: from its bytes where the spec lays them out, else what firmware wrote in it. -/
def LdrSt.content (l : LdrSt) (area : Nat) (r : Nat × Nat × Nat × List Nat) : Option LdrRec :=
  let (seq, type, key, p) := r
  let made (x : LdrData) : Option LdrRec := some { seq := seq, type := type, key := key, data := x }
  match type with
  | 1 => made (.table ((List.range 128).foldl (fun t k =>
      tset {} t (tableBase key + k) (CalBlock.ofStored ((p.drop (256 * k)).take 256))) []))
  | 5 => made (.safe (BitVec.ofNat 512 (ofLe (p.take 64))) (BitVec.ofNat 256 (ofLe ((p.drop 64).take 32)))
      (BitVec.ofNat 256 (ofLe ((p.drop 96).take 32))))
  | 6 => made (.entry (Event.ofStored p))
  | 9 => made (.boot (BitVec.ofNat 32 (ofLe p)))
  | _ => (l.texts.find? fun x => decide (x.1 = area) && decide (x.2.seq = seq) && decide (x.2.type = type)).map fun x => x.2

/-- The header in force: the pair that two copies hold, else the highest GENERATION whose area starts with its FIRST_SEQ; on a
module whose copies are all blank, area A at generation 0 (R305, log entry 65). -/
def headerPick (m : Tbl Byte) : Option (Nat × Nat × Nat) :=
  let l := [0, 1, 2].filterMap (headerNow m)
  match l.find? fun x => decide (2 ≤ (l.filter fun y => decide (y.1 = x.1 ∧ y.2.1 = x.2.1)).length) with
  | some x => some x
  | none => (l.filter fun x => decide ((scanArea m x.2.1).firstSeq = some x.2.2)).foldl (fun a x =>
      match a with
      | some y => if y.1 < x.1 then some x else a
      | none => some x) none

/-- Sector after the last non-erased codeword of an area, where appends resume (R304). -/
def resumeAt (m : Tbl Byte) (area : Nat) : Nat :=
  m.foldl (fun a kv => if areaBase area ≤ kv.1 ∧ kv.1 < areaBase area + 0x1E00000
    then max a ((kv.1 - areaBase area) / 65536 + 1) else a) 0

def Dev.times (f : Dev → Dev) : Nat → Dev → Dev
  | 0, d => d
  | n + 1, d => Dev.times f n (f d)

/-- The live records of a scan. -/
def LdrSt.live (l : LdrSt) (area : Nat) (x : Scan) : List LdrRec := (x.recs.reverse.filterMap (l.content area)).foldl ldrInsert []

/-- The start-up of the Larder: the header in force, a third copy that differs rewritten, the scan of the active area, and the
records refused during the last warning (R304, R305, R307). -/
def Dev.ldrStart (d : Dev) : Dev :=
  let m := d.dbg.flash
  let d0refused := d.ldr.refused
  let h := (headerPick m).getD (0, 0, 0)
  let x := scanArea m h.2.1
  let d := { d with ldr := { d.ldr with
    active := h.2.1, generation := h.1, first := h.2.2, seq := x.last.getD h.2.2, sector := resumeAt m h.2.1, used := 0
    records := d.ldr.live h.2.1 x, hold := false, compacting := false, hostMode := false, refused := 0, burning := [], frozen := none } }
  let d := if (headerPick m).isNone then d else
    d.putHeaders ([0, 1, 2].filter fun c => decide (((headerNow m c).map fun y => (y.1, y.2.1)) ≠ some (h.1, h.2.1)))
  let d := Dev.times (fun d => (d.bump 0 .ldrLost).raise .w blkAon 9) x.lost d
  let d := Dev.times (fun d => d.correction .w blkAon 8) x.corr d
  if d0refused = 0 then d else d.bump 0 .ldrLost 0 31 0 d0refused

/-- Remapped lines from the Larder, before the memories are first used (R298). A spare's content does not survive, so none is
poisoned. -/
def Dev.loadRemaps (d : Dev) : Dev :=
  let entries (key : Nat) : List (Nat × Nat × Bool) := match d.ldr.find 8 key with
    | some (.remap l) => l.map fun e => (e.1, e.2, false)
    | _ => []
  let one (d : Dev) (s : Side) : Dev := d.mod s fun h => { h with
    cel := { h.cel with remap := (List.range 4).flatMap fun n => entries (16 * s.code + n) }
    att := { h.att with spare := entries (16 * s.code + 8) } }
  one (one d .w) .e

/-! ## The warning and halts (R307, R487) -/

/-- The SC cycle at which the writer stands. -/
def Dev.writerAt (d : Dev) : Nat := d.ldr.frozen.getD d.clk.cycles

/-- The writer stops: a record not begun is refused, one in progress goes on when at most `few` codewords remain, and otherwise
its remaining codewords stay erased (R307). The index is what the flash then holds. -/
def Dev.stopWriter (d : Dev) (few : Nat) : Dev :=
  let now := d.writerAt
  let l := d.ldr
  let left (b : Burn) : Nat := b.count - (now - b.start) / burnCycles
  match l.burning.find? fun b => decide (now < b.start ∨ few < left b) with
  | none => d
  | some b =>
    let gone := l.burning.filter fun x => decide (b.start < x.start)
    let begun : Bool := decide (b.start ≤ now)
    let kept := if begun then b.count - left b else 0
    let m := (b :: gone).foldl (fun m x => flashErase m (x.addr + if x = b then 35 * kept else 0) (35 * x.count)) d.dbg.flash
    let d := { d with dbg := { d.dbg with flash := m } }
    { d with ldr := { l with
      seq := b.seq, sector := if kept = 0 then b.sector else (b.addr - areaBase l.active) / 65536 + 1
      used := if kept = 0 then b.used else 0
      burning := l.burning.filter fun x => decide (x.start < b.start)
      refused := l.refused + gone.length + b1 (!begun)
      records := l.live l.active (scanArea m l.active) } }

/-- A halt of TW stops the writer where it stands, and its release lets it go on (R487, R488). -/
def Dev.freezeWriter (d : Dev) : Dev := { d with ldr := { d.ldr with frozen := some d.writerAt } }

def Dev.thawWriter (d : Dev) : Dev :=
  match d.ldr.frozen with
  | none => d
  | some t => { d with ldr := { d.ldr with
      frozen := none, burning := d.ldr.burning.map fun b => { b with start := b.start + (d.clk.cycles - t) } } }

end Sys2Proof.Machine
end

