-- ==== Sys2Proof/Machine/Cellar.lean ====
section
/-! DEFINITION. The Cellar's training and upkeep (R263 to R279), repair maps and patrols (R294 to R299), and the
configuration scrubber (R300 to R302). -/
namespace Sys2Proof.Machine

/-- A selection of CEL_DLY_SEL without the fields that do not apply to its kind (R275). -/
def dlyKey (sel : Nat) : Nat :=
  let kind := sel / 1024 % 8
  let bit := if kind = 3 ∨ kind = 4 ∨ kind = 6 then sel / 128 % 8 else 0
  let lane := if kind = 0 then 0 else sel / 16 % 8
  let rank := if kind = 0 ∨ kind = 6 then 0 else sel / 8 % 2
  kind * 1024 + bit * 128 + lane * 16 + rank * 8 + sel % 8

/-! ## Training (R274 to R277) -/

/-- Training of all four channels begins (R274). A mode change of function 0 counts from here (R277). -/
def Half.startTraining (h : Half) : Half :=
  h.modCel fun c => { c with chans := [1, 1, 1, 1], host := h.assisted 0, verifying := false, rate := 0, rows := [] }

/-- A write of CEL_TRAIN: COMMIT in AWAIT_HOST, START from OFFLINE or READY under R277 (R274, R276). From READY the DIMMs are in
self-refresh until the sweeps end. -/
def Dev.trainWrite (d : Dev) (s : Side) (v : Word) : Nat × Dev :=
  let h := d.half s
  let st := h.cel.state
  let commit : Bool := v.getLsbD 1
  let start : Bool := v.getLsbD 0
  if commit && (decide (st ≠ 2) || h.cel.verifying) then (stWrong, d)
  else if start && (h.locked || !(st = 0 || st = 3)) then (stWrong, d)
  else if commit then (stOk, d.mod s fun h => h.modCel fun c => { c with delays := c.staged, verifying := true })
  else if start then (stOk, d.mod s fun h => h.startTraining.modCel fun c => { c with selfRef := c.selfRef || decide (st = 3) })
  else (stOk, d)

/-- A write of CEL_DLY_DATA: only in AWAIT_HOST (R276). -/
def Dev.dlyWrite (d : Dev) (s : Side) (v : Word) : Nat × Dev :=
  let c := (d.half s).cel
  if c.state ≠ 2 || c.verifying then (stWrong, d) else
  let k := dlyKey (d.rg s.code .celDlySel).toNat
  (stOk, d.mod s fun h => h.modCel fun c => { c with staged := tset 0 c.staged k (v.toNat % 4096) })

/-- What CEL_DLY_DATA reads. -/
def Dev.dlyRead (d : Dev) (s : Side) : Word :=
  let c := (d.half s).cel
  BitVec.ofNat 32 (tget 0 (if c.state = 2 then c.staged else c.delays) (dlyKey (d.rg s.code .celDlySel).toNat))

/-- CEL_SWEEP_COMPLETE: the sweeps end. A configuration outside R263 fails; in hardware mode firmware writes the centre of
each window and the verify test starts; in host-assisted mode the edges are published (R274 to R276). The DIMMs leave the
self-refresh of a training that began in READY or with a partial reset (R274, R279). -/
def celSweepComplete (s : Side) (supported : Bool) (edges : List (Nat × Nat × Nat)) (d : Dev) : Dev :=
  let c := (d.half s).cel
  if (c.state ≠ 1 && c.state ≠ 2) || c.verifying then d
  else if !supported then (d.mod s fun h => h.modCel fun c => { c with chans := [0, 0, 0, 0] }).raise s blkCel 0
  else if c.state = 2 then d
  else if c.host then
    d.mod s fun h => h.modCel fun c => { c with
      chans := [2, 2, 2, 2], staged := c.delays, selfRef := false
      edges := edges.foldl (fun t e => tset 0 t (dlyKey e.1) (pack [(0, e.2.1 % 4096), (16, e.2.2 % 4096)])) c.edges }
  else
    d.mod s fun h => h.modCel fun c => { c with
      verifying := true, selfRef := false
      delays := edges.foldl (fun t e => tset 0 t (dlyKey e.1) ((e.2.1 + e.2.2) / 2)) c.delays }

/-- CEL_VERIFY_COMPLETE: each channel whose test passed is READY, any other OFFLINE with TRAIN_FAIL (R274, R275). The half takes
the smallest capacity of its channels, in whole GiB up to 16; channels that trained at different rates make no usable Cellar
and fail (R264, DEDUCED, log entry 61). -/
def celVerifyComplete (s : Side) (ok : List Bool) (rates mib : List Nat) (dev32 x4 ranks2 : Bool) (d : Dev) : Dev :=
  if !(d.half s).cel.verifying then d else
  let rate := rates.getD 0 0
  let alike : Bool := decide (rate ≠ 0) && (List.range 4).all fun n => decide (rates.getD n 0 = rate)
  let good (n : Nat) : Bool := alike && ok.getD n false
  let all : Bool := (List.range 4).all good
  let gib := (List.range 4).foldl (fun a n => min a (mib.getD n 0 / 1024)) 16
  let d := d.mod s fun h => h.modCel fun c => { c with
    chans := (List.range 4).map fun n => if good n then 3 else 0
    verifying := false, rate := if alike then rate else 0, chGib := gib, dev32 := dev32, x4 := x4, ranks2 := ranks2 }
  if all then d.condOff s blkCel 1 else d.raise s blkCel 0

/-- Lines of the half's Cellar that a held write starts from and covers lie on a channel. -/
def HeldWrite.uses (w : HeldWrite) (ch : Nat) : Bool :=
  (List.range ((w.offset % 64 + w.data.length + 63) / 64)).any fun k => decide ((w.line + k) % 4 = ch)

/-- A fabric request writes the line at which a held write of the half starts. -/
def NocPend.heldBy (p : NocPend) (s : Side) (w : HeldWrite) : Bool :=
  p.req.write && decide (p.req.addr / 2 ^ 40 = s.code) && decide (w.line = (p.req.addr % 2 ^ 40 - 0x8000000000) / 64)
    && decide (w.data = p.req.data.take p.req.len)

/-- The entry in flight reads from a channel. -/
def Half.chuteReads (h : Half) (s : Side) (ch : Nat) : Bool :=
  match h.face.chuteQ with
  | [] => false
  | e :: _ =>
    let rd := h.planRd
    let first := Config.place s.code (PlanImg.fileId rd (PlanImg.entFile rd e.1)) + PlanImg.entSrc rd e.1 / 64
    h.face.chuteOn && (List.range (min 4 (PlanImg.entLen rd e.1 / 64))).any fun k => decide ((first + k) % 4 = ch)

/-- A line that the entry in flight reads and the Cellar has lost (R294). -/
def Half.chuteLost (h : Half) (s : Side) : Option Nat :=
  match h.face.chuteQ with
  | [] => none
  | e :: _ =>
    let rd := h.planRd
    let first := Config.place s.code (PlanImg.fileId rd (PlanImg.entFile rd e.1)) + PlanImg.entSrc rd e.1 / 64
    let lost := h.cel.bad ++ (h.cel.remap.filter fun r => r.2.2).map fun r => r.2.1
    if !h.face.chuteOn then none
    else lost.find? fun l => decide ((l + 2 ^ 30 - first % 2 ^ 30) % 2 ^ 30 < PlanImg.entLen rd e.1 / 64)

/-- A channel goes OFFLINE and answers what is outstanding on it with errors (R273): held writes are dropped, a fabric request
that waits for one ends DEGRADED, remote fills and spoil cache fills bring nothing. -/
def Dev.channelDown (d : Dev) (s : Side) (ch : Nat) : Dev :=
  let gone := (d.half s).att.held.filter fun w => w.uses ch
  let answer (h : Half) : Half := { h with stw := { h.stw with pend := h.stw.pend.map fun p =>
    if (gone.any fun w => p.heldBy s w) then { p with ready := some (stDegraded, []) } else p } }
  let d := (d.mod .w answer).mod .e answer
  let id := ((d.half s).qry.fileOf 2).getD 0
  let bad (m : Nat × Upd) : Bool := decide ((Config.place s.code id + m.1) % 4 = ch)
  let lost := ((d.half s).qry.misses.filter bad).length
  let d := d.mod s.other fun h => { h with att := { h.att with fills := h.att.fills.filter fun f => decide (f.line % 4 ≠ ch) } }
  let d := d.mod s fun h => { h with
    cel := { h.cel with chans := h.cel.chans.set ch 0 }
    att := { h.att with held := h.att.held.filter fun w => !w.uses ch }
    qry := { h.qry with misses := h.qry.misses.filter fun m => !bad m } }
  (d.lose s lost).condOn s blkCel 1

/-- One same-bank refresh of a channel: a bank of every bank group closes, the next bank each time (R268). -/
def CelSt.refreshOne (c : CelSt) (ch : Nat) : CelSt :=
  let n := tget 0 c.refreshes ch
  { c with refreshes := tset 0 c.refreshes ch (n + 1)
           rows := c.rows.filter fun r => !(decide (r.1 / 128 = ch) && decide (r.1 % 4 = n % 4)) }

/-- REFRESH: the JESD79-5 interval of a channel ends with a same-bank refresh, and with two while a sensor of the channel is
hot; no delay register changes (R268). -/
def refresh (s : Side) (ch : Nat) (d : Dev) : Dev :=
  if (d.half s).cel.selfRef then d else
  d.mod s fun h => h.modCel fun c =>
    if c.hot.getLsbD (2 * ch) || c.hot.getLsbD (2 * ch + 1) then (c.refreshOne ch).refreshOne ch else c.refreshOne ch

/-- DIMM_TEMP_READ: a temperature sensor of a channel's DIMM is read (R268). -/
def dimmTempRead (s : Side) (ch sensor : Nat) (celsius : Int) (d : Dev) : Dev :=
  let i := 2 * ch + sensor
  d.mod s fun h => h.modCel fun c => { c with hot := if 85 ≤ celsius then bitSet c.hot i else bitClear c.hot i }

/-- ZQ_CALIBRATION of a channel (R268). -/
def zqCalibration (s : Side) (ch : Nat) (d : Dev) : Dev :=
  if (d.half s).cel.selfRef then d else d.mod s fun h => h.modCel fun c => { c with zq := tset 0 c.zq ch (tget 0 c.zq ch + 1) }

/-! ## Errors, patrols and repair -/

/-- Half's capacity in GiB (R264). -/
def CelSt.gib (c : CelSt) : Nat := 4 * c.chGib

/-- Lines of the half's Cellar. -/
def CelSt.lines (c : CelSt) : Nat := c.gib * 2 ^ 24

/-- A corrected read of a Cellar line: the bucket, and the line is suspect (R294, R298). -/
def Dev.celCorr (d : Dev) (s : Side) (line : Nat) : Dev :=
  (d.mod s fun h => h.modCel fun c => { c with suspect := if c.suspect.contains line then c.suspect else c.suspect ++ [line] }).correction s blkCel 4

/-- An uncorrectable read of a Cellar line: CEL_UE_ADDR, CEL_UNCORR, and the line is suspect; it stays uncorrectable until it
is written whole (R294, R299). -/
def Dev.celUncorr (d : Dev) (s : Side) (line : Nat) : Dev :=
  ((d.mod s fun h => h.modCel fun c => { c with
      suspect := if c.suspect.contains line then c.suspect else c.suspect ++ [line]
      bad := if c.bad.contains line then c.bad else c.bad ++ [line] }).setRg
    s.code .celUeAddr 0 (BitVec.ofNat 32 (line % 2 ^ 30))).raise s blkCel 5

/-- A write of CEL_SCRUB_CFG with GO: the window is scrubbed once, in host-assisted mode only (R299). -/
def Dev.scrubGo (d : Dev) (s : Side) : Nat × Dev :=
  let h := d.half s
  if !h.assisted 6 then (stWrong, d) else
  let w := d.rg s.code .celScrubWin
  let lo := fld w 15 0 * 16384
  let hi := min h.cel.lines (lo + fld w 31 16 * 16384)
  (stOk, d.mod s fun h => h.modCel fun c => { c with window := if lo < hi then some (lo, hi) else none })

/-- PATROL_READ: the Cellar patrol reads its next line; in host-assisted mode the next line of the window (R299). -/
def patrolRead (s : Side) (line : Nat) (e : Ecc) (d : Dev) : Dev :=
  let h := d.half s
  let c := h.cel
  if c.state ≠ 3 || c.selfRef then d else
  let seen (d : Dev) : Dev :=
    let d := d.mod s fun h => h.celTouch line 1
    match if c.poison line then .uncorr else e with
    | .clean => d
    | .corr => d.celCorr s line
    | .uncorr => d.celUncorr s line
  if h.assisted 6 then
    match c.window with
    | none => d
    | some (lo, hi) =>
      if line ≠ lo then d else
      seen (d.mod s fun h => h.modCel fun c => { c with window := if lo + 1 < hi then some (lo + 1, hi) else none })
  else if d.rf s.code .celScrubCfg 0 8 8 = 0 ∨ line ≠ c.patrol then d
  else if c.lines ≤ line + 1 then
    seen ((d.mod s fun h => h.modCel fun c => { c with patrol := 0 }).bump s.code .celScrubStatus 0 31 16)
  else seen (d.mod s fun h => h.modCel fun c => { c with patrol := line + 1 })

/-- Percent of the pass (CEL_SCRUB_STATUS.PROGRESS). -/
def CelSt.progress (c : CelSt) : Nat := if c.lines = 0 then 0 else 100 * c.patrol / c.lines

def atticLines : Nat := 0xB00000 / 64

/-- SHELF_PATROL: a shelf RAM word is read while the half is not ARMED, RUNNING or DRAINING (R299). An uncorrectable word
is left; its next lookup is PIPE_FAULT (R294). -/
def shelfPatrol (s : Side) (e : Ecc) (d : Dev) : Dev :=
  if (d.half s).face.active then d else
  match e with
  | .corr => d.correction s blkShelf 3
  | _ => d

/-- LINE_READBACK: a suspect line is read back once after a write; a line still faulty is remapped, and the new entry
journaled, or finds no free entry (R298). -/
def lineReadback (s : Side) (m : RemapMem) (line : Nat) (e : Faults) (d : Dev) : Dev :=
  match m with
  | .cellar ch =>
    let faulty := decide (cellarClass e ≠ .clean)
    let uncorr := decide (cellarClass e = .uncorr)
    let c := (d.half s).cel
    if !c.suspect.contains line || decide (line % 4 ≠ ch.val) then d else
    let d := d.mod s fun h => (h.celTouch line 1).modCel fun c => { c with suspect := c.suspect.filter fun x => decide (x ≠ line) }
    if !faulty then d
    else if (c.remap.filter fun r => decide (r.1 = ch.val)).length < 16 then
      (d.mod s fun h => h.modCel fun c => { c with remap := c.remap ++ [(ch.val, line, uncorr)] }).journalRemap
        (16 * s.code + ch.val)
    else d.raise s blkCel 6
  | .attic bank =>
    let faulty := decide (atticClass e ≠ .clean)
    let uncorr := decide (atticClass e = .uncorr)
    let a := (d.half s).att
    if !a.suspect.contains line || decide (line % 16 ≠ bank.val) then d else
    let d := d.mod s fun h => { h with att := { h.att with suspect := h.att.suspect.filter fun x => decide (x ≠ line) } }
    if !faulty then d
    else if (a.spare.filter fun r => decide (r.1 = bank.val)).length < 8 then
      (d.mod s fun h => { h with att := { h.att with spare := h.att.spare ++ [(bank.val, line, uncorr)] } }).journalRemap
        (16 * s.code + 8)
    else d.raise s blkAtt 4

/-! ## The configuration scrubber -/

/-- FAB_SCRUB_STATUS.STATE. -/
def Dev.scrubState (d : Dev) (s : Side) : Nat :=
  let h := d.half s
  if h.fab.quarantined then 2 else if h.assisted 5 then 3 else if d.configured && decide (h.reset = 0) then 1 else 0

/-- The scrubber is quarantined, and the device itself switches the function to host-assisted mode (R301). -/
def Dev.quarantineScrub (d : Dev) (s : Side) : Dev :=
  if (d.half s).fab.quarantined then d else
  let d := d.mod s fun h => { h with fab := { h.fab with quarantined := true }, modes := bitSet h.modes 5 }
  (d.raise s blkFab 7).event 0xA (evSrc s blkFab) (5 * 256 + (1 + s.code) * 16 + 1)

/-- Frame data in an image's command stream: FDATA at the frame address, cleared cells where the image names none, and nothing
where the stream or the frame's own codes fail (R260, R300). -/
def findFrame (key a : Nat) : Nat → Load → Option (List Nat)
  | 0, _ => none
  | n + 1, l =>
    match l.next key with
    | some (.fdata frame, k) =>
      if l.far = some a then
        let r := decodeFrame a frame
        if r.2.2 then none else some r.1
      else findFrame key a n { l with taken := l.taken + k }
    | some (.far x, k) => findFrame key a n { l with taken := l.taken + k, far := some x }
    | some (.ending, _) => some []
    | some (.bad, _) => none
    | some (_, k) => findFrame key a n { l with taken := l.taken + k }
    | none => none

/-- The staged copy of the image in force as the loader read it: the slot, or the ciphertext kept in the Cellar (R260). -/
def Dev.stagedLoad (d : Dev) : Load :=
  let c := d.cfg
  let image := if c.source = 3 then c.staged
    else d.slotBytes (c.source - 1) (min (parseHeader (d.slotBytes (c.source - 1) 256)).length 0x8000000)
  { source := c.source, length := image.length, image := image, service := c.service, hdr := parseHeader (image.take 256)
    passed := true, taken := if c.service then 20 else 256 }

/-- Longest command stream: every frame with its address, every configuration register, GCLR, START and END (R247, R249). -/
def maxCommands : Nat := 2 * 3264 + 488 + 4

/-- What the staged copy holds for a logic frame. -/
def Dev.stagedFrame (d : Dev) (a : Nat) : Option (List Nat) :=
  let l := d.stagedLoad
  findFrame (d.imageKey l).bodyKey a maxCommands l

/-- What upsets leave of a codeword's data once it is decoded: the bits still wrong, as the codes are linear, and the report. -/
def leftover (f : Faults) : Decoded := rsDecode 3 (upset (List.replicate 35 0) f)

/-- Wrong bits of a logic frame's data after every codeword is decoded (R300). -/
def frameError (hits : List (Nat × Faults)) : List Nat :=
  (List.range 2176).flatMap fun k =>
    match hits.find? fun h => decide (h.1 = k) with
    | some h => (leftover h.2).data
    | none => List.replicate 32 0

/-- The CRC-32 after correction fails: its own bytes were hit, or wrong bits are left that it sees. -/
def frameCrcBad (hits : List (Nat × Faults)) : Bool :=
  (hits.any fun h => decide (h.1 = 2176) && !h.2.isEmpty)
    || (hits.any fun h => decide (h.1 < 2176) && (leftover h.2).data.any fun b => decide (b ≠ 0))
        && decide ((frameError hits).foldl crcByte 0 ≠ 0)

/-- A logic frame's cells take data; a frame that no image names goes to its cleared cells. -/
def Dev.setFrame (d : Dev) (a : Nat) (data : List Nat) : Dev :=
  if data = [] then
    let k := 240 * (a / 2 ^ 30) + a / 2 ^ 21 % 256
    { d with array := { d.array with cells := tset [] d.array.cells k [], logic := tset [] d.array.logic k [] } }
  else d.writeFrame a data

/-- One logic frame under the scrubber: corrected codewords are written back, and a frame with an uncorrectable codeword or a
CRC failure is rewritten from the staged copy, or lost with its cells as upsets left them. The outcome: 0 clean, 1 corrected,
2 rewritten, 3 lost (R300, R302, R308). -/
def Dev.scrubFrame (d : Dev) (s : Side) (u : FrameUpset) : Nat × Dev :=
  let hits := u.hits.filter fun h => !h.2.isEmpty
  if hits.isEmpty then (0, d)
  else if (hits.any fun h => decide (h.1 < 2176) && decide ((leftover h.2).report = .uncorr)) || frameCrcBad hits then
    match if u.copyBad then none else d.stagedFrame u.addr with
    | some data => (2, (d.setFrame u.addr data).correction s blkFab 6)
    | none =>
      let old := tget [] d.array.cells (240 * (u.addr / 2 ^ 30) + u.addr / 2 ^ 21 % 256)
      (3, (d.setFrame u.addr (old.zipWith (· ^^^ ·) (frameError hits))).raise s blkFab 8)
  else (1, d.correction s blkFab 6)

/-- A logic frame of the half's two F-dies. -/
def ownFrame (s : Side) (a : Nat) : Bool := farOk a && !a.testBit 29 && decide (dieSide (a / 2 ^ 30) = s)

/-- SCRUB_PASS: canary, frames, rewrite and count (R300). The canary passes when the scrubber reports exactly the symbol that it
corrupted, at codeword and position given by the pass count; a failing canary quarantines the scrubber (R301). -/
def scrubPass (s : Side) (canary : List (Nat × Nat)) (frames : List FrameUpset) (d : Dev) : Dev :=
  if d.scrubState s ≠ 1 then d else
  let p := (d.half s).fab.passes
  if canary ≠ [(p % 2176, p % 35)] then (d.setRf s.code .fabScrubStatus 0 2 2 0).quarantineScrub s
  else
    let d := d.setRf s.code .fabScrubStatus 0 2 2 1
    let d := (frames.filter fun u => ownFrame s u.addr).foldl (fun d u => (d.scrubFrame s u).2) d
    (d.mod s fun h => { h with fab := { h.fab with passes := p + 1 } }).bump s.code .fabScrubStatus 0 31 16

/-- A write of FAB_SCRUB_CMD: one logic frame of the half's F-dies, in host-assisted mode (R302). -/
def Dev.scrubCmdWrite (d : Dev) (s : Side) (v : Word) : Nat × Dev :=
  let h := d.half s
  let a := v.toNat
  if h.fab.scrubBusy then (stWrong, d)
  else if !d.configured then (stBadArg, d)
  else if !ownFrame s a then (stBadArg, d)
  else if !h.assisted 5 then (stWrong, d)
  else (stOk, d.mod s fun h => { h with fab := { h.fab with scrubBusy := true, cmdFrame := a } })

/-- SCRUB_CMD_COMPLETE: the commanded frame is checked, and its outcome reported; a partial reset pauses the scrubber (R302). -/
def scrubCmdComplete (s : Side) (u : FrameUpset) (d : Dev) : Dev :=
  if !(d.half s).fab.scrubBusy || (d.half s).reset ≠ 0 then d else
  let d := d.mod s fun h => { h with fab := { h.fab with scrubBusy := false } }
  let (o, d) := d.scrubFrame s { u with addr := (d.half s).fab.cmdFrame }
  d.setRf s.code .fabScrubResult 0 1 0 o

/-- A write of FAB_NOC_PORT_EN: rejected before START (R237, R240). -/
def Dev.portEnWrite (d : Dev) (die : Nat) (v : Word) : Nat × Dev :=
  if !d.configured then (stWrong, d) else (stOk, d.setRg (2 + die) .fabNocPortEn 0 v)

end Sys2Proof.Machine
end

