-- ==== Sys2Proof/Machine/StwLink.lean ====
section
/-! DEFINITION. The sending side of the Stairwell (R394, R395): flit frames, credits and replay. What a flit carries takes
its effect in the command that sends it. -/
namespace Sys2Proof.Machine

/-- Virtual networks (R394). -/
def vnReq : Nat := 0
def vnRsp : Nat := 1
def vnSnp : Nat := 2
def vnMgt : Nat := 3

def Half.modStw (h : Half) (f : StwSt → StwSt) : Half := { h with stw := f h.stw }

/-- Bytes of a flit header and its payload as ten words (R394, R406). -/
def flitOf (l : List Byte) : Flit := (List.range 10).map fun k => ofLe (((l.drop (8 * k)).take 8).map fun x => x.toNat)

/-- Header and trailer of a frame but for the CRC (R394). -/
def stwHeader (epoch width vn flit seq : Nat) : Nat :=
  epoch % 256 + width % 4 * 2 ^ 8 + vn % 4 * 2 ^ 10 + flit % 2 * 2 ^ 12 + seq % 256 * 2 ^ 16

def stwTrailer (ack : Nat) (nak : Bool) (cvn credits : Nat) : Nat :=
  ack % 256 + b1 nak * 2 ^ 8 + cvn % 4 * 2 ^ 9 + credits % 64 * 2 ^ 11

/-- A frame leaves an end on its active lanes: EPOCH, WIDTH, VN, FLIT, SEQ, ACK_SEQ, CVN and CREDITS. The words of a flit
that an idle frame carries are free (R393, R394). -/
def Dev.stwOut (d : Dev) (s : Side) (nak : Bool) (vn : Nat) (flit : Option Flit) (seq cvn credits : Nat) : Dev :=
  let x := (d.half s).stw
  let ack := (x.rx + 255) % 256
  let words := stwWords (stwHeader x.epoch x.width vn (b1 flit.isSome) seq) ((flit.getD (Config.flit d.free)).take 10)
    (stwTrailer ack nak cvn credits)
  let wire := stwWire (lanesOf (d.rf s.code .stwLanes 0 31 16)) (fun l => Config.scrambler d.free (64 + l)) words
  (d.emit (.stw s nak [x.epoch, x.width, vn, b1 flit.isSome, seq, ack, cvn, credits] wire)).draw

/-- A flit frame of a virtual network can leave: the end is UP, a credit and a replay place are free (R395). -/
def StwSt.canSend (x : StwSt) (vn : Nat) : Bool :=
  x.state = 2 && decide (0 < x.credits.getD vn 0) && decide (x.replay.length < 128)

/-- A flit frame leaves with the next SEQ. -/
def Dev.stwFlit (d : Dev) (s : Side) (vn : Nat) (flit : Flit) : Dev :=
  let n := (d.half s).stw.tx
  let d := d.stwOut s false vn (some flit) n 0 0
  d.mod s fun h => h.modStw fun x =>
    { x with tx := (n + 1) % 256, credits := x.credits.set vn (x.credits.getD vn 0 - 1), replay := x.replay ++ [(n, vn, flit)] }

/-- A flit for the other half: it is sent, or waits; an end that is DOWN sends nothing (R400). -/
def Dev.stwSendFlit (d : Dev) (s : Side) (vn : Nat) (flit : Flit) : Dev :=
  let x := (d.half s).stw
  if x.state = 4 then d
  else if x.canSend vn && !x.wait.any (fun w => decide (w.1 = vn)) then d.stwFlit s vn flit
  else d.mod s fun h => h.modStw fun x => { x with wait := x.wait ++ [(vn, flit)] }

/-- A flit whose codes are internal (R406). -/
def Dev.stwSend (d : Dev) (s : Side) (vn : Nat) : Dev := d.draw.stwSendFlit s vn (Config.flit d.free)

/-- Waiting flits leave while they can, in order within their virtual network (R404). -/
def Dev.stwFlush (d : Dev) (s : Side) : Dev :=
  let w := (d.half s).stw.wait
  w.foldl (fun d x => d.stwSendFlit s x.1 x.2) (d.mod s fun h => h.modStw fun x => { x with wait := [] })

/-- The frames of the replay buffer from a number on are sent again (R395). -/
def Dev.stwReplay (d : Dev) (s : Side) : Dev :=
  (d.half s).stw.replay.foldl (fun d f => d.stwOut s false f.2.1 (some f.2.2) f.1 0 0) d

end Sys2Proof.Machine
end

