-- ==== Sys2Proof/Machine/Store.lean ====
section
/-! DEFINITION. Files as encrypted regions (R326 to R338): sector writes, re-keying, line checks, the late alarm and the
remote-data cache (R285 to R289). -/
namespace Sys2Proof.Machine


/-! ## Where files lie, and which are locked -/

/-- Line of the half's Cellar that holds a line of a file; where a file lies is free (log entry 2). -/
def cellarLine (s : Side) (id line : Nat) : Nat := (Config.place s.code id + line) % 2 ^ 30

/-- Line of a file that a line of the half's Cellar would hold. -/
def FileRec.lineIn (f : FileRec) (s : Side) (line : Nat) : Nat := (line + 2 ^ 30 - Config.place s.code f.id % 2 ^ 30) % 2 ^ 30

/-- A line of the Cellar lies in this file. -/
def FileRec.holds (f : FileRec) (s : Side) (line : Nat) : Bool := decide (f.lineIn s line < (f.length + 63) / 64)

/-- The file that holds a line of the half's Cellar. -/
def Half.fileAt (h : Half) (s : Side) (line : Nat) : Option FileRec := h.files.find? fun f => f.holds s line

/-- The loaded plan names a file: the plan file or one of its file table (R89). -/
def Half.planNames (h : Half) (id : Nat) : Bool :=
  match h.face.plan with
  | none => false
  | some p => p.fileId = id || (List.range (PlanImg.files h.planRd)).any fun k => decide (PlanImg.fileId h.planRd k = id)

/-- A file is locked: a loaded plan names it, or it is a spoil file of a burst being captured or flushed (R89, R181). -/
def Half.fileLocked (h : Half) (f : FileRec) : Bool := h.planNames f.id || f.live

/-! ## Failing lines -/

/-- The region becomes stale (R332). -/
def Dev.markStale (d : Dev) (s : Side) (id : Nat) : Dev :=
  match (d.half s).file id with
  | none => d
  | some f =>
    if f.stale then d
    else (d.mod s fun h => h.modFile id fun f => { f with stale := true }).raise s blkXts 2

/-- XTS_ALARM.KIND. -/
def alarmKind : LineOutcome → Nat
  | .pass => 0
  | .tag => 1
  | .metadata => 2
  | .node => 3
  | .uncorrectable => 4

/-- A failing line is counted, and recorded unless a failure is. -/
def Dev.recordFail (d : Dev) (s : Side) (id lbn kind : Nat) : Dev :=
  let d := d.bump s.code .xtsFailCnt
  if d.rf s.code .xtsAlarm 0 0 0 = 1 then d else
  ((d.setRg s.code .xtsAlarm 0 (pack [(0, 1), (1, kind)])).setRg s.code .xtsAlarmFile 0 (BitVec.ofNat 32 id)).setRg
    s.code .xtsAlarmLbn 0 (BitVec.ofNat 32 lbn)

/-- A burst runs, drains or flushes (R182). -/
def FaceSt.inBurst (f : FaceSt) : Bool := f.bursting || f.burst.unwritten

/-- The late alarm (R334): INTEGRITY_ALARM, and the burst ends with cause INTEGRITY, or is quarantined while it flushes
(R182). -/
def Dev.lateAlarm (d : Dev) (s : Side) : Dev :=
  if !(d.half s).face.inBurst then d else
  ((d.mod s fun h => { h with xts := { h.xts with alarm := true } }).raise s blkXts 0).abort s 5

/-- A line fails its checks (R329, R332): in a running burst on the chute path the late alarm, elsewhere LINE_FAIL; the
region becomes stale. -/
def Dev.lineFails (d : Dev) (s : Side) (id sector line : Nat) (r : LineOutcome) (chute : Bool) : Dev :=
  let d := d.recordFail s id sector (alarmKind r)
  let d := if r = .uncorrectable then d.celUncorr s (cellarLine s id (64 * sector + line)) else d
  let d := if chute && (d.half s).face.inBurst then d.lateAlarm s else d.raise s blkXts 1
  d.markStale s id

/-- Lines whose checks are outstanding (R333). -/
def XtsSt.depth (x : XtsSt) : Nat := x.checks.foldl (fun a r => a + r.2.2) 0

/-- A run of outstanding checks covers a line. -/
def inRun (file line : Nat) (r : Nat × Nat × Nat) : Bool :=
  decide (r.1 = file) && decide (r.2.1 ≤ line) && decide (line < r.2.1 + r.2.2)

/-- The first run that covers a line loses it: what stands before and after it stays outstanding. -/
def dropCheck (file line : Nat) : List (Nat × Nat × Nat) → List (Nat × Nat × Nat)
  | [] => []
  | r :: t =>
    if inRun file line r then
      ([(file, r.2.1, line - r.2.1), (file, line + 1, r.2.1 + r.2.2 - line - 1)].filter fun x => decide (x.2.2 ≠ 0)) ++ t
    else r :: dropCheck file line t

/-- LINE_CHECK_COMPLETE: the verify pipeline finishes an outstanding line of the chute path (R333, R334). -/
def lineCheckComplete (s : Side) (file sector line : Nat) (r : LineOutcome) (d : Dev) : Dev :=
  if !((d.half s).xts.checks.any (inRun file (64 * sector + line))) then d else
  let d := d.mod s fun h => { h with xts := { h.xts with checks := dropCheck file (64 * sector + line) h.xts.checks } }
  if r = .pass then d else d.lineFails s file sector line r true

/-- A region's root comes from its last record in the Larder: a tree that does not verify under it makes the region stale
(R332). A region without a record verifies while nothing has been written into it. -/
def Dev.restoreRoot (d : Dev) (s : Side) (id : Nat) : Dev :=
  match (d.half s).file id with
  | none => d
  | some f =>
    let fits : Bool := match d.ldr.find 4 id with
      | some (.root r) => decide (r = f.root)
      | _ => f.wc.isEmpty
    if fits then d else d.markStale s id

/-- What ends a burst runs, and when the burst has ended with its record, firmware journals the root of every spoil file
that it wrote (R331). -/
def journalingRoots (s : Side) (f : Dev → Dev) (d : Dev) : Dev :=
  let live := ((d.half s).files.filter fun f => f.live).map fun f => f.id
  let open_ := (d.half s).face.burst.unwritten
  let d := f d
  if !open_ || (d.half s).face.burst.unwritten then d else
  live.foldl (fun d id => match (d.half s).file id with
    | some f => d.ldrAppend 4 id (.root f.root)
    | none => d) d

/-! ## Writes and re-keying -/

/-- Sectors that n bytes from an offset touch. -/
def sectorsOf (off n : Nat) : List Nat :=
  if n = 0 then [] else (List.range ((off + n - 1) / 4096 - off / 4096 + 1)).map fun k => off / 4096 + k

/-- The write counter at which a sector's region is re-keyed (R336). -/
def rekeyAt : Nat := 0xFFFF0000

/-- The re-key engine starts on a region unless it runs (R336). -/
def Dev.rekeyStart (d : Dev) (s : Side) (id : Nat) : Dev :=
  match (d.half s).file id with
  | none => d
  | some f =>
    if (d.half s).xts.rekey.isSome then d else
    ((d.ldrAppend 3 id (.epoch (f.epoch + 1))).mod s fun h => { h with xts := { h.xts with rekey := some (id, 0) } }).raise s blkXts 3

/-- A sector at its last counter value is re-keyed ahead of its place before a write (R337). -/
def FileRec.takeAhead (f : FileRec) (k : Nat) : FileRec :=
  if tget 0 f.wc k = 2 ^ 32 - 1 then { f.count k 1 with ahead := f.ahead ++ [k] } else f

/-- A lost line of a written sector that a write of n bytes from an offset merges rather than covers (R328, R329). -/
def Half.tornLine (h : Half) (s : Side) (f : FileRec) (off n : Nat) : Option Nat :=
  let lost := h.cel.bad ++ (h.cel.remap.filter fun r => r.2.2).map fun r => r.2.1
  (lost.map fun l => f.lineIn s l).find? fun k =>
    (sectorsOf off n).contains (k / 64) && decide (tget 0 f.wc (k / 64) ≠ 0) && !(decide (off ≤ 64 * k) && decide (64 * k + 64 ≤ off + n))

/-- A write into a region (R328, R336 to R338): status and state. Each touched sector's counter grows by one. A sector merge
that meets a failing line makes the region stale and writes nothing (R329, R332). -/
def Dev.writeRegion (d : Dev) (s : Side) (id off : Nat) (bs : List Byte) : Nat × Dev :=
  match (d.half s).file id with
  | none => (stBadArg, d)
  | some f =>
    let secs := sectorsOf off bs.length
    let hit := secs.any fun k => decide (rekeyAt ≤ tget 0 f.wc k + 1)
    if f.refused then (stDegraded, d) else
    match (d.half s).tornLine s f off bs.length with
    | some k => (stIntegrity, d.lineFails s id (k / 64) (k % 64) .uncorrectable false)
    | none =>
    if hit && decide (f.epoch = 63) then (stDegraded, d.raise s blkXts 5)
    else
      let host := (d.half s).assisted 7
      let d := d.mod s fun h => h.modFile id fun f =>
        let f := if host then f else secs.foldl FileRec.takeAhead f
        { (f.put off bs) with refused := host && hit }
      let d := d.mod s fun h => (h.celTouch (cellarLine s id (64 * (off / 4096))) (64 * secs.length)).modCel fun c =>
        c.cleanse fun l => secs.contains (f.lineIn s l / 64)
      if !hit then (stOk, d)
      else if host then (stOk, d.raise s blkXts 4)
      else (stOk, d.rekeyStart s id)

/-- The next sector of a region, from a pointer up, that the engine has to re-encrypt. -/
def FileRec.nextSector (f : FileRec) (p : Nat) : Option Nat :=
  (f.wc.find? fun kv => decide (p ≤ kv.1) && !f.ahead.contains kv.1).map Prod.fst

/-- The re-key of a region ends: its files and slot stand at the next epoch. A region that waited starts. -/
def Dev.rekeyEnd (d : Dev) (s : Side) (id : Nat) : Dev :=
  match (d.half s).file id with
  | none => d.mod s fun h => { h with xts := { h.xts with rekey := none } }
  | some f =>
    let d := d.mod s fun h => { (h.modFile id fun f => { f with epoch := f.epoch + 1, ahead := [] }) with
      xts := { h.xts with rekey := none } }
    let slot := tget {} d.sec.slots f.slot
    let d := if slot.kind = .file then
        { d with sec := { d.sec with slots := tset {} d.sec.slots f.slot { slot with epoch := f.epoch + 1 } } } else d
    match (d.half s).files.find? fun g => !g.refused && decide (g.epoch < 63) && g.wc.any fun kv => decide (rekeyAt ≤ kv.2) with
    | some g => if (d.half s).assisted 7 then d else d.rekeyStart s g.id
    | none => d

/-- REKEY_SECTOR: the engine re-encrypts the next sector under the new epoch with counter 1 and moves its pointer; after
the last one the re-key ends (R336). -/
def rekeySector (s : Side) (d : Dev) : Dev :=
  match (d.half s).xts.rekey with
  | none => d
  | some (id, p) =>
    match (d.half s).file id with
    | none => d.rekeyEnd s id
    | some f =>
      match f.nextSector p with
      | none => d.rekeyEnd s id
      | some k =>
        let d := d.mod s fun h => { (h.modFile id fun f => f.count k 1) with
          xts := { h.xts with rekey := some (id, k + 1) } }
        if (f.nextSector (k + 1)).isNone then d.rekeyEnd s id else d

/-! ## The remote-data cache (R285 to R289) -/

def Half.modAtt (h : Half) (f : AttSt → AttSt) : Half := { h with att := f h.att }

/-- Lines of a set of the cache. -/
def AttSt.ways (a : AttSt) (line : Nat) : List RLine := tget [] a.cache (line % 1024)

/-- The half's cache holds a line, under any key index. -/
def AttSt.caches (a : AttSt) (line : Nat) : Bool := (a.ways line).any fun w => w.line = line

/-- Remove a line from the half's cache. -/
def AttSt.forget (a : AttSt) (line : Nat) : AttSt :=
  { a with cache := tset [] a.cache (line % 1024) ((a.ways line).filter fun w => decide (w.line ≠ line)) }

/-- The copy of a line under a key index. -/
def AttSt.copy (a : AttSt) (line key : Nat) : Option RLine := (a.ways line).find? fun w => decide (w.line = line) && decide (w.key = key)

/-- A line is served uncached: it belongs to a locked or to a live spoil file of its home (R288). -/
def Dev.uncached (d : Dev) (home : Side) (line : Nat) : Bool :=
  match (d.half home).fileAt home line with
  | some f => (d.half home).fileLocked f
  | none => false

/-- The Stairwell carries frames between the halves: both ends are UP. -/
def Dev.stwCarries (d : Dev) : Bool := d.west.stw.state = 2 && d.east.stw.state = 2

/-- REMOTE_READ: an initiator of half s reads a line of the other half's Cellar (R285). A hit needs the same key index and
moves the line to the front of its set; a miss starts a fill, and the home sets its directory entry unless it serves the
line uncached (R286, R288) or has lost it (R294). -/
def remoteRead (s : Side) (line key : Nat) (d : Dev) : Dev :=
  let a := (d.half s).att
  match a.copy line key with
  | some x =>
    (d.mod s fun h => h.modAtt fun a =>
      { a with cache := tset [] a.cache (line % 1024) (x :: (a.ways line).filter fun w => decide (w ≠ x)) }).bump s.code .attRcHit
  | none =>
    let d := d.bump s.code .attRcMiss
    if d.stwDown || decide ((d.half s.other).cel.state ≠ 3) then d else
    let d := d.stwSend s vnReq
    let lost := (d.half s.other).cel.poison line
    let d := if lost then d.celUncorr s.other line else d
    let u := d.uncached s.other line || lost
    let d := d.mod s fun h => h.modAtt fun a =>
      { a with fills := a.fills ++ [{ line := line, key := key, stale := u, since := d.clk.cycles }] }
    let d := d.mod s.other fun h => h.celTouch line 1
    if u then d else
    d.mod s.other fun h => h.modAtt fun a => { a with dir := if a.dir.contains line then a.dir else a.dir ++ [line] }

/-- REMOTE_FILL: a fill returns to half s. It is delivered, and installed unless an invalidation came meanwhile or the home
served it uncached; the least recently used line of a full set leaves (R285, R287, R288). -/
def remoteFill (s : Side) (line key : Nat) (d : Dev) : Dev :=
  let a := (d.half s).att
  match a.fills.find? fun f => decide (f.line = line) && decide (f.key = key) with
  | none => d
  | some f =>
    let d := (d.stwSend s.other vnRsp).completed s.other 2 f.since
    let rest := a.fills.filter fun g => !(decide (g.line = line) && decide (g.key = key))
    d.mod s fun h => h.modAtt fun a =>
      let a := { a with fills := rest }
      if f.stale then a else
      let kept := ((a.ways line).filter fun w => decide (w.line ≠ line)).take 15
      let way := ((List.range 16).find? fun k => kept.all fun c => decide (c.way ≠ k)).getD 0
      { a with cache := tset [] a.cache (line % 1024) ({ line := line, key := key, way := way } :: kept) }

/-- Cellar lines that a write into a file touches. -/
def touched (home : Side) (id off n : Nat) : List Nat :=
  if n = 0 then [] else (List.range ((off + n - 1) / 64 - off / 64 + 1)).map fun k => cellarLine home id (off / 64 + k)

/-- A held write of a home touches a line of its Cellar. -/
def HeldWrite.touches (w : HeldWrite) (home : Side) (line : Nat) : Bool :=
  (touched home w.file w.offset w.data.length).contains line

/-- A write into a home's file: it is held while a directory entry of one of its lines is set (R286) or a write held before
it touches one of its lines (R269), and performed otherwise. -/
def Dev.homeWrite (d : Dev) (home : Side) (id off : Nat) (bs : List Byte) : Nat × Dev :=
  let a := (d.half home).att
  if (touched home id off bs.length).any fun l => a.dir.contains l || a.held.any fun w => w.touches home l then
    (stOk, d.mod home fun h => h.modAtt fun a =>
      { a with held := a.held ++ [{ line := cellarLine home id (off / 64), file := id, offset := off, data := bs
                                    since := d.clk.cycles }] })
  else d.writeRegion home id off bs

/-- REMOTE_WRITE: half s writes into a file of the other half. Its own copies go at once, and the home writes or holds the
write (R285, R286). Across a link that is down the request has no effect there (R400). -/
def remoteWrite (s : Side) (file offset : Nat) (bs : List Byte) (d : Dev) : Dev :=
  let home := s.other
  let lines := touched home file offset bs.length
  let d := d.mod s fun h => h.modAtt fun a => lines.foldl AttSt.forget a
  if d.stwDown then d else
  let d := d.stwSend s vnReq
  match (d.half home).file file with
  | none => d
  | some f => if (d.half home).fileLocked f then d else (d.homeWrite home file offset bs).2

/-- The home's held writes go on, oldest first: one whose lines have no directory entry left and that waits for no earlier
write is performed (R269, R286). `kept` holds the earlier ones that stay. -/
def Dev.freeFrom (d : Dev) (home : Side) : List HeldWrite → List HeldWrite → Dev
  | [], kept => d.mod home fun h => h.modAtt fun a => { a with held := kept }
  | w :: t, kept =>
    if (touched home w.file w.offset w.data.length).any fun l =>
        (d.half home).att.dir.contains l || kept.any fun k => k.touches home l
    then d.freeFrom home t (kept ++ [w])
    else Dev.freeFrom ((d.writeRegion home w.file w.offset w.data).2.completed home 2 w.since) home t kept

def Dev.freeWrites (d : Dev) (home : Side) : Dev := d.freeFrom home (d.half home).att.held []

/-- SNOOP_INVALIDATE: home s sends an invalidation for a line that a held write needs. The other half drops the line, and a
fill of it on its way will not be installed (R286, R287). -/
def snoopInvalidate (s : Side) (line : Nat) (d : Dev) : Dev :=
  let a := (d.half s).att
  if !a.dir.contains line || !(a.held.any fun w => (touched s w.file w.offset w.data.length).contains line) then d else
  let d := d.stwSend s vnSnp
  (d.mod s.other fun h => h.modAtt fun a =>
    { (a.forget line) with fills := a.fills.map fun f => if f.line = line then { f with stale := true } else f }).bump
    s.other.code .attRcInv

/-- INVALIDATE_ACK: the other half, which no longer holds the line, has acknowledged; home s clears the entry and performs
the writes it held for it (R286). -/
def invalidateAck (s : Side) (line : Nat) (d : Dev) : Dev :=
  if !(d.half s).att.dir.contains line || (d.half s.other).att.caches line then d else
  ((d.stwSend s.other vnSnp).mod s fun h => h.modAtt fun a =>
    { a with dir := a.dir.filter fun l => decide (l ≠ line) }).freeWrites s

/-- EVICTION_REPORT: the other half reports that it evicted a line of home s (R286). -/
def evictionReport (s : Side) (line : Nat) (d : Dev) : Dev :=
  if (d.half s.other).att.caches line then d else
  ((d.stwSend s.other vnReq).mod s fun h => h.modAtt fun a =>
    { a with dir := a.dir.filter fun l => decide (l ≠ line) }).freeWrites s

/-- Remote caching is dropped in both halves (R289). -/
def Dev.dropRemote (d : Dev) : Dev :=
  let drop (d : Dev) (s : Side) : Dev :=
    ((d.mod s fun h => h.modAtt fun a => { a with cache := [], dir := [], fills := a.fills.map fun f => { f with stale := true } }).freeWrites s).raise
      s blkAtt 0
  drop (drop d .w) .e

/-- The home invalidates the other half's copies of the lines of the spoil files it creates in ARM (R288). -/
def Dev.dropSpoilCopies (d : Dev) (s : Side) : Dev :=
  let live := (d.half s).files.filter fun f => f.live
  let gone := (d.half s).att.dir.filter fun l => live.any fun f => f.holds s l
  let d := d.mod s.other fun h => h.modAtt fun a => gone.foldl AttSt.forget a
  (d.mod s fun h => h.modAtt fun a => { a with dir := a.dir.filter fun l => !gone.contains l }).freeWrites s

/-- A line of the remote-data cache is uncorrectable: it is invalidated and read again from its home (R294). Ways of a set lie
side by side in the partition (DESIGN CHOICE, log entry 59). -/
def Dev.cacheUncorr (d : Dev) (s : Side) (set way : Nat) : Dev :=
  match (tget [] (d.half s).att.cache set).find? fun c => decide (c.way = way) with
  | none => d
  | some c => remoteRead s c.line c.key (d.mod s fun h => h.modAtt fun a => a.forget c.line)

/-- What an uncorrectable Attic line costs the unit that holds it (R294). -/
def Dev.atticLost (d : Dev) (s : Side) (line : Nat) : Dev :=
  if spoilBase ≤ line ∧ line < remoteBase then d.dropSpoil s ((line - spoilBase) / 16) ((line - spoilBase) % 16)
  else if remoteBase ≤ line ∧ line < remoteBase + 16384 then d.cacheUncorr s ((line - remoteBase) / 16) ((line - remoteBase) % 16)
  else d

/-- ATTIC_PATROL: the Attic patrol reads its next line (R299). -/
def atticPatrol (s : Side) (line : Nat) (e : Ecc) (d : Dev) : Dev :=
  if d.rf s.code .attScrubCfg 0 16 16 = 0 ∨ line ≠ (d.half s).att.patrol then d else
  let d := d.mod s fun h => { h with att := { h.att with patrol := if atticLines ≤ line + 1 then 0 else line + 1 } }
  match e with
  | .clean => d
  | .corr => d.attCorr s line
  | .uncorr => (d.attUncorr s line).atticLost s line

/-! ## ATT_STAGE and QRY_RESERVE -/

/-- Staging size in bytes. -/
def Dev.stageSize (d : Dev) (s : Side) : Nat := d.rf s.code .attStage 0 4 0 * 2 ^ 18

/-- A write of ATT_STAGE: only while the half is IDLE; the lines that change partition are zeroed (R284). A value outside
16 to 26 leaves the field unchanged. -/
def Dev.stageWrite (d : Dev) (s : Side) (v : Word) : Nat × Dev :=
  let f := (d.half s).face
  let n := fld v 4 0
  if f.state ≠ .idle || f.arming then (stWrong, d)
  else if n < 16 ∨ 26 < n then (stOk, d)
  else
    let old := d.stageSize s
    let lo := min old (n * 2 ^ 18)
    let hi := max old (n * 2 ^ 18)
    let d := d.mod s fun h => { h with attic := tdropRange h.attic lo hi, tags := tdropRange h.tags (lo / 64) (hi / 64) }
    (stOk, d.setRf s.code .attStage 0 4 0 n)

/-- Bytes of the half's Cellar that files of FILE_OPEN take, with the nodes of their counter trees (R330). -/
def Half.userBytes (h : Half) : Nat := h.files.foldl (fun a f => if f.spoil = 0 then a + f.length + f.nodeBytes else a) 0

/-- The area of the west Cellar that the loader keeps for the staged copy of a Hoist load: 128 MiB (R260). -/
def stagedArea (s : Side) : Nat := if s = .w then 0x8000000 else 0

/-- Free bytes of the half's Cellar apart from the spoil reserve and the loader's area (R181, R260, R359). -/
def Dev.cellarFree (d : Dev) (s : Side) : Nat :=
  (d.half s).cel.gib * 2 ^ 30 - stagedArea s - (d.half s).userBytes - d.rf s.code .qryReserve 0 15 0 * 2 ^ 20

/-- A write of QRY_RESERVE (R181). -/
def Dev.reserveWrite (d : Dev) (s : Side) (v : Word) : Nat × Dev :=
  let n := fld v 15 0
  let old := d.rf s.code .qryReserve 0 15 0
  if n * 2 ^ 20 < (d.half s).spoilUsed then (stBadArg, d)
  else if old < n ∧ d.cellarFree s < (n - old) * 2 ^ 20 then (stBadArg, d)
  else (stOk, d.setRf s.code .qryReserve 0 15 0 n)

end Sys2Proof.Machine
end

