-- ==== Sys2Proof/Machine/Vault.lean ====
section
/-! DEFINITION. Trust (R309 to R325): the identity, the vault's key slots, files under FILE slots, and the life cycle. A
command's body finishes its own response. -/
namespace Sys2Proof.Machine

/-- A meaning of a Hoist command after the front end has accepted it. -/
abbrev Body := Life → Reply → Dev → Dev

/-! ## Identity -/

/-- Fuse code of a life-cycle state: a thermometer code of four fuses that are only ever blown (R309). -/
def Life.fuseCode (l : Life) : BitVec 4 := BitVec.ofNat 4 (2 ^ l.code - 1)

/-- SHA-384 of the identity public key in SEC1 form, 0 when there is none (R316). -/
def Dev.idKeyHash (d : Dev) : Nat :=
  match d.sec.idKey with
  | none => 0
  | some k => Config.sha384 (beBytes 97 (Config.pubKey k))

/-- A signature by the identity key over a byte string, r then s (R316, R345); zeros where there is no key. -/
def Dev.signed (d : Dev) (l : List Byte) : List Byte :=
  match d.sec.idKey with
  | none => List.replicate 96 0
  | some k => beBytes 96 (Config.sign k (l.map fun (b : Byte) => b.toNat))

/-- A 96-byte signature by a public key over a byte string verifies. -/
def verifies (key : Nat) (msg sig : List Byte) : Bool :=
  decide (sig.length = 96) && Config.ecdsa key (msg.map fun (b : Byte) => b.toNat) (sig.map fun (b : Byte) => b.toNat)

/-- A certificate is signed by a public key (R313, R315). -/
def certSigned (key : Nat) (der : List Byte) : Bool := Config.ecdsa key (Config.certBody der) (Config.certSignature der)

/-- SHA-384 of the running firmware image (R314), 0 before firmware has started. -/
def Dev.fwHash (d : Dev) : Nat := if d.west.tsk.started then d.west.tsk.hash else 0

/-- FACE_PLAN_HASH of a half. -/
def Dev.planHash (d : Dev) (s : Side) : Nat :=
  match (d.half s).face.plan with
  | some p => p.hash
  | none => 0

/-- The attestation statement without its signature (R316). -/
def Dev.statement (d : Dev) (f : Fuse) (nonce : BitVec 256) : List Byte :=
  beBytes 4 1 ++ beBytes 1 f.life.code ++ beBytes 1 d.state
    ++ beBytes 2 (b1 (d.calValid .w) + 2 * b1 (d.calValid .e) + 4 * b1 (d.west.assisted 1) + 8 * b1 (d.east.assisted 1))
    ++ beBytes 4 (d.rg 0 .identPart).toNat ++ beBytes 4 f.dieset ++ beBytes 8 d.aon.count.toNat ++ beBytes 8 0
    ++ beBytes 32 nonce.toNat ++ beBytes 48 d.idKeyHash ++ beBytes 48 d.fwHash ++ beBytes 48 d.cfg.hash.toNat
    ++ beBytes 48 (d.planHash .w) ++ beBytes 48 (if d.stwUp then d.planHash .e else 0) ++ beBytes 16 0

/-- ATTEST (R316); BUSY while the firmware hash is being recomputed (R424). -/
def attestBody (f : Fuse) (nonce : BitVec 256) : Body := fun life r d =>
  if d.west.tsk.hashing then d.refuse life r stBusy else
  let st := d.statement f nonce
  d.finish life r stOk (st ++ d.signed st)

/-- HELLO (R355, R356): a part of the certificate that does not fit in a sessionless response is BAD_ARG. -/
def helloBody (f : Fuse) (certOffset certMax : Nat) : Body := fun life r d =>
  let der := d.sec.cert.getD []
  let part := (der.drop certOffset).take certMax
  if !d.fits r (20 + part.length) then d.refuse life r stBadArg else
  d.finish life r stOk
    (beBytes 4 (d.rg 0 .identPart).toNat ++ beBytes 4 f.dieset ++ beBytes 1 f.stepping ++ beBytes 1 life.code
      ++ beBytes 1 d.state ++ beBytes 1 1 ++ beBytes 6 f.mac.toNat ++ beBytes 2 der.length ++ part)

/-- A session id that is not 0 and not in use, from a draw (R345). -/
def freshId (used : List Nat) (base : Nat) : Nat → Nat
  | 0 => base % (2 ^ 32 - 1) + 1
  | n + 1 => if used.contains (base % (2 ^ 32 - 1) + 1) then freshId used (base + 1) n else base % (2 ^ 32 - 1) + 1

def Dev.slot (d : Dev) (n : Nat) : KeySlot := tget {} d.sec.slots n

/-- Each certificate of a chain, leaf first, is signed by the next, and the last by the root key (R315). -/
def chainSigned (root : Nat) : List (List Byte) → Bool
  | [] => true
  | [c] => certSigned root c
  | c :: i :: t => certSigned (Config.certKey i) c && chainSigned root (i :: t)

/-- The bytes of a SESSION_OPEN request before its SIGNATURE (R355). -/
def openRequest (maxFrame : Nat) (nonce : BitVec 256) (eph : Nat) (chain : List (List Byte)) : List Byte :=
  beBytes 2 maxFrame ++ beBytes 1 chain.length ++ beBytes 1 0 ++ beBytes 32 nonce.toNat ++ beBytes 97 eph ++ beBytes 3 0
    ++ chain.flatMap fun c => beBytes 2 c.length ++ c

/-- A SESSION_OPEN request's credential is that of the life cycle: in DEPLOYED one to four certificates that end at the root
in slot 0, and a SIGNATURE by the leaf key; elsewhere none (R315, R345). -/
def Dev.credentialOk (d : Dev) (life : Life) (maxFrame : Nat) (nonce : BitVec 256) (eph : Nat) (chain : List (List Byte))
    (sig : List Byte) : Bool :=
  if life = .deployed then
    decide (1 ≤ chain.length) && decide (chain.length ≤ 4) && decide ((d.slot 0).kind = .root)
      && chainSigned (d.slot 0).key chain
      && verifies (Config.certKey (chain.headD [])) (openRequest maxFrame nonce eph chain) sig
  else decide (chain.length = 0)

/-- The text "SLT-QV512 hoist" in ASCII (R345). -/
def infoHoist : List Nat := [0x53, 0x4C, 0x54, 0x2D, 0x51, 0x56, 0x35, 0x31, 0x32, 0x20, 0x68, 0x6F, 0x69, 0x73, 0x74]

/-- The text "SLT-QV512 wrap" in ASCII (R319). -/
def infoWrap : List Nat := [0x53, 0x4C, 0x54, 0x2D, 0x51, 0x56, 0x35, 0x31, 0x32, 0x20, 0x77, 0x72, 0x61, 0x70]

/-- Keys and salts of a session from the two nonces and the shared secret (R345). -/
def sessionKeys (hostNonce devNonce z : Nat) : SessionKeys :=
  let k := hkdf (beNats 32 hostNonce ++ beNats 32 devNonce) (beNats 48 z) infoHoist 72
  { keyIn := ofBe (k.take 32), keyOut := ofBe ((k.drop 32).take 32), saltIn := ofBe ((k.drop 64).take 4)
    saltOut := ofBe ((k.drop 68).take 4) }

/-- SESSION_OPEN (R345): the credential, at most four sessions, ECDHE with a fresh device key. The response is unsealed and
carries the session id in its header. -/
def sessionOpenBody (src maxFrame : Nat) (nonce : BitVec 256) (eph : Nat) (chain : List (List Byte)) (sig : List Byte) : Body :=
  fun life r d =>
  if maxFrame < 1500 ∨ 9000 < maxFrame then d.refuse life r stBadArg
  else if !d.credentialOk life maxFrame nonce eph chain sig then d.refuse life r stDenied
  else if 4 ≤ d.hst.sessions.length then d.refuse life r stBusy
  else
    let id := freshId (d.hst.sessions.map fun x => x.id) (Config.random d.free) d.hst.sessions.length
    let devNonce := Config.random (d.free + 1) % 2 ^ 256
    let own := Config.random (d.free + 2)
    let body := beBytes 32 devNonce ++ beBytes 97 (Config.pubKey own) ++ beBytes 3 0
    let request := openRequest maxFrame nonce eph chain ++ (if chain.isEmpty then [] else sig)
    let pl := body ++ d.signed (request ++ body)
    let x : Session := { id := id, maxFrame := maxFrame, src := src
                         keys := sessionKeys nonce.toNat devNonce (Config.ecdh own eph) }
    let d : Dev := { d with hst := { d.hst with sessions := d.hst.sessions ++ [x] }, free := d.free + 3 }
    d.transmit { session := id, dst := r.src, tag := r.tag, op := r.op, status := stOk, sealed := false, payload := pl }

/-! ## Key slots -/

def Dev.setSlot (d : Dev) (n : Nat) (k : KeySlot) : Dev :=
  { d with sec := { d.sec with slots := tset {} d.sec.slots n k } }

/-- Persistent kinds are journaled (R317, R318). -/
def SlotKind.persistent : SlotKind → Bool
  | .root => true
  | .owner => true
  | .image => true
  | _ => false

/-- Kind code (R317). -/
def SlotKind.code : SlotKind → Nat
  | .empty => 0
  | .root => 1
  | .owner => 2
  | .file => 3
  | .result => 4
  | .image => 5

/-- Install a slot, journaling it when it is persistent (R318). -/
def Dev.installSlot (d : Dev) (n : Nat) (k : KeySlot) : Dev :=
  let d := d.setSlot n k
  if k.kind.persistent then d.ldrAppend 2 n (.slot k) else d

/-- Slots of the files that a loaded plan names, and its RESULT_KEY (R321, R323). -/
def Half.planSlots (h : Half) : List Nat :=
  if h.face.plan.isNone then [] else
  PlanImg.resultKey h.planRd :: (h.files.filter fun f => h.planNames f.id).map fun f => f.slot

/-- A loaded plan names the slot (SEC_SLOT_INFO.IN_PLAN). -/
def Dev.inPlan (d : Dev) (n : Nat) : Bool := d.west.planSlots.contains n || d.east.planSlots.contains n

/-- A slot and, for an OWNER slot, every slot that the owner signed (R323). -/
def Dev.retiredWith (d : Dev) (n : Nat) : List Nat :=
  n :: (if (d.slot n).kind = .owner then
    (d.sec.slots.filter fun kv => decide (kv.1 ≠ n) && decide (kv.2.owner = n) && decide (kv.2.kind ≠ .owner)).map Prod.fst else [])

/-- Zeroise a slot in the vault and in TE, journaling the change of a persistent one. -/
def Dev.zeroSlot (d : Dev) (n : Nat) : Dev :=
  let was := (d.slot n).kind.persistent
  let d := d.setSlot n {}
  if was then d.ldrAppend 2 n (.slot {}) else d

/-- KEY_RETIRE (R323, R324). -/
def keyRetireBody (n : Nat) : Body := fun life r d =>
  if 1023 < n then d.refuse life r stBadArg
  else if n = 0 then d.refuse life r stDenied
  else if (d.slot n).kind = .empty then d.refuse life r stBadArg
  else
    let gone := d.retiredWith n
    if gone.any fun k => d.inPlan k then d.refuse life r stWrong
    else if (gone.any fun k => (d.slot k).inTe) && !d.stwUp then d.refuse life r stDegraded
    else (gone.foldl Dev.zeroSlot d).finish life r stOk []

/-- KEY_INSTALL of a root replacement, signed by the current root over it and SEC_NONCE; it closes every session (R317,
R348, R355). -/
def installRoot (slot key : Nat) (sig : List Byte) : Body := fun life r d =>
  if slot ≠ 0 then d.refuse life r stBadArg
  else if (d.slot 0).kind ≠ .root || !verifies (d.slot 0).key (beBytes 97 key ++ beBytes 32 d.sec.nonce) sig then
    d.refuse life r stDenied
  else ((d.installSlot 0 { d.slot 0 with key := key }).finish life r stOk []).closeAll 6

/-- KEY_INSTALL of an owner's public key (R317, R320). -/
def installOwner (slot key : Nat) : Body := fun life r d =>
  if slot = 0 ∨ 1023 < slot then d.refuse life r stBadArg
  else if (d.slot slot).kind ≠ .empty then d.refuse life r stWrong
  else (d.installSlot slot { kind := .owner, key := key }).finish life r stOk []

/-- Kind that an owner blob installs. -/
def blobKind : Nat → Option SlotKind
  | 3 => some .file
  | 4 => some .result
  | 5 => some .image
  | _ => none

/-- n bytes of a blob at an offset, and the number that they spell: a payload is in network byte order (R355). -/
def blobAt (l : List Byte) (o n : Nat) : List Byte := (l.drop o).take n

def blobNum (l : List Byte) (o n : Nat) : Nat := ofBe ((blobAt l o n).map fun (b : Byte) => b.toNat)

def blobSlot (l : List Byte) : Nat := blobNum l 0x06 2
def blobOwner (l : List Byte) : Nat := blobNum l 0x08 2
def blobLength (l : List Byte) : Nat := blobNum l 0x10 8
def blobHash (l : List Byte) : Nat := blobNum l 0x20 48

/-- The layout of an owner blob holds (R319). -/
def blobOk (l : List Byte) (k : SlotKind) : Bool :=
  let zero (o n : Nat) : Bool := decide (blobNum l o n = 0)
  decide (l.length = 432) && decide (blobNum l 0 4 = 1) && zero 0x05 1 && zero 0x0A 6 && zero 0x18 8 && zero 0xE1 15 && zero 0xFC 4
    && decide (1 ≤ blobSlot l) && decide (blobSlot l ≤ 1023) && decide (blobOwner l ≤ 1023)
    && (if k = .file then decide (blobLength l % 4096 = 0) else decide (blobLength l = 0) && decide (blobHash l = 0))

/-- The slot secret that an owner blob wraps: the checks of R319 in its order, nothing where one fails. -/
def Dev.blobSecret (d : Dev) (l : List Byte) (k : SlotKind) : Option Nat :=
  let nats (o n : Nat) : List Nat := (blobAt l o n).map fun (b : Byte) => b.toNat
  let owner := d.slot (blobOwner l)
  match d.sec.idKey with
  | none => none
  | some id =>
    if owner.kind ≠ .owner || !verifies owner.key (blobAt l 0 0x150) (blobAt l 0x150 96) || decide (blobNum l 0x50 48 ≠ d.idKeyHash) then none
    else
      let key := hkdf (nats 0 0x50) (beNats 48 (Config.ecdh id (blobNum l 0x80 97))) infoWrap 32
      match gcmOpen (ofBe key) (blobNum l 0xF0 12) (nats 0 0x100) (nats 0x100 64) (nats 0x140 16) with
      | none => none
      | some p => if k = .image && decide (ofBe (p.drop 32) ≠ 0) then none else some (ofBe p)

/-- KEY_INSTALL of an owner blob (R319, R320): the layout, the target slot, then the checks in R319's order. -/
def installBlob (l : List Byte) : Body := fun life r d =>
  match blobKind (blobNum l 0x04 1) with
  | none => d.refuse life r stBadArg
  | some k =>
    if !blobOk l k then d.refuse life r stBadArg
    else if (d.slot (blobSlot l)).kind ≠ .empty then d.refuse life r stWrong
    else match d.blobSecret l k with
      | none => d.refuse life r stDenied
      | some secret =>
        (d.installSlot (blobSlot l) { kind := k, owner := blobOwner l, key := secret, length := blobLength l, hash := blobHash l,
                                      pub := if k = .image then (d.slot (blobOwner l)).key else 0 }).finish life r stOk []

/-- KEY_INSTALL of the identity certificate: once, in MANUFACTURE, signed by the Dwesol device root over the identity key
(R313, R318). -/
def installCert (root slot : Nat) (der : List Byte) : Body := fun life r d =>
  if slot ≠ 0 ∨ der.isEmpty ∨ 2048 < der.length then d.refuse life r stBadArg
  else if life ≠ .manufacture || d.sec.cert.isSome || !certSigned root der
      || decide (d.sec.idKey.map Config.pubKey ≠ some (Config.certKey der)) then d.refuse life r stDenied
  else (Dev.ldrAppend { d with sec := { d.sec with cert := some der } } 2 1024 (.cert der)).finish life r stOk []

/-- KEY_INSTALL. -/
def keyInstallBody (f : Fuse) (slot : Nat) : KeyBody → Body
  | .root key sig => installRoot slot key sig
  | .owner key => installOwner slot key
  | .blob l => installBlob l
  | .cert der => installCert f.rootKey slot der

/-! ## Files -/

/-- The half that a file id names (R355). -/
def fileSide (id : Nat) : Side := if id.testBit 31 then .e else .w

/-- Blocks of a RESET_PART in progress that Cellar commands need (R449). -/
def Half.cellarReset (h : Half) : Bool := h.down 6 || h.down 7 || h.down 8

/-- Refusal of a command that needs a half's Cellar (R23, R278, R449). -/
def Dev.cellarRefusal (d : Dev) (s : Side) : Option Nat :=
  if s = .e && !d.stwUp then some stDegraded
  else if (d.half s).cellarReset then some stBusy
  else if (d.half s).cel.state = 0 then some stDegraded
  else if (d.half s).cel.state < 3 then some stBusy
  else none

/-- Schedules that TE holds. -/
def Dev.schedulesInTe (d : Dev) : Nat := (d.sec.slots.filter fun kv => kv.2.inTe).length

/-- The vault sends a slot's schedules to TE under the link key (R324). -/
def Dev.toTe (d : Dev) (n : Nat) : Dev := d.setSlot n { d.slot n with inTe := true }

/-- TE cannot take the schedules of a slot: no link key, or 320 schedules held (R324). -/
def Dev.teRefusal (d : Dev) (n : Nat) : Option Nat :=
  if (d.slot n).inTe then none
  else if !d.sec.linkKey then some stDegraded
  else if 320 ≤ d.schedulesInTe then some stBusy
  else none

/-- FILE_OPEN (R278, R320, R359). -/
def fileOpenBody (half slot length : Nat) : Body := fun life r d =>
  if 1 < half ∨ 1023 < slot then d.refuse life r stBadArg else
  let s : Side := if half = 0 then .w else .e
  match d.cellarRefusal s with
  | some st => d.refuse life r st
  | none =>
    let k := d.slot slot
    if k.kind ≠ .file then d.refuse life r stBadArg
    else if k.used then d.refuse life r stWrong
    else if d.cellarFree s < length then d.refuse life r stBusy
    else match (if s = .e then d.teRefusal slot else none) with
      | some st => d.refuse life r st
      | none =>
        let id := d.newFileId s
        let d := (d.mod s fun h => { h with
          files := h.files ++ [{ id := id, slot := slot, length := length, isOpen := true, epoch := k.epoch }] }).draw
        let d := d.setSlot slot { k with used := true, inTe := k.inTe || decide (s = .e) }
        d.finish life r stOk (beBytes 4 id)

/-- A command on a file: what it names, or its refusal. -/
def Dev.fileOrRefusal (d : Dev) (id : Nat) : Except Nat FileRec :=
  match (d.half (fileSide id)).file id with
  | none => .error stBadArg
  | some f =>
    match d.cellarRefusal (fileSide id) with
    | some st => .error st
    | none => .ok f

/-- The slot of a file has been retired: only FILE_DROP is accepted (R323). -/
def Dev.retired (d : Dev) (f : FileRec) : Bool := (d.slot f.slot).kind = .empty

/-- FILE_WRITE (R89, R337, R338, R359). -/
def fileWriteBody (id offset : Nat) (data : List Byte) : Body := fun life r d =>
  let s := fileSide id
  match d.fileOrRefusal id with
  | .error st => d.refuse life r st
  | .ok f =>
    if !f.isOpen || (d.half s).fileLocked f then d.refuse life r stWrong
    else if d.retired f then d.refuse life r stDenied
    else if offset % 64 ≠ 0 ∨ data.length % 64 ≠ 0 then d.refuse life r stBadArg
    else if offset + data.length ≤ f.received then d.finish life r stOk (beBytes 8 f.received)
    else if offset ≠ f.received ∨ f.length < offset + data.length then d.refuse life r stBadArg
    else
      match d.homeWrite s id offset data with
      | (0, d) =>
        (d.mod s fun h => h.modFile id fun f => { f with received := offset + data.length }).finish life r stOk
          (beBytes 8 (offset + data.length))
      | (st, d) => d.refuse life r st

/-- A file leaves its half; its FILE slot is free for another upload, at the next epoch when the region had reached its
counter limit in host-assisted mode (R320, R338). -/
def Dev.dropFile (d : Dev) (s : Side) (f : FileRec) : Dev :=
  let d := d.mod s fun h => { h with
    files := h.files.filter fun g => decide (g.id ≠ f.id)
    xts := match h.xts.rekey with
      | some (i, _) => if i = f.id then { h.xts with rekey := none } else h.xts
      | none => h.xts
    haul := if h.haul.spoilRx = some f.id then { h.haul with spoilRx := none } else h.haul }
  let k := d.slot f.slot
  if k.kind = .file && decide (f.spoil = 0) then
    d.setSlot f.slot { k with used := false, epoch := if f.refused then f.epoch + 1 else f.epoch } else d

/-- The ciphertext of a file as received: what the program owner encrypted at epoch 0 (R320, R326). -/
def Dev.receivedText (d : Dev) (f : FileRec) : List Byte :=
  (List.range (f.length / 16)).flatMap fun b => (d.cipherBlock f 0 b (memRead f.data (16 * b) 16)).map (BitVec.ofNat 8)

/-- The file received is the one that its slot expects: length, and SHA-384 of the ciphertext (R320). -/
def Dev.contentOk (d : Dev) (f : FileRec) : Bool :=
  decide (f.received = f.length) && decide (f.length = (d.slot f.slot).length)
    && decide (Config.sha384 (d.receivedText f) = (d.slot f.slot).hash)

/-- FILE_CLOSE (R320). -/
def fileCloseBody (id : Nat) : Body := fun life r d =>
  let s := fileSide id
  match d.fileOrRefusal id with
  | .error st => d.refuse life r st
  | .ok f =>
    if !f.isOpen then d.refuse life r stWrong
    else if d.retired f then d.refuse life r stDenied
    else if !d.contentOk f then
      (d.dropFile s f).finish life r stIntegrity []
    else
      let d := d.mod s fun h => h.modFile id fun f => { f with isOpen := false }
      (d.ldrAppend 4 id (.root f.root)).finish life r stOk []

/-- FILE_DROP (R89). -/
def fileDropBody (id : Nat) : Body := fun life r d =>
  let s := fileSide id
  match d.fileOrRefusal id with
  | .error st => d.refuse life r st
  | .ok f =>
    if (d.half s).fileLocked f then d.refuse life r stWrong
    else (d.dropFile s f).finish life r stOk []

/-! ## The life cycle -/

/-- A new nonce in SEC_NONCE (R311). -/
def Dev.newNonce (d : Dev) : Dev :=
  ({ d with sec := { d.sec with nonce := Config.random d.free % 2 ^ 256 } }).draw

/-- Every slot is zeroised and its record erased, and on request those of region epochs and roots; the certificate's record stays
(R310). -/
def Dev.zeroiseAll (d : Dev) (regions : Bool) : Dev :=
  Dev.ldrErase { d with sec := { d.sec with slots := [] } } fun r => (decide (r.type = 2) && decide (r.key ≠ 1024)) || regions && (decide (r.type = 3) || decide (r.type = 4))

/-- A return authorisation: the Dwesol service key's signature over the identity key hash and the nonce (R311). -/
def Dev.authorised (d : Dev) (f : Fuse) (auth : List Byte) : Bool :=
  verifies f.serviceKey (beBytes 48 d.idKeyHash ++ beBytes 32 d.sec.nonce) auth

/-- The step of the life cycle that a command may take: the next state and its actions, or the refusal (R310). -/
def Dev.advance (d : Dev) (life : Life) (target key : Nat) (authOk : Bool) : Except Nat (Life × Dev) :=
  if d.west.locked || d.east.locked then .error stWrong
  else if target ≠ life.code + 1 then .error stBadArg
  else match life with
    | .blank => .ok (.manufacture, ({ d with sec := { d.sec with idKey := some (Config.random d.free) } }).draw)
    | .manufacture =>
      if d.sec.cert.isNone then .error stDenied
      else .ok (.deployed, (d.zeroiseAll false).installSlot 0 { kind := .root, key := key })
    | .deployed =>
      if !authOk then .error stDenied
      else .ok (.returned, d.zeroiseAll true)
    | .returned =>
      if !authOk then .error stDenied
      else .ok (.retired, Dev.ldrErase { d with sec := { d.sec with idKey := none, cert := none } } fun r => decide (r.type = 2) && decide (r.key = 1024))
    | .retired => .error stDenied

/-- LIFECYCLE_ADVANCE (R310, R311): each attempt uses up the nonce; completion closes every session and ends a Trapdoor
token (R485). -/
def lifecycleBody (f : Fuse) (target key : Nat) (auth : List Byte) (r : Reply) (d : Dev) : Life × Dev :=
  match d.advance f.life target key (d.authorised f auth) with
  | .error st => (f.life, if st = stDenied then (d.refuse f.life r st).newNonce else d.refuse f.life r st)
  | .ok (l, d) => (l, (({ d with dbg := { d.dbg with scope := none } }.finish l r stOk []).closeAll 5).newNonce)

end Sys2Proof.Machine
end

