-- ==== Sys2Proof/Machine/Audit.lean ====
section
/-! DEFINITION. The audit at PLAN_LOAD (R125 to R129): the walk of every path at the audit rates, the entry checks, and
the class. Where the spec leaves the bookkeeping of repeated loop runs open, the model's choice is log entry 35. -/
namespace Sys2Proof.Machine

open PlanImg

/-- What the audit looks at beside the plan image. -/
structure AuditCtx where
  rd      : Nat → Byte
  /-- byte k of file reference i -/
  file    : Nat → Nat → Byte
  /-- enabled channels of the half -/
  enabled : List Nat

/-- A stretch of the burst time axis: n issues of one period from issue v0 at time t0. With ipr above 0 it stands for
loop runs left out, which repeat the ipr issues and per time units before them. -/
structure AuditSeg where
  v0   : Nat
  n    : Nat
  t0   : Nat
  per  : Nat
  mark : Bool := false
  ipr  : Nat := 0

/-- A trigger of an entry on a path and its SC cycle. -/
structure AuditTrig where
  entry  : Nat
  at_    : Int

/-- A read of staged bytes of an entry: bytes lo to hi of its buffer, from SC cycle first to SC cycle last. -/
structure AuditRead where
  entry : Nat
  lo    : Nat
  hi    : Nat
  first : Int
  last  : Int

/-- A path at the end of a loop run: time, issue, issue-free steps, active and shadow page, triggers made. -/
structure AuditMark where
  t   : Nat
  v   : Nat
  q   : Nat
  act : Nat
  shd : Nat
  k   : Nat

/-- An active loop: its LOOP, COUNT, present run, first issue of the run, the path at the ends of the runs followed so far,
latest first, and whether the runs left out lie behind. -/
structure AuditLoop where
  step  : Nat
  count : Nat
  run   : Nat := 1
  first : Nat
  marks : List AuditMark := []
  tail  : Bool := false

structure AuditPath where
  pc      : Nat := 0
  t       : Nat := 0
  v       : Nat := 0
  act     : Nat
  shd     : Nat
  loadEnd : Option Int := none
  drill0  : Bool := false
  drill1  : Bool := false
  smap    : Nat
  loops   : List AuditLoop := []
  /-- latest first -/
  segs    : List AuditSeg := []
  /-- first issue after the latest decided fork -/
  decided : Nat := 0
  quiet   : Nat := 0
  calEnd  : Nat := 0
  within  : Bool := true
  trigs   : List AuditTrig := []
  reads   : List AuditRead := []
  /-- loop runs left out: SC cycle at which they begin, and their duration -/
  skips   : List (Int × Int) := []
  /-- shortest period issued -/
  minPer  : Option Nat := none

/-- SC cycle in which a vector that starts at t is issued (R45). -/
def issueCycle (t : Nat) : Int := (t / 10000 : Nat) - 48

/-- Byte k of an entry's data. -/
def AuditCtx.entByte (c : AuditCtx) (e k : Nat) : Byte := c.file (entFile c.rd e) (entSrc c.rd e + k)

/-- A little-endian field of a shelf reference's image. -/
def AuditCtx.shelfLE (c : AuditCtx) (r o n : Nat) : Nat := rdLE (fun k => c.file (shFile c.rd r) (shOff c.rd r + k)) o n

/-- Period of a timing set in the page of a shelf reference (R85). -/
def AuditCtx.period (c : AuditCtx) (r ts : Nat) : Nat := c.shelfLE r (0x10 + 4 * ts) 4

/-! ## The time axis of a path -/

/-- Start of an issue on the axis; one in runs left out stands as its counterpart before them. Stretches are listed latest
first. -/
def startOf : List AuditSeg → Nat → Nat
  | [], _ => 0
  | g :: older, u =>
    if u < g.v0 then startOf older u
    else if g.ipr = 0 then g.t0 + (u - g.v0) * g.per
    else
      let q := (u - g.v0) / g.ipr + 1
      startOf older (u - q * g.ipr) + q * g.per

/-- Index and end time of the last MATCH-flagged issue before issue s. -/
def lastMatch : List AuditSeg → Nat → Option (Nat × Nat)
  | [], _ => none
  | g :: older, s =>
    if s ≤ g.v0 then lastMatch older s else
    let hi := min (g.v0 + g.n) s - 1
    if g.ipr = 0 then
      if g.mark then some (hi, g.t0 + (hi - g.v0 + 1) * g.per) else lastMatch older s
    else
      let q := (hi - g.v0) / g.ipr + 1
      let before : Option (Nat × Nat) := (lastMatch older g.v0).map fun x =>
        if g.v0 ≤ x.1 + g.ipr then (x.1 + (q - 1) * g.ipr, x.2 + (q - 1) * g.per) else x
      match lastMatch older (hi - q * g.ipr + 1) with
      | some x => if g.v0 ≤ x.1 + g.ipr then some (x.1 + q * g.ipr, x.2 + q * g.per) else before
      | none => before

/-- n issues of one period follow on the path (R43). -/
def AuditPath.issue (p : AuditPath) (n per : Nat) (mark : Bool) : AuditPath :=
  let add : List AuditSeg := match p.segs with
    | g :: rest =>
      if g.ipr = 0 ∧ g.per = per ∧ g.mark = mark ∧ g.v0 + g.n = p.v ∧ g.t0 + g.n * per = p.t
      then { g with n := g.n + n } :: rest
      else { v0 := p.v, n := n, t0 := p.t, per := per, mark := mark } :: g :: rest
    | [] => [{ v0 := p.v, n := n, t0 := p.t, per := per, mark := mark }]
  { p with segs := add, t := p.t + n * per, v := p.v + n
           minPer := some (match p.minPer with
             | none => per
             | some m => min m per) }

/-! ## Staging on a path -/

/-- An entry's data overlaps bytes lo to hi of a buffer. -/
def entOverlaps (rd : Nat → Byte) (e buf lo hi : Nat) : Bool :=
  decide (entBuf rd e = buf) && decide (entDst rd e < hi) && decide (lo < entDst rd e + entLen rd e)

/-- Step i starts in an SC cycle: its entries trigger (R121, R122). -/
def AuditPath.startStep (p : AuditPath) (rd : Nat → Byte) (i : Nat) (cyc : Int) : AuditPath :=
  (List.range (entries rd)).foldl (fun p e =>
    if entArm rd e || decide (entTrig rd e ≠ i) then p
    else if entEach rd e || !(p.trigs.any fun t => decide (t.entry = e))
      then { p with trigs := p.trigs ++ [{ entry := e, at_ := cyc + entTrigOff rd e }] }
    else p) p

/-- The latest trigger of an entry that comes before an SC cycle: its place in the list and itself. A read in the cycle of a
trigger still belongs to the contents before it (DEDUCED, log entry 35). -/
def latestTrig (trigs : List AuditTrig) (e : Nat) (cyc : Int) : Option (AuditTrig × Nat) :=
  trigs.zipIdx.foldl (fun a x =>
    if x.1.entry = e ∧ x.1.at_ < cyc then
      match a with
      | none => some x
      | some y => if y.1.at_ ≤ x.1.at_ then some x else some y
    else a) none

/-- Something stages an entry before an SC cycle: the ARM, or a trigger (R116, R128). -/
def AuditPath.stagedBy (p : AuditPath) (rd : Nat → Byte) (e : Nat) (cyc : Int) : Bool :=
  entArm rd e || (latestTrig p.trigs e cyc).isSome

/-- Bytes lo to hi of the buffer, as entry e staged them, are read from cycle first to cycle last; none when nothing
stages them (R123, R125, R127). Whole staging lines count. -/
def AuditPath.read (p : AuditPath) (rd : Nat → Byte) (e lo hi : Nat) (first last : Int) : Option AuditPath :=
  let lo := lo / 64 * 64
  let hi := (hi + 63) / 64 * 64
  let replaced := entArm rd e && (List.range (entries rd)).any fun x =>
    decide (e < x) && entArm rd x && entOverlaps rd x (entBuf rd e) lo hi
  if !p.stagedBy rd e first || replaced then none
  else some { p with reads := { entry := e, lo := lo, hi := hi, first := first, last := last } :: p.reads }

/-- The latest trigger before an SC cycle of entry x is later than entry e's. -/
def AuditPath.newer (p : AuditPath) (x e : Nat) (cyc : Int) : Bool :=
  match latestTrig p.trigs x cyc, latestTrig p.trigs e cyc with
  | some a, some b => decide (b.1.at_ < a.1.at_) || decide (b.1.at_ = a.1.at_) && decide (e < x)
  | some _, none => true
  | none, _ => false

/-- Bytes lo to hi of a buffer are read whichever entries staged them last: a shelf load (R93, R125). An entry whose part is
wholly replaced by a later one is not read. -/
def AuditPath.readArea (p : AuditPath) (rd : Nat → Byte) (buf lo hi : Nat) (first last : Int) : AuditPath :=
  (List.range (entries rd)).foldl (fun q e =>
    if !entOverlaps rd e buf lo hi then q else
    let a := max lo (entDst rd e)
    let b := min hi (entDst rd e + entLen rd e)
    let gone := (List.range (entries rd)).any fun x =>
      decide (x ≠ e) && decide (entBuf rd x = buf) && decide (entDst rd x ≤ a) && decide (b ≤ entDst rd x + entLen rd x)
        && p.newer x e first
    if gone then q else (q.read rd e a b first last).getD q) p

/-! ## Steps -/

/-- The parts of n bytes that begin off bytes behind the start of entry e's data: entry, and bytes of its buffer (R109); none
when the entries end. The fuel bounds the entries passed. -/
def hvParts (rd : Nat → Byte) : Nat → Nat → Nat → Nat → Option (List (Nat × Nat × Nat))
  | 0, _, _, _ => none
  | k + 1, e, off, n =>
    if entries rd ≤ e then none
    else if entLen rd e ≤ off then hvParts rd k (e + 1) (off - entLen rd e) n
    else if off + n ≤ entLen rd e then some [(e, entDst rd e + off, entDst rd e + off + n)]
    else (hvParts rd k (e + 1) 0 (off + n - entLen rd e)).map fun l => (e, entDst rd e + off, entDst rd e + entLen rd e) :: l

/-- The half-vectors of a RUN at step i (R100, R101, R109, R116): e and off say where the next one starts. A read of issues 0
to 63 of an entry that is neither ARM-flagged nor triggered breaks SOURCE and SLACK, and SOURCE is reported (DESIGN CHOICE,
log entry 58). -/
def AuditPath.run (c : AuditCtx) (i : Nat) : Nat → Bool → Nat → Nat → AuditPath → Except AuditFail AuditPath
  | 0, _, _, _, p => .ok p
  | n + 1, begins, e, off, p =>
    let rd := c.rd
    let (e, off) := spotFrom rd entryFuel e off
    let cyc := if p.v < 64 then issueCycle p.t else issueCycle (startOf p.segs (p.v - 64))
    let p := if begins then p.startStep rd i cyc else p
    match hvParts rd entryFuel e off 132 with
    | none => .error (9, 1, i)
    | some parts =>
      let step (r : Except AuditFail AuditPath) (x : Nat × Nat × Nat) : Except AuditFail AuditPath :=
        match r with
        | .error f => .error f
        | .ok p =>
          if p.v < 64 && !entArm rd x.1 then
            .error (if p.trigs.any fun t => decide (t.entry = x.1) then (0xB, 1, i) else (9, 1, i))
          else match p.read rd x.1 x.2.1 x.2.2 cyc cyc with
            | none => .error (9, 1, i)
            | some q => .ok (if p.v < 64 then p else q)
      match parts.foldl step (.ok p) with
      | .error f => .error f
      | .ok p =>
        let byte (k : Nat) : Byte :=
          let x := spotFrom rd entryFuel e (off + k)
          c.entByte x.1 x.2
        let header := rdLE byte 0 4
        AuditPath.run c i n false e (off + 132)
          (p.issue (header / 2 ^ 16 + 1) (c.period p.act (header % 16)) (header.testBit 8))

/-- A fork's sample point and interval (R115, R118, R120): `from_` is the first issue at which it may lie. -/
def AuditPath.decideFork (p : AuditPath) (rd : Nat → Byte) (f from_ : Nat) : Except AuditFail AuditPath :=
  let s := p.v - forkLead rd f
  let early := decide (p.v < forkLead rd f) || decide (s < max p.decided from_)
  let close : Bool := match lastMatch p.segs s with
    | some x => decide (startOf p.segs s < x.2 + 700000)
    | none => false
  if early || (decide (forkSrc rd f = 0) && close) then .error (5, 2, f) else .ok { p with decided := p.v }

/-- The interval from the last CAL step, or from T0, is at most 2 ms (R129). -/
def AuditPath.span (p : AuditPath) : AuditPath := { p with within := p.within && decide (p.t - p.calEnd ≤ 16000000000) }

/-- One thing in the chute's queue: SC cycle, 0 a trigger or 1 left-out runs, entry, and the trigger or duration. -/
abbrev AuditItem := Int × Nat × Nat × Int

def itemLe (a b : AuditItem) : Bool :=
  decide (a.1 < b.1) || (decide (a.1 = b.1) && (decide (a.2.1 < b.2.1) || (decide (a.2.1 = b.2.1) && decide (a.2.2.1 ≤ b.2.2.1))))

def itemInsert (x : AuditItem) : List AuditItem → List AuditItem
  | [] => [x]
  | y :: l => if itemLe x y then x :: y :: l else y :: itemInsert x l

/-- Triggers in trigger order, ties in entry index order (R122), with the runs left out in their places. -/
def chuteQueue (trigs : List AuditTrig) (skips : List (Int × Int)) : List AuditItem :=
  ((trigs.map fun t => ((t.at_, 0, t.entry, 0) : AuditItem)) ++ skips.map fun x => ((x.1, 1, 0, x.2) : AuditItem)).foldr itemInsert []

/-- The chute at the audit rates (R126, R127): the cycle in which it is free, and the entries that miss their deadline. -/
def chuteRun (rd : Nat → Byte) (l : List AuditItem) : Int × List Nat :=
  l.foldl (fun a x =>
    let (free, late) := a
    if x.2.1 = 1 then (if x.1 < free then free + x.2.2.2 else free, late)
    else
      let e := x.2.2.1
      let finish : Int := max x.1 free + (800 + (entLen rd e + 179) / 180 : Nat)
      (finish, if x.1 + entDeadline rd e < finish + 28000 then e :: late else late)) (0, [])

/-- Chute work triggered before an SC cycle and left at it (R127). -/
def AuditPath.backlog (p : AuditPath) (rd : Nat → Byte) (cyc : Int) (more : List AuditTrig) : Nat :=
  let l := (chuteQueue (p.trigs ++ more) p.skips).filter fun x => decide (x.1 < cyc)
  ((chuteRun rd l).1 - cyc).toNat

/-- k units of loop runs are left out behind the present end of run: each repeats what came since the mark (R113, R127).
Time, issues, intervals and a load in progress move on by their duration. -/
def AuditPath.skip (p : AuditPath) (l : AuditMark) (k : Nat) : AuditPath :=
  let dur := p.t - l.t
  let ipr := p.v - l.v
  let cyc := issueCycle p.t
  let newT := p.t + k * dur
  let sc := issueCycle newT - cyc
  if k = 0 then p else
  { p with
    segs := if ipr = 0 then p.segs else { v0 := p.v, n := k * ipr, t0 := p.t, per := dur, ipr := ipr } :: p.segs
    quiet := if ipr = 0 then p.quiet + k * (p.quiet - l.q) else p.quiet
    loadEnd := p.loadEnd.map fun e => if issueCycle l.t ≤ e then e + sc else e
    calEnd := if l.t ≤ p.calEnd then p.calEnd + k * dur else p.calEnd
    decided := if l.v ≤ p.decided then p.decided + k * ipr else p.decided
    skips := p.skips ++ [(cyc, sc)]
    t := newT, v := p.v + k * ipr }

/-- How many runs before the present end of run the shelf pages last stood as they stand now, 1 or 2: from then on the runs
repeat with that period, and the passage from one run to the next has been followed. None: another run is needed. -/
def AuditPath.loopPeriod (p : AuditPath) (marks : List AuditMark) : Option (Nat × AuditMark) :=
  let same (m : AuditMark) : Bool := decide (m.act = p.act) && decide (m.shd = p.shd)
  match marks with
  | [] => none
  | a :: rest =>
    if same a then some (1, a) else
    match rest with
    | b :: _ => if same b then some (2, b) else none
    | [] => none

/-- LEND of the innermost loop (R113, R120, R127): the path goes on, with the path that a match exit opens. Runs are followed
until the pages repeat; then all but the last ones are left out (log entry 35). -/
def AuditPath.lend (c : AuditCtx) (i : Nat) (p : AuditPath) : Except AuditFail (AuditPath × List AuditPath) :=
  let rd := c.rd
  match p.loops with
  | [] => .error (4, 1, i)
  | l :: outer =>
    let isMatch := decide (sflags rd i = 1)
    let f := fc rd i % 1024
    match (if isMatch then p.decideFork rd f l.first else .ok p) with
    | .error e => .error e
    | .ok p =>
      let exit : List AuditPath := if isMatch then [{ p with loops := outer, pc := forkTrue rd f }] else []
      let again (p : AuditPath) (l : AuditLoop) : AuditPath :=
        { p with pc := l.step + 1, loops := { l with run := l.run + 1, first := p.v } :: outer }
      let tooMuch : Bool := match l.run, l.marks with
        | 2, m :: _ =>
          let c1 := issueCycle m.t
          let cyc := issueCycle p.t
          let ahead := if l.count ≤ 2 then [] else (p.trigs.drop m.k).filterMap fun t =>
            if t.at_ < c1 ∧ entEach rd t.entry then some { t with at_ := t.at_ + (cyc - c1) } else none
          decide (p.backlog rd c1 [] < p.backlog rd cyc ahead)
        | _, _ => false
      if tooMuch then .error (0xB, 1, i)
      else if l.count ≤ l.run then .ok ({ p with loops := outer }, exit)
      else
        let m : AuditMark := { t := p.t, v := p.v, q := p.quiet, act := p.act, shd := p.shd, k := p.trigs.length }
        match (if l.tail then none else p.loopPeriod l.marks) with
        | none => .ok (again p { l with marks := m :: l.marks }, exit)
        | some (n, u) =>
          let k := (l.count - l.run - n) / n
          let q := p.skip u k
          if 16 < q.quiet then .error (4, 1, i)
          else .ok (again q { l with run := l.run + k * n, tail := true }, exit)

/-- A source map names a drill without a program (R159). -/
def badMap (rd : Nat → Byte) (m : Nat) : Bool :=
  let programmed (n : Nat) : Bool := (List.range (drills rd)).any fun k => decide (drDrill rd k = n)
  (List.range 256).any fun ch => decide (src rd m ch ≠ 0) && !programmed (src rd m ch - 1)

/-- One step of a path (R107, R108): the path goes on or has ended, and paths open on a flag of 1. -/
def AuditPath.step (c : AuditCtx) (p : AuditPath) : Except AuditFail (Option AuditPath × List AuditPath) :=
  let rd := c.rd
  let i := p.pc
  let o := op rd i
  if steps rd ≤ i then .error (4, 1, steps rd - 1)
  else if o ≠ 1 ∧ o ≠ 2 ∧ 16 < p.quiet + 1 then .error (4, 1, i)
  else
    let p := { p with quiet := if o = 1 ∨ o = 2 then 0 else p.quiet + 1, pc := i + 1 }
    let cyc := issueCycle p.t
    let on (p : AuditPath) : Except AuditFail (Option AuditPath × List AuditPath) := .ok (some p, [])
    if o = 1 then
      match AuditPath.run c i (fb rd i) true (fc rd i % 2 ^ 16) (fc rd i / 2 ^ 16 % 2 ^ 32 * 132) p with
      | .error e => .error e
      | .ok p => on p
    else
      let p := p.startStep rd i cyc
      let busy : Bool := match p.loadEnd with
        | some e => decide (cyc < e)
        | none => false
      match o with
      | 2 =>
        if decide (fb rd i / 2 ^ 16 ≠ 0) || c.enabled.any fun ch => decide (src rd p.smap ch = 0) then .error (9, 1, i)
        else on (p.issue (fc rd i % 2 ^ 32) (c.period p.act (fb rd i % 16)) ((fb rd i).testBit 8))
      | 3 => on { p with loops := { step := i, count := fb rd i, first := p.v } :: p.loops }
      | 4 =>
        match p.lend c i with
        | .error e => .error e
        | .ok (p, l) => .ok (some p, l)
      | 5 =>
        let f := fc rd i % 1024
        match p.decideFork rd f 0 with
        | .error e => .error e
        | .ok p => .ok (some p, [{ p with pc := forkTrue rd f }])
      | 6 => on { p.span with t := p.t + 80000000, calEnd := p.t + 80000000 }
      | 7 => on { p with t := p.t + 10000 * fb rd i }
      | 8 =>
        if fa rd i = 0 then (if p.drill0 then .error (4, 1, i) else on { p with drill0 := true })
        else (if p.drill1 then .error (4, 1, i) else on { p with drill1 := true })
      | 9 =>
        if fa rd i = 0 then (if p.drill0 then on { p with drill0 := false } else .error (4, 1, i))
        else (if p.drill1 then on { p with drill1 := false } else .error (4, 1, i))
      | 10 =>
        if busy then .error (0xD, 1, i) else
        let r := fa rd i
        let cycles := 34 + 3072 * pop (BitVec.ofNat 8 (c.shelfLE r 4 4))
        let lo := shBufOff rd r
        let hi := lo + shLen rd r
        let p := p.readArea rd (shBuf rd r) lo hi (cyc + 18) (cyc + cycles - 1)
        on { p with loadEnd := some (cyc + cycles), shd := r }
      | 11 => if busy then .error (0xD, 1, i) else on { p with act := p.shd, shd := p.act }
      | 13 => if badMap rd (fa rd i) then .error (9, 7, fa rd i) else on { p with smap := fa rd i }
      | 15 => .ok (some p.span, [])
      | _ => on p

/-! ## The walk and the audit -/

/-- What the walk gathers over the ended paths (R125, R127, R129). -/
structure AuditSum where
  segments : Nat := 1
  need     : Tbl (Option Nat) := []
  late     : List Nat := []
  reuse    : List Nat := []
  within   : Bool := true
  longest  : Nat := 0
  minPer   : Option Nat := none

/-- A trigger replaces contents that are still to be read: a read of its lines in its cycle or later belongs to an earlier
staging (R127). -/
def replaces (rd : Nat → Byte) (trigs : List AuditTrig) (reads : List AuditRead) (x : AuditTrig × Nat) : Bool :=
  reads.any fun r =>
    entOverlaps rd x.1.entry (entBuf rd r.entry) r.lo r.hi && decide (x.1.at_ ≤ r.last) &&
      match latestTrig trigs r.entry r.first with
      | none => true
      | some y => decide (y.2 ≠ x.2) && (decide (y.1.at_ < x.1.at_) || decide (y.1.at_ = x.1.at_) && decide (y.1.entry < x.1.entry))

/-- A path has reached END. NEED takes the least number of cycles from a trigger to its first read; a read belongs to the
latest trigger before it (R125). -/
def AuditSum.ended (a : AuditSum) (rd : Nat → Byte) (p : AuditPath) : AuditSum :=
  let late := (chuteRun rd (chuteQueue p.trigs p.skips)).2
  let need := p.reads.foldl (fun (n : Tbl (Option Nat)) r =>
    match latestTrig p.trigs r.entry r.first with
    | none => n
    | some x =>
      let d := (r.first - x.1.at_).toNat
      tset none n r.entry (some (match tget none n r.entry with
        | none => d
        | some y => min y d))) a.need
  { a with need := need, late := late ++ a.late
           reuse := (p.trigs.zipIdx.filter fun x => replaces rd p.trigs p.reads x).map (fun x => x.1.entry) ++ a.reuse
           within := a.within && p.within, longest := max a.longest p.t }

/-- The shortest period of the issues made so far. -/
def minOpt (a b : Option Nat) : Option Nat :=
  match a, b with
  | some a, some b => some (min a b)
  | some a, none => some a
  | none, b => b

/-- The walk of all paths, the continuation of a flag of 0 first (R127, R128). A path segment is the first path or a
continuation opened on a flag of 1 (DESIGN CHOICE, log entry 58). The fuel exceeds the steps of any walk within the limit of
path segments. -/
def auditWalk (c : AuditCtx) : Nat → AuditSum → AuditPath → List AuditPath → Except AuditFail AuditSum
  | 0, _, _, _ => .error (0xF, 0, 0)
  | n + 1, a, p, todo =>
    match p.step c with
    | .error f => .error f
    | .ok (next, opened) =>
      let a := { a with segments := a.segments + opened.length }
      if 65536 < a.segments then .error (0xF, 0, 0) else
      let rest := opened ++ todo
      match next with
      | none => .ok a
      | some q =>
        let a := { a with minPer := minOpt a.minPer q.minPer }
        if op c.rd p.pc = 15 then
          match rest with
          | [] => .ok (a.ended c.rd q)
          | r :: rest => auditWalk c n (a.ended c.rd q) r rest
        else auditWalk c n a q rest

/-- A path at the start of the burst: both slots hold the initial page, the ARM-flagged entries are staged (R94, R131). -/
def AuditPath.start (rd : Nat → Byte) : AuditPath :=
  { act := initShelf rd, shd := initShelf rd, smap := initSrcMap rd }

def never : Nat := 2 ^ 64 - 1

/-- NEED as the audit derives it (R125). -/
def AuditSum.needOf (a : AuditSum) (rd : Nat → Byte) (e : Nat) : Nat :=
  if entArm rd e then 0 else (tget none a.need e).getD never

/-- Phase 3 of R128: the entries in index order, then the class. -/
def auditEntries (rd : Nat → Byte) (a : AuditSum) : Option AuditFail :=
  let entry (e : Nat) : Option AuditFail :=
    let need := a.needOf rd e
    let timed := !entArm rd e && decide (need ≠ never)
    if need ≠ certNeed rd e then some (0xA, 3, e)
    else if timed && a.late.contains e then some (0xB, 3, e)
    else if timed && decide (need < entDeadline rd e + 4000) then some (0xB, 3, e)
    else if a.reuse.contains e then some (0xC, 3, e)
    else none
  match (List.range (entries rd)).findSome? entry with
  | some f => some f
  | none => if cls rd = b1 a.within then none else some (0xE, 0, 0)

/-- What of SOURCE no path has met: REPEAT of a DRUN header, and maps that name a drill without a program (R110, R159). It
is checked when the walk is over (DESIGN CHOICE, log entry 58). -/
def auditSource (rd : Nat → Byte) : Option AuditFail :=
  firstFail [
    itemFail 9 1 (firstBad (steps rd) fun i => decide (op rd i = 2) && decide (fb rd i / 2 ^ 16 ≠ 0)),
    itemFail 9 7 (firstBad (srcMaps rd) (badMap rd))]

/-- What a plan under audit is checked against: the half's file table, slots and partition. -/
def Dev.auditCtx (d : Dev) (s : Side) (rd : Nat → Byte) : AuditCtx :=
  let h := d.half s
  { rd := rd
    file := fun i k => match h.file (fileId rd i) with
      | some f => f.rd k
      | none => 0
    enabled := (List.range 256).filter fun ch => d.rf s.code .tchCfg ch 0 0 = 1 }

/-- The first failing shelf image of the plan (R88, R128). -/
def auditShelves (c : AuditCtx) : Option (Nat × ShelfFail) :=
  (List.range (shelves c.rd)).findSome? fun i =>
    (shelfCheck (fun k => c.file (shFile c.rd i) (shOff c.rd i + k)) (shLen c.rd i) (decide (i = initShelf c.rd))).map fun f => (i, f)

/-- A file reference matches: a closed file of the half with that length, in a FILE slot of the plan's owner that is
installed (R321, R522). -/
def Dev.fileMatches (d : Dev) (s : Side) (owner id len : Nat) : Bool :=
  match (d.half s).file id with
  | none => false
  | some f => !f.isOpen && decide (f.length = len) && decide ((d.slot f.slot).kind = .file) && decide ((d.slot f.slot).owner = owner)

/-- The audit's verdict: a failure, with the shelf check's for SHELF; or the plan's class and measures. -/
inductive Verdict where
  | refused (f : AuditFail) (shelf : Option ShelfFail)
  | passed (longest minPeriod : Nat)

/-- The whole audit of a plan file (R128). -/
def Dev.audit (d : Dev) (s : Side) (f : FileRec) : Verdict :=
  let rd := f.rd
  let owner := (d.slot f.slot).owner
  let key := d.slot (resultKey rd)
  let resultOk := decide (key.kind = .result) && decide (key.owner = owner)
  let early := firstFail [auditFormat rd s f.length, auditLimits rd resultOk, auditStepCode rd, auditStructure rd,
    auditForkUse rd, auditBuffers rd (d.stageSize s), auditFiles rd (d.fileMatches s owner)]
  match early with
  | some x => .refused x none
  | none =>
    let c := d.auditCtx s rd
    match auditShelves c with
    | some (i, x) => .refused (8, 6, i) (some x)
    | none =>
      if badMap rd (initSrcMap rd) then .refused (9, 7, initSrcMap rd) none else
      match auditWalk c (2 ^ 42) {} (.start rd) [] with
      | .error x => .refused x none
      | .ok a =>
        match firstFail [auditSource rd, auditEntries rd a] with
        | some x => .refused x none
        | none => .passed a.longest (a.minPer.getD 256000000)

/-- PLAN_LOAD (R130, R522): the audit begins; PLAN_AUDIT_DONE is its end. -/
def planLoadBody (half id : Nat) : Body := fun life r d =>
  if 1 < half then d.refuse life r stBadArg else
  let s : Side := if half = 1 then .e else .w
  let h := d.half s
  if h.locked then d.refuse life r stWrong
  else if h.reset ≠ 0 then d.refuse life r stBusy
  else match d.cellarRefusal s, h.file id with
    | some st, _ => d.refuse life r st
    | none, none => d.refuse life r stBadArg
    | none, some f =>
      if f.isOpen then d.refuse life r stWrong
      else if d.retired f then d.refuse life r stDenied
      else d.setHalf s { h with face := { h.face with loading := h.face.loading ++ [(id, r)] } }

/-- A plan is loaded: it stands in the partition from offset 0, and every fill tag is 0 (R105, R130, R281). -/
def Half.setPlan (h : Half) (f : FileRec) (hash longest minPeriod : Nat) : Half :=
  let rd := f.rd
  let p : Plan := { fileId := f.id, hash := hash, cls := decide (cls rd = 1), minPeriod := minPeriod, longest := longest }
  { h with
    attic := memWrite h.attic 0 (memRead f.data 0 (length rd))
    att := h.att.cleanse fun l => decide (64 * l + 64 ≤ length rd)
    tags := []
    tch := { h.tch with cause := 0 }
    face := { h.face with state := .loaded, plan := some p } }

/-- PLAN_AUDIT_DONE: the last check of the oldest PLAN_LOAD passes or the first fails (R128, R130). One whose half has begun an
ARM meanwhile ends with WRONG_STATE (DEDUCED, log entry 14). -/
def planAuditDone (life : Life) (s : Side) (d : Dev) : Dev :=
  let h := d.half s
  match h.face.loading with
  | [] => d
  | (id, r) :: rest =>
    let d := d.mod s fun h => { h with face := { h.face with loading := rest } }
    if h.locked then d.refuse life r stWrong else
    match h.fileNow id with
    | none => d.refuse life r stBadArg
    | some f =>
      match d.audit s f with
      | .passed longest minPeriod =>
        let img := memRead f.data 0 (length f.rd)
        (d.mod s fun h => h.setPlan f (Config.sha384 img) longest minPeriod).finish life r stOk []
      | .refused x shelf =>
        let d := match shelf with
          | some y => d.shelfFail s 0 y
          | none => d
        let d := if d.rf s.code .faceAudit 0 0 0 = 1 then d else
          (d.setRg s.code .faceAudit 0 (pack [(24, x.1), (20, x.2.1), (0, 1)])).setRg s.code .faceAuditAt 0 (BitVec.ofNat 32 x.2.2)
        (d.raise s blkFace 3).refuse life r stBadArg

end Sys2Proof.Machine
end

