-- ==== Sys2Proof/Machine/Haul.lean ====
section
/-! DEFINITION. Haul quads (chapter 14): training, the receiving side of the link layer, cascade time and fire, cascade
flags, relay, spoil and the cross-module alignment. -/
namespace Sys2Proof.Machine

/-! ## Training (R372, R373) -/

/-- HAUL_Q_STATUS.STATE. -/
def QuadState.code : QuadState → Nat
  | .down => 0
  | .clock => 1
  | .adapt => 2
  | .align => 3
  | .link => 4
  | .up => 5

/-- The cross-module alignment is lost: ALIGNED is cleared and XMOD_LOST raised, if it was set (R385). -/
def Dev.xmodLost (d : Dev) : Dev :=
  if d.rf 0 .haulXmod 0 16 16 = 0 then d else (d.setRf 0 .haulXmod 0 16 16 0).raise .w blkHaul 4

/-- Index of a lane's registers. -/
def laneIx (q l : Nat) : Nat := 4 * q + l

/-- Block lock of every lane of a quad is lost. -/
def Dev.unlockLanes (d : Dev) (s : Side) (q : Nat) : Dev :=
  quads.foldl (fun d l => d.setRf s.code .haulLaneStatus (laneIx q l) 8 8 0) d

/-- The lane settings are discarded. -/
def Dev.dropLanes (d : Dev) (s : Side) (q : Nat) : Dev :=
  quads.foldl (fun d l =>
    (d.setRg s.code .haulLaneStatus (laneIx q l) 0).setRg s.code .haulLaneEq (laneIx q l) 0) d

/-- Bit errors that a lane's running checker has counted since HAUL_PRBS_ERR was last kept: it checks the bits received in
BERT, whatever they are (R374). -/
def Dev.prbsSeen (d : Dev) (s : Side) (i : Nat) : Nat :=
  if (d.quad s (i / 4)).st = .up ∧ d.quadMode s (i / 4) = 4 ∧ d.rf s.code .haulLaneCtrl i 4 4 = 1 then
    prbsErrors (d.rf s.code .haulLaneCtrl i 3 2) [] (Config.received d.free (16 * s.code + i))
  else 0

/-- HAUL_PRBS_ERR.COUNT of a lane. -/
def Dev.prbsCount (d : Dev) (s : Side) (i : Nat) : Nat := min (2 ^ 32 - 1) ((d.rg s.code .haulPrbsErr i).toNat + d.prbsSeen s i)

/-- The counts of a quad's lanes are kept before its checkers stop or change. -/
def Dev.keepPrbs (d : Dev) (s : Side) (q : Nat) : Dev :=
  (quads.foldl (fun (e : Dev) l => e.setRg s.code .haulPrbsErr (laneIx q l) (BitVec.ofNat 32 (d.prbsCount s (laneIx q l)))) d).draw

/-- A quad that leaves UP raises LINK_DOWN (R392). -/
def Dev.quadLeaves (d : Dev) (s : Side) (q : Nat) : Dev :=
  if (d.quad s q).st = .up then (if d.quadMode s q = 4 then d.keepPrbs s q else d).raise s blkHaul 1 else d

/-- A quad goes to ALIGN. Function 3 counts from here (R425). -/
def Dev.toAlign (d : Dev) (s : Side) (q : Nat) (retrain : Bool) : Dev :=
  let host := (d.half s).assisted 3
  (d.unlockLanes s q).modQuad s q fun x => { x with st := .align, hostAlign := host, retrain := retrain }

/-- Link reset, loss of block lock or RETRAIN: an UP quad goes to ALIGN with replay buffer, credits and equaliser settings
kept (R372). -/
def Dev.linkReset (d : Dev) (s : Side) (q : Nat) : Dev :=
  if (d.quad s q).st ≠ .up then d else (d.quadLeaves s q).toAlign s q true

/-- HAUL_LOCK_LOSS. -/
def haulLockLoss (s : Side) (q : Nat) (d : Dev) : Dev := d.linkReset s q

/-- A new MODE: OFF turns the lanes off and discards the frames held; any other trains the quad from DOWN (R372, R377). -/
def Dev.quadRestart (d : Dev) (s : Side) (q mode : Nat) : Dev :=
  ((d.quadLeaves s q).dropLanes s q).modQuad s q fun _ => { st := if mode = 0 then .down else .clock }

/-- HAUL_CLOCK_LOCK: the forwarded clock locks and adaptation begins; function 2 counts from here (R372, R425). -/
def haulClockLock (s : Side) (q : Nat) (d : Dev) : Dev :=
  if (d.quad s q).st ≠ .clock then d else
  let host := (d.half s).assisted 2
  d.modQuad s q fun x => { x with st := .adapt, clkLock := true, hostAdapt := host }

/-- HAUL_CLOCK_TIMEOUT: no lock within 1 ms (R372). -/
def haulClockTimeout (s : Side) (q : Nat) (d : Dev) : Dev :=
  if (d.quad s q).st ≠ .clock then d else d.raise s blkHaul 1

/-- HAUL_CLOCK_ABSENT: the forwarded clock is absent for 1 µs (R372). A quad that is OFF looks for no clock. -/
def haulClockAbsent (s : Side) (q : Nat) (d : Dev) : Dev :=
  if (d.quad s q).st = .down then d else
  let up := decide ((d.quad s q).st = .up)
  ((d.quadLeaves s q).dropLanes s q).modQuad s q fun x =>
    { x with st := .clock, clkLock := false, retrain := x.retrain || up }

/-- Adaptation is over: ALIGN, or UP in BERT (R372). -/
def Dev.adapted (d : Dev) (s : Side) (q : Nat) : Dev :=
  if d.quadMode s q = 4 then d.modQuad s q fun x => { x with st := .up }
  else d.toAlign s q (d.quad s q).retrain

/-- HAUL_ADAPT_DONE: the figures of merit that adaptation, or the host's settings, reach. In hardware mode the equaliser
settings found stand in HAUL_LANE_EQ, and the quad moves on when every lane reaches FOM_MIN (R372, R373). -/
def haulAdaptDone (s : Side) (q : Nat) (fom : List Nat) (eq : List Word) (d : Dev) : Dev :=
  let x := d.quad s q
  if x.st ≠ .adapt then d else
  let d := quads.foldl (fun d l => d.setRf s.code .haulLaneStatus (laneIx q l) 7 0 (fom.getD l 0)) d
  if x.hostAdapt then d else
  let d := quads.foldl (fun d l => d.setRg s.code .haulLaneEq (laneIx q l) (eq.getD l 0 &&& 0x01FFF0FF)) d
  if quads.all fun l => d.rf s.code .haulQCtrl q 23 16 ≤ d.rf s.code .haulLaneStatus (laneIx q l) 7 0 then d.adapted s q else d

/-- A quad enters LINK: 64 credits are granted and ECHO is sent (R376, R378). -/
def Dev.toLink (d : Dev) (s : Side) (q : Nat) : Dev :=
  ((d.modQuad s q fun x => { x with st := .link, credits := 64 }).haulOut s q ftEcho [Config.random d.free]).draw

/-- Every lane of a quad has block lock. -/
def Dev.lanesLocked (d : Dev) (s : Side) (q : Nat) : Bool :=
  quads.all fun l => d.rf s.code .haulLaneStatus (laneIx q l) 8 8 = 1

/-- HAUL_ALIGN_DONE: the slip positions at which the lanes find block lock and align. Hardware slips each lane there; in
host-assisted mode a lane has lock when it stands there, and only a retrain goes on by itself (R372, R373). -/
def haulAlignDone (s : Side) (q : Nat) (slips : List Nat) (d : Dev) : Dev :=
  let x := d.quad s q
  if x.st ≠ .align then d else
  let pos (l : Nat) : Nat := slips.getD l 0 % 66
  if !x.hostAlign then
    (quads.foldl (fun d l =>
      (d.setRf s.code .haulLaneStatus (laneIx q l) 22 16 (pos l)).setRf s.code .haulLaneStatus (laneIx q l) 8 8 1) d).toLink s q
  else
    let d := quads.foldl (fun d l =>
      d.setRf s.code .haulLaneStatus (laneIx q l) 8 8
        (b1 (decide (d.rf s.code .haulLaneStatus (laneIx q l) 22 16 = pos l)))) d
    if x.retrain && d.lanesLocked s q then d.toLink s q else d

/-- The measured latency of a quad (R378). A change on the upstream quad at a retrain loses the alignment (R385). -/
def Dev.setMeasured (d : Dev) (s : Side) (q roundTrip : Nat) : Dev :=
  let m := (roundTrip - 64) / 2
  let old := d.rf s.code .haulRxLat q 11 0
  let d := d.setRf s.code .haulRxLat q 11 0 (min m 4095)
  if s = .w ∧ d.rf 0 .haulCascade 0 2 2 = 0 ∧ d.rf 0 .haulCascade 0 1 0 = q ∧ (d.quad s q).retrain ∧ old ≠ min m 4095
  then d.xmodLost else d

/-- The frames of a replay buffer are sent again (R376), unless the SAFE net stops sequenced frames. -/
def Dev.replayFrames (d : Dev) (s : Side) (q : Nat) : Dev :=
  if d.safe.asserted then d else (d.quad s q).replay.foldl (fun d f => d.haulOut s q f.2.1 (f.1 :: f.2.2)) d

/-- A message of the relay key agreement: 1 to 64 words (R375, R389). -/
def Dev.keyWords (d : Dev) : List Nat := Config.random d.free :: (Config.keyMessage d.free).take 63

/-- HAUL_LINK_DONE: credit exchange and echo measurement are complete, and the quad is UP. Unacknowledged frames are
replayed; in RELAY a new key is agreed (R372, R378, R389). -/
def haulLinkDone (s : Side) (q roundTrip : Nat) (d : Dev) : Dev :=
  if (d.quad s q).st ≠ .link then d else
  let d := d.setMeasured s q roundTrip
  let d := (d.modQuad s q fun x => { x with st := .up, keyed := false }).replayFrames s q
  let d := if d.quadMode s q = 2 then ((d.haulSend s q ftKey (d.keyWords)).1).draw else d
  d.haulFlush s q

/-- A write of HAUL_Q_CTRL: MODE, ROLE, FOM_MIN, COMMIT and RETRAIN (R372, R373, R377). Codes 5 to 7 leave MODE. -/
def Dev.quadCtrl (d : Dev) (s : Side) (q : Nat) (v : Word) : Nat × Dev :=
  let x := d.quad s q
  let old := d.quadMode s q
  let mode := if 4 < fld v 2 0 then old else fld v 2 0
  let stopped : Bool := (x.st = .adapt && x.hostAdapt) || (x.st = .align && x.hostAlign && d.lanesLocked s q)
  let commit := v.getLsbD 9
  if commit && !stopped then (stWrong, d) else
  let d := if mode ≠ old then d.quadRestart s q mode else d
  let d := d.setRg s.code .haulQCtrl q (pack [(16, fld v 23 16), (4, fld v 4 4), (0, mode)])
  if mode ≠ old then (stOk, d)
  else if commit then (stOk, if x.st = .adapt then d.adapted s q else d.toLink s q)
  else if v.getLsbD 8 then (stOk, d.linkReset s q)
  else (stOk, d)

/-- A write of HAUL_LANE_CTRL: PRBS and CHK_EN, INJECT (R374), SLIP in host-assisted ALIGN only (R373). -/
def Dev.laneCtrl (d : Dev) (s : Side) (q l : Nat) (v : Word) : Nat × Dev :=
  let x := d.quad s q
  let slip := v.getLsbD 0
  if slip && !(x.st = .align && x.hostAlign) then (stWrong, d) else
  let d := if d.quadMode s q = 4 then d.keepPrbs s q else d
  let d := d.setRg s.code .haulLaneCtrl (laneIx q l) (pack [(4, fld v 4 4), (2, fld v 3 2)])
  let d := if slip then
      (d.setRf s.code .haulLaneStatus (laneIx q l) 22 16 ((d.rf s.code .haulLaneStatus (laneIx q l) 22 16 + 1) % 66)).setRf
        s.code .haulLaneStatus (laneIx q l) 8 8 0
    else d
  if !v.getLsbD 1 then (stOk, d)
  else if d.quadMode s q = 4 then (stOk, d.emit (.haul s q 512 [l] []))
  else (stOk, d.modQuad s q fun x => { x with inject := true })

/-- A write of HAUL_LANE_EQ: a host write only in host-assisted adaptation (R373). -/
def Dev.laneEq (d : Dev) (w : Writer) (s : Side) (q l : Nat) (v : Word) : Nat × Dev :=
  let x := d.quad s q
  if w ≠ .fw && !(x.st = .adapt && x.hostAdapt) then (stWrong, d)
  else (stOk, d.setRg s.code .haulLaneEq (laneIx q l) (v &&& 0x01FFF0FF))

/-! ## The receiving side (R376, R377, R391) -/

/-- A violation of a category is counted per quad; at the threshold the link is reset (R391). -/
def Dev.haulViolation (d : Dev) (s : Side) (q c : Nat) : Dev :=
  let d := d.bump s.code .haulViol q (6 * c + 5) (6 * c)
  match d.countEvent s blkHaul 0 (8 * q + c) with
  | (d, true) => d.linkReset s q
  | (d, false) => d

/-- ACK with the last number received in order: one credit returned, or NAK (R375, R376). -/
def Dev.haulAck (d : Dev) (s : Side) (q : Nat) (nak : Bool) : Dev :=
  d.haulOut s q ftAck [((d.quad s q).rx + 255) % 256, b1 (!nak), b1 nak]

/-- Credits go back to 64 and the sender replays from ACK_SEQ + 1 (R391). -/
def Dev.creditsReset (d : Dev) (s : Side) (q : Nat) : Dev :=
  ((d.modQuad s q fun x => { x with credits := 64 }).replayFrames s q).haulFlush s q

/-- A frame type is accepted in the receiving quad's mode (R377, R379). -/
def Dev.accepts (d : Dev) (s : Side) (q ft : Nat) : Bool :=
  let m := d.quadMode s q
  if ft = ftRelay ∨ ft = ftRelayTag ∨ ft = ftKey then m = 2
  else if ft = ftSpoil then m = 3
  else if ft = ftFire ∨ ft = ftTime then s = .w && decide (1 ≤ m) && decide (m ≤ 3)
  else decide (1 ≤ m) && decide (m ≤ 3)

/-- The quad's link layer receives frames: in LINK and UP, but not in BERT. -/
def Dev.receiving (d : Dev) (s : Side) (q : Nat) : Bool :=
  ((d.quad s q).st = .up || (d.quad s q).st = .link) && decide (d.quadMode s q ≠ 4)

/-- What every sequenced frame goes through (R376, R391): its violation, its type, its number. True when its content is to
be used. A frame of a type not accepted is dropped after its number has been taken (log entry 20). -/
def Dev.haulReceive (d : Dev) (s : Side) (r : HaulRx) (ft : Nat) : Dev × Bool :=
  let q := r.quad.val
  if !d.receiving s q then (d, false) else
  match r.bad with
  | some 0 => ((d.haulAck s q true).haulViolation s q 0, false)
  | some 1 => ((d.haulAck s q true).haulViolation s q 1, false)
  | some 2 => (((d.haulOut s q ftCreditReset []).creditsReset s q).haulViolation s q 2, false)
  | some _ => (d.haulViolation s q 3, false)
  | none =>
    let want := (d.quad s q).rx
    if r.seq = want then
      let d := (d.modQuad s q fun x => { x with rx := (want + 1) % 256 }).haulAck s q false
      if d.accepts s q ft then (d, true) else (d.haulViolation s q 3, false)
    else if (want + 256 - r.seq) % 256 ≤ 128 then (d, false)
    else ((d.haulAck s q true).haulViolation s q 4, false)

/-- The 256 bits that an issue's four blocks carry, in symbols of four bits (R387). -/
def relayWord (l : List Nat) : Nat := l.zipIdx.foldl (fun a v => a + v.1 % 16 * 16 ^ v.2) 0 % 2 ^ 256

/-- RELAY: relayed symbols of a run of issues, decrypted (R388, R389). They are used only once the relay key is agreed. -/
def relay (s : Side) (r : HaulRx) (first : Nat) (issues : List (List Nat)) (d : Dev) : Dev :=
  match d.haulReceive s r ftRelay with
  | (d, false) => d
  | (d, true) =>
    let q := r.quad.val
    if !(d.relayed s && (d.quad s q).keyed) then d else
    let words := issues.map relayWord
    d.modQuad s q fun x =>
      { x with heard := x.heard ++ (haulData ftRelay (first :: issues.length :: words)).flatMap (leNats 8)
               relayed := words.zipIdx.foldl (fun t v =>
                 tset none t (first + v.2) (some (v.1 ^^^ relayStream x.key (first + v.2)))) x.relayed }

/-- RELAY_TAG: a tag that is not the GMAC of the RELAY frames before it acts as the late alarm in a receiving half (R389). -/
def relayTag (s : Side) (r : HaulRx) (first : Nat) (tag : BitVec 128) (d : Dev) : Dev :=
  match d.haulReceive s r ftRelayTag with
  | (d, false) => d
  | (d, true) =>
    let x := d.quad s r.quad.val
    let d := d.modQuad s r.quad.val fun x => { x with heard := [] }
    if tag.toNat = relayMac x.key first x.heard ∨ !d.relayed s then d else d.lateAlarm s

/-- KEY: a message of the relay key exchange; `done` is the last one and `ok` its authentication (R389). -/
def haulKey (s : Side) (r : HaulRx) (done ok : Bool) (d : Dev) : Dev :=
  match d.haulReceive s r ftKey with
  | (d, false) => d
  | (d, true) =>
    let q := r.quad.val
    if done then
      (d.modQuad s q fun x => { x with keyed := ok, key := Config.relayKey d.free, tagged := 0, tagData := [], heard := [] }).draw
    else ((d.haulSend s q ftKey d.keyWords).1).draw

/-- The receive file of a sending burst is created at its first line (R390), in the free space of the reserve. -/
def Dev.newSpoilRx (d : Dev) (s : Side) : Dev :=
  let len := d.reserveFree s / 64 * 64
  if len = 0 then d.mod s fun h => { h with haul := { h.haul with spoilRx := none } } else
  let id := d.newFileId s
  let f : FileRec := { id := id, slot := 0, length := len, spoil := 6 }
  ((d.mod s fun h => { h with files := h.files ++ [f], haul := { h.haul with spoilRx := some id } }).setRg s.code .haulSpoilFile 0
    (BitVec.ofNat 32 id)).draw

/-- SPOIL: a half with ROLE 1 stores the line as it came, or counts it as lost (R390). Whether a line begins a sending burst
is not told by the frame and is a free value (log entry 21). -/
def spoil (s : Side) (r : HaulRx) (line : List Byte) (d : Dev) : Dev :=
  match d.haulReceive s r ftSpoil with
  | (d, false) => d
  | (d, true) =>
    if d.quadRole s r.quad.val = 0 then d else
    let begins : Bool := (d.half s).haul.spoilRx.isNone || decide (Config.firmware 21 d.free % 2 = 1)
    let d := if begins then d.draw.newSpoilRx s else d.draw
    match (d.half s).haul.spoilRx with
    | none => d.bump s.code .haulSpoilLost
    | some id =>
      match (d.half s).file id with
      | none => d.bump s.code .haulSpoilLost
      | some f =>
        if f.length < f.received + 64 then d.bump s.code .haulSpoilLost else
        let n := f.received / 64
        d.mod s fun h => h.modFile id fun f =>
          { f with received := f.received + 64
                   data := memWrite (memWrite f.data (64 * n) (line.take 64)) (tagBase + 16 * n) ((line.drop 64).take 13) }

/-! ## Acknowledgement and echo -/

/-- Frames after the one that ACK_SEQ names; all when it names none. -/
def afterAck (n : Nat) (l : List HFrame) : List HFrame :=
  if l.any fun f => f.1 = n then ((l.dropWhile fun f => decide (f.1 ≠ n)).drop 1) else l

/-- ACK: frames are acknowledged, credits come back, NAK asks for a replay (R376). -/
def haulAckFrame (s : Side) (q ackSeq credits : Nat) (nak : Bool) (d : Dev) : Dev :=
  if !d.receiving s q then d else
  let d := d.modQuad s q fun x =>
    { x with replay := afterAck ackSeq x.replay, credits := min 64 (x.credits + credits) }
  (if nak then d.replayFrames s q else d).haulFlush s q

/-- CREDIT_RESET (R391). -/
def haulCreditReset (s : Side) (q : Nat) (d : Dev) : Dev := if d.receiving s q then d.creditsReset s q else d

/-- ECHO: its reply is due 64 SC cycles later (R378). -/
def haulEcho (s : Side) (q : Nat) (cookie : BitVec 64) (d : Dev) : Dev :=
  if !d.receiving s q then d else d.modQuad s q fun x => { x with echoes := x.echoes ++ [cookie] }

/-- ECHO_REPLY_SEND: the oldest ECHO is answered (R378). -/
def haulEchoReplySend (s : Side) (q : Nat) (d : Dev) : Dev :=
  if !d.receiving s q then d else
  match (d.quad s q).echoes with
  | [] => d
  | c :: rest => (d.modQuad s q fun x => { x with echoes := rest }).haulOut s q ftEchoReply [c.toNat]

/-- ECHO_REPLY: the round trip sets MEASURED (R378). -/
def haulEchoReply (s : Side) (q roundTrip : Nat) (d : Dev) : Dev :=
  if d.receiving s q then d.setMeasured s q roundTrip else d

/-! ## Cascade time and fire (R378 to R382) -/

/-- HAUL_CASCADE.DOWN. -/
def Dev.downQuads (d : Dev) : List Nat := quads.filter fun q => (d.rf 0 .haulCascade 0 7 4).testBit q

def Dev.isMaster (d : Dev) : Bool := d.rf 0 .haulCascade 0 2 2 = 1

/-- A frame goes to every downstream quad. -/
def Dev.toDown (d : Dev) (ft : Nat) (fields : List Nat) : Dev := d.downQuads.foldl (fun d q => d.haulPost .w q ft fields) d

/-- Effective latency of a quad: MEASURED + ADJ, with ADJ signed (R378). -/
def Dev.latency (d : Dev) (s : Side) (q : Nat) : Int :=
  (d.rf s.code .haulRxLat q 11 0 : Int) + sgn 1 (d.rf s.code .haulRxLat q 23 16)

/-- TIME: a non-master takes the cascade time from its upstream quad and sends its own on (R379). -/
def haulTime (s : Side) (r : HaulRx) (t : BitVec 64) (d : Dev) : Dev :=
  match d.haulReceive s r ftTime with
  | (d, false) => d
  | (d, true) =>
    let q := r.quad.val
    if d.isMaster ∨ d.rf 0 .haulCascade 0 1 0 ≠ q then d else
    let v : BitVec 64 := BitVec.ofInt 64 ((t.toNat : Int) + d.latency .w q)
    Dev.toDown { d with casc := { d.casc with ctime := v } } ftTime [v.toNat]

/-- A cascade fire at T reaches this module: both halves are named. -/
def Dev.cascadeFire (d : Dev) (t : BitVec 64) : Dev := { d with casc := { d.casc with fires := d.casc.fires ++ [(t, 3)] } }

/-- HAUL_FIRE: FIRE is forwarded downstream; one less than 64 SC cycles before its T fires nothing (R380, R382). -/
def haulFire (s : Side) (r : HaulRx) (t : BitVec 64) (d : Dev) : Dev :=
  match d.haulReceive s r ftFire with
  | (d, false) => d
  | (d, true) =>
    let d := d.toDown ftFire [t.toNat]
    if t.toNat < d.casc.ctime.toNat + 64 then d.raise .w blkHaul 2 else d.cascadeFire t

/-- The master starts a cascade fire at the present cascade time plus HAUL_FIRE_LEAD (R380). -/
def Dev.startCascade (d : Dev) : Dev :=
  let t := d.casc.ctime + BitVec.ofNat 64 (d.rf 0 .haulFireLead 0 15 0)
  (d.toDown ftFire [t.toNat]).cascadeFire t

/-- A write of HAUL_CTRL: TIME_SYNC and FIRE_TX, on the master only (R379, R380). -/
def Dev.haulCtrl (d : Dev) (v : Word) : Nat × Dev :=
  let sync := v.getLsbD 0
  let fire := v.getLsbD 1
  if (sync || fire) && !d.isMaster then (stWrong, d) else
  let d := if sync then d.toDown ftTime [d.casc.ctime.toNat] else d
  (stOk, if fire then d.startCascade else d)

/-! ## Cascade flags (R383) -/

/-- Incoming flags take the values of a frame. -/
def Dev.applyFlags (d : Dev) (s : Side) (mask values : BitVec 8) : Dev :=
  let old : BitVec 8 := BitVec.ofNat 8 (d.rf s.code .haulFlagIn 0 7 0)
  d.setRf s.code .haulFlagIn 0 7 0 ((old &&& ~~~mask) ||| (values &&& mask)).toNat

/-- FLAG: the values apply at the receiving half's own burst SC cycle A; a frame after A applies at once and is late. Flags
for a half that is neither ARMED nor in a burst go nowhere (log entry 22). -/
def haulFlag (s : Side) (r : HaulRx) (a : Nat) (mask values : BitVec 8) (d : Dev) : Dev :=
  match d.haulReceive s r ftFlag with
  | (d, false) => d
  | (d, true) =>
    let f := (d.half s).face
    if !f.active then d
    else if f.bursting && decide (a + 48 < f.burst.cycle) then
      ((d.applyFlags s mask values).bump s.code .haulFlagIn 0 31 16).raise s blkHaul 3
    else d.mod s fun h => { h with haul := { h.haul with flags := h.haul.flags ++ [(a, mask, values)] } }

/-- FLAG_APPLY: the half's burst reaches the earliest apply cycle that waits. -/
def flagApply (s : Side) (d : Dev) : Dev :=
  let l := (d.half s).haul.flags
  if !(d.half s).face.bursting then d else
  match l with
  | [] => d
  | x :: rest =>
    let first := rest.foldl (fun m y => if y.1 < m.1 then y else m) x
    (d.mod s fun h => { h with haul := { h.haul with flags := l.erase first } }).applyFlags s first.2.1 first.2.2

/-- Flags at a fire are 0 (R383). -/
def Dev.clearFlags (d : Dev) (s : Side) : Dev := d.setRf s.code .haulFlagIn 0 7 0 0

/-! ## Alignment of modules (R384, R385) -/

/-- A write of HAUL_XMOD: only while no half is ARMED, RUNNING, DRAINING or arming. A new PHASE starts the phase move and
loses the alignment; ALIGNED stores TW's present FACE_FIRE_OFFSET. -/
def Dev.xmodWrite (d : Dev) (v : Word) : Nat × Dev :=
  if d.west.locked || d.east.locked then (stWrong, d) else
  let phase := if 9999 < fld v 13 0 then d.rf 0 .haulXmod 0 13 0 else fld v 13 0
  if phase ≠ d.rf 0 .haulXmod 0 13 0 then
    let d := (d.setRf 0 .haulXmod 0 13 0 phase).xmodLost
    (stOk, { d with clk := { d.clk with phaseBusy := true } })
  else if v.getLsbD 16 then
    (stOk, (d.setRf 0 .haulXmod 0 16 16 1).setRf 0 .haulXmodRef 0 15 0 (d.rf 0 .faceFireOffset 0 15 0))
  else (stOk, d.setRf 0 .haulXmod 0 16 16 0)

/-- PHASE_MOVE_COMPLETE: the grid delay of HAUL_XMOD.PHASE is in force (R384, R432). -/
def phaseMoveComplete (d : Dev) : Dev :=
  { d with clk := { d.clk with phaseBusy := false, phase := d.rf 0 .haulXmod 0 13 0 } }

/-- FACE_FIRE_OFFSET has moved more than 1.0 ps from HAUL_XMOD_REF (R385). -/
def Dev.offsetMoved (d : Dev) : Bool :=
  decide (8 < (sgn 2 (d.rf 0 .faceFireOffset 0 15 0) - sgn 2 (d.rf 0 .haulXmodRef 0 15 0)).natAbs)

/-- The alignment is judged again after a sweep (R385). -/
def Dev.xmodCheck (d : Dev) : Dev := if d.offsetMoved then d.xmodLost else d

/-- A write of HAUL_RX_LAT: ADJ (R378, R385). -/
def Dev.adjWrite (d : Dev) (s : Side) (q : Nat) (v : Word) : Nat × Dev :=
  (stOk, (d.setRf s.code .haulRxLat q 23 16 (fld v 23 16)).xmodLost)

/-- A write of HAUL_CASCADE (R379, R385). -/
def Dev.cascadeWrite (d : Dev) (v : Word) : Nat × Dev :=
  (stOk, (d.setRg 0 .haulCascade 0 (pack [(8, fld v 8 8), (4, fld v 7 4), (2, fld v 2 2), (0, fld v 1 0)])).xmodLost)

/-! ## What arming requires (R388) -/

/-- ARM of a half that receives relay: its plan permits Haul fire, and LAG covers the latency of every relay quad. -/
def Dev.relayReady (d : Dev) (s : Side) : Bool :=
  !d.relayed s || ((PlanImg.fireSrc (d.half s).planRd).testBit 1 &&
    quads.all fun q => decide (d.latency s q + 160 ≤ (d.rf s.code .haulRelay 0 27 16 : Int)))

/-- RELAY_FRAME_CLOSE: 15 issues, or 64 SC cycles after the first (R387). -/
def relayFrameClose (s : Side) (q : Nat) (d : Dev) : Dev := if d.relays s then d.relayClose s q else d

end Sys2Proof.Machine
end

