-- ==== Sys2Proof/Machine/Stairwell.lean ====
section
/-! DEFINITION. The Stairwell's training and receiving side (R396 to R401) and the NoC requests of fabric ports (R405 to
R407). -/
namespace Sys2Proof.Machine

/-! ## Training -/

/-- The end is in TRAINING or RETRAIN. -/
def StwSt.training (x : StwSt) : Bool := x.state = 1 || x.state = 3

/-- The stop point of R401 is in force: function 3 of the west half is host-assisted. -/
def Dev.stwHost (d : Dev) : Bool := d.west.assisted 3

/-- An end starts training from OFF or DOWN. The host's stop point follows the continuity check, which the model takes
to be over at once. A die that its strap holds in reset trains nothing (R13). -/
def Dev.stwStart (d : Dev) (s : Side) (fresh : Bool) : Dev :=
  if d.held.getLsbD s.code then d else
  (d.mod s fun h => h.modStw fun x =>
    { x with state := 1, attempts := 0, fresh := fresh, stop := d.stwHost }).emit (.stw s false [] [])

/-- A retrain is forced at an end that is UP: traffic is held, ATTEMPTS := 0, STW_RETRAIN (R397, R399). -/
def Dev.stwRetrain (d : Dev) (s : Side) : Dev :=
  if (d.half s).stw.state ≠ 2 then d else
  (((d.mod s fun h => h.modStw fun x =>
    { x with state := 3, attempts := 0, fresh := false, stop := d.stwHost }).bump s.code .stwRetrainCnt).raise
      s blkStw 0).emit (.stw s false [] [])

/-- STW_TRAINING_PATTERN: the partner's pattern reaches an end (R397). -/
def stwTrainingPattern (s : Side) (d : Dev) : Dev :=
  match (d.half s).stw.state with
  | 2 => d.stwRetrain s
  | 4 => d.stwStart s false
  | _ => d

/-- STW_LOCK_LOSS: an active lane loses lock (R397). -/
def stwLockLoss (s : Side) (lane : Nat) (d : Dev) : Dev :=
  let d := d.setRf s.code .stwLane lane 8 8 0
  if (d.rg s.code .stwLanes).getLsbD (16 + lane) then d.stwRetrain s else d

/-- STW_DOWN_RETRY: 1 ms in DOWN has elapsed (R397). -/
def stwDownRetry (s : Side) (d : Dev) : Dev := if (d.half s).stw.state = 4 then d.stwStart s false else d

/-- STW_WIRE_FAULT: a lane fails continuity (R22, R397). -/
def stwWireFault (s : Side) (lane : Nat) (d : Dev) : Dev :=
  (((d.mod s fun h => h.modStw fun x => { x with broken := bitSet x.broken lane }).setRf s.code .stwLane lane 9 8 0)).raise
    s blkStw 2

/-! ## Down (R400) -/

/-- Address of the other half: a fabric request crosses the Stairwell. -/
def NocPend.cross (p : NocPend) : Bool := decide (p.req.addr / 2 ^ 40 = (dieSide p.die).other.code)

/-- Enter DOWN: held requests are answered DEGRADED, held responses and acknowledgements are discarded, remote caching is
dropped in both halves, and the link key is gone. -/
def Dev.stwEnterDown (d : Dev) (s : Side) : Dev :=
  let first := (d.half s.other).stw.state ≠ 4
  let d := (d.mod s fun h => h.modStw fun x =>
    { x with state := 4, stop := false, replay := [], wait := []
             pend := x.pend.map fun p =>
               if p.held then { p with held := false, ready := some (stDegraded, []) }
               else if p.cross && !p.here then { p with ready := none } else p }).raise s blkStw 1
  let d := if first then d.dropRemote else d
  { d with sec := { d.sec with linkKey := false } }

/-- An attempt fails at an end; the third puts it DOWN (R397). -/
def Dev.stwFail (d : Dev) (s : Side) : Dev :=
  let x := (d.half s).stw
  if !x.training then d
  else if 2 ≤ x.attempts then d.stwEnterDown s
  else d.mod s fun h => h.modStw fun x => { x with attempts := x.attempts + 1, stop := d.stwHost }

/-- STW_ATTEMPT_TIMEOUT (R397). -/
def stwAttemptTimeout (s : Side) (d : Dev) : Dev := d.stwFail s

/-! ## The on-chip network (R403, R406) -/

/-- Stop of a fabric port as SRC and DST code it: die, ring, stop (R403, R406). -/
def portStop (die p : Nat) : Nat := 128 * (die / 2) + 16 * (2 * (die % 2) + p / 16) + p % 16 / 2

/-- Hops between two stops of a ring of 10, in the shorter direction (R403). -/
def ringHops (a b : Nat) : Nat := min ((b + 10 - a) % 10) ((a + 10 - b) % 10)

/-- Stops that a flit visits on its ring, its own not counted, in the shorter direction; of two equal ways the rising one
(DESIGN CHOICE, log entry 63). -/
def ringWay (a b : Nat) : List Nat :=
  let up := (b + 10 - a) % 10
  if up ≤ (a + 10 - b) % 10 then (List.range up).map fun k => (a + k + 1) % 10
  else (List.range ((a + 10 - b) % 10)).map fun k => (a + 9 - k) % 10

/-- A place of a T-die's NoC: a stop of a ring, a level-1 switch, or a port of the ridge root (R403). -/
inductive NocPlace where
  | stop (ring stop : Nat) | switchA | switchB | root | atticPort | cellarPort | bridge
deriving DecidableEq, Repr

/-- The switch that a ring's gateway, stop 9, joins. -/
def ringSwitch (ring : Nat) : NocPlace := if ring < 2 then .switchA else .switchB

/-- Places that a flit from a fabric port passes on its way to a port of the ridge root (R403). -/
def portWay (die p : Nat) (goal : NocPlace) : List NocPlace :=
  let ring := 2 * (die % 2) + p / 16
  ((ringWay (p % 16 / 2) 9).map fun k => NocPlace.stop ring k) ++ [ringSwitch ring, .root, goal]

/-- Where a request leaves its die's NoC: the Stairwell bridge for the other half, else the Attic or the Cellar port. -/
def NocReq.goal (r : NocReq) (die : Nat) : NocPlace :=
  if r.addr / 2 ^ 40 ≠ (dieSide die).code then .bridge
  else if 0x8000000000 ≤ r.addr % 2 ^ 40 then .cellarPort else .atticPort

/-- A request packet's fields, little-endian (R406); none for a packet that is no request of a fabric port. -/
def NocReq.parse (l : List Byte) : Option NocReq :=
  let rd (i : Nat) : Byte := l.getD i 0
  let type := rdLE rd 0 1
  if l.length < 16 ∨ (type ≠ 1 ∧ type ≠ 2) then none else
  let key := rdLE rd 6 2
  some { write := decide (type = 2), txn := rdLE rd 2 2
         lawful := decide (rdLE rd 1 1 = 0) && decide (rdLE rd 4 2 = 0) && decide (key < 2048) && decide (rdLE rd 8 6 < 2 ^ 44)
                     && decide (rdLE rd 15 1 = 0)
         key := key % 1024, keyed := key.testBit 10, addr := rdLE rd 8 6, len := rdLE rd 14 1, data := l.drop 16 }

/-- The response packet of a request: TXN is copied, DST is the port's stop and SRC the ridge root of the die that answers; KEY
and ADDR are the request's (DESIGN CHOICE, log entry 63). It carries a payload only when its STATUS is OK (R406, R407). -/
def NocPend.packet (p : NocPend) (st : Nat) (data : List Byte) : List Byte :=
  let data := if st = stOk ∧ !p.req.write then data else []
  leBytes 1 (if p.req.write then 0x82 else 0x81) ++ leBytes 1 st ++ leBytes 2 p.req.txn
    ++ leBytes 1 (Config.rootStop p.req.addr p.die) ++ leBytes 1 (portStop p.die p.port)
    ++ leBytes 2 (p.req.key + 1024 * b1 p.req.keyed) ++ leBytes 6 p.req.addr ++ leBytes 1 data.length ++ leBytes 1 0 ++ data

/-- The request packet as its bridge sends it: the port's stop stands in SRC, the stop it goes to in DST (R406). -/
def NocPend.request (p : NocPend) : List Byte :=
  leBytes 1 (if p.req.write then 2 else 1) ++ leBytes 1 0 ++ leBytes 2 p.req.txn ++ leBytes 1 (portStop p.die p.port)
    ++ leBytes 1 (Config.rootStop p.req.addr p.die) ++ leBytes 2 (p.req.key + 1024 * b1 p.req.keyed) ++ leBytes 6 p.req.addr
    ++ leBytes 1 p.req.len ++ leBytes 1 0 ++ p.req.data

/-! ## Fabric ports (R236, R237) -/

/-- NoC port p of an F-die. -/
def Half.port (h : Half) (die p : Nat) : PortSt := tget {} h.fab.ports (32 * (die % 2) + p)

def Half.setPort (h : Half) (die p : Nat) (x : PortSt) : Half :=
  { h with fab := { h.fab with ports := tset {} h.fab.ports (32 * (die % 2) + p) x } }

/-- The half's ports as a partial reset takes them: a packet in progress toward the fabric goes on with beats of 0, one from
the fabric is dropped, and what waited is gone. -/
def PortSt.cut (x : PortSt) : PortSt :=
  { x with rx := [], wires := 0, tx := if x.begun then (x.tx.take 1).map fun l => l.map fun _ => 0 else [] }

/-- A response packet reaches its port: it is sent, as beats where the port's wires are driven (R236). -/
def Dev.deliver (d : Dev) (p : NocPend) (st : Nat) (data : List Byte) : Dev :=
  let packet := p.packet st data
  let x := (d.half (dieSide p.die)).port p.die p.port
  (if x.on then d.mod (dieSide p.die) fun h => h.setPort p.die p.port { x with tx := x.tx ++ [packet] } else d).emit
    (.noc p.die p.port packet)

/-! ## NoC requests of fabric ports -/

/-- The half a management address names. -/
def addrSide (a : Nat) : Option Side := if a / 2 ^ 40 = 0 then some .w else if a / 2 ^ 40 = 1 then some .e else none

/-- Offset in the Attic's free user space of a half, when the address lies there (R283). -/
def Dev.freeAttic (d : Dev) (home : Side) (off n : Nat) : Option Nat :=
  let lo := 0x100000000 + d.stageSize home
  if lo ≤ off ∧ off + n ≤ 0x100680000 then some (off - 0x100000000) else none

/-- Line of the Cellar window, when the offset lies there (R267). -/
def cellarOff (off : Nat) : Option Nat := if 0x8000000000 ≤ off ∧ off < 0x9000000000 then some (off - 0x8000000000) else none

/-- The key index names a FILE or RESULT slot of the OWNER that signed the image in force (R407). -/
def Dev.nocKeyOk (d : Dev) (key : Nat) : Bool :=
  let k := tget {} d.sec.slots key
  !d.cfg.service && (k.kind = .file || k.kind = .result) && decide (k.owner = (tget {} d.sec.slots d.cfg.keyId).owner)

/-- A keyed access to a line of a file at its home: status, data read, state (R328, R335, R407). A Cellar that is OFFLINE
answers with an error (R273), and one that trains does so too (DESIGN CHOICE, log entry 61). -/
def Dev.nocCellar (d : Dev) (s home : Side) (r : NocReq) (line : LineOutcome) (off : Nat) : Nat × List Byte × Dev :=
  if (d.half home).cel.state ≠ 3 then (stDegraded, [], d) else
  match (d.half home).fileAt home (off / 64) with
  | none => (stIntegrity, [], d.raise home blkXts 1)
  | some f =>
    let lbn := f.lineIn home (off / 64)
    let at_ := 64 * lbn + off % 64
    let k := lbn / 64
    let fails : LineOutcome := if f.slot ≠ r.key then .metadata else if (d.half home).cel.poison (off / 64) then .uncorrectable else line
    if r.write && (d.half home).fileLocked f then (stWrong, [], d)
    else if tget 0 f.wc k ≠ 0 ∧ fails ≠ .pass then (stIntegrity, [], d.lineFails home f.id k (lbn % 64) fails false)
    else if r.write then
      let d := if home = s then d else
        d.mod s fun h => h.modAtt fun a => (touched home f.id at_ r.len).foldl AttSt.forget a
      let (st, d) := d.homeWrite home f.id at_ (r.data.take r.len)
      (st, [], d)
    else
      let now := ((d.half home).fileNow f.id).getD f
      (stOk, memRead now.data at_ r.len, d.mod home fun h => h.celTouch (off / 64) 1)

/-- What a fabric request of half s does, by the order of R407's cases: status, data read, state. -/
def Dev.nocAccess (d : Dev) (s : Side) (r : NocReq) (line : LineOutcome) : Nat × List Byte × Dev :=
  if !r.lawful || r.len = 0 || 64 < r.len || 64 < r.addr % 64 + r.len || (r.write && r.data.length ≠ r.len)
  then (stBadArg, [], d) else
  match addrSide r.addr with
  | none => (stBadArg, [], d)
  | some home =>
    let off := r.addr % 2 ^ 40
    match d.freeAttic home off r.len, cellarOff off with
    | some a, _ =>
      if r.keyed && !d.nocKeyOk r.key then (stDenied, [], d)
      else if r.write then (stOk, [], d.mod home fun h => { h with
        attic := memWrite h.attic a (r.data.take r.len)
        att := h.att.cleanse fun l => decide (r.len = 64) && decide (64 * l = a) })
      else if line ≠ .pass || (d.half home).att.poison (a / 64) then (stIntegrity, [], d.attUncorr home (a / 64))
      else (stOk, memRead (d.half home).attic a r.len, d)
    | none, some a =>
      if !r.keyed then (stBadArg, [], d)
      else if !d.nocKeyOk r.key then (stDenied, [], d)
      else d.nocCellar s home r line a
    | none, none => (stBadArg, [], d)

/-- A request reads a line of the other half's Cellar, through the half's remote-data cache: the line and the key (R285). -/
def NocPend.remote (p : NocPend) : Option (Nat × Nat) :=
  if p.cross && !p.req.write && p.req.keyed then (cellarOff (p.req.addr % 2 ^ 40)).map fun o => (o / 64, p.req.key) else none

/-- The half's remote-data cache holds the line that a request reads. -/
def Dev.nocHit (d : Dev) (s : Side) (p : NocPend) : Bool :=
  match p.remote with
  | some x => ((d.half s).att.copy x.1 x.2).isSome
  | none => false

/-- A request is carried out at its home and its response is on its way. A read that misses the remote-data cache and
succeeds brings its line there. -/
def Dev.nocPerform (d : Dev) (s : Side) (p : NocPend) : NocPend × Dev :=
  let (st, data, d) := d.nocAccess s p.req p.line
  let d := match p.remote with
    | some x => if st = stOk then remoteRead s x.1 x.2 d else
        (d.stwSendFlit s vnReq (flitOf p.request)).stwSendFlit s.other vnRsp (flitOf (p.packet st data))
    | none => if p.cross then d.stwSendFlit s.other vnRsp (flitOf (p.packet st data)) else d
  ({ p with held := false, ready := some (st, data) }, d)

/-- A request that hits the remote-data cache is answered in its own half. -/
def Dev.nocCached (d : Dev) (s : Side) (p : NocPend) : NocPend × Dev :=
  let (st, data, d') := d.nocAccess s p.req .pass
  match p.remote with
  | some x => ({ p with here := true, ready := some (st, data) }, if st = stOk then remoteRead s x.1 x.2 d else d)
  | none => ({ p with ready := some (st, data) }, d')

/-- A port works in the fabric clock of the bench holding its first column (R237). -/
def Dev.portClock (d : Dev) (die p : Nat) : Option Nat := d.benchClock die (benchOf (214 + 13 * p / 16) 0)

/-- A port takes packets: the fabric is released, the port is enabled or still ends a packet, its bench has a fabric clock, and
no partial reset holds the half (R18, R220, R237). -/
def Dev.portLive (d : Dev) (die p : Nat) : Bool :=
  let h := d.half (dieSide die)
  d.released && ((d.rg (2 + die) .fabNocPortEn).getLsbD p || (h.port die p).on) && (d.portClock die p).isSome
    && decide (h.reset = 0)

/-- NOC_PORT_REQUEST: an enabled port of an F-die sends a request (R236, R406, R407). A request across the link is answered
DEGRADED while it is DOWN (R400), and held while it trains (R405). -/
def nocPortRequest (die port : Nat) (packet : List Byte) (line : LineOutcome) (d : Dev) : Dev :=
  let s := dieSide die
  if !d.portLive die port then d else
  match NocReq.parse packet with
  | none => d
  | some r =>
  let p : NocPend := { die := die, port := port, req := r, line := line }
  let add (d : Dev) (p : NocPend) : Dev := d.mod s fun h => h.modStw fun x => { x with pend := x.pend ++ [p] }
  match addrSide r.addr with
  | none => let (p, d) := d.nocPerform s { p with line := line }; add d p
  | some home =>
    if home = s then let (p, d) := d.nocPerform s p; add d p
    else if d.nocHit s p then let (p, d) := d.nocCached s p; add d p
    else if (d.half s).stw.state = 4 then add d { p with ready := some (stDegraded, []) }
    else
      let d := if p.remote.isSome then d else d.stwSendFlit s vnReq (flitOf p.request)
      if d.stwCarries then let (p, d) := d.nocPerform s p; add d p
      else add d { p with held := true }

/-- The first pending request of a half with a transaction number, and the others. -/
def takeTxn (txn : Nat) : List NocPend → Option (NocPend × List NocPend)
  | [] => none
  | p :: t =>
    if p.req.txn = txn then some (p, t) else
    match takeTxn txn t with
    | none => none
    | some (q, r) => some (q, p :: r)

/-- The home still holds a write to the line that a request names (R269, R286), or the line is on its way into the
remote-data cache for it (R285). -/
def Dev.writeWaits (d : Dev) (p : NocPend) : Bool :=
  match addrSide p.req.addr, cellarOff (p.req.addr % 2 ^ 40) with
  | some home, some off =>
    (d.half home).att.held.any (fun w => w.touches home (off / 64))
      || (p.cross && !p.req.write && (d.half home.other).att.fills.any fun f => decide (f.line = off / 64) && decide (f.key = p.req.key))
  | _, _ => false

def Dev.setPend (d : Dev) (s : Side) (l : List NocPend) : Dev := d.mod s fun h => h.modStw fun x => { x with pend := l }

/-- NOC_RESPONSE: the response to a request of half s arrives at its port, which a partial reset keeps idle (R18, R405,
R407). -/
def nocResponse (s : Side) (txn : Nat) (d : Dev) : Dev :=
  match takeTxn txn (d.half s).stw.pend with
  | none => d
  | some (p, rest) =>
    match p.ready with
    | none => d
    | some (st, data) =>
      if p.dropped || d.writeWaits p || (p.cross && !p.here && st ≠ stDegraded && !d.stwCarries) || (d.half s).reset ≠ 0 then d
      else (d.setPend s rest).deliver p st data

/-- NOC_TIMEOUT: the initiator's timer ends, and it synthesises a TIMEOUT response (R405). The timer of a request that a
retrain holds does not run. -/
def nocTimeout (s : Side) (txn : Nat) (d : Dev) : Dev :=
  let x := (d.half s).stw
  match takeTxn txn x.pend with
  | none => d
  | some (p, rest) =>
    if p.held || (p.cross && x.training) || (d.half s).reset ≠ 0 then d else
    let d := d.mod s fun h => h.modStw fun x =>
      { x with pend := rest, late := if p.ready.isSome && !p.dropped then x.late ++ [txn] else x.late }
    ((d.bump s.code .nocTimeoutCnt).raise s blkStw 3).deliver p stTimeout []

/-- NOC_LATE: the real response to a request already answered TIMEOUT is discarded (R405). -/
def nocLate (s : Side) (txn : Nat) (d : Dev) : Dev :=
  let x := (d.half s).stw
  if !x.late.contains txn then d else
  ((d.mod s fun h => h.modStw fun x => { x with late := x.late.erase txn }).bump s.code .nocLateCnt).raise s blkStw 4

/-- FLIT_ERROR: a parity error on a NoC link drops a flit of a transaction (R408). -/
def flitError (s : Side) (txn : Nat) (d : Dev) : Dev :=
  match takeTxn txn (d.half s).stw.pend with
  | none => d.raise s blkStw 5
  | some (p, rest) => (d.setPend s ({ p with dropped := true } :: rest)).raise s blkStw 5

/-- Requests that the link held are carried out, oldest first (R398). -/
def Dev.stwRelease (d : Dev) (s : Side) : Dev :=
  let l := (d.half s).stw.pend
  let (l, d) := l.foldl (fun (a : List NocPend × Dev) p =>
    if p.held then let (p, d) := a.2.nocPerform s p; (a.1 ++ [p], d) else (a.1 ++ [p], a.2)) ([], d)
  d.setPend s l

/-! ## Agreement (R396) -/

/-- Lane groups of a width, lowest-numbered first, as masks. -/
def laneGroups : Nat → List (BitVec 16)
  | 0 => [0x000F, 0x00F0, 0x0F00, 0xF000]
  | 1 => [0x00FF, 0xFF00]
  | _ => [0xFFFF]

/-- The lowest-numbered group of a width whose lanes are all in a mask. -/
def groupIn (pass : BitVec 16) (w : Nat) : Option (BitVec 16) := (laneGroups w).find? fun g => decide (g &&& pass = g)

/-- Width that an end advertises: the lesser of TARGET and its widest group that passed. -/
def advertise (pass : BitVec 16) (target : Nat) : Option Nat :=
  if (groupIn pass 2).isSome then some (min target 2)
  else if (groupIn pass 1).isSome then some (min target 1)
  else if (groupIn pass 0).isSome then some 0 else none

/-- The width and group both ends use, from a width down. -/
def commonGroup (both : BitVec 16) : Nat → Option (Nat × BitVec 16)
  | 0 => (groupIn both 0).map fun g => (0, g)
  | w + 1 => match groupIn both (w + 1) with
    | some g => some (w + 1, g)
    | none => commonGroup both w

/-- Width and lane group of an agreement. -/
def agreement (passW passE : BitVec 16) (targetW targetE : Nat) : Option (Nat × BitVec 16) :=
  match advertise passW targetW, advertise passE targetE with
  | some a, some b => commonGroup (passW &&& passE) (min a b)
  | _, _ => none

/-- An end enters UP with the agreed epoch, width and lanes. Each receiver grants 32 credits per virtual network; with an
end fresh from reset the numbers start over from what the partner still holds (DESIGN CHOICE, log entry 31). -/
def Dev.stwEnterUp (d : Dev) (s : Side) (epoch width : Nat) (group pass : BitVec 16) (partner : StwSt) : Dev :=
  let d := d.setRg s.code .stwLanes 0 (pack [(16, group.toNat), (0, pass.toNat)])
  let d := (List.range 16).foldl (fun d l =>
    let d := d.setRf s.code .stwLane l 8 8 (b1 (pass.getLsbD l))
    let d := d.setRf s.code .stwLane l 9 9 (b1 (pass.getLsbD l || !(d.half s).stw.broken.getLsbD l))
    if d.stwHost then d else d.setRf s.code .stwLane l 5 0 (Config.firmware (1000 + 16 * s.code + l) d.free % 48)) d
  d.mod s fun h => h.modStw fun x =>
    { x with state := 2, epoch := epoch, width := width, attempts := 0, fresh := false, stop := false
             credits := [32, 32, 32, 32], broken := x.broken &&& ~~~pass
             rx := if partner.fresh then 0
                   else if x.fresh then (match partner.replay with
                     | [] => partner.tx
                     | f :: _ => f.1)
                   else x.rx }

/-- STW_TRAIN_AGREE: both ends, in training, have exchanged advertisements (R396, R397). Without a common group the
attempt fails. At the host's stop point a first training waits for COMMIT, and a retrain goes on when every lane locks at
the committed positions (R401). -/
def stwTrainAgree (passW passE : BitVec 16) (d : Dev) : Dev :=
  let w := d.west.stw
  let e := d.east.stw
  let all := decide (passW &&& passE = 0xFFFF)
  let waits (x : StwSt) : Bool := x.stop && !(x.state = 3 && all)
  if !w.training || !e.training || waits w || waits e then d else
  match agreement passW passE (d.rf 0 .stwCtrl 0 1 0) (d.rf 1 .stwCtrl 0 1 0) with
  | none => (d.stwFail .w).stwFail .e
  | some (width, group) =>
    let epoch := (max w.epoch e.epoch + 1) % 256
    let d := d.stwEnterUp .w epoch width group passW e
    let d := (d.stwEnterUp .e epoch width group passE w).draw
    let d := { d with sec := { d.sec with linkKey := true } }
    let d := ((d.stwReplay .w).stwReplay .e)
    let d := (d.stwFlush .w).stwFlush .e
    (d.stwRelease .w).stwRelease .e

/-! ## The receiving side (R394, R395, R397) -/

/-- Frame numbers up to n, counted modulo 256, leave the replay buffer. -/
def ackFrames (n : Nat) (l : List SFrame) : List SFrame := l.filter fun f => !decide ((n + 256 - f.1) % 256 < 128)

/-- STW_FRAME: a frame reaches an end that is UP. A CRC failure is counted and answered with NAK, the fourth within 1 µs
forces a retrain; another EPOCH or WIDTH forces a retrain. The trailer's acknowledgement and credits take effect, and a
flit in order is delivered. -/
def stwFrame (s : Side) (f : StwRx) (d : Dev) : Dev :=
  let x := (d.half s).stw
  if x.state ≠ 2 then d
  else if !f.crcOk then
    let d := (d.bump s.code .stwCrcCnt).stwOut s true 0 none 0 0 0
    if f.fourth then d.stwRetrain s else d
  else if f.epoch ≠ x.epoch ∨ f.width ≠ x.width then d.stwRetrain s
  else
    let c : Nat := f.cvn.val
    let d := d.mod s fun h => h.modStw fun x =>
      { x with replay := ackFrames f.ackSeq x.replay, credits := x.credits.set c (min 32 (x.credits.getD c 0 + f.credits)) }
    let d := if f.nak then d.stwReplay s else d
    let d := d.stwFlush s
    if !f.flit then d
    else if f.seq = x.rx then
      (d.mod s fun h => h.modStw fun x => { x with rx := (x.rx + 1) % 256 }).stwOut s false 0 none 0 f.vn.val 1
    else if (x.rx + 256 - f.seq) % 256 < 128 then d
    else d.stwOut s true 0 none 0 0 0

/-! ## Register writes -/

/-- A write of STW_CTRL: COMMIT ends the stop point, else WRONG_STATE; a write of TARGET (3 leaves it) or RETRAIN forces a
retrain of an end that is UP (R396, R397, R401). -/
def Dev.stwCtrlWrite (d : Dev) (s : Side) (v : Word) : Nat × Dev :=
  let commit := v.getLsbD 3
  if commit && !(d.half s).stw.stop then (stWrong, d) else
  let d := if commit then d.mod s fun h => h.modStw fun x => { x with stop := false } else d
  let t := fld v 1 0
  let d := if t = 3 then d else d.setRg s.code .stwCtrl 0 (BitVec.ofNat 32 t)
  (stOk, if t ≠ 3 ∨ v.getLsbD 2 then d.stwRetrain s else d)

/-- A write of STW_LANE with SLIP: one UI at the stop point, else WRONG_STATE (R401). -/
def Dev.stwLaneWrite (d : Dev) (s : Side) (l : Nat) (v : Word) : Nat × Dev :=
  if !v.getLsbD 16 then (stOk, d)
  else if !(d.half s).stw.stop then (stWrong, d)
  else (stOk, d.setRf s.code .stwLane l 5 0 ((d.rf s.code .stwLane l 5 0 + 1) % 48))

/-- A write of NOC_TIMEOUT: 1 to 1 000 µs, other values leave the field (R405). -/
def Dev.nocTimeoutWrite (d : Dev) (s : Side) (v : Word) : Nat × Dev :=
  let n := fld v 9 0
  (stOk, if n = 0 ∨ 1000 < n then d else d.setRg s.code .nocTimeout 0 (BitVec.ofNat 32 n))

/-- NOC_HELD.REQUESTS. -/
def StwSt.heldCount (x : StwSt) : Nat := min 0xFFFF (x.pend.filter fun p => p.held).length

end Sys2Proof.Machine
end

