-- ==== Sys2Proof/Machine/Tasks.lean ====
section
/-! DEFINITION. Control cores (chapter 16): start and reload of firmware, the task unit, watchdogs and patch units. -/
namespace Sys2Proof.Machine

def Half.modTsk (h : Half) (f : TskSt → TskSt) : Half := { h with tsk := f h.tsk }

def cores : List Nat := [0, 1, 2, 3]

/-! ## Scheduling (R416 to R418) -/

/-- Task n of the unit. -/
def TskSt.task (t : TskSt) (n : Nat) : Task := tget {} t.tasks n

def TskSt.setTask (t : TskSt) (n : Nat) (x : Task) : TskSt := { t with tasks := tset {} t.tasks n x }

/-- A task becomes READY at the tail of its priority's queue. -/
def TskSt.enqueue (t : TskSt) (n : Nat) : TskSt :=
  let x := t.task n
  let t := t.setTask n { x with st := .ready, wake := none, queue := none, since := t.tick }
  { t with ready := tset [] t.ready x.prio (tget [] t.ready x.prio ++ [n]) }

/-- The first task of the highest non-empty queue that may run on a core. -/
def TskSt.pick (t : TskSt) (c : Nat) : Option Nat :=
  (t.ready.findSome? fun q => q.2.find? fun n => (t.task n).affinity.getLsbD c)

/-- A core's task stops running: its span joins the spans of the last 100 ms (R419). -/
def Core4.free (x : Core4) (tick : Nat) : Core4 :=
  { x with task := none, spans := if x.task.isSome && decide (x.from_ < tick)
      then (x.from_, tick) :: x.spans.filter (fun p => decide (tick < p.2 + 10000)) else x.spans }

/-- Ticks of the last 10 000 that a core has spent running a task (R419). -/
def Core4.busy (x : Core4) (tick : Nat) : Nat :=
  let part (a b : Nat) : Nat := b - max a (tick - 10000)
  x.spans.foldl (fun n p => n + part p.1 p.2) (if x.task.isSome then part x.from_ tick else 0)

/-- A free running core takes its task, and the task's wait is looked at (R419). -/
def TskSt.serve (t : TskSt) (c : Nat) : TskSt :=
  let x := t.core c
  if !x.on || x.halted || x.task.isSome then t else
  match t.pick c with
  | none => t
  | some n =>
    let p := (t.task n).prio
    let wait := t.tick - (t.task n).since
    let t := { t with ready := tset [] t.ready p ((tget [] t.ready p).filter fun m => decide (m ≠ n))
                      longest := if t.longest.2 < wait then (n, wait) else t.longest }
    (t.setTask n { (t.task n) with st := .running }).setCore c { x with task := some n, from_ := t.tick }

/-- Free cores take tasks, core 0 first. -/
def TskSt.dispatch (t : TskSt) : TskSt := cores.foldl TskSt.serve t

/-- Priority number of the task that a core runs. -/
def TskSt.running (t : TskSt) (c : Nat) : Option Nat := (t.core c).task.map fun n => (t.task n).prio

/-- The allowed core whose running task has the lowest priority, when that is strictly lower than p (R416). -/
def TskSt.victim (t : TskSt) (aff : BitVec 4) (p : Nat) : Option Nat :=
  (cores.foldl (fun (a : Option (Nat × Nat)) c =>
    match t.running c with
    | none => a
    | some q =>
      if !aff.getLsbD c || q ≤ p then a else
      match a with
      | none => some (c, q)
      | some (_, b) => if b < q then some (c, q) else a) none).map Prod.fst

/-- A task becomes READY: a free allowed core takes it, or it pre-empts (R416). -/
def TskSt.wakeUp (t : TskSt) (n : Nat) : TskSt :=
  let x := t.task n
  let t := (t.enqueue n).dispatch
  if (t.task n).st ≠ .ready || t.halted then t else
  match t.victim x.affinity x.prio with
  | none => t
  | some c =>
    match (t.core c).task with
    | none => t
    | some old => ((t.setCore c ((t.core c).free t.tick)).enqueue old).dispatch

/-- Insert a task number after those with an earlier expiry, or the same expiry and a lower number. -/
def insertDue (w n : Nat) : List (Nat × Nat) → List (Nat × Nat)
  | [] => [(w, n)]
  | (v, m) :: l => if w < v ∨ (w = v ∧ n < m) then (w, n) :: (v, m) :: l else (v, m) :: insertDue w n l

/-- Waiting tasks whose delay has expired, in order of expiry and number (R417, R487). -/
def TskSt.due (t : TskSt) : List Nat :=
  (t.tasks.foldl (fun l kv => match kv.2.wake with
    | some w => if kv.2.st = .waiting ∧ w ≤ t.tick then insertDue w kv.1 l else l
    | none => l) []).map Prod.snd

/-- Expired delays make their tasks READY, unless the unit stands still. -/
def TskSt.expire (t : TskSt) : TskSt := if t.halted then t else t.due.foldl TskSt.wakeUp t

/-- The waiting task of a queue with the highest priority, the lowest number among equals (R418). -/
def TskSt.waiter (t : TskSt) (q : Nat) : Option Nat :=
  (t.tasks.foldl (fun (a : Option (Nat × Nat)) kv =>
    if kv.2.st ≠ .waiting ∨ kv.2.queue ≠ some q then a else
    match a with
    | none => some (kv.1, kv.2.prio)
    | some (_, p) => if kv.2.prio < p then some (kv.1, kv.2.prio) else a) none).map Prod.fst

/-- Entries of a queue go to the tasks that wait on it. -/
def TskSt.deliverQ (t : TskSt) (q : Nat) : Nat → TskSt
  | 0 => t
  | k + 1 =>
    let e := tget {} t.queues q
    match e.entries, t.waiter q with
    | x :: rest, some n =>
      let t := { t with queues := tset {} t.queues q { e with entries := rest } }
      ((t.setTask n { (t.task n) with got := x }).wakeUp n).deliverQ q k
    | _, _ => t

/-- Every queue's entries go to waiting tasks, unless the unit stands still. -/
def TskSt.deliver (t : TskSt) : TskSt :=
  if t.halted then t else t.queues.foldl (fun t q => t.deliverQ q.1 256) t

/-- TASK_DELAY_EXPIRE: the 10 µs tick of a T-die reaches a number. Watchdogs count down to it, and expired delays make
their tasks READY (R417, R420); a halt freezes all but the tick (R487, R489). -/
def taskDelayExpire (s : Side) (tick : Nat) (d : Dev) : Dev :=
  let t := (d.half s).tsk
  let n := tick - t.tick
  let t := { t with tick := max t.tick tick }
  let t := if t.halted then t else
    cores.foldl (fun t c => if (t.core c).on then t.setCore c { (t.core c) with wdog := (t.core c).wdog - n } else t) t
  d.mod s fun h => { h with tsk := t.expire }

/-- TASK_YIELD: the task that a core runs waits `arg` ticks (how = 0), waits on event queue `arg` (1), or ends; the core
takes another (R416 to R418). -/
def taskYield (s : Side) (core how arg : Nat) (d : Dev) : Dev :=
  let t := (d.half s).tsk
  match (t.core core).task with
  | none => d
  | some n =>
    if t.halted then d else
    let x := t.task n
    let free (x : Task) : TskSt := (t.setTask n x).setCore core ((t.core core).free t.tick)
    let t := match how with
      | 0 => free { x with st := .waiting, wake := some (t.tick + max 1 (arg % 2 ^ 24)), queue := none }
      | 1 => free { x with st := .waiting, wake := none, queue := some (arg % 64) }
      | _ => free { x with st := .dormant, wake := none, queue := none }
    d.mod s fun h => { h with tsk := t.deliver.dispatch }

/-- Entries that fault pages of a T-die kept latched enter their queues while there is room (R418). -/
def Dev.retryHeld (d : Dev) (s : Side) : Dev :=
  d.pages.foldl (fun d kv =>
    if kv.1 / 32 ≠ s.code || kv.2.held = 0 then d else
    let blk := kv.1 % 32
    (List.range 16).foldl (fun d i =>
      if !(d.page s blk).held.getLsbD i then d
      else if (tget {} (d.half s).tsk.queues blk).entries.length < queueCap s blk then
        let d := (d.post s blk (Config.faultEntry s.code blk i)).1
        d.setPage s blk { (d.page s blk) with held := bitClear (d.page s blk).held i }
      else d) d) d

/-- EVENT_QUEUE_POST: a source posts an entry, or is pushed back and keeps it (R418). -/
def eventQueuePost (s : Side) (q : Nat) (e : BitVec 64) (d : Dev) : Dev :=
  let d := (d.post s q e).1
  d.mod s fun h => h.modTsk TskSt.deliver

/-! ## Watchdogs (R420, R421) -/

def Dev.wdogMax (d : Dev) (s : Side) (c : Nat) : Nat := d.rf s.code .tskWdogCfg c 31 16

def Dev.wdogMin (d : Dev) (s : Side) (c : Nat) : Nat := d.rf s.code .tskWdogCfg c 15 0

/-- The T-die's cores stop; every task is DORMANT. -/
def TskSt.stopCores (t : TskSt) : TskSt :=
  { t with core0 := {}, core1 := {}, core2 := {}, core3 := {}, ready := []
           tasks := t.tasks.filterMap fun kv =>
             let x : Task := { kv.2 with st := .dormant, wake := none, queue := none, since := 0 }
             if x = {} then none else some (kv.1, x) }

/-- The cores restart: each runs the task of its number (DESIGN CHOICE, log entry 32), with its watchdog at MAX. -/
def Dev.startCores (d : Dev) (s : Side) : Dev :=
  d.mod s fun h => h.modTsk fun t =>
    cores.foldl (fun t c =>
      (t.setTask c { (t.task c) with st := .running }).setCore c { on := true, task := some c, wdog := d.wdogMax s c, from_ := t.tick }) t.stopCores

/-- Firmware of a T-die reloads: its cores stop (R415). -/
def Dev.startReload (d : Dev) (s : Side) : Dev :=
  (d.mod s fun h => h.modTsk fun t => { t.stopCores with reload := true, fired := [] }).raise s blkTsk 3

/-- A watchdog fires: the core alone is reset, its task is DORMANT, and WDOG_EXPIRE is raised; firmware on the others
restarts core and task. All four within 100 ms reload the die (R420). -/
def Dev.wdogFire (d : Dev) (s : Side) (c : Nat) : Dev :=
  let t := (d.half s).tsk
  let max_ := d.wdogMax s c
  let fired := (t.fired.filter fun f => decide (f.1 ≠ c) && decide (t.tick < f.2 + 10000)) ++ [(c, t.tick)]
  let t := match (t.core c).task with
    | some n => t.setTask n { (t.task n) with st := .dormant, wake := none, queue := none }
    | none => t
  let t := { t.setCore c { (t.core c).free t.tick with on := true, halted := false, wdog := max_ } with fired := fired }
  let d := (d.mod s fun h => { h with tsk := t }).raise s blkTsk 0
  if 4 ≤ fired.length then d.startReload s else d.mod s fun h => h.modTsk TskSt.dispatch

/-- WATCHDOG_KICK: accepted once the count is at or below MAX - MIN, and a firing before (R420). -/
def watchdogKick (s : Side) (c : Nat) (d : Dev) : Dev :=
  let t := (d.half s).tsk
  let x := t.core c
  if !x.on || t.halted then d
  else if x.wdog ≤ d.wdogMax s c - d.wdogMin s c then
    d.mod s fun h => h.modTsk fun t => t.setCore c { x with wdog := d.wdogMax s c }
  else d.wdogFire s c

/-- WDOG_EXPIRE: the count of a core reaches 0 (R420). -/
def wdogExpire (s : Side) (c : Nat) (d : Dev) : Dev :=
  let t := (d.half s).tsk
  if !(t.core c).on || t.halted then d else d.wdogFire s c

/-- A write of TSK_WDOG_CFG: firmware only, else DENIED; MIN not below MAX leaves the register (R421). -/
def Dev.wdogCfgWrite (d : Dev) (w : Writer) (s : Side) (c : Nat) (v : Word) : Nat × Dev :=
  if w ≠ .fw then (stDenied, d)
  else (stOk, if fld v 15 0 < fld v 31 16 then d.setRg s.code .tskWdogCfg c v else d)

/-! ## Halts (R487 to R490) -/

/-- Every core of the T-die, and with them its CC domain, stops or goes on. -/
def TskSt.setHalt (t : TskSt) (on : Bool) : TskSt :=
  cores.foldl (fun t c => t.setCore c { (t.core c) with halted := on }) t

/-- A halt of a T-die with its cause (R487). Whether it lands inside a locked sequence is firmware's, a free value: then
the lock is broken (R490). -/
def Dev.haltDie (d : Dev) (s : Side) (cause : Nat) : Dev :=
  let d := (d.mod s fun h => h.modTsk fun t => t.setHalt true).setRf 0 .dbgStatus 0 5 4 cause
  let d := if s = .w then d.freezeWriter else d
  let broken := decide (Config.firmware 2 d.free % 2 = 1)
  let d := d.draw
  if broken then (d.setRf 0 .dbgStatus 0 3 3 1).raise .w blkDbg 1 else d

/-- A halted T-die is released: watchdog counts below 1 ms rise to it, and tasks whose delay expired meanwhile become READY
(R487, R489). -/
def Dev.releaseDie (d : Dev) (s : Side) : Dev :=
  if !(d.half s).tsk.halted then d else
  (if s = .w then d.thawWriter else d).mod s fun h => h.modTsk fun t =>
    let t := cores.foldl (fun t c => t.setCore c { (t.core c) with wdog := max 100 (t.core c).wdog }) (t.setHalt false)
    t.expire.deliver.dispatch

/-! ## Patch units (R422 to R424, R427) -/

/-- The firmware image as it was copied into the region. -/
def TskSt.imageBytes (t : TskSt) : List Byte :=
  let all := (List.range 0x100000).map fun o => tget 0xFF t.image o
  all.take (Config.imageLength all)

/-- The image with the word of every enabled patch unit in place, the unit with the lower number above the others (R424). -/
def Dev.patchedImage (d : Dev) (s : Side) : List Byte :=
  (List.range 16).foldr (fun u l =>
    if !(d.rg s.code .tskPatchAddr u).getLsbD 31 then l else
    let at_ := 8 * d.rf s.code .tskPatchAddr u 19 3
    let word := leBytes 4 (d.rg s.code .tskPatchLo u).toNat ++ leBytes 4 (d.rg s.code .tskPatchHi u).toNat
    if at_ + 8 ≤ l.length then l.take at_ ++ word ++ l.drop (at_ + 8) else l) (d.half s).tsk.imageBytes

/-- The firmware hash is recomputed: SHA-384 of the image with the patches in place (R314, R424). -/
def Dev.rehash (d : Dev) (s : Side) : Dev :=
  d.mod s fun h => h.modTsk fun t => { t with hash := Config.sha384 (d.patchedImage s), hashing := false }

/-- A write of a patch unit: part 0 ADDR, 1 LO, 2 HI. `may` says whether the writer may reach patch units (R427, R492).
While EN is 1, a write of address or word is WRONG_STATE. A change of EN starts the hash (R424). -/
def Dev.patchWrite (d : Dev) (may : Bool) (s : Side) (u part : Nat) (v : Word) : Nat × Dev :=
  if !may then (stDenied, d) else
  let a := d.rg s.code .tskPatchAddr u
  let en := a.getLsbD 31
  if part = 0 then
    if en && decide (fld v 19 3 ≠ fld a 19 3) then (stWrong, d) else
    let d := d.setRg s.code .tskPatchAddr u (v &&& 0x800FFFF8)
    (stOk, if v.getLsbD 31 = en then d else d.mod s fun h => h.modTsk fun t => { t with hashing := true })
  else if en then (stWrong, d)
  else (stOk, d.setRg s.code (if part = 1 then .tskPatchLo else .tskPatchHi) u v)

/-- FW_HASH_RECOMPUTE: the hash over the image with every enabled patch in place is ready (R424). -/
def fwHashRecompute (s : Side) (d : Dev) : Dev := if (d.half s).tsk.hashing then d.rehash s else d

/-- What the patch units return for an 8-byte word of the firmware region: the enabled unit with the lowest number (R422). -/
def Dev.patched (d : Dev) (s : Side) (addr : Nat) : Option (BitVec 64) :=
  ((List.range 16).find? fun u =>
    (d.rg s.code .tskPatchAddr u).getLsbD 31 && decide (d.rf s.code .tskPatchAddr u 19 3 = addr / 8)).map fun u =>
      (d.rg s.code .tskPatchHi u) ++ (d.rg s.code .tskPatchLo u)

/-- Flash addresses of a firmware slot and of the patch set (R411). -/
def firmwareBase (slot : Nat) : Nat := 0x1000000 * slot

def patchBase : Nat := 0x2000000

/-- Version of the image in a slot (R412). -/
def Dev.slotVersion (d : Dev) (slot : Nat) : Nat := ofLe (flashRead d.dbg.flash (firmwareBase slot + 8) 4)

/-- The 1 MiB of a slot that are copied into the firmware region (R412); erased bytes are not listed. -/
def Dev.slotImage (d : Dev) (slot : Nat) : Tbl Byte :=
  (d.dbg.flash.filter fun kv => decide (firmwareBase slot ≤ kv.1) && decide (kv.1 < firmwareBase slot + 0x100000)).map fun kv =>
    (kv.1 - firmwareBase slot, kv.2)

/-- The patch set of the flash: its signature verifies under the Dwesol firmware key, and FW_HASH is the hash of the image
copied (R423). -/
def Dev.patchSet (d : Dev) (key : Nat) (image : List Byte) : Option (List (Nat × BitVec 64)) :=
  let l := flashRead d.dbg.flash patchBase 408
  let num (at_ n : Nat) : Nat := ofLe ((l.drop at_).take n)
  if Config.ecdsa key (l.take 0x138) (l.drop 0x138) && decide (ofBe ((l.drop 8).take 48) = Config.sha384 image) then
    some ((List.range (min 16 (num 4 4))).map fun u => (num (0x38 + 16 * u) 8, BitVec.ofNat 64 (num (0x40 + 16 * u) 8)))
  else none

/-- The patch set is applied to units 0 upward, and the others start with EN at 0; a set that fails applies nothing and
raises PATCH_REJECT (R423). -/
def Dev.applyPatches (d : Dev) (s : Side) (set : Option (List (Nat × BitVec 64))) : Dev :=
  let d := ((d.resetRg s.code .tskPatchAddr).resetRg s.code .tskPatchLo).resetRg s.code .tskPatchHi
  match set with
  | none => d.raise s blkTsk 4
  | some l =>
    l.zipIdx.foldl (fun d p =>
      let (a, w) := p.1
      let u := p.2
      ((d.setRg s.code .tskPatchAddr u (pack [(31, 1), (3, a / 8 % 2 ^ 17)])).setRg s.code .tskPatchLo u (w.truncate 32)).setRg
        s.code .tskPatchHi u (BitVec.ofNat 32 (w.toNat / 2 ^ 32))) d

/-- The boot ROM copies the image of a slot into a T-die's firmware region and applies the patch set (R412, R413, R415).
`key` is the Dwesol firmware key. -/
def Dev.loadFirmware (d : Dev) (key : Nat) (s : Side) (slot : Nat) : Dev :=
  let d := d.mod s fun h => { h with upper := tdropRange h.upper 0xA00000 0xB00000
                                     tsk := { h.tsk with image := d.slotImage slot, slot := slot, version := d.slotVersion slot } }
  d.applyPatches s (d.patchSet key (d.half s).tsk.imageBytes)

/-! ## Start and reload -/

/-- The slot that the boot ROM takes: the valid one with the higher version, A when they are equal (R412). -/
def Dev.bootSlot (d : Dev) : Bool → Bool → Option Nat
  | true, true => some (if d.slotVersion 0 < d.slotVersion 1 then 1 else 0)
  | true, false => some 0
  | false, true => some 1
  | false, false => none

/-- FIRMWARE_START: the boot ROM of TW (R412). `a` and `b` say whether the slots' headers and signatures hold, whose places in
an image the spec does not give (log entry 32); `key` is the Dwesol firmware key. Firmware then takes the Larder back, sets ALIVE_EN, issues SEC_NONCE and
begins DDR5 training (R442). -/
def firmwareStart (life : Life) (ident : Word × Nat × Word) (key : Nat) (a b : Bool) (d : Dev) : Dev :=
  if (d.clk.power ≠ .starting ∧ d.clk.power ≠ .run) ∨ d.west.tsk.started ∨ d.west.stuck.getLsbD blkTsk then d else
  match d.bootSlot a b with
  | none => d.raise .w blkTsk 2
  | some slot =>
    let d := ((d.loadFirmware key .w slot).mod .w fun h => h.modTsk fun t => { t with started := true }).startCores .w
    let d := (d.rehash .w).newNonce
    let d := { d with safe := { d.safe with aliveEn := true }, clk := { d.clk with power := .run } }
    let d := ((d.ldrStart.loadRemaps.loadSlots.loadBoot.loadTables .w).loadSafe .w true).scanSlots life ident
    d.mod .w Half.startTraining

/-- TE_FIRMWARE_START: TE's boot ROM checks what TW sent once the Stairwell has first reached UP (R413). -/
def teFirmwareStart (key : Nat) (ok : Bool) (d : Dev) : Dev :=
  let w := d.west.tsk
  if !w.started || d.east.tsk.started || !d.stwCarries || d.east.stuck.getLsbD blkTsk then d
  else if !ok then d.raise .e blkTsk 2
  else
    let d := ((d.loadFirmware key .e w.slot).mod .e fun h => h.modTsk fun t =>
      { t with started := true, image := w.image, version := w.version }).startCores .e
    let d := d.rehash .e
    ((d.loadTables .e).loadSafe .e true).mod .e Half.startTraining

/-- FIRMWARE_RELOAD: an uncorrectable error hits the firmware region (R415). -/
def firmwareReload (s : Side) (d : Dev) : Dev :=
  let t := (d.half s).tsk
  if !t.started || t.reload then d else (d.attUncorr s (0xA00000 / 64)).startReload s

/-- FIRMWARE_RELOAD_COMPLETE: the region is loaded again, the patch set applied, and core 0 restarts (R415). -/
def firmwareReloadComplete (key : Nat) (s : Side) (d : Dev) : Dev :=
  if !(d.half s).tsk.reload then d else
  let d := d.loadFirmware key s (d.half s).tsk.slot
  let d := d.mod s fun h => h.modTsk fun t => { t with reload := false }
  (d.startCores s).rehash s

/-! ## Register views -/

/-- READY tasks at priorities 8b to 8b + 7. -/
def TskSt.readyIn (t : TskSt) (b : Nat) : Nat :=
  min 255 ((List.range 8).foldl (fun a k => a + (tget [] t.ready (8 * b + k)).length) 0)

/-- TSK_STATUS. -/
def TskSt.statusWord (t : TskSt) : Word :=
  pack [(9, b1 t.reload), (8, t.slot),
        (4, cores.foldl (fun a c => a + b1 (t.core c).halted * 2 ^ c) 0), (0, cores.foldl (fun a c => a + b1 (t.core c).on * 2 ^ c) 0)]

end Sys2Proof.Machine
end

