-- ==== Sys2Proof/Machine/Reset.lean ====
section
/-! DEFINITION. Clocks, power states, resets, sleep and the always-on domain (chapter 17). -/
namespace Sys2Proof.Machine

/-- The module runs: powered and out of reset. -/
def Dev.powered (d : Dev) : Bool := (d.clk.power = .starting || d.clk.power = .run) && !d.held.getLsbD 0

/-- T-dies whose strap is invalid: 0b10 and 0b11 (R12, R13). -/
def Fuse.held (f : Fuse) : BitVec 2 :=
  BitVec.ofNat 2 (b1 (2 ≤ (f.straps.getD 0 0).val) + 2 * b1 (2 ≤ (f.straps.getD 1 0).val))

/-! ## Clock inputs and PLLs (R429 to R435) -/

def Dev.setClk (d : Dev) (f : ClkSt → ClkSt) : Dev := { d with clk := f d.clk }

def Dev.setAon (d : Dev) (f : AonSt → AonSt) : Dev := { d with aon := f d.aon }

/-- Every DIMM of both halves is in self-refresh, or out of it. -/
def Dev.selfRefresh (d : Dev) (on : Bool) : Dev :=
  (d.mod .w fun h => h.modCel fun c => { c with selfRef := on }).mod .e fun h => h.modCel fun c => { c with selfRef := on }

/-- TC is lost: all 512 channels are STALE, and the cross-module alignment is gone (R202, R385). -/
def Dev.loseTc (d : Dev) : Dev := ((d.staleAll .w).staleAll .e).xmodLost

/-- REF is lost (R434). -/
def Dev.refLost (d : Dev) : Dev :=
  let d := d.setClk fun c => { c with ref := {}, lock := c.lock &&& 0x10, backup := true }
  ((d.selfRefresh true).loseTc).condOn .w blkClk 0

/-- ETHCLK is lost: the Ethernet link is down (R434). -/
def Dev.ethLost (d : Dev) : Dev :=
  let d := d.setClk fun c => { c with eth := {} }
  ({ d with hst := { d.hst with linkUp := false } }).raise .w blkClk 2

/-- The crystal is lost while BC runs: the counter takes a tick derived from BC (R434). -/
def Dev.xoLost (d : Dev) : Dev :=
  ((d.setClk fun c => { c with xo := {}, tick := true }).setAon fun a => { a with xoOk := false }).raise .w blkClk 3

/-- A window of the crystal: four good ones qualify it, sixty good ones end the tick from BC (R431, R434). -/
def Dev.xoWindow (d : Dev) (good : Bool) : Dev :=
  let x := d.clk.xo
  if !good then (if x.ok then d.xoLost else d.setClk fun c => { c with xo := {} }) else
  let n := x.good + 1
  let ok := x.ok || decide (4 ≤ n)
  (d.setClk fun c => { c with xo := { ok := ok, good := n }, tick := c.tick && decide (n < 60) }).setAon fun a => { a with xoOk := ok }

/-- QUAL_WINDOW: a window of a judged input ends (R430, R431). -/
def qualWindow (i : ClkIn) (good : Bool) (d : Dev) : Dev :=
  match i with
  | .xo => d.xoWindow good
  | .ref =>
    if d.clk.ref.ok then (if good then d else d.refLost)
    else d.setClk fun c => { c with ref := if good then { ok := decide (4 ≤ c.ref.good + 1), good := c.ref.good + 1 } else {} }
  | .eth =>
    if d.clk.eth.ok then (if good then d else d.ethLost)
    else d.setClk fun c => { c with eth := if good then { ok := decide (4 ≤ c.eth.good + 1), good := c.eth.good + 1 } else {} }

/-- CLOCK_EDGE_LOSS: no edge of a qualified input for 1 µs (R430). -/
def clockEdgeLoss (i : ClkIn) (d : Dev) : Dev :=
  match i with
  | .ref => if d.clk.ref.ok then d.refLost else d
  | .eth => if d.clk.eth.ok then d.ethLost else d
  | .xo => if d.clk.xo.ok then d.xoLost else d

/-- Bit of a PLL in CLK_STATUS.LOCK. -/
def pllBit : Pll → Nat
  | .t => 0
  | .f => 1
  | .m => 2
  | .c => 3
  | .h => 4

/-- PLL_UNLOCK: a PLL that had lock loses it (R429). -/
def pllUnlock (p : Pll) (d : Dev) : Dev :=
  if !d.clk.lock.getLsbD (pllBit p) then d else
  let d := d.setClk fun c => { c with lock := bitClear c.lock (pllBit p) }
  match p with
  | .t => (d.loseTc).condOn .w blkClk 1
  | .f => d.condOn .w blkClk 1
  | .m => (d.selfRefresh true).condOn .w blkClk 1
  | .c => d.setClk fun c => { c with backup := true }
  | .h => quads.foldl (fun d q => haulClockAbsent .e q (haulClockAbsent .w q d)) d

/-- PLL-T, PLL-F and PLL-M have lock. -/
def ClkSt.refLocks (c : ClkSt) : Bool := c.lock.getLsbD 0 && c.lock.getLsbD 1 && c.lock.getLsbD 2

/-- PLL_LOCK: a PLL locks after its reference has qualified (R429, R430, R434). The safe requests of REF_LOST and PLL_UNLOCK
are withdrawn once all REF-referenced PLLs of the data path have lock; with all PLLs locked a Stairwell that is OFF trains
(R442). A relock of PLL-T loses the cross-module alignment (R385). -/
def pllLock (p : Pll) (d : Dev) : Dev :=
  if !d.clk.ref.ok || d.clk.lock.getLsbD (pllBit p) then d else
  let d := d.setClk fun c => { c with lock := bitSet c.lock (pllBit p), backup := c.backup && decide (p ≠ .c) }
  let d := if p = .t then d.xmodLost else d
  let d := if p = .m then d.selfRefresh false else d
  let d := if d.clk.refLocks then (d.condOff .w blkClk 0).condOff .w blkClk 1 else d
  if d.clk.lock ≠ 0x1F then d else
  let train (d : Dev) (s : Side) : Dev := if (d.half s).stw.state = 0 ∧ (d.half s).reset = 0 ∧ !(d.half s).down 10 then d.stwStart s true else d
  train (train d .w) .e

/-- A write of CLK_SRC: the device alone sets it (R434). -/
def Dev.clkSrcWrite (d : Dev) (w : Writer) (v : Word) : Nat × Dev :=
  if w ≠ .fw then (stDenied, d) else (stOk, d.setClk fun c => { c with tick := v.getLsbD 0 })

/-! ## Loss of state -/

/-- Registers of the always-on domain, which a reset keeps. -/
def aonRegs : List Rg := [.aonCfg, .aonEvent, .aonAlarmLo, .aonAlarmHi]

/-- Registers kept: those of the always-on domain in TW. -/
def keptRegs (t : Tbl Word) : Tbl Word :=
  t.filter fun kv => decide (kv.1 / 8192 < 512) && aonRegs.any fun r => decide (r.ctorIdx = kv.1 / 8192)

/-- Conditions of the always-on page that hold now raise their sources (R454, R456). -/
def Dev.conditionsOn (d : Dev) : Dev :=
  let on (d : Dev) (b : Bool) (i : Nat) : Dev := if b then d.condOn .w blkAon i else d
  let d := on (on (on d d.aon.vinWarn 0) d.aon.vbakLow 1) d.aon.overTemp 2
  let d := on d (d.aon.lidOpen && decide (d.rf 0 .aonCfg 0 8 8 = 1)) 3
  if d.safe.safeNLow then d.condOn .w blkSafe 0 else d

/-- What a loss of power or a module reset leaves: the always-on domain, the flash, the fuses and the pins (R445, R452). -/
def Dev.fresh (d : Dev) (p : PowerState) : Dev :=
  { regs := keptRegs d.regs
    west := { fab := { quarantined := d.west.fab.quarantined } }
    east := { fab := { quarantined := d.east.fab.quarantined } }
    aon := d.aon
    ldr := { d.ldr with compacting := false, hostMode := false, burning := [], frozen := none }
    dbg := { flash := d.dbg.flash }
    sec := { idKey := d.sec.idKey }
    safe := { safeNLow := d.safe.safeNLow, repaired := d.safe.repaired
              faulty := if p = .off ∨ p = .sleep then [] else d.safe.faulty }
    held := d.held
    clk := { power := p }
    free := d.free
    out := d.out }

/-- The start-up sequence begins (R442). -/
def Dev.startUp (d : Dev) : Dev := (d.fresh .starting).conditionsOn

/-- A block's checker fails: CHECKER_FAIL, and the block does not leave reset (R295). -/
def Dev.checkerFails (d : Dev) (s : Side) (blk : Nat) : Dev :=
  (d.mod s fun h => { h with stuck := bitSet h.stuck blk }).raise s blk 15

/-- The checks of start-up: the seam check and the checker tests, with the pages of the blocks whose checker fails (R295,
R476). A quarantine of a scrubber ends where the checkers of its block pass (R301). -/
def Dev.selfTests (d : Dev) (seamOk : List Bool) (checkFail : List (Side × Nat)) : Dev :=
  let d := checkFail.foldl (fun d p => d.checkerFails p.1 p.2) (d.seamCheck seamOk)
  let passes (h : Half) : Half := if h.stuck.getLsbD blkFab then h else { h with fab := { h.fab with quarantined := false } }
  (d.mod .w passes).mod .e passes

/-! ## Power (R436, R442, R443, R450 to R454) -/

/-- The always-on domain at its reset values: both VIN and VBAK were absent (R452). -/
def Dev.aonReset (d : Dev) : Dev := { d with regs := [], aon := { lidOpen := d.aon.lidOpen, overTemp := d.aon.overTemp } }

/-- POWER_ON: VIN rises through 4.4 V. The module starts, or stays in SLEEP while SLEEPING is 1; a wake that came while VIN
was low keeps its cause (R442, R451). Each die reads its position strap first (R12, R13). -/
def powerOn (held : BitVec 2) (vbak : Bool) (seamOk : List Bool) (checkFail : List (Side × Nat)) (d : Dev) : Dev :=
  if d.clk.power ≠ .off ∧ ¬(d.clk.power = .sleep ∧ !d.aon.sleeping) then d else
  let d := { d with held := held }
  let kept := decide (d.clk.power = .sleep)
  let d := if vbak || kept then d else d.aonReset
  let d := d.setAon fun a => { a with vinWarn := false }
  if d.aon.sleeping then d.setClk fun c => { c with power := .sleep } else
  ((d.setAon fun a => { a with wake := if kept then a.wake else 0 }).startUp).selfTests seamOk checkFail

/-- VIN_WARN: VIN falls through 4.2 V; the Larder writer holds and every halt is released (R307, R443, R488). -/
def vinWarn (d : Dev) : Dev :=
  let d := d.setAon fun a => { a with vinWarn := true }
  if !d.powered then d else
  let d := d.releaseDie .w
  let d := { d.stopWriter 64 with ldr := { (d.stopWriter 64).ldr with hold := true } }
  ((d.releaseDie .w).releaseDie .e).condOn .w blkAon 0

/-- VIN_WARN_CLEAR: VIN rises above 4.4 V before the cut (R443). -/
def vinWarnClear (d : Dev) : Dev :=
  let d := d.setAon fun a => { a with vinWarn := false }
  if !d.powered then d else ({ d with ldr := { d.ldr with hold := false } }).condOff .w blkAon 0

/-- VIN_CUT: the power stages cut, and the always-on domain runs on (R443). -/
def vinCut (d : Dev) : Dev := if d.clk.power = .off then d else (d.stopWriter 0).fresh .off

/-- A wake source of a sleeping module: SLEEPING is cleared and the cause recorded; the start-up follows when VIN is high
enough (R451). -/
def Dev.wakeUp (d : Dev) (cause : Fin 4) : Dev :=
  if !d.aon.sleeping then d else
  let d := d.setAon fun a => { a with sleeping := false, wake := cause }
  if d.clk.power = .sleep ∧ !d.aon.vinWarn then d.startUp else d

/-- Latch an event of the always-on domain. -/
def Dev.aonEvent (d : Dev) (i : Nat) : Dev := d.setRf 0 .aonEvent 0 i i 1

/-- A lasting condition of the always-on page begins, when the module runs. -/
def Dev.aonCond (d : Dev) (i : Nat) : Dev := if d.powered then d.condOn .w blkAon i else d

/-- AON_ALARM as one value. -/
def Dev.alarmAt (d : Dev) : Nat := (d.rg 0 .aonAlarmHi).toNat * 2 ^ 32 + (d.rg 0 .aonAlarmLo).toNat

/-- ALARM: the counter equals AON_ALARM while ALARM_EN is 1 (R453). -/
def alarm (d : Dev) : Dev :=
  if d.aon.count.toNat ≠ d.alarmAt ∨ d.rf 0 .aonCfg 0 9 9 = 0 then d else (d.aonEvent 0).wakeUp 1

/-- WAKE_N: low for 1 ms (R451). -/
def wakeN (d : Dev) : Dev := (d.aonEvent 1).wakeUp 2

/-- VBAK_LOW: VBAK falls through 2.2 V (R454). -/
def vbakLow (d : Dev) : Dev :=
  (((d.setAon fun a => { a with vbakLow := true }).aonEvent 2).aonCond 1).wakeUp 3

/-- OVER_TEMP: TW's hottest sensor passes AON_CFG.TEMP (R454). -/
def overTemp (d : Dev) : Dev :=
  (((d.setAon fun a => { a with overTemp := true }).aonEvent 3).aonCond 2).wakeUp 3

/-- LID_OPEN: LID_N high for 100 µs; it raises its fault and wakes while LID_EN is 1 (R454, R455). -/
def lidOpen (d : Dev) : Dev :=
  let d := (d.setAon fun a => { a with lidOpen := true }).aonEvent 4
  if d.rf 0 .aonCfg 0 8 8 = 0 then d else (d.aonCond 3).wakeUp 3

/-- LID_CLOSED. -/
def lidClosed (d : Dev) : Dev := (d.setAon fun a => { a with lidOpen := false }).condOff .w blkAon 3

/-- OVER_TEMP_CLEAR. -/
def overTempClear (d : Dev) : Dev := (d.setAon fun a => { a with overTemp := false }).condOff .w blkAon 2

/-- VBAK_RESTORE. The XDLY delay that it may start ends with CRYSTAL_DELAY_EXPIRE (R431). -/
def vbakRestore (d : Dev) : Dev := (d.setAon fun a => { a with vbakLow := false }).condOff .w blkAon 1

/-- CRYSTAL_DELAY_EXPIRE: started from VBAK alone, the domain treats AC as qualified (R431). -/
def crystalDelayExpire (d : Dev) : Dev := if d.clk.power ≠ .off then d else d.setAon fun a => { a with xoOk := true }

/-- XO32_STOP: in SLEEP or OFF the counter stops with the crystal, and TIME_VALID is cleared (R434, R452). -/
def xo32Stop (d : Dev) : Dev :=
  if d.clk.power ≠ .off ∧ d.clk.power ≠ .sleep then d else
  d.setAon fun a => { a with stopped := true, timeValid := false }

/-- XO32_RESUME (R434). -/
def xo32Resume (d : Dev) : Dev :=
  if d.clk.power ≠ .off ∧ d.clk.power ≠ .sleep then d else d.setAon fun a => { a with stopped := false }

/-- A write of AON_COUNT_HI is kept until AON_COUNT_LO loads both; a host's load sets TIME_VALID (R452, R453). -/
def Dev.aonCountWrite (d : Dev) (w : Writer) (hi : Bool) (v : Word) : Nat × Dev :=
  if hi then (stOk, d.setAon fun a => { a with hiWritten := v })
  else (stOk, d.setAon fun a => { a with count := a.hiWritten ++ v, timeValid := a.timeValid || decide (w ≠ .fw) })

/-- A write of AON_CFG: a TEMP outside 60 to 125 leaves the field (R454). -/
def Dev.aonCfgWrite (d : Dev) (v : Word) : Nat × Dev :=
  let t := fld v 7 0
  (stOk, d.setRg 0 .aonCfg 0 (pack [(8, fld v 9 8), (0, if t < 60 ∨ 125 < t then d.rf 0 .aonCfg 0 7 0 else t)]))

/-- ILIMIT: the input current stays at the limit for 100 µs (R436). -/
def ilimit (d : Dev) : Dev := d.raise .w blkClk 6

/-- RAIL_UV (R436). -/
def railUv (d : Dev) : Dev := d.condOn .w blkClk 5

/-- RAIL_IN_REGULATION (R469). -/
def railInRegulation (d : Dev) : Dev := d.condOff .w blkClk 5

/-! ## Module reset (R444, R445) -/

/-- MODULE_RESET: TRAP_N has been low for 20 µs. -/
def moduleReset (d : Dev) : Dev :=
  if !d.powered then d else
  let was := d.rf 0 .haulXmod 0 16 16
  let d := (d.stopWriter 0).fresh .reset
  if was = 1 then d.raise .w blkHaul 4 else d

/-- MODULE_RESET_RELEASE: TRAP_N rises, and the start-up runs (R445). -/
def moduleResetRelease (seamOk : List Bool) (checkFail : List (Side × Nat)) (d : Dev) : Dev :=
  if d.clk.power ≠ .reset then d else
  ((d.setClk fun c => { c with power := .starting }).conditionsOn).selfTests seamOk checkFail

/-! ## Partial reset (R446 to R449) -/

/-- Blocks of a reset with those that R447 adds. -/
def resetBlocks (b : BitVec 12) : BitVec 12 :=
  let b := if b &&& 0x1FB ≠ 0 then b ||| 0x004 else b
  if b.getLsbD 7 then b ||| 0x800 else b

/-- Registers of a BLOCKS bit. The vault's registers are not a half's. -/
def resetRegsOf : Nat → List RegDesc
  | 0 => regsTch
  | 1 => regsShelf
  | 2 => regsFace
  | 3 => regsDrl
  | 4 => regsQry
  | 5 => regsCal
  | 6 => regsCel
  | 7 => regsAtt
  | 8 => regsXts.drop 5
  | 9 => regsHaul
  | 10 => regsStw
  | _ => regsTsk

/-- Functions of the mode table whose block a BLOCKS bit names (R39, R425). Function 3, on Haul and Stairwell alignment,
goes with the HAUL block (DESIGN CHOICE, log entry 58). -/
def resetModes : Nat → List Nat
  | 4 => [4]
  | 5 => [1]
  | 6 => [0, 6]
  | 8 => [7]
  | 9 => [2, 3]
  | _ => []

/-- A fault page after a partial reset: reset values, but for what only power-on or a module reset ends (R469). -/
def Page.partReset (p : Page) (blk : Nat) : Page :=
  let keep := mask16 fun i => resetOnly blk i
  { (pageDefault blk) with src := p.src &&& keep, req := p.req &&& keep, noMaj := p.noMaj }

/-- The region of a re-key that a reset of XTS cuts becomes stale (R337). -/
def Dev.cutRekey (d : Dev) (s : Side) : Dev :=
  match (d.half s).xts.rekey with
  | some (id, _) => d.markStale s id
  | none => d

/-- State of a BLOCKS bit when the reset takes it. -/
def Half.resetBlock (h : Half) (safe : BitVec 256) : Nat → Half
  | 0 => { h with tch := { resetSafe := some safe } }
  | 1 => { h with shelf := {} }
  | 2 => { h.dropLive with face := { fires := h.face.fires }, tch := { h.tch with cause := 0 }, shelf := h.shelf.stopLoad }
  | 3 => { h with drl0 := {}, drl1 := {} }
  | 4 => { h.dropLive with qry := {} }
  | 5 => { h with cal := {} }
  | 6 => { h with cel := { chans := [1, 1, 1, 1], host := h.assisted 0, selfRef := true, remap := h.cel.remap, bad := h.cel.bad } }
  | 7 => { h with attic := [], tags := [], upper := []
                  att := { h.att with held := [], fills := [], patrol := 0, suspect := [], bad := []
                                      spare := h.att.spare.map fun x => (x.1, x.2.1, false) } }
  | 8 => { h with xts := {} }
  | 9 => { h with haul := {} }
  | 10 => { h with stw := { pend := h.stw.pend.map fun p => { p with dropped := true, held := false }, broken := h.stw.broken } }
  | _ => h.modTsk fun t => { t.stopCores with queues := [], fired := [], reload := false, hashing := false }

/-- A reset of TE's XTS block drops every schedule that TE holds (R324). -/
def Dev.dropSchedules (d : Dev) (s : Side) : Dev :=
  if s = .w then d else
  { d with sec := { d.sec with slots := d.sec.slots.map fun kv => (kv.1, { kv.2 with inTe := false }) } }

/-- The vault resends the schedules of the east half's files and plan (R324, R448). -/
def Dev.resendSchedules (d : Dev) (s : Side) : Dev :=
  if s = .w then d else
  ((d.east.files.map fun f => f.slot) ++ d.east.planSlots).foldl (fun d n =>
    if (d.slot n).kind ≠ .empty && (d.teRefusal n).isNone then d.toTe n else d) d

/-- A block of a half is reset (R10, R448). -/
def Dev.resetOne (d : Dev) (s : Side) (b : Nat) : Dev :=
  let safe : BitVec 256 := BitVec.ofNat 256 (bitsOf 256 fun n => (d.rg s.code .tchSafe n).getLsbD 0)
  let d := if b = 8 then (d.cutRekey s).dropSchedules s else if b = 7 then d.dropRemote else d
  let d := d.mod s fun h =>
    let h := h.resetBlock safe b
    { h with modes := (resetModes b).foldl bitClear h.modes }
  let d := d.resetRegs s.code (resetRegsOf b)
  let d := { d with latch := (resetRegsOf b).foldl (fun l (x : RegDesc) => tdropRange l (regKey s.code x.reg 0) (regKey s.code x.reg 8192)) d.latch }
  let d := if b = 9 ∧ s = .w then { d with casc := {} } else d
  let d := if b = 0 then d.staleAll s else d
  d.setPage s (resetPage b) ((d.page s (resetPage b)).partReset (resetPage b))

/-- Commands in progress that need a block being reset, FACE or the firmware of the T-die, end with DEGRADED and have no
further effect (R449). -/
def Dev.cutCommands (d : Dev) (life : Life) (s : Side) (b : BitVec 12) : Dev :=
  if !(b.getLsbD 2 || b.getLsbD 11) then d else
  let d := (d.half s).face.loading.foldl (fun d x => d.finish life x.2 stDegraded []) d
  let d := if (d.half s).face.arming then (d.mod s fun h => h.stopArming true).armPart life s stDegraded else d
  (d.mod s fun h => { h with face := { h.face with loading := [] }, cal := { h.cal with sweeping := false } }).calPart life s
    stDegraded

/-- While a partial reset holds a half, its hooks and NoC ports present idle inputs; the pairing of hook returns starts over
when it ends (R18, R235, R237). -/
def Half.idleFabric (h : Half) : Half :=
  { h with fab := { h.fab with hooks := [], ports := h.fab.ports.foldl (fun t kv => tset {} t kv.1 kv.2.cut) [] } }

/-- RESET_PART of a half begins (R446, R447). -/
def Dev.startReset (d : Dev) (life : Life) (s : Side) (blocks : BitVec 12) (r : Reply) : Dev :=
  let b := resetBlocks blocks
  let d := (d.abandon s).cutCommands life s b
  let d := (List.range 12).foldl (fun d i => if b.getLsbD i then d.resetOne s i else d) d
  d.mod s fun h => { h.idleFabric with reset := b, resetReply := some r }


/-- The roots of a half come back from the Larder (R332). -/
def Dev.restoreRoots (d : Dev) (s : Side) : Dev :=
  ((d.half s).files.map fun f => f.id).foldl (fun d id => d.restoreRoot s id) d

/-- Recovery of a BLOCKS bit, in the order of R448; `key` is the Dwesol firmware key. -/
def Dev.recoverOne (d : Dev) (key : Nat) (s : Side) : Nat → Dev
  | 10 => d.stwStart s true
  | 11 => if (d.half s).tsk.started then (d.startCores s).rehash s else d
  | 7 => if (d.half s).tsk.started then d.loadFirmware key s (d.half s).tsk.slot else d
  | 8 => (d.restoreRoots s).resendSchedules s
  | 5 => d.loadTables s
  | 0 => (d.loadSafe s false).mod s fun h => { h with tch := { h.tch with resetSafe := none } }
  | _ => d

/-- RESET_PART_COMPLETE: the named blocks have recovered, with the blocks whose checker test fails, and
the response is sent (R295, R446, R448). A block whose checker fails stays in reset. A Cellar that was reset has trained by then, or waits for the host (R279, DEDUCED, log
entry 61). -/
def resetPartComplete (life : Life) (key : Nat) (s : Side) (checkFail : List Nat) (d : Dev) : Dev :=
  let h := d.half s
  if h.reset = 0 || (h.reset.getLsbD 6 && decide (h.cel.state = 1)) then d else
  let tested (h : Half) : Half := (List.range 12).foldl (fun h b =>
    if h.reset.getLsbD b then { h with stuck := bitClear h.stuck (resetPage b) } else h) h
  let d := checkFail.foldl (fun d b => if h.reset.getLsbD b then d.checkerFails s (resetPage b) else d) (d.mod s tested)
  let d := d.mod s fun h => { h with reset := 0, resetReply := none }
  let runs (b : Nat) : Bool := h.reset.getLsbD b && !(d.half s).stuck.getLsbD (resetPage b)
  let order : List Nat := if h.reset.getLsbD 7 then [10, 7, 11, 8, 5, 0] else [10, 11, 8, 5, 0]
  let d := order.foldl (fun d b => if runs b then d.recoverOne key s b else d) d
  let d := if runs 7 && !h.reset.getLsbD 8 then d.restoreRoots s else d
  match h.resetReply with
  | some r => d.finish life r stOk []
  | none => d

/-- RESET_PART (R446): arguments, a reset of the half in progress, the Stairwell. -/
def resetPartBody (half blocks : Nat) : Body := fun life r d =>
  if 1 < half ∨ blocks = 0 ∨ 4095 < blocks then d.refuse life r stBadArg else
  let s : Side := if half = 0 then .w else .e
  if (d.half s).reset ≠ 0 then d.refuse life r stBusy
  else if s = .e ∧ d.stwDown then d.refuse life r stDegraded
  else d.startReset life s (BitVec.ofNat 12 blocks) r

/-! ## Sleep (R450) -/

/-- SLEEP: the response, the records and events that wait, DEVICE_STATE 9 in the log (R353), then the always-on domain
alone; sessions end without a frame. -/
def sleepBody (wakeAt : BitVec 64) : Body := fun life r d =>
  if d.west.locked || d.east.locked || d.cfg.load.isSome then d.refuse life r stWrong
  else if wakeAt ≠ 0 ∧ wakeAt.toNat ≤ d.aon.count.toNat then d.refuse life r stBadArg
  else
    let d := ((d.finish life r stOk []).event 2 (evSrc .w blkHst) 9).logEvents
    let d := if wakeAt = 0 then d.setRf 0 .aonCfg 0 9 9 0 else
      ((d.setRg 0 .aonAlarmLo 0 (wakeAt.truncate 32)).setRg 0 .aonAlarmHi 0 (BitVec.ofNat 32 (wakeAt.toNat / 2 ^ 32))).setRf
        0 .aonCfg 0 9 9 1
    (d.setAon fun a => { a with sleeping := true }).fresh .sleep

/-! ## Register views -/

/-- CLK_STATUS. -/
def ClkSt.statusWord (c : ClkSt) : Word :=
  pack [(9, b1 c.phaseBusy), (8, b1 c.backup), (3, c.lock.toNat), (2, b1 c.xo.ok), (1, b1 c.eth.ok), (0, b1 c.ref.ok)]

/-- PWR_STATUS: STATE is IDLE while UNCONFIGURED with no half armed; its reset value stands until firmware runs. -/
def Dev.pwrStatus (d : Dev) : Word :=
  let idle : Bool := !(d.west.face.active || d.east.face.active) && d.cfg.state = 0
  pack [(8, d.clk.k % 64), (5, b1 d.aon.vinWarn), (4, b1 d.clk.short), (3, b1 d.anyCapped), (2, b1 d.clk.hostMode),
        (0, if d.clk.power ≠ .run then 0 else if idle then 2 else 3)]

/-- AON_STATUS. -/
def Dev.aonStatus (d : Dev) (xdly : Nat) : Word :=
  let a := d.aon
  pack [(12, xdly), (8, a.wake.val), (6, b1 a.lidOpen), (5, b1 a.overTemp), (4, b1 a.vbakLow), (3, b1 a.vinWarn),
        (2, b1 a.sleeping), (1, b1 a.xoOk), (0, b1 a.timeValid)]

end Sys2Proof.Machine
end

