-- ==== Sys2Proof/Machine/Faults.lean ====
section
/-! DEFINITION. Fault pages, the SAFE net and self-test (chapter 18), and what every command leaves in order behind it. -/
namespace Sys2Proof.Machine

/-! ## Re-votes, buckets and windows -/

/-- A minority copy is rewritten: FLT_VOTE of the owning page counts it (R296). -/
def Dev.minority (d : Dev) (s : Side) (blk : Nat) : Dev :=
  if s = .e ∧ twOnly blk then d else
  let p := d.page s blk
  d.setPage s blk { p with voteCount := min (p.voteCount + 1) 0xFFFF }

/-- A word of a page has no majority: NO_MAJ asserts the SAFE net (R461). -/
def Dev.noMajority (d : Dev) (s : Side) (blk : Nat) : Dev :=
  if s = .e ∧ twOnly blk then d else d.setPage s blk { (d.page s blk) with noMaj := true }

/-- Key-slot control without majority: every slot is zeroised until the release of the safe state (R325). -/
def Dev.keyctlLost (d : Dev) : Dev :=
  Dev.raise { d with sec := { d.sec with slots := [], reinstall := true } } .w blkXts 6

/-- Owning fault page of a voted word. -/
def votedOwner : VotedWord → Side × Nat
  | .life => (.w, blkIdent)
  | .page s blk => (s, blk)
  | .clkSrc => (.w, blkClk)
  | .scrubCfg s => (s, blkFab)
  | .keyCtl => (.w, blkXts)
  | .treeRoot s _ => (s, blkAtt)

/-- REVOTE: the copies of a triplicated word are compared (R296). -/
def revote (w : VotedWord) (v : Vote) (d : Dev) : Dev :=
  match v with
  | .agree => d
  | .minority => d.minority (votedOwner w).1 (votedOwner w).2
  | .none =>
    match w with
    | .life => d.noMajority .w blkIdent
    | .clkSrc => d.noMajority .w blkClk
    | .page s blk => if s = .e ∧ twOnly blk then d else (d.noMajority s blk).raise .w blkSafe 1
    | .scrubCfg s => d.quarantineScrub s
    | .keyCtl => d.keyctlLost
    | .treeRoot s file => d.restoreRoot s file

/-- BUCKET_LEAK: a bucket above 0 loses 1 (R297). -/
def bucketLeak (s : Side) (blk idx : Nat) (d : Dev) : Dev :=
  if srcClass blk idx ≠ some .bucket then d else
  let p := d.page s blk
  d.setPage s blk { p with levels := tset 0 p.levels idx (tget 0 p.levels idx - 1) }

/-- COUNT_WINDOW_END: a counting window ends below N (R460). -/
def countWindowEnd (s : Side) (blk inst : Nat) (d : Dev) : Dev :=
  let p := d.page s blk
  d.setPage s blk { p with counts := tset 0 p.counts inst 0 }

/-! ## Writes of a fault page (R456, R463, R469) -/

/-- SRC bits that a write of FLT_STATUS clears: a condition that holds sets its bit again. -/
def Page.cleared (p : Page) (blk : Nat) (v : Word) : BitVec 16 :=
  mask16 fun i => v.getLsbD i && !resetOnly blk i && !p.active.getLsbD i

/-- A write of FLT_STATUS: the bits are cleared, and host-cleared safe requests with them. -/
def Dev.fltStatusWrite (d : Dev) (s : Side) (blk : Nat) (v : Word) : Nat × Dev :=
  let p := d.page s blk
  let c := p.cleared blk v
  let auto := mask16 fun i => automatic blk i
  (stOk, d.setPage s blk { p with src := p.src &&& ~~~c, req := p.req &&& (~~~c ||| auto) })

/-- FLT_SEVERITY after a write: severity sources that are not fixed take their field. -/
def sevWrite (blk : Nat) (old v : Word) : Word :=
  BitVec.ofNat 32 ((List.range 16).foldl (fun a i =>
    let x := match srcClass blk i with
      | some (.sev _ false) => fld v (2 * i + 1) (2 * i)
      | _ => fld old (2 * i + 1) (2 * i)
    a + x * 4 ^ i) 0)

/-- A write of FLT_SEVERITY: lowering a source below 3 withdraws its host-cleared request (R463). -/
def Dev.fltSevWrite (d : Dev) (s : Side) (blk : Nat) (v : Word) : Nat × Dev :=
  let p := d.page s blk
  let p' := { p with severity := sevWrite blk p.severity v }
  let lowered := mask16 fun i => decide (p'.sev blk i < 3) && !automatic blk i && !resetOnly blk i
  (stOk, d.setPage s blk { p' with req := p.req &&& ~~~lowered })

/-- A write of FLT_ENABLE: listed sources that are not fixed take their bit. -/
def Dev.fltEnableWrite (d : Dev) (s : Side) (blk : Nat) (v : Word) : Nat × Dev :=
  let en := mask16 fun i => srcFixed blk i || v.getLsbD i
  (stOk, d.setPage s blk { (d.page s blk) with enable := en })

/-- FLT_ENABLE as it reads: 0 for an index no chapter lists. -/
def Page.enableWord (p : Page) (blk : Nat) : Nat := (p.enable &&& mask16 fun i => (srcClass blk i).isSome).toNat

/-- The page has a counting source. -/
def hasCounting (blk : Nat) : Bool := (srcTable blk).any fun c => decide (c = .counting)

/-- A write of FLT_COUNT_CFG, or of FLT_BUCKET: a field of 0 leaves the register. -/
def Dev.fltCountWrite (d : Dev) (s : Side) (blk : Nat) (v : Word) : Nat × Dev :=
  if !hasCounting blk || fld v 31 16 = 0 || fld v 15 0 = 0 then (stOk, d)
  else (stOk, d.setPage s blk { (d.page s blk) with countCfg := v })

def Dev.fltBucketWrite (d : Dev) (s : Side) (blk : Nat) (v : Word) : Nat × Dev :=
  if fld v 23 8 = 0 ∨ fld v 7 0 = 0 then (stOk, d)
  else (stOk, d.setPage s blk { (d.page s blk) with bucket := v &&& 0x00FFFFFF })

/-- A write of FLT_FIRST: VALID clears the whole register. -/
def Dev.fltFirstWrite (d : Dev) (s : Side) (blk : Nat) (v : Word) : Nat × Dev :=
  (stOk, if v.getLsbD 31 then d.setPage s blk { (d.page s blk) with first := 0 } else d)

/-! ## The SAFE net (R464 to R470) -/

/-- SAFE_N goes low (R468). -/
def safeN (d : Dev) : Dev :=
  let d := { d with safe := { d.safe with safeNLow := true } }
  if d.powered then d.condOn .w blkSafe 0 else d

/-- SAFE_N_HIGH. -/
def safeNHigh (d : Dev) : Dev :=
  ({ d with safe := { d.safe with safeNLow := false } }).condOff .w blkSafe 0

/-- Effects of the net's assertion on a half: a burst or ARMED ends with cause SAFE, ARM work stops with the plan kept
(R130, R135, R465). -/
def Dev.safeHalf (d : Dev) (life : Life) (s : Side) : Dev :=
  let f := (d.half s).face
  let d := if f.active || f.burst.unwritten then d.abort s 9 else d
  if f.arming then (d.mod s fun h => h.stopArming true).armPart life s stWrong else d

/-- Pin-access mode ends (R493). -/
def Dev.pinsOff (d : Dev) : Dev := { d with dbg := { d.dbg with pins := false, drive := [] } }

/-- A half has reached DONE or ABORTED since event 3 last told its state, and its calibration tables have changed. -/
def Dev.justEnded (d : Dev) (s : Side) : Bool :=
  let st := (d.half s).face.state
  decide (st ≠ d.hst.face s) && (decide (st = .done) || decide (st = .aborted)) && (d.half s).cal.changed

/-- A half that has reached DONE or ABORTED has its changed calibration tables journaled (R192). -/
def Dev.journalEnd (d : Dev) (s : Side) : Dev := if d.justEnded s then d.journalCal s else d

/-- The net is asserted (R465). -/
def Dev.safeAssert (d : Dev) (life : Life) : Dev :=
  let d := { d with safe := { d.safe with asserted := true, releasing := false } }
  let d := (((((d.abandon .w).abandon .e).safeHalf life .w).safeHalf life .e).truncateLoad life).pinsOff
  (d.journalEnd .w).journalEnd .e

/-- The net follows its requests: it is asserted at once; when the last request has gone the 1 ms of R470 starts, which a
new request cancels. -/
def Dev.safeNet (d : Dev) (life : Life) : Dev :=
  match d.safeWanted, d.safe.asserted with
  | true, false => d.safeAssert life
  | true, true => { d with safe := { d.safe with releasing := false } }
  | false, true => { d with safe := { d.safe with releasing := true } }
  | false, false => d

/-- SAFE_RELEASE: 1 ms after the last request the net is released (R470). Persistent slots lost by KEYCTL_LOST come back
(R325). -/
def safeRelease (d : Dev) : Dev :=
  if !d.safe.releasing || d.safeWanted then d else
  let d := { d with safe := { d.safe with asserted := false, releasing := false, alive := d.safe.aliveEn } }
  let d := if d.sec.reinstall then
      let cert := d.sec.cert
      let d := d.loadSlots
      { d with sec := { d.sec with cert := cert } } else d
  quads.foldl (fun d q => (d.haulFlush .w q).haulFlush .e q) d

/-- ALIVE_EDGE: the 1 kHz wave reaches its next edge (R466). -/
def aliveEdge (d : Dev) : Dev :=
  { d with safe := { d.safe with alive := d.safe.aliveEn && !d.safe.asserted && !d.safe.alive } }

/-- A write of SAFE_CTRL: firmware only (R466). -/
def Dev.safeCtrlWrite (d : Dev) (w : Writer) (v : Word) : Nat × Dev :=
  if w ≠ .fw then (stDenied, d) else (stOk, { d with safe := { d.safe with aliveEn := v.getLsbD 0 } })

/-- ALIVE toggles now. -/
def Dev.aliveRun (d : Dev) : Bool := d.safe.aliveEn && !d.safe.asserted

/-- SAFE_REQ of a T-die: blocks whose page holds a request. -/
def Dev.safeReq (d : Dev) (s : Side) : Nat := bitsOf 20 fun b => (d.page s b).requests

/-! ## Self-test (R473 to R480) -/

/-- SAFE_BIST_LAST and the signature take an outcome; a mismatch is counted and raised (R480). -/
def Dev.bistLast (d : Dev) (east : Bool) (kind unit : Nat) (signature : BitVec 64) (pass : Bool) : Dev :=
  let d := d.setRg 0 .safeBistLast 0 (pack [(31, 1), (30, b1 pass), (29, b1 east), (25, kind), (0, unit % 65536)])
  let d := (d.setRg 0 .safeBistSigLo 0 (signature.truncate 32)).setRg 0 .safeBistSigHi 0 (BitVec.ofNat 32 (signature.toNat / 2 ^ 32))
  if pass then d else (d.bump 0 .safeBistStatus 0 31 16).raise .w blkSafe 2

/-- A faulty Attic row is placed into a spare row of its bank and journaled, or finds none (R298, R477). -/
def Dev.softRepair (d : Dev) (s : Side) (line : Nat) : Dev :=
  let d := d.raise .w blkSafe 3
  let bank := line % 16
  let a := (d.half s).att
  if (a.spare.filter fun r => decide (r.1 = bank)).length < 8 then
    (d.mod s fun h => { h with att := { h.att with spare := h.att.spare ++ [(bank, line, false)] } }).journalRemap
      (16 * s.code + 8)
  else d.raise s blkAtt 4

/-- TEST and ARG of BIST_RUN are in the table of R473. -/
def bistArgOk (test arg : Nat) : Bool :=
  match test with
  | 1 => decide (arg % 65536 < 2) && decide (0 < arg / 65536) && decide (arg / 65536 < 4096)
  | 2 => decide (arg % 256 < 2) && decide (arg / 256 < 5)
  | 3 => decide (arg < 4)
  | 4 => decide (arg < 4)
  | 5 => decide (arg < 3)
  | 6 => decide (arg % 256 < 2) && decide (arg / 256 < 8)
  | 7 => decide (arg < 9)
  | 8 => decide (arg = 0)
  | 9 => decide (arg = 0)
  | 10 => decide (arg = 0)
  | _ => false

/-- The T-die that a test names. -/
def bistSide (test arg : Nat) : Side :=
  match test with
  | 3 => dieSide arg
  | 4 => dieSide arg
  | 5 => if arg = 2 then .e else .w
  | 7 => if arg < 4 ∨ arg = 8 then .w else .e
  | 8 => .w
  | 9 => .w
  | 10 => .w
  | _ => if arg % 2 = 0 then .w else .e

/-- BLOCKS bits of the units that a test names. -/
def bistBlocks (test arg : Nat) : BitVec 12 :=
  match test with
  | 1 => BitVec.ofNat 12 (arg / 65536)
  | 2 => match arg / 256 with
    | 0 => 0x080
    | 1 => 0x002
    | 2 => 0x020
    | 3 => 0x010
    | _ => 0x040
  | 6 => 0x021
  | 7 => if arg = 8 then 0x400 else 0x200
  | 9 => 0xFFF
  | _ => 0

/-- Fuse spare rows of a bank: two per Attic bank, four per shelf RAM bank, one per block memory (R477). -/
def fuseSpares : Nat → Nat
  | 0 => 2
  | 1 => 4
  | 5 => 1
  | _ => 0

/-- A faulty row is recorded, in a bank the test finds. -/
def Dev.faultyRow (d : Dev) (memory die row : Nat) : Dev :=
  let bank := if memory = 0 then row % 16 else Config.firmware 6 d.free
  Dev.draw { d with safe := { d.safe with faulty := d.safe.faulty ++ [{ memory, die, bank, row }] } }

/-- REPAIR blows the fuses of every recorded row that finds a fuse spare; the others stay recorded (R477). -/
def SafeSt.repair (x : SafeSt) : SafeSt :=
  x.faulty.foldl (fun x r =>
    if (x.repaired.filter fun q => decide (q.memory = r.memory) && decide (q.die = r.die) && decide (q.bank = r.bank)).length
        < fuseSpares r.memory
    then { x with repaired := x.repaired ++ [r] } else { x with faulty := x.faulty ++ [r] }) { x with faulty := [] }

/-- What a test leaves changed (R474, R475, R477). -/
def Dev.bistEffect (d : Dev) (test arg : Nat) (agrees : Bool) : Dev :=
  let s := bistSide test arg
  match test with
  | 2 =>
    if agrees then d else
    let row := Config.firmware 4 d.free
    let d := d.faultyRow (arg / 256) s.code row
    if arg / 256 = 0 then d.softRepair s (row % (0xB00000 / 64)) else d.raise .w blkSafe 3
  | 3 =>
    let d := d.clearArray
    if agrees then d else d.faultyRow 5 arg (Config.firmware 4 d.free)
  | 4 => d.clearArray
  | 5 => if agrees then d else d.seamFault arg
  | 7 => if arg = 8 then (d.stwStart .w true).stwStart .e true else d.quadRestart s (arg % 4) 0
  | 9 => if agrees then d else (d.raise .w (resetPage (Config.firmware 5 d.free % 12)) 15).draw
  | 10 => { d with safe := d.safe.repair }
  | _ => d

/-- BIST_RUN (R473 to R475): life cycle, argument, state, reset, then the test. No seam is checked while the fabric is
released (R476): SEAM is refused then (DESIGN CHOICE, log entry 34). REPAIR passes when every recorded row found a spare. -/
def bistRunBody (test arg : Nat) (signature : BitVec 64) (agrees : Bool) : Body := fun life r d =>
  if !life.open then d.refuse life r stDenied
  else if !bistArgOk test arg then d.refuse life r stBadArg
  else
    let s := bistSide test arg
    let running : Bool := match test with
      | 3 => decide (d.cfg.state ≠ 0)
      | 4 => decide (d.cfg.state ≠ 0)
      | 5 => d.released
      | 7 => if arg = 8 then decide (d.west.stw.state = 2) else decide (d.quadMode s (arg % 4) ≠ 0)
      | _ => false
    if d.west.locked || d.east.locked || running then d.refuse life r stWrong
    else if (d.half s).reset &&& bistBlocks test arg ≠ 0 ∨ (test = 9 ∧ d.east.reset ≠ 0) then d.refuse life r stBusy
    else
      let d := d.bistEffect test arg agrees
      let pass := agrees && (test ≠ 10 || d.safe.faulty.isEmpty)
      let d := d.bistLast (decide (s = .e)) 0 test signature pass
      d.finish life r stOk (beBytes 1 (b1 pass) ++ beBytes 7 0 ++ beBytes 8 signature.toNat)

/-- Units of a slice kind (R478). -/
def sliceUnit (kind unit : Nat) (s : Side) : Bool :=
  match kind with
  | 1 => decide (unit < 152)
  | 2 => decide (unit < 256)
  | 3 => decide (unit < 8)
  | 4 => decide (unit < 3)
  | 5 => decide (unit < 20)
  | 6 => decide (s = .w)
  | _ => false

/-- A half's slice in progress. -/
def Dev.slice (d : Dev) (s : Side) : Option Slice := d.safe.slices.find? fun x => decide (x.side = s)

/-- The engine may start a slice in a half (R478). -/
def Dev.sliceAllowed (d : Dev) (life : Life) (s : Side) : Bool :=
  let h := d.half s
  decide (life = .deployed) && h.tsk.started && !h.tsk.halted && h.quiet && !h.face.flushing && !h.cal.sweeping && !(d.hst.cals.any fun c => c.waits s)
    && decide (h.reset = 0) && !d.safe.asserted && (d.slice s).isNone

/-- BIST_SLICE: firmware starts a slice of a unit in an idle half, in DEPLOYED, or the slice ends with its outcome (R478,
R480). What a region under test holds is saved and restored, so an access that waits for the restore meets what State holds
(R479, log entry 34). -/
def bistSlice (life : Life) (s : Side) (kind unit : Nat) (ends : Option SliceEnd) (d : Dev) : Dev :=
  let x : Slice := { side := s, kind := kind, unit := unit }
  match ends with
  | none =>
    if d.sliceAllowed life s && sliceUnit kind unit s then { d with safe := { d.safe with slices := x :: d.safe.slices } } else d
  | some o =>
  if d.slice s ≠ some x then d else
  let d := (d.abandon s).bistLast (decide (s = .e)) kind unit o.signature o.agrees
  let d := if kind = 5 && !o.agrees then d.raise s unit 15 else d
  if !o.faultyRow then d
  else if kind = 1 then (d.softRepair s (unit * 1024 + Config.firmware 4 d.free % 1024)).draw
  else if kind = 2 then d.raise .w blkSafe 3
  else d

/-! ## What every command leaves in order -/

/-- A session whose device or host numbers are used up ends (R348). -/
def Dev.spentSessions (d : Dev) : Dev :=
  d.hst.sessions.foldl (fun d x => if 0xFFFFFFFF ≤ x.devSeq ∨ 0xFFFFFFFF ≤ x.high then d.closeSession x.id 4 true else d) d

/-- Events 2 and 3 report what changed (R363). -/
def Dev.reportStates (d : Dev) : Dev :=
  let st := d.state
  let d := if st = d.hst.devState then d else
    ({ d with hst := { d.hst with devState := st } }).event 2 (evSrc .w blkHst) st
  let w := d.west.face.state
  let d := if w = d.hst.faceW then d else
    ({ d with hst := { d.hst with faceW := w } }).event 3 (evSrc .w blkFace) w.code
  let e := d.east.face.state
  if e = d.hst.faceE then d else
    ({ d with hst := { d.hst with faceE := e } }).event 3 (evSrc .e blkFace) (256 + e.code)

/-- After every command: a load that the Stairwell cuts off ends, halves that ended journal, the SAFE net follows its requests,
used-up sessions end, held event entries and waiting tasks meet, and changed states are reported. A module without power does
none of it. -/
def Dev.settle (d : Dev) (life : Life) : Dev :=
  if !d.powered then d else
  let d := (((((d.pathLost life).journalEnd .w).journalEnd .e).safeNet life)).spentSessions
  let d := (d.retryHeld .w).retryHeld .e
  let d := (d.mod .w fun h => h.modTsk TskSt.deliver).mod .e fun h => h.modTsk TskSt.deliver
  d.reportStates

end Sys2Proof.Machine
end

