-- ==== Sys2Proof/Machine/FaceCmd.lean ====
section
/-! DEFINITION. The commands on bursts, results, calibration, modes and events (chapters 4, 7, 13, 16), and the memory
errors that the Quarry engine meets. -/
namespace Sys2Proof.Machine

open PlanImg

/-- The halves a HALVES field names, west first. -/
def namedHalves (v : Nat) : List Side := (if v % 2 = 1 then [.w] else []) ++ (if 2 ≤ v % 4 then [.e] else [])

/-- HALVES is legal: 1 to 3 (R355). -/
def halvesOk (v : Nat) : Bool := decide (1 ≤ v) && decide (v ≤ 3)

/-- The first refusal that a check finds over a list of halves. -/
def firstRefusal (l : List Side) (f : Side → Option Nat) : Option Nat := l.findSome? f

/-- A command that needs TE while the Stairwell is down, or a block that a RESET_PART holds (R23, R350, R449). -/
def Dev.unavailable (d : Dev) (s : Side) (blk : Nat) : Option Nat :=
  if s = .e && d.stwDown then some stDegraded
  else if (d.half s).down blk then some stBusy
  else none

/-! ## ARM -/

/-- A severity-2 source of the half or of a module-wide block has its SRC bit set (R131, R459). -/
def Dev.degradedBy (d : Dev) (s : Side) : Bool :=
  (List.range 20).any fun blk =>
    let side : Side := if twOnly blk then .w else s
    let p := d.page side blk
    (List.range 16).any fun i => p.src.getLsbD i && decide (p.sev blk i = 2)

/-- The slots that the plan's files and RESULT_KEY name are installed (R131). -/
def Dev.slotsInstalled (d : Dev) (s : Side) : Bool := (d.half s).planSlots.all fun n => decide ((d.slot n).kind ≠ .empty)

/-- The schedules that an east plan needs are delivered to TE before the half is ARMED (R19, R324): the state, or why one cannot
be. -/
def Dev.deliverKeys (d : Dev) (s : Side) : Except Nat Dev :=
  if s = .w then .ok d else
  d.east.planSlots.foldl (fun x n => match x with
    | .error st => .error st
    | .ok d => match d.teRefusal n with
      | some st => .error st
      | none => .ok (d.toTe n)) (.ok d)

/-- The first of R131's conditions that fails; the list is complete. -/
def Dev.armRefusal (d : Dev) (s : Side) : Option Nat :=
  let h := d.half s
  let f := h.face
  let rd := h.planRd
  if h.locked || !(f.state = .loaded || f.state = .done || f.state = .aborted) then some stWrong
  else if d.safe.asserted || d.loading || d.dbg.pins || (usesFabric rd && !d.configured) then some stWrong
  else if h.reset ≠ 0 || h.stuck ≠ 0 then some stBusy
  else if (s = .e && d.stwDown) || (d.page s blkTch).src.getLsbD 4 || decide (h.cel.state ≠ 3) || decide (h.cel.rate ≠ 3)
      || d.degradedBy s || !d.relayReady s then some stDegraded
  else if h.files.any fun x => h.planNames x.id && x.stale then some stIntegrity
  else if !d.slotsInstalled s then some stDenied
  else if !d.admits s then some stDegraded
  else none

/-- An accepted ARM starts the half's work: thermal hold, no force values, the inhibit of the half's own causes ends, a
sweep stops (R67, R69, R71, R131, R201). While the flush of the half's last burst runs, the work waits for its end. -/
def Dev.startArm (d : Dev) (life : Life) (s : Side) : Dev :=
  let d := (d.stopSweep life s).abandon s
  let d := (List.range 256).foldl (fun d ch => d.setRf s.code .tchForce ch 31 31 0) d
  d.mod s fun h =>
    let h := { h with
      face := { h.face with arming := true, blocked := false, cause := 0 }
      tch := { h.tch with cause := 0 }
      xts := { h.xts with alarm := false } }
    if h.face.flushing then h else h.openArm

/-- ARM (R131, R361): both named halves pass before either acts; power admission counts the first as admitted. -/
def armBody (halves : Nat) : Body := fun life r d =>
  if !halvesOk halves then d.refuse life r stBadArg else
  let l := namedHalves halves
  let pre (s : Side) : Option Nat :=
    let d' := if s = .e ∧ l.contains .w then d.mod .w fun h => { h with face := { h.face with arming := true } } else d
    d'.armRefusal s
  match firstRefusal l pre with
  | some st => d.refuse life r st
  | none =>
    let d := (l.foldl (fun d s => d.startArm life s) d).startClocks none
    let w : ArmWait := { reply := r, w := if l.contains .w then none else some 0xFF, e := if l.contains .e then none else some 0xFF }
    { d with hst := { d.hst with arms := d.hst.arms ++ [w] } }

/-- ARM fails for the half: LOADED, with the plan kept (R130). -/
def Dev.armFails (d : Dev) (life : Life) (s : Side) (st : Nat) : Dev :=
  (d.mod s fun h => h.stopArming true).armPart life s st

/-- DRL_CHECK takes a failing drill program (R159). -/
def Dev.drillFail (d : Dev) (s : Side) (n : Nat) (f : Nat × Nat × Nat) : Dev :=
  let d := d.raise s blkDrl 1
  if d.rf s.code .drlCheck 0 0 0 = 1 then d else
  d.setRg s.code .drlCheck 0 (pack [(28, f.1), (26, f.2.1), (14, f.2.2), (13, n), (0, 1)])

/-- Start addresses of the DSTART steps of a drill. -/
def dstarts (rd : Nat → Byte) (n : Nat) : List Nat :=
  (List.range (steps rd)).filterMap fun i => if op rd i = 8 ∧ fa rd i = n then some (fb rd i) else none

/-- The image bytes of a drill program reference. -/
def Half.drillImage (h : Half) (k : Nat) : List Byte :=
  let rd := h.planRd
  match h.fileNow (fileId rd (drFile rd k)) with
  | some f => memRead f.data (drOff rd k) (drLen rd k)
  | none => []

/-- The first drill program of the plan that fails R159: the drill and what fails. -/
def Half.drillFault (h : Half) : Option (Nat × Nat × Nat × Nat) :=
  let rd := h.planRd
  (List.range (drills rd)).findSome? fun k =>
    let n := drDrill rd k
    (drillCheck (h.drillImage k) (drLen rd k) (dstarts rd n) (usesFabric rd)).map fun f => (n, f)

/-- The drill programs are loaded; a drill without one is IDLE (R155, R158). -/
def Half.loadDrills (h : Half) : Half :=
  let rd := h.planRd
  (List.range (drills rd)).foldl (fun h k => h.setDrl (drDrill rd k) (Drill.load (h.drillImage k) (h.drl (drDrill rd k))))
    { h with drl0 := h.drl0.discard, drl1 := h.drl1.discard }

/-- The ARM-flagged entries that are still to be executed are staged. -/
def Half.stageArm (h : Half) : Half :=
  let h := h.face.chuteQ.foldl (fun h e => h.fillEntry e.1 e.2) h
  { h with face := { h.face with chuteQ := [], chuteOn := false } }

/-- ARM_WORK_COMPLETE: what remains of the work of R131 is done in an order its dependencies allow; a check that fails ends
it. The work cannot end while the flush of the half's last burst runs or a line's checks are outstanding (R335). -/
def armWorkComplete (life : Life) (s : Side) (d : Dev) : Dev :=
  if !(d.half s).face.arming || (d.half s).face.flushing || !(d.half s).xts.checks.isEmpty then d else
  match (d.half s).drillFault with
  | some (n, f) => (d.drillFail s n f).armFails life s stBadArg
  | none =>
    let d := (d.mod s fun h => h.loadDrills.stageArm).armShelf s
    if (d.half s).shelf.armLoads ≠ 2 then d.armFails life s stIntegrity else
    match d.deliverKeys s with
    | .error st => d.armFails life s st
    | .ok d =>
      match (d.half s).readFirst 64 with
      | .underflow => d.armFails life s stIntegrity
      | .poisoned l => (d.attUncorr s l).armFails life s stIntegrity
      | .ok h _ =>
        let d := d.setHalf s h
        let rd := h.planRd
        let d := (List.range 16).foldl (fun d m => d.setSiteMask s m (PlanImg.mask rd m)) d
        let d := (d.armQuarry s (resultKey rd)).dropSpoilCopies s
        let d := d.mod s fun h => { h.relayClear with face := { h.face with arming := false, state := .armed } }
        d.armPart life s stOk

/-- CHUTE_ENTRY_COMPLETE: the entry in flight has its last line written; with an error it is not complete (R124, R280). During
ARM an error ends the work; after the last entry the shelf loads begin (R131). A Cellar line known to be lost is an error
(R294). -/
def chuteEntryComplete (life : Life) (s : Side) (error : Bool) (d : Dev) : Dev :=
  let f := (d.half s).face
  let lost := (d.half s).chuteLost s
  let error := error || lost.isSome
  let d := match lost with
    | some l => d.celUncorr s l
    | none => d
  if f.arming && f.chuteOn && error then d.armFails life s stIntegrity else
  let d := if f.chuteOn && !error then d.chuteDone s else d
  (d.mod s fun h => h.chuteEnd error).armLoad s

/-- A channel is declared OFFLINE, with an entry in flight that reads from it (R124, R273). -/
def Dev.channelOffline (d : Dev) (life : Life) (s : Side) (ch : Nat) : Dev :=
  if (d.half s).cel.chans.getD ch 0 ≠ 3 then d else
  let d := if (d.half s).chuteReads s ch then chuteEntryComplete life s true d else d
  d.channelDown s ch

/-- CA_RETRY: a command or address parity failure; the fourth in a row takes the channel OFFLINE (R273). -/
def caRetry (life : Life) (s : Side) (ch nth : Nat) (d : Dev) : Dev :=
  if (d.half s).cel.chans.getD ch 0 ≠ 3 then d
  else if nth < 4 then d.raise s blkCel 2 else d.channelOffline life s ch

/-- DIMM_NOT_RESPONDING (R273). -/
def dimmNotResponding (life : Life) (s : Side) (ch : Nat) (d : Dev) : Dev := d.channelOffline life s ch

/-- ARM_WORK_FAIL: an integrity failure, a load check, a chute error or a drill program stops the work (R131, R335). -/
def armWorkFail (life : Life) (s : Side) (why : ArmFail) (d : Dev) : Dev :=
  if !(d.half s).face.arming then d else
  match why with
  | .integrity file sector line r =>
    if r = .pass then d else (d.lineFails s file sector line r false).armFails life s stIntegrity
  | .shelf reason channel tset wave slot =>
    let d := if (d.half s).shelf.load.isSome then d else d.mod s fun h => h.startLoad h.shelf.shadow (initShelf h.planRd)
    (d.loadFails s 1 (reason, channel, tset, wave, slot)).armFails life s stIntegrity
  | .chute => d.armFails life s stIntegrity
  | .drill =>
    match (d.half s).drillFault with
    | some (n, f) => (d.drillFail s n f).armFails life s stBadArg
    | none => d

/-- LINE_CHECK_COMPLETE: during ARM a failing line ends the work (R335). -/
def lineChecked (life : Life) (s : Side) (file sector line : Nat) (r : LineOutcome) (d : Dev) : Dev :=
  let fails : Bool := (d.half s).face.arming && decide (r ≠ .pass) && (d.half s).xts.checks.any (inRun file (64 * sector + line))
  let d := lineCheckComplete s file sector line r d
  if fails then d.armFails life s stIntegrity else d

/-! ## Fire -/

/-- The half fired in the present SC cycle. -/
def FaceSt.firedNow (f : FaceSt) : Bool :=
  f.state = .running && decide (f.burst.cycle = 0) && decide (f.burst.issues = 0) && decide (f.burst.steps = 0)

/-- The plan permits a fire source: 1 FIRE_IN, 2 Haul, 3 Hoist (R105, R132). -/
def Half.permits (h : Half) (src : Nat) : Bool := h.face.plan.isSome && (fireSrc h.planRd).testBit (src - 1)

/-- A fire is ignored, counted and raised (R133, R134). -/
def Dev.fireIgnored (d : Dev) (s : Side) : Dev := (d.bump s.code .faceFireIgnored).raise s blkFace 2

/-- T0 is fixed and the burst runs (R130, R132): what the burst collects starts afresh, the latest temperatures and table
are its first correction epoch (R199), LOST is cleared (R203), flags are 0 (R117, R383), SITE_PASS is all ones (R165). -/
def Dev.startBurst (d : Dev) (life : Life) (s : Side) (src : Nat) : Dev :=
  let d := d.stopSweep life s
  let valid := d.calValid s
  let time := d.aon.count
  let d := d.mod s fun h =>
    let f := h.face
    let idle : Tbl Chan := h.tch.chans.filterMap fun kv =>
      let c : Chan := { cmph := kv.2.cmph, cmpl := kv.2.cmpl }
      if c = {} then none else some (kv.1, c)
    let b : Burst := { fireSrc := src, fireTime := time, calValid := valid, unwritten := true
                       planHash := (f.plan.map fun p => p.hash).getD 0, cls := (f.plan.map fun p => p.cls).getD false
                       key := resultKey h.planRd }
    { h with
      face := { f with state := .running, fires := f.fires + 1, lastFire := src, cause := 0, causeSet := 0, samples := []
                       seen := 0, failed := 0, ready := false, burst := b }
      tch := { h.tch with chans := idle, align := [] }
      drl0 := h.drl0.settleFlag
      drl1 := h.drl1.settleFlag
      qry := { h.qry with state := .capturing, sitePass := BitVec.allOnes 64, siteActive := 0, siteFails := [] }
      cal := { h.cal with lost := false, older := [], epoch := { num := 0, blocks := h.cal.blocks, temps := h.cal.temps } } }
  let d := (d.clearFlags s).hooksFire s
  if valid then d else d.loseCal s

/-- A fire reaches a half (R132 to R134). One that comes in the SC cycle of an earlier fire is set aside, and the source of
higher precedence is the one recorded. -/
def Dev.fireHalf (d : Dev) (life : Life) (s : Side) (src : Nat) : Dev :=
  let h := d.half s
  if h.face.firedNow then
    if !h.permits src then d else
    let d := d.fireIgnored s
    if src < h.face.burst.fireSrc then
      d.mod s fun h => { h with face := { h.face with lastFire := src, burst := { h.face.burst with fireSrc := src } } }
    else d
  else if h.face.state ≠ .armed then d.fireIgnored s
  else if !h.permits src then d
  else if d.slotsFree = 0 then (d.fireIgnored s).mod s fun h => { h with face := { h.face with blocked := true } }
  else d.startBurst life s src

/-- FIRE_IN (R132, R380): on a master with FIRE_IN_TX the pulse starts a cascade fire in place of firing the halves. -/
def fireIn (life : Life) (d : Dev) : Dev :=
  if d.isMaster && decide (d.rf 0 .haulCascade 0 8 8 = 1) then d.startCascade
  else (d.fireHalf life .w 1).fireHalf life .e 1

/-- HAUL_FIRE_TIME: the cascade time of the earliest fire comes (R381). A half that receives relay fires LAG later. -/
def haulFireTime (life : Life) (d : Dev) : Dev :=
  match d.casc.fires with
  | [] => d
  | x :: rest =>
    let x := rest.foldl (fun m y => if y.1 < m.1 then y else m) x
    let d := { d with casc := { d.casc with fires := d.casc.fires.erase x, ctime := if d.casc.ctime < x.1 then x.1 else d.casc.ctime } }
    let one (d : Dev) (s : Side) (bit : Nat) : Dev :=
      if !(x.2.testBit bit) then d
      else if decide (x.2 < 4) && d.relayed s then
        let late := x.1 + BitVec.ofNat 64 (d.rf s.code .haulRelay 0 27 16)
        { d with casc := { d.casc with fires := d.casc.fires ++ [(late, 4 + 2 ^ bit)] } }
      else d.fireHalf life s 2
    one (one d .w 0) .e 1

/-- FIRE over Hoist (R132, R134, R361). A named half that another source fired in this SC cycle is set aside (R133). -/
def fireBody (halves : Nat) : Body := fun life r d =>
  if !halvesOk halves then d.refuse life r stBadArg else
  let l := namedHalves halves
  let f (s : Side) : FaceSt := (d.half s).face
  let need := (l.filter fun s => !(f s).firedNow).length
  match firstRefusal l fun s => d.unavailable s 2 with
  | some st => d.refuse life r st
  | none =>
    if l.any fun s => !(f s).firedNow && decide ((f s).state ≠ .armed) then d.refuse life r stWrong
    else if l.any fun s => !(d.half s).permits 3 then d.refuse life r stDenied
    else if d.slotsFree < need then d.refuse life r stBusy
    else (l.foldl (fun d s => d.fireHalf life s 3) d).finish life r stOk []

/-! ## ABORT -/

/-- ABORT of a half in a state that R130 lists. -/
def Dev.abortHalf (d : Dev) (life : Life) (s : Side) : Dev :=
  let f := (d.half s).face
  let drop (d : Dev) : Dev := d.mod s fun h => { h with
    face := { h.face with state := .idle, plan := none }, tch := { h.tch with cause := 0 } }
  if f.arming then (d.mod s fun h => h.stopArming false).armPart life s stWrong
  else if f.active then d.abort s 1
  else if f.flushing then drop (d.abort s 1)
  else drop d

/-- ABORT over Hoist (R130, R361). -/
def abortBody (halves : Nat) : Body := fun life r d =>
  if !halvesOk halves then d.refuse life r stBadArg else
  let l := namedHalves halves
  match firstRefusal l fun s => d.unavailable s 2 with
  | some st => d.refuse life r st
  | none =>
    if l.any fun s => decide ((d.half s).face.state = .idle) && !(d.half s).face.arming then d.refuse life r stWrong
    else (l.foldl (fun d s => d.abortHalf life s) d).finish life r stOk []

/-! ## Results (R362) -/

/-- ESTIMATE of a burst in progress, in microseconds: what remains of the plan's longest path, plus 1 000. -/
def FaceSt.estimate (f : FaceSt) : Nat :=
  let longest := (f.plan.map fun p => p.longest).getD 0
  (longest - 10000 * (f.burst.cycle - 48) + 7999999) / 8000000 + 1000

/-- The burst that a BURST_ID names in a half: a held record, the burst in progress, or the status that answers. -/
inductive Found where
  | record (r : Record)
  | running
  | status (st : Nat)

def FaceSt.find (f : FaceSt) (b : Nat) : Found :=
  if b = 0xFFFFFFFF then
    match f.records with
    | r :: _ => .record r
    | [] => if f.burst.unwritten then .running else .status stExpired
  else if f.fires < b then .status stBadArg
  else match f.records.find? fun r => decide (r.burst = b) with
    | some r => .record r
    | none => if f.burst.unwritten && decide (b = f.fires) then .running else .status stExpired

def resultGetBody (half burst : Nat) : Body := fun life r d =>
  if 1 < half then d.refuse life r stBadArg else
  let s : Side := if half = 0 then .w else .e
  let f := (d.half s).face
  match d.unavailable s 2 with
  | some st => d.refuse life r st
  | none =>
    match f.find burst with
    | .status st => d.refuse life r st
    | .running => d.finish life r stPending (beBytes 4 f.estimate)
    | .record x =>
      let d := d.mod s fun h => { h with face := { h.face with
        records := h.face.records.map fun y => if y.burst = x.burst then { y with got := true } else y } }
      d.finishWith life r stOk x.bytes x.got

/-- RESULT_RELEASE: of the burst in progress WRONG_STATE, but PENDING when it was asked for by no number. -/
def resultReleaseBody (half burst : Nat) : Body := fun life r d =>
  if 1 < half then d.refuse life r stBadArg else
  let s : Side := if half = 0 then .w else .e
  let f := (d.half s).face
  match d.unavailable s 2 with
  | some st => d.refuse life r st
  | none =>
    match f.find burst with
    | .status st => d.refuse life r st
    | .running =>
      if burst = 0xFFFFFFFF then d.finish life r stPending (beBytes 4 f.estimate) else d.refuse life r stWrong
    | .record x =>
      let d := d.mod s fun h => { h with face := { h.face with
        records := h.face.records.filter fun y => decide (y.burst ≠ x.burst)
        ready := h.face.ready && decide (x.burst ≠ h.face.fires) } }
      d.finish life r stOk []

/-! ## Calibration commands -/

/-- CAL_RUN (R201, R361): its response follows the sweeps of the named halves. -/
def calRunBody (halves : Nat) : Body := fun life r d =>
  if !halvesOk halves then d.refuse life r stBadArg else
  let l := namedHalves halves
  let pre (s : Side) : Option Nat :=
    match d.unavailable s 5 with
    | some st => some st
    | none => if (d.half s).canSweep then none else some stWrong
  match firstRefusal l pre with
  | some st => d.refuse life r st
  | none =>
    let d := l.foldl Dev.abandon d
    { d with hst := { d.hst with cals := d.hst.cals ++ [{ reply := r, w := l.contains .w, e := l.contains .e }] } }

/-- CAL_TABLE_GET (R193, R356). -/
def calTableGetBody (half first count : Nat) : Body := fun life r d =>
  if 1 < half ∨ count = 0 ∨ 256 < first + count ∨ !d.fits r (16 + 256 * count) then d.refuse life r stBadArg else
  let s : Side := if half = 0 then .w else .e
  match d.unavailable s 5 with
  | some st => d.refuse life r st
  | none => d.finish life r stOk ((d.half s).tableImage s first count)

/-- CAL_TABLE_SET (R193, R194). An image of another length than its header gives is refused with the format reason. -/
def calTableSetBody (img : List Byte) : Body := fun life r d =>
  let s := tableSide img
  match d.unavailable s 5 with
  | some st => d.refuse life r st
  | none =>
    if img.length ≠ 16 + 256 * rdLE (fun i => img.getD i 0) 8 2 then d.refuse life r stMalformed else
    match d.tableSet img with
    | (0, d) => ((d.mod s fun h => { h with cal := { h.cal with changed := true } }).journalCal s).finish life r stOk []
    | (st, d) => d.refuse life r st

/-! ## Events (R363) -/

def Event.bytes (e : Event) : List Byte :=
  beBytes 4 e.seq ++ beBytes 4 e.time.toNat ++ beBytes 2 e.code ++ beBytes 2 e.src ++ beBytes 4 e.arg.toNat

/-- OLDEST, NEXT and as many entries from FROM as MAX and the frame allow (R356). -/
def Dev.eventPage (d : Dev) (r : Reply) (l : List Event) (start max : Nat) : List Byte :=
  let oldest := match l with
    | e :: _ => e.seq
    | [] => d.hst.next
  let l := (l.filter fun e => decide (start ≤ e.seq)).take max
  let n := ((List.range (l.length + 1)).filter fun n => d.fits r (8 + 16 * n)).length - 1
  beBytes 4 oldest ++ beBytes 4 d.hst.next ++ (l.take n).flatMap Event.bytes

def eventPollBody (start max : Nat) : Body := fun life r d => d.finish life r stOk (d.eventPage r d.hst.events start max)

/-- The event log of the Larder. -/
def LdrSt.log (l : LdrSt) : List Event := l.records.filterMap fun x => match x.data with
  | .entry e => some e
  | _ => none

def logReadBody (start max : Nat) : Body := fun life r d => d.finish life r stOk (d.eventPage r d.ldr.log start max)

/-! ## Modes (R37, R360, R425) -/

/-- A quad trains. -/
def Half.quadsIdle (h : Half) : Bool :=
  quads.all fun q => let x := (h.haul.quad q).st; !(x = .clock || x = .adapt || x = .align)

/-- The function is idle in the half (R425). -/
def Dev.modeIdle (d : Dev) (f : Nat) (s : Side) : Bool :=
  let h := d.half s
  match f with
  | 0 => !(h.cel.state = 1 || h.cel.state = 2) && !h.locked
  | 1 => h.quiet && !h.cal.sweeping
  | 2 => h.quadsIdle && !h.face.active
  | 3 => h.quadsIdle && !h.face.active && !(s = .w && (h.stw.state = 1 || h.stw.state = 3))
  | 4 => !h.face.active
  | 5 => !h.fab.scrubBusy
  | 6 => h.cel.window.isNone
  | 7 => h.xts.rekey.isNone
  | 8 => !d.ldr.compacting
  | _ => !d.west.locked && !d.east.locked

/-- The function's mode in a half changes. -/
def Half.setMode (h : Half) (f mode : Nat) : Half :=
  { h with modes := if mode = 1 then bitSet h.modes f else bitClear h.modes f }

/-- MODE_SET. A module-wide function has its one mode; the halves of the event are then both. -/
def modeSetBody (f halves mode : Nat) : Body := fun life r d =>
  if 9 < f ∨ 1 < mode ∨ (f < 8 ∧ !halvesOk halves) then d.refuse life r stBadArg else
  let named := if f < 8 then halves else 3
  let l := namedHalves named
  if l.any fun s => !d.modeIdle f s then d.refuse life r stWrong
  else if f < 8 && l.contains .e && d.stwDown then d.refuse life r stDegraded
  else if decide (f = 5) && decide (mode = 0) && l.any fun s => (d.half s).fab.quarantined then d.refuse life r stDegraded
  else
    let d := match f with
      | 8 => { d with ldr := { d.ldr with hostMode := decide (mode = 1) } }
      | 9 => { d with clk := { d.clk with hostMode := decide (mode = 1) } }
      | _ => l.foldl (fun d s => d.mod s fun h => h.setMode f mode) d
    let d := if f = 1 then (d.staleAll .w).staleAll .e else d
    (d.event 0xA (evSrc .w blkTsk) (f * 256 + named * 16 + mode)).finish life r stOk []

/-- MODE_GET: bit 2f for function f of the west half, 2f + 1 of the east; a module-wide function shows in both. -/
def modeGetBody : Body := fun life r d =>
  let bit (f : Nat) : Nat :=
    if f = 8 then 3 * b1 d.ldr.hostMode
    else if f = 9 then 3 * b1 d.clk.hostMode
    else b1 (d.west.assisted f) + 2 * b1 (d.east.assisted f)
  d.finish life r stOk (beBytes 4 ((List.range 10).foldl (fun a f => a + bit f * 4 ^ f) 0))

/-! ## Errors the Quarry engine meets (R294) -/

/-- RECORD_QUEUE_DRAIN: the head of the record queue is written, with what its memory's decoder found. -/
def recordQueueDrain (s : Side) (e : Ecc) (d : Dev) : Dev :=
  let h := d.half s
  if h.qry.queue.isEmpty || !(h.face.bursting || h.face.flushing) then d else
  match e with
  | .clean => d.drainRecord s
  | .corr => (d.correction s blkQry 4).drainRecord s
  | .uncorr => (d.mod s fun h => { h with qry := { h.qry with queue := h.qry.queue.drop 1 } }).lose s 1

/-- SPOIL_CACHE_FILL: a missed bitmap line arrives from the Cellar. An uncorrectable one loses the updates that wait for
it. -/
def spoilCacheFill (s : Side) (line : Nat) (e : Ecc) (d : Dev) : Dev :=
  let q := (d.half s).qry
  match q.fileOf 2 with
  | none => d
  | some id =>
    if !q.missing line then d else
    let d := (d.mod s fun h => h.celTouch (cellarLine s id line) 1).completed s 1 (tget 0 q.asked line)
    match if (d.half s).cel.poison (cellarLine s id line) then .uncorr else e with
    | .clean => d.cacheFill s line
    | .corr => (d.celCorr s (cellarLine s id line)).cacheFill s line
    | .uncorr =>
      let waits (u : Upd) : Bool := decide ((d.bmPlace s u).1 = line)
      let head := (q.updates.take 1).filter waits
      let d := (d.celUncorr s (cellarLine s id line)).mod s fun h => { h with qry := { h.qry with
        updates := h.qry.updates.drop head.length, asked := tset 0 h.qry.asked line 0
        misses := h.qry.misses.filter fun m => decide (m.1 ≠ line) } }
      (d.lose s (1 + head.length)).pump s 1024

/-- SWEEP_END with the look at the module alignment that follows it (R385). -/
def sweepOver (life : Life) (s : Side) (fireOffset : Int) (d : Dev) : Dev :=
  if !(d.half s).cal.sweeping then d else (sweepEnd life s fireOffset d).xmodCheck

end Sys2Proof.Machine
end

