-- ==== Sys2Proof/Machine/Views.lean ====
section
/-! DEFINITION. What the registers show: the registers whose value the device computes from its state, one definition per
block, and the value of any register of a die. Dies count 0 TW, 1 TE, 2 to 5 F0 to F3. -/
namespace Sys2Proof.Machine

/-- The half that a die belongs to (R15). -/
def sideOf (die : Nat) : Side := if die = 0 then .w else if die = 1 then .e else dieSide (die - 2)

/-- Word i of an octet string of n bytes given as a number: bytes 4i to 4i + 3, the first in [7:0] (R7). -/
def octetWord (n v i : Nat) : Nat := rdLE (fun k => (beBytes n v).getD k 0) (4 * i) 4

/-- A number cut off at the largest value of n bits. -/
def sat (n v : Nat) : Nat := min v (2 ^ n - 1)

/-- A word of a 64-bit value: 0 LO, 1 HI. -/
def halfWord (v : Nat) (hi : Bool) : Nat := if hi then v / 2 ^ 32 % 2 ^ 32 else v % 2 ^ 32

/-- Bits of a list of flags. -/
def flagBits (l : List Bool) : Nat := bitsOf l.length fun i => l.getD i false

/-- Silicon stepping code of a die in IDENT_DIESET (R16). -/
def Fuse.dieStep (f : Fuse) (die : Nat) : Nat :=
  let place := match die with
    | 0 => 4
    | 1 => 5
    | n => n - 2
  f.dieset / 16 ^ place % 16

/-- IDENT_DIE: DESIGN 1 of a T-die, 2 of an F-die; the position strap of R12, whose bit 0 is MIRRORED. -/
def Fuse.dieWord (f : Fuse) (die : Nat) : Word :=
  let pos := (f.straps.getD die 0).val
  pack [(24, f.dieStep die), (16, if die < 2 then 1 else 2), (2, pos % 2), (0, pos)]

/-- CMPH and CMPL of a channel as sampled in the most recent SC cycle (R76): those of an edge strobe of that cycle, and
otherwise what the front end presents, a free value of the cycle (log entry 2). -/
def Dev.compNow (d : Dev) (s : Side) (ch : Nat) : Bool × Bool :=
  let c := (d.half s).chan ch
  if c.cmpAt = some d.casc.ctime.toNat then (c.cmph, c.cmpl)
  else (Config.comparator (2 * (256 * s.code + ch)) d.casc.ctime.toNat, Config.comparator (2 * (256 * s.code + ch) + 1) d.casc.ctime.toNat)

/-- TCH_STATUS of a channel. -/
def Dev.tchStatus (d : Dev) (s : Side) (ch : Nat) : Word :=
  let h := d.half s
  let c := h.chan ch
  let p := d.pins s ch
  let inhibit : Bool := d.inhibited s || h.tch.resetSafe.isSome
  let forced : Bool := !inhibit && (d.rg s.code .tchForce ch).getLsbD 31 && !h.face.arming
    && (h.face.state = .idle || h.face.state = .loaded || h.face.state = .done)
  let n := d.compNow s ch
  pack [(6, b1 forced), (5, b1 inhibit), (4, b1 c.win.isSome), (3, b1 n.2), (2, b1 n.1), (1, b1 p.2), (0, b1 p.1)]

/-- TCH_HALF_STATUS: the cause of the inhibit in force, and thermal hold (R69, R71). -/
def Dev.tchHalf (d : Dev) (s : Side) : Word :=
  let h := d.half s
  pack [(4, if d.safe.asserted then 1 else h.tch.cause), (1, b1 (d.inhibited s)), (0, b1 (h.locked || !h.face.issues.isEmpty))]

def SlotSt.code : SlotSt → Nat
  | .invalid => 0
  | .loading => 1
  | .valid => 2

/-- Registers of SHELF. -/
def ShelfSt.view (x : ShelfSt) (r : Rg) (i : Nat) : Option Word :=
  match r with
  | .shelfStatus => some (pack [(6, SlotSt.code x.st1), (4, SlotSt.code x.st0), (0, x.active)])
  | .shelfCtrl => some 0
  | .shelfLoad => some (pack [(24, x.groups), (0, x.lines)])
  | .shelfPeriod => some (tget 0 x.period i)
  | _ => none

/-- FACE_STATUS. -/
def Half.faceWord (h : Half) : Word :=
  let f := h.face
  let src := if f.plan.isSome then PlanImg.fireSrc h.planRd % 8 else 0
  let cls := match f.plan with
    | some p => b1 p.cls
    | none => 0
  pack [(14, f.cur.loops.length), (12, f.lastFire), (8, src), (6, cls), (5, b1 f.blocked), (4, b1 f.ready), (3, b1 f.arming),
        (0, f.state.code)]

/-- Registers of FACE. -/
def Dev.faceView (d : Dev) (s : Side) (r : Rg) (i : Nat) : Option Word :=
  let h := d.half s
  let f := h.face
  match r with
  | .faceStatus => some h.faceWord
  | .faceStep => some (pack [(0, f.burst.vecStep)])
  | .faceCause => some (pack [(16, f.causeSet.toNat), (0, f.cause)])
  | .faceIssuedLo => some (pack [(0, halfWord f.burst.issues false)])
  | .faceIssuedHi => some (pack [(0, halfWord f.burst.issues true)])
  | .faceMatch => some (pack [(8, f.failed.toNat), (0, f.seen.toNat)])
  | .faceResults => some (pack [(14, d.openBursts), (7, d.recordCount), (0, f.records.length)])
  | .faceLoop => some (pack [(0, (f.cur.loops.reverse.getD i (0, 0)).2)])
  | .facePlanHash => some (pack [(0, octetWord 48 (d.planHash s) i)])
  | _ => none

/-- Registers of DRL: element i of an array belongs to drill i, of the counters to drill i / 4. -/
def Half.drlView (h : Half) (r : Rg) (i : Nat) : Option Word :=
  let x := h.drl i
  match r with
  | .drlStatus => some (pack [(8, x.pcLast), (4, b1 x.fault), (3, b1 x.usesHook), (0, x.st.val)])
  | .drlX => some (pack [(0, x.x)])
  | .drlY => some (pack [(0, x.y)])
  | .drlDataLo => some (pack [(0, halfWord x.d.toNat false)])
  | .drlDataHi => some (pack [(0, halfWord x.d.toNat true)])
  | .drlOut => some (pack [(16, x.mode), (0, x.ctl.toNat)])
  | .drlCnt => some (pack [(0, (h.drl (i / 4)).cnt (i % 4))])
  | .drlIssues => some (pack [(0, sat 32 x.issues)])
  | _ => none

def QryState.code : QryState → Nat
  | .idle => 0
  | .capturing => 1
  | .flushing => 2

/-- Registers of QRY. -/
def Dev.qryView (d : Dev) (s : Side) (r : Rg) : Option Word :=
  let h := d.half s
  let q := h.qry
  match r with
  | .qryStatus => some (pack [(5, b1 q.overflow), (4, b1 q.quarantined), (3, b1 (h.assisted 4)), (0, QryState.code q.state)])
  | .qryReserveFree => some (pack [(0, d.reserveFree s / 1024)])
  | .qryQueue => some (pack [(16, q.peak), (0, q.queue.length)])
  | .qryRecords => some (pack [(0, sat 32 q.records)])
  | .qryLost => some (pack [(0, sat 32 q.lost)])
  | _ => none

/-- Registers of CAL. XHALF_OK of TW reads 1 always, as its description says beside a reset column of 0 (log entry 60); TE's
reads its reset value until its tables are loaded. -/
def Dev.calView (d : Dev) (s : Side) (r : Rg) (i : Nat) : Option Word :=
  let h := d.half s
  let c := h.cal
  match r with
  | .calStatus =>
    let stale := ((List.range 256).filter fun ch => decide (d.rf s.code .tchCfg ch 0 0 = 1) && !d.current s ch).length
    some (pack [(16, stale), (6, b1 c.lost), (5, b1 c.sweeping), (4, b1 (h.assisted 1)), (3, b1 (c.witness.all fun w => decide (w = some true))),
                (2, b1 (decide (s = .w) || (c.loaded && d.xhalfOk s))), (0, b1 (d.calValid s))])
  | .calNext => some (pack [(0, c.pointer)])
  | .calPhase => some (pack [(0, if s = .w then 0 else unsgn 2 c.phi)])
  | .calTemp => some (pack [(0, unsgn 2 (c.temps.getD i 0))])
  | .calCurrent => some (pack [(0, bitsOf 32 fun k => d.current s (32 * i + k))])
  | _ => none

/-- Registers of CEL. -/
def Dev.celView (d : Dev) (s : Side) (r : Rg) : Option Word :=
  let h := d.half s
  let c := h.cel
  match r with
  | .celStatus =>
    let chans := (List.range 4).foldl (fun a n => a + c.chans.getD n 0 * 4 ^ n) 0
    some (pack [(16, c.rate), (8, chans), (2, b1 (h.assisted 0)), (0, c.state)])
  | .celGeom => some (pack [(16, c.gib), (8, c.chGib), (2, b1 c.dev32), (1, b1 c.x4), (0, b1 c.ranks2)])
  | .celTrain => some 0
  | .celDlyData => some (d.dlyRead s)
  | .celSweepData => some (tget 0 c.edges (dlyKey (d.rg s.code .celDlySel).toNat))
  | .celScrubStatus => some (setFld (setFld (d.rg s.code .celScrubStatus) 8 8 (b1 c.window.isSome)) 7 0 c.progress)
  | .celRemapUsed =>
    some (pack ((List.range 4).map fun n => (8 * n, (c.remap.filter fun x => decide (x.1 = n)).length)))
  | _ => none

/-- Registers of ATT. RCACHE_ON is 0 while the Stairwell is down or untrained, and while the ATT block is in reset. -/
def Dev.attView (d : Dev) (s : Side) (r : Rg) (i : Nat) : Option Word :=
  let h := d.half s
  match r with
  | .attStatus => some (pack [(0, b1 ((h.stw.state = 2 || h.stw.state = 3) && !h.down 7))])
  | .attDirCount => some (pack [(0, h.att.dir.length)])
  | .attSpareUsed =>
    some (pack ((List.range 8).map fun j => (4 * j, (h.att.spare.filter fun x => decide (x.1 = 8 * i + j)).length)))
  | _ => none

/-- Registers of SEC, in TW (R29, R310, R317). -/
def Dev.secView (d : Dev) (f : Fuse) (r : Rg) (i : Nat) : Option Word :=
  let x := d.sec
  match r with
  | .secLifecycle => some (pack [(0, f.life.code)])
  | .secStatus =>
    let used := (x.slots.filter fun kv => decide (kv.2.kind ≠ .empty)).length
    some (pack [(16, used), (3, b1 x.linkKey), (2, b1 (decide ((d.slot 0).kind = .root))), (1, b1 x.cert.isSome),
                (0, b1 x.idKey.isSome)])
  | .secSlotInfo =>
    let n := d.rf 0 .secSlotSel 0 9 0
    let k := d.slot n
    some (pack [(29, b1 k.inTe), (28, b1 (d.inPlan n)), (18, k.owner), (12, if k.kind = .file then k.epoch else 0),
                (0, SlotKind.code k.kind)])
  | .secNonce => some (pack [(0, octetWord 32 x.nonce i)])
  | _ => none

/-- Registers of XTS. -/
def Half.xtsView (h : Half) (r : Rg) : Option Word :=
  match r with
  | .xtsStatus => some (pack [(16, sat 16 h.xts.depth), (2, b1 h.xts.rekey.isSome), (1, b1 (h.assisted 7)), (0, b1 h.xts.alarm)])
  | .xtsRekeyFile => some (pack [(0, (h.xts.rekey.getD (0, 0)).1)])
  | .xtsRekeyPtr => some (pack [(0, (h.xts.rekey.getD (0, 0)).2)])
  | _ => none

/-- Registers of HAUL. -/
def Dev.haulView (d : Dev) (s : Side) (r : Rg) (i : Nat) : Option Word :=
  match r with
  | .haulQStatus =>
    let x := d.quad s i
    some (pack [(4, bitsOf 4 fun l => d.rf s.code .haulLaneStatus (laneIx i l) 8 8 = 1), (3, b1 x.clkLock), (0, x.st.code)])
  | .haulCtrl => some 0
  | .haulPrbsErr => some (BitVec.ofNat 32 (d.prbsCount s i))
  | .haulCtimeLo => some (pack [(0, halfWord d.casc.ctime.toNat false)])
  | .haulCtimeHi => some (pack [(0, halfWord d.casc.ctime.toNat true)])
  | .haulSpoilFile => some (d.rg s.code .haulSpoilFile)
  | _ => none

/-- Registers of STW and NOC. -/
def Dev.stwView (d : Dev) (s : Side) (r : Rg) : Option Word :=
  let x := (d.half s).stw
  match r with
  | .stwStatus => some (pack [(18, b1 d.stwHost), (16, x.attempts), (8, x.epoch), (4, x.width), (0, x.state)])
  | .nocHeld => some (pack [(0, x.heldCount)])
  | _ => none

/-- Registers of TSK. The longest wait and the load of a core are firmware's measurements: free values. -/
def Dev.tskView (d : Dev) (s : Side) (r : Rg) (i : Nat) : Option Word :=
  let t := (d.half s).tsk
  let q := tget {} t.queues (d.rf s.code .tskQsel 0 5 0)
  match r with
  | .tskStatus => some t.statusWord
  | .tskFwVersion => some (pack [(0, t.version)])
  | .tskReady => some (pack [(24, t.readyIn 3), (16, t.readyIn 2), (8, t.readyIn 1), (0, t.readyIn 0)])
  | .tskWaitMax => some (pack [(24, t.longest.1), (0, sat 24 (10 * t.longest.2))])
  | .tskQinfo => some (pack [(16, q.peak), (0, q.entries.length)])
  | .tskQpush => some (pack [(0, q.push)])
  | .tskCoreLoad => some (pack [(0, (t.core i).busy t.tick / 10)])
  | .tskWdogCnt => some (pack [(0, (t.core i).wdog)])
  | _ => none

/-- Registers of CLK and PWR. -/
def Dev.clkView (d : Dev) (r : Rg) : Option Word :=
  match r with
  | .clkStatus => some d.clk.statusWord
  | .clkSrc => some (pack [(0, b1 d.clk.tick)])
  | .pwrStatus => some d.pwrStatus
  | .pwrVin => some (pack [(16, sat 16 d.clk.ma), (0, sat 16 d.clk.vinMv)])
  | .pwrBudget => some (pack [(16, sat 16 d.clk.demand), (0, sat 16 d.clk.budget)])
  | .pwrReset => some (pack [(16, d.east.reset.toNat), (0, d.west.reset.toNat)])
  | _ => none

/-- Registers of SAFE. -/
def Dev.safeView (d : Dev) (r : Rg) : Option Word :=
  match r with
  | .safeStatus => some (pack [(3, b1 d.safe.releasing), (2, b1 d.safe.safeNLow), (1, b1 d.aliveRun), (0, b1 d.safe.asserted)])
  | .safeCtrl => some (pack [(0, b1 d.safe.aliveEn)])
  | .safeBistStatus =>
    let running := match d.safe.slices with
      | [] => []
      | x :: _ => [(5, x.side.code), (4, 1), (0, x.kind)]
    some (pack ((16, d.rf 0 .safeBistStatus 0 31 16) :: running))
  | .safeReqTw => some (pack [(0, d.safeReq .w)])
  | .safeReqTe => some (pack [(0, d.safeReq .e)])
  | _ => none

/-- Registers of HST. FEC block lock stands while the link is up with FEC in use. -/
def Dev.hstView (d : Dev) (f : Fuse) (r : Rg) : Option Word :=
  match r with
  | .hstLink =>
    let fec := d.rf 0 .hstLink 0 1 1
    some (pack [(2, if d.hst.linkUp then fec else 0), (1, fec), (0, b1 d.hst.linkUp)])
  | .hstMacLo => some (pack [(0, f.mac.toNat % 2 ^ 32)])
  | .hstMacHi => some (pack [(0, f.mac.toNat / 2 ^ 32)])
  | .hstSessions => some (pack [(0, d.hst.sessions.length)])
  | _ => none

/-- Registers of CFG. SOURCE and SERVICE are those of a load under way, else of the image in force. -/
def Dev.cfgView (d : Dev) (r : Rg) (i : Nat) : Option Word :=
  let c := d.cfg
  let live : Option Load := match c.load with
    | some l => if l.store.isNone then some l else none
    | none => none
  match r with
  | .cfgStatus =>
    let (source, service) := match live with
      | some l => (l.source, l.service)
      | none => (c.source, c.service)
    some (pack [(9, b1 d.storing), (8, b1 service), (4, source), (0, c.state)])
  | .cfgSlot =>
    let x := c.slot i
    let storing : Bool := match c.load with
      | some l => decide (l.store = some i)
      | none => false
    some (pack [(24, x.reason), (2, b1 storing), (1, b1 (d.configured && decide (c.source = i + 1))), (0, b1 x.valid)])
  | .cfgImageHash => some (pack [(0, octetWord 48 c.hash.toNat i)])
  | _ => none

/-- Registers of AON and LDR. -/
def Dev.aonView (d : Dev) (f : Fuse) (r : Rg) : Option Word :=
  let l := d.ldr
  match r with
  | .aonStatus => some (d.aonStatus f.xdly.val)
  | .aonCountLo => some (pack [(0, halfWord d.aon.count.toNat false)])
  | .aonCountHi => some (pack [(0, halfWord d.aon.count.toNat true)])
  | .ldrStatus => some (pack [(8, l.fill), (3, b1 l.hostMode), (2, b1 l.hold), (1, b1 l.compacting), (0, l.active)])
  | .ldrCtrl => some 0
  | .ldrSeq => some (pack [(0, l.seq)])
  | _ => none

/-- DBG_STATUS. -/
def Dev.dbgWord (d : Dev) : Word :=
  setFld (setFld (d.rg 0 .dbgStatus) 1 1 (b1 d.dbg.scope.isSome)) 0 0 (b1 d.dbg.pins)

/-- Registers of FAB in a T-die. -/
def Dev.fabView (d : Dev) (s : Side) (r : Rg) (i : Nat) : Option Word :=
  let h := d.half s
  match r with
  | .fabStatus =>
    some (pack [(4, b1 (d.clkConflict s)), (3, b1 (d.safe.asserted || h.reset ≠ 0)), (2, b1 (h.reset ≠ 0)), (1, b1 d.anyCapped),
                (0, b1 d.released)])
  | .fabFck => some (pack [(31, b1 (d.capped i)), (0, d.clk.fck.getD i 0)])
  | .fabScrubStatus => some (setFld (d.rg s.code .fabScrubStatus) 1 0 (d.scrubState s))
  | .fabScrubCmd => some 0
  | .fabScrubResult => some (setFld (d.rg s.code .fabScrubResult) 2 2 (b1 h.fab.scrubBusy))
  | _ => none

/-- Registers of the fault page of a block (R456). -/
def Page.view (p : Page) (blk : Nat) (r : Rg) : Option Word :=
  match r with
  | .fltStatus => some (pack [(16, p.active.toNat), (0, p.src.toNat)])
  | .fltEnable => some (pack [(0, p.enableWord blk)])
  | .fltSeverity => some p.severity
  | .fltCountCfg => some p.countCfg
  | .fltBucket => some p.bucket
  | .fltFirst => some p.first
  | .fltVote => some (pack [(31, b1 p.noMaj), (0, p.voteCount)])
  | _ => none

/-- Registers of an F-die (R240). -/
def Dev.dieView (d : Dev) (f : Fuse) (die : Nat) (r : Rg) (i : Nat) : Option Word :=
  match r with
  | .identDie => some (f.dieWord die)
  | .identStepping => some (pack [(0, f.stepping)])
  | .identDieset => some (pack [(0, f.dieset)])
  | .fabDieStatus => some (setFld (d.rg die .fabDieStatus) 0 0 (b1 d.released))
  | .fabBench => some (pack [(0, d.benchReg (die - 2) i)])
  | _ => none

/-- The block of a register by its offset. -/
def blockOf (x : RegDesc) : Nat := x.off / 0x100000

/-- Value that the device computes for a register; none for one that is plain storage. -/
def Dev.computed (d : Dev) (f : Fuse) (die : Nat) (x : RegDesc) (i : Nat) : Option Word :=
  let s := sideOf die
  if x.off % 0x100000 / 0x1000 = 0xFF then (d.page s i).view i x.reg else
  match blockOf x with
  | 0 => d.dieView f die x.reg i
  | 1 => d.clkView x.reg
  | 2 => d.safeView x.reg
  | 3 => d.tskView s x.reg i
  | 4 => if x.reg = Rg.tchStatus then some (d.tchStatus s i) else if x.reg = Rg.tchHalfStatus then some (d.tchHalf s) else none
  | 5 => (d.half s).shelf.view x.reg i
  | 6 => d.faceView s x.reg i
  | 7 => (d.half s).drlView x.reg i
  | 8 => d.qryView s x.reg
  | 9 => d.calView s x.reg i
  | 10 => d.celView s x.reg
  | 11 => d.attView s x.reg i
  | 12 => if x.off < 0xC00100 then (if die = 0 then d.secView f x.reg i else some 0) else (d.half s).xtsView x.reg
  | 13 => if die = 1 ∧ 0xD08000 ≤ x.off ∧ x.off ≤ 0xD08018 then some 0 else d.haulView s x.reg i
  | 14 => d.stwView s x.reg
  | 15 => d.hstView f x.reg
  | 16 => d.cfgView x.reg i
  | 17 => d.aonView f x.reg
  | 18 => some d.dbgWord
  | _ => d.fabView s x.reg i

/-- The value a register shows; fields that are written only read 0 (R8). -/
def Dev.view (d : Dev) (f : Fuse) (die : Nat) (x : RegDesc) (i : Nat) : Word := (d.computed f die x i).getD (d.rg die x.reg i)

end Sys2Proof.Machine
end

