-- ==== Sys2Proof/Machine/RegAccess.lean ====
section
/-! DEFINITION. Management accesses (R8, R9, R28 to R32): what an address names, reads with their side effects, debug peeks
(R520, R521), writes with their field rules, burst lock and hooks, broadcast writes, and the memory windows. -/
namespace Sys2Proof.Machine

/-! ## Addresses -/

/-- What a management address names in one die (R28). -/
inductive Place where
  /-- no window, an error die select, or not aligned: BAD_ARG -/
  | reject
  /-- an unmapped offset of a block window: reads 0, ignores writes -/
  | hole
  | reg (die : Nat) (x : RegDesc) (i : Nat)
  /-- word of the calibration table RAM, by byte offset (R187) -/
  | calTable (s : Side) (off : Nat)
  | attic (s : Side) (off : Nat)
  | shelf (s : Side) (off : Nat)
  | cellar (s : Side) (off : Nat)
deriving DecidableEq, Repr

/-- Index of the element of a register array that lies at an offset. -/
def indexIn (x : RegDesc) (o : Nat) : Option Nat :=
  if o < x.off then none else
  let r := o - x.off
  let i := r / x.s1
  let q := r % x.s1
  let j := q / x.s2
  if q % x.s2 = 0 ∧ i < x.c1 ∧ j < x.c2 then some (x.c2 * i + j) else none

/-- The register at an offset of a die. -/
def regAt (l : List RegDesc) (o : Nat) : Option (RegDesc × Nat) := l.findSome? fun x => (indexIn x o).map fun i => (x, i)

/-- What an offset of a T-die names (R28, R29): die 0 or 1. -/
def placeT (die o : Nat) : Place :=
  let s := sideOf die
  if o % 4 ≠ 0 then .reject
  else if o < 0x1400000 then
    if die = 1 ∧ twOnly (o / 0x100000) then .reject else
    match regAt tdieRegs o with
    | some (x, i) => .reg die x i
    | none => if 0x910000 ≤ o ∧ o < 0x920000 then .calTable s (o - 0x910000) else .hole
  else if 0x100000000 ≤ o ∧ o < 0x100000000 + 0xB00000 then .attic s (o - 0x100000000)
  else if 0x200000000 ≤ o ∧ o < 0x200000000 + 0x300000 then .shelf s (o - 0x200000000)
  else if 0x8000000000 ≤ o ∧ o < 0x9000000000 then .cellar s (o - 0x8000000000)
  else .reject

/-- What an offset of an F-die names: die 2 to 5. -/
def placeF (die o : Nat) : Place :=
  if o % 4 ≠ 0 ∨ 0x1000 ≤ o then .reject
  else if o = 0 then
    match descOf .identDie with
    | some x => .reg die x 0
    | none => .hole
  else match regAt regsFdie o with
  | some (x, i) => .reg die x i
  | none => .hole

/-- What a management address other than a broadcast one names. -/
def placeOf (addr : Nat) : Place :=
  let sel := addr / 2 ^ 40
  let o := addr % 2 ^ 40
  if sel < 2 then placeT sel o
  else if 4 ≤ sel ∧ sel < 8 then placeF (sel - 2) o
  else .reject

/-- The half a place belongs to. -/
def Place.side : Place → Side
  | .reg die _ _ => sideOf die
  | .calTable s _ => s
  | .attic s _ => s
  | .shelf s _ => s
  | .cellar s _ => s
  | _ => .w

/-- Bit of RESET_PART.BLOCKS of a block (R355); none for a block that it does not name. -/
def blockBit (blk : Nat) : Option Nat :=
  if blk = blkTsk then some 11 else if 4 ≤ blk ∧ blk ≤ 14 then some (blk - 4) else none

/-- Bit of the block that a place needs. -/
def Place.bit : Place → Option Nat
  | .reg die x i => if 2 ≤ die then none else blockBit (if x.off % 0x100000 / 0x1000 = 0xFF then i else blockOf x)
  | .calTable _ _ => some 5
  | .attic _ _ => some 7
  | .shelf _ _ => some 1
  | .cellar _ _ => some 6
  | _ => none

/-- A host or debug access that cannot reach its place: no such place (R28), a link that is down (R23), or a block in reset
(R449). -/
def Dev.unreached (d : Dev) (p : Place) (far : Bool) : Option Nat :=
  if p = .reject then some stBadArg
  else if far && d.stwDown then some stDegraded
  else if far && (d.west.down 10 || d.east.down 10) then some stBusy
  else match p.bit with
  | some b => if (d.half p.side).down b then some stBusy else none
  | none => none

/-- The address lies across the Stairwell from TW: TE, F2 and F3 (R23). -/
def farAddr (addr : Nat) : Bool :=
  let sel := addr / 2 ^ 40
  sel = 1 || sel = 6 || sel = 7

/-! ## Windows -/

/-- Offset of the end of the Attic's free user space (R283). -/
def freeEnd : Nat := 0x680000

/-- A host access to an Attic offset is refused: outside the free user space, but for MANUFACTURE and RETURNED (R31). -/
def Dev.atticDenied (d : Dev) (life : Life) (s : Side) (o : Nat) : Bool :=
  !life.open && !(decide (d.stageSize s ≤ o) && decide (o < freeEnd))

/-- A byte of the partitions above the free user space: of the spoil cache's line that stands there, or as the host last wrote
it, or of the firmware region as the boot ROM copied it, or else as the unit that owns the partition left it, which the spec does not give: a free value. -/
def Dev.upperByte (d : Dev) (s : Side) (o : Nat) : Byte :=
  let h := d.half s
  let k := o / 64 - spoilBase
  match if o / 64 < remoteBase then (tget [] h.qry.cache (k / 16)).find? fun c => decide (c.way = k % 16) else none with
  | some c => tget 0 c.bytes (o % 64)
  | none =>
    (tget none h.upper o).getD
      (if 0xA00000 ≤ o ∧ h.tsk.started then tget 0xFF h.tsk.image (o - 0xA00000) else Config.memByte s.code d.free o)

/-- A word of the Attic (R31). -/
def Dev.atticWord (d : Dev) (s : Side) (o : Nat) : Word × Dev :=
  if o < freeEnd then (BitVec.ofNat 32 (rdLE (fun k => tget 0 (d.half s).attic k) o 4), d)
  else (BitVec.ofNat 32 (rdLE (d.upperByte s) o 4), d.draw)

/-- A word written to the Attic; a staging line so written loses its tag (R31, R123). -/
def Dev.atticWrite (d : Dev) (s : Side) (o : Nat) (v : Word) : Dev :=
  if freeEnd ≤ o then d.mod s fun h => { h with upper := tblit none h.upper o ((leBytes 4 v.toNat).map some) } else
  let line := o / 64
  let staged := decide (o < d.stageSize s)
  d.mod s fun h => { h with attic := memWrite h.attic o (leBytes 4 v.toNat)
                            tags := if staged then tset 0 h.tags line 0 else h.tags }

/-- The line of a half's Cellar as stored (R267): of its file, or of memory that no file holds, a free value. A file whose
slot has been retired is held under a key that is gone, so its bytes are free too. -/
def Dev.cellarBytes (d : Dev) (s : Side) (line : Nat) : List Byte :=
  let unknown := (List.range 64).map fun k => Config.memByte (2 + s.code) d.free (64 * line + k)
  match ((d.half s).fileAt s line).bind fun f => (d.half s).fileNow f.id with
  | some f =>
    if d.retired f then unknown else
    d.storedLine s f (f.lineIn s line)
  | none => unknown

/-- A word of the Cellar window: 0 at or beyond the capacity (R28). -/
def Dev.cellarWord (d : Dev) (s : Side) (o : Nat) : Word × Dev :=
  if (d.half s).cel.gib * 2 ^ 30 ≤ o then (0, d)
  else
    let l := d.cellarBytes s (o / 64)
    (BitVec.ofNat 32 (rdLE (fun k => l.getD k 0) (o % 64) 4), d.draw)

/-- A Cellar window read meets its Cellar: BUSY while training, DEGRADED while OFFLINE (R278). -/
def Dev.cellarState (d : Dev) (s : Side) : Option Nat :=
  match (d.half s).cel.state with
  | 3 => none
  | 0 => some stDegraded
  | _ => some stBusy

/-- A write through the shelf RAM window is discarded (R91). -/
def Dev.windowReject (d : Dev) (s : Side) : Dev := (d.bump s.code .shelfRejectCnt).raise s blkShelf 2

/-- What the check of R91 finds in a waveform and its period entry: channel, page slot, timing set, waveform, slot written. -/
def ShelfSt.windowCheck (x : ShelfSt) (ch p ts wave slot : Nat) (v : Word) : Option ShelfFail :=
  let period := (tget 0 x.period (16 * p + ts)).toNat
  if !periodOk period then some (4, 0, ts, 0, 0) else
  let words := (List.range 6).map fun k => if k = slot then v else tget 0 x.ram (slotWord ch p ts wave k)
  (waveCheck period words 0 0 0).map fun e => (e.1, ch, ts, wave, e.2)

/-- A write of a slot word through the shelf RAM window (R91). -/
def Dev.shelfWrite (d : Dev) (s : Side) (o : Nat) (v : Word) : Nat × Dev :=
  let h := d.half s
  let ch := o / 0x3000
  let p := o % 0x3000 / 0x1800
  let ts := o % 0x1800 / 0x180
  let wave := o % 0x180 / 0x18
  let slot := o % 0x18 / 4
  if h.shelf.slot p ≠ .valid ∨ h.locked then (stWrong, d.windowReject s) else
  match h.shelf.windowCheck ch p ts wave slot v with
  | some f => (stBadArg, (d.shelfFail s 3 f).windowReject s)
  | none => (stOk, d.mod s fun h => { h with shelf := { h.shelf with ram := tset 0 h.shelf.ram (o / 4) v } })

/-- A word of the calibration table RAM. -/
def Dev.calWord (d : Dev) (s : Side) (o : Nat) : Word :=
  let b := (tget {} (d.half s).cal.blocks (o / 256)).bytes
  BitVec.ofNat 32 (rdLE (fun k => b.getD k 0) (o % 256) 4)

/-! ## Reads -/

/-- The HI register that a read of a LO register latches (R521). -/
def hiOf : Rg → Option Rg
  | .faceIssuedLo => some .faceIssuedHi
  | .drlDataLo => some .drlDataHi
  | .haulCtimeLo => some .haulCtimeHi
  | .aonCountLo => some .aonCountHi
  | .aonAlarmLo => some .aonAlarmHi
  | .safeBistSigLo => some .safeBistSigHi
  | _ => none

/-- HI registers of latched pairs. -/
def isHi (r : Rg) : Bool := [Rg.faceIssuedHi, .drlDataHi, .haulCtimeHi, .aonCountHi, .aonAlarmHi, .safeBistSigHi].contains r

/-- Registers whose read side effect a peek cannot suppress (R520). -/
def peekBlocked (r : Rg) : Bool :=
  [Rg.haulViol, .haulPrbsErr, .haulFlagIn, .haulRelay, .haulSpoilLost, .tskWaitMax, .tskQinfo, .tskQpush].contains r

/-- A register with its RC fields cleared (R8). -/
def clearRc (x : RegDesc) (v : Word) : Word := x.fields.foldl (fun v f => if f.acc = .rc then setFld v f.hi f.lo 0 else v) v

/-- The side effect of an ordinary read of a register. -/
def Dev.readEffect (d : Dev) (die : Nat) (x : RegDesc) (i : Nat) : Dev :=
  let s := sideOf die
  let clearQueue (f : EvQueue → EvQueue) : Dev :=
    let q := d.rf s.code .tskQsel 0 5 0
    d.mod s fun h => h.modTsk fun t => { t with queues := tset {} t.queues q (f (tget {} t.queues q)) }
  match x.reg with
  | .haulPrbsErr => (d.setRg die x.reg i 0).draw
  | .tskWaitMax => d.mod s fun h => h.modTsk fun t => { t with longest := (0, 0) }
  | .tskQinfo => clearQueue fun q => { q with peak := 0 }
  | .tskQpush => clearQueue fun q => { q with push := 0 }
  | .fltVote => d.setPage s i { (d.page s i) with voteCount := 0 }
  | _ => if x.fields.any (fun f => f.acc = .rc) then d.setRg die x.reg i (clearRc x (d.rg die x.reg i)) else d

/-- A register read, ordinary or as a peek (R8, R491, R520, R521). -/
def Dev.readReg (d : Dev) (f : Fuse) (peek : Bool) (die : Nat) (x : RegDesc) (i : Nat) : Word × Dev :=
  let v := d.view f die x i
  let held := tget none d.latch (regKey die x.reg i)
  if peek && peekBlocked x.reg then (0, d.setRf 0 .dbgStatus 0 2 2 1)
  else if isHi x.reg then (held.getD v, d)
  else if peek then (v, d)
  else match hiOf x.reg with
  | none => (v, d.readEffect die x i)
  | some hi =>
    match descOf hi with
    | none => (v, d)
    | some y => (v, { d with latch := tset none d.latch (regKey die hi i) (some (d.view f die y i)) })

/-- A management read of one word: status, value, state. -/
def Dev.readWord (d : Dev) (f : Fuse) (peek : Bool) (addr : Nat) : Nat × Word × Dev :=
  let p := placeOf addr
  match d.unreached p (farAddr addr) with
  | some st => (st, 0, d)
  | none =>
    match p with
    | .reg die x i => (stOk, d.readReg f peek die x i)
    | .calTable s o => (stOk, d.calWord s o, d)
    | .attic s o =>
      if d.atticDenied f.life s o then (stDenied, 0, d)
      else if (d.half s).att.poison (o / 64) then (stIntegrity, 0, d.attUncorr s (o / 64))
      else (stOk, d.atticWord s o)
    | .shelf s o => if !f.life.open then (stDenied, 0, d) else (stOk, tget 0 (d.half s).shelf.ram (o / 4), d)
    | .cellar s o =>
      match d.cellarState s with
      | some st => (st, 0, d)
      | none =>
        if (d.half s).cel.poison (o / 64) then (stIntegrity, 0, d.celUncorr s (o / 64)) else
        (stOk, (d.mod s fun h => h.celTouch (o / 64) 1).cellarWord s o)
    | _ => (stOk, 0, d)

/-! ## Writes of plain registers -/

/-- A value that a field takes; any other leaves the field unchanged. Fields are named by register, index and lowest bit. -/
def fieldTakes (r : Rg) (i lo v : Nat) : Bool :=
  match r with
  | .tchCfg => !(lo = 8 || lo = 12) || decide (v ≤ 12)
  | .qryCfg => if lo = 8 then decide (v ≠ 0) else lo ≠ 0 || decide (v ≠ 3)
  | .fabHookCfg => lo ≠ 1 || decide (v ≠ 0)
  | .haulFireLead => decide (512 ≤ v)
  | .haulRelay => lo ≠ 16 || decide (256 ≤ v)
  | .hstUdpPort => decide (v ≠ 0)
  | .attScrubCfg => lo ≠ 0 || (decide (100 ≤ v) && decide (v ≤ 60000))
  | .fabScrubCfg => decide (100 ≤ v) && decide (v ≤ 10000)
  | .pwrCap => decide (100 ≤ v) && decide (v ≤ 700) && decide (v % 10 = 0)
  | .celScrubCfg => lo ≠ 0 || (decide (1 ≤ v) && decide (v ≤ 168))
  | .celQos => if lo = 16 then decide (v ≤ qosReset i / 65536) else decide (v ≠ 0)
  | _ => true

/-- A word that a register takes; any other leaves the whole register unchanged. -/
def wordTakes (r : Rg) (v : Word) : Bool :=
  match r with
  | .qryBmCfg => decide (fld v 4 0 ≤ 24) && decide (fld v 9 5 ≤ 24) && decide (fld v 4 0 + fld v 9 5 ≤ 34)
  | .celDlySel => decide (fld v 12 10 ≠ 7) && decide (fld v 6 4 ≤ 4)
  | _ => true

/-- A register after a write under the access codes of its fields (R8, R9). -/
def written (x : RegDesc) (i : Nat) (old v : Word) : Word :=
  if !wordTakes x.reg v then old else
  x.fields.foldl (fun w f =>
    let n := fld v f.hi f.lo
    match f.acc with
    | .rw => if fieldTakes x.reg i f.lo n then setFld w f.hi f.lo n else w
    | .rv => if fieldTakes x.reg i f.lo n then setFld w f.hi f.lo n else w
    | .w1c => w &&& ~~~(setFld 0 f.hi f.lo n)
    | _ => w) old

def Dev.plainWrite (d : Dev) (die : Nat) (x : RegDesc) (i : Nat) (v : Word) : Dev :=
  d.setRg die x.reg i (written x i (d.rg die x.reg i) v)

/-- Registers that a W1C of a SET bit clears as a whole. -/
def clearedWith : Rg → List Rg
  | .faceAudit => [.faceAudit, .faceAuditAt]
  | .shelfCheck => [.shelfCheck]
  | .calCheck => [.calCheck]
  | .drlCheck => [.drlCheck]
  | .xtsAlarm => [.xtsAlarm, .xtsAlarmFile, .xtsAlarmLbn]
  | .safeBistLast => [.safeBistLast, .safeBistSigLo, .safeBistSigHi]
  | _ => []

/-- The write sets a SET bit, which is the register's only W1C field. -/
def setsBit (x : RegDesc) (v : Word) : Bool := x.fields.any fun f => f.acc = .w1c && decide (fld v f.hi f.lo = 1)

/-! ## The burst lock (R32) -/

/-- The write changes a burst-locked field; a 1 in a locked WO field counts as a change. -/
def Dev.changesLocked (d : Dev) (die : Nat) (x : RegDesc) (i : Nat) (v : Word) : Bool :=
  x.fields.any fun f =>
    f.burst && decide (fld v f.hi f.lo ≠ (if f.acc = .wo then 0 else fld (d.rg die x.reg i) f.hi f.lo))

/-- The lock is in force for a register: in its half, for PWR_CAP in either. -/
def Dev.lockHolds (d : Dev) (die : Nat) (r : Rg) : Bool :=
  if 2 ≤ die then false
  else if r = .pwrCap then d.west.locked || d.east.locked
  else (d.half (sideOf die)).locked

/-! ## Writes with hooks -/

/-- SHELF_CTRL.SWAP (R95). The life cycle is looked at before the lock: R32 and the register table do not order DENIED and
WRONG_STATE (DESIGN CHOICE, log entry 58). -/
def Dev.swapWrite (d : Dev) (life : Life) (s : Side) (v : Word) : Nat × Dev :=
  let h := d.half s
  if !v.getLsbD 0 then (stOk, d)
  else if !life.open then (stDenied, d)
  else if h.locked ∨ h.shelf.st0 ≠ .valid ∨ h.shelf.st1 ≠ .valid then (stWrong, d)
  else (stOk, d.swapSlots s)

/-- FAB_HOOK_CFG: enabling a hook starts the pairing of its returns (R231). -/
def Dev.hookCfgWrite (d : Dev) (die : Nat) (x : RegDesc) (i : Nat) (v : Word) : Nat × Dev :=
  let s := sideOf die
  let was := d.hookOn s i
  let d := d.plainWrite die x i v
  (stOk, if !was && d.hookOn s i then d.mod s fun h => h.restartHook i else d)

/-- CEL_SCRUB_CFG with its GO action. -/
def Dev.scrubCfgWrite (d : Dev) (die : Nat) (x : RegDesc) (v : Word) : Nat × Dev :=
  if !v.getLsbD 9 then (stOk, d.plainWrite die x 0 v) else
  match (d.plainWrite die x 0 v).scrubGo (sideOf die) with
  | (st, d') => (st, if st = stOk then d' else d)

/-- LDR_CTRL.COMPACT (R306). -/
def Dev.compactWrite (d : Dev) (v : Word) : Nat × Dev :=
  if !v.getLsbD 0 then (stOk, d)
  else if !d.ldr.hostMode then (stWrong, d)
  else if d.ldr.compacting then (stBusy, d)
  else (stOk, d.startCompaction)

/-- Writes of a fault page. -/
def Dev.pageWrite (d : Dev) (s : Side) (blk : Nat) (r : Rg) (v : Word) : Nat × Dev :=
  match r with
  | .fltStatus => d.fltStatusWrite s blk v
  | .fltEnable => d.fltEnableWrite s blk v
  | .fltSeverity => d.fltSevWrite s blk v
  | .fltCountCfg => d.fltCountWrite s blk v
  | .fltBucket => d.fltBucketWrite s blk v
  | .fltFirst => d.fltFirstWrite s blk v
  | _ => (stOk, d)

/-- A write that the lock admits: the register's own hook, or its plain fields. -/
def Dev.hookWrite (d : Dev) (life : Life) (w : Writer) (die : Nat) (x : RegDesc) (i : Nat) (v : Word) : Nat × Dev :=
  let s := sideOf die
  match x.reg with
  | .clkSrc => d.clkSrcWrite w v
  | .safeCtrl => d.safeCtrlWrite w v
  | .tskWdogCfg => d.wdogCfgWrite w s i v
  | .tskPatchAddr => d.patchWrite (decide (w = .poke)) s i 0 v
  | .tskPatchLo => d.patchWrite (decide (w = .poke)) s i 1 v
  | .tskPatchHi => d.patchWrite (decide (w = .poke)) s i 2 v
  | .shelfCtrl => d.swapWrite life s v
  | .drlStatus => (stOk, if v.getLsbD 4 then d.mod s fun h => h.setDrl i { (h.drl i) with fault := false } else d)
  | .celTrain => d.trainWrite s v
  | .celDlyData => d.dlyWrite s v
  | .celScrubCfg => d.scrubCfgWrite die x v
  | .attStage => d.stageWrite s v
  | .qryReserve => d.reserveWrite s v
  | .haulQCtrl => d.quadCtrl s i v
  | .haulRxLat => d.adjWrite s i v
  | .haulLaneCtrl => d.laneCtrl s (i / 4) (i % 4) v
  | .haulLaneEq => d.laneEq w s (i / 4) (i % 4) v
  | .haulCascade => d.cascadeWrite v
  | .haulCtrl => d.haulCtrl v
  | .haulXmod => d.xmodWrite v
  | .stwCtrl => d.stwCtrlWrite s v
  | .stwLane => d.stwLaneWrite s i v
  | .nocTimeout => d.nocTimeoutWrite s v
  | .cfgBoot => (stOk, (d.plainWrite die x i v).ldrAppend 9 0 (.boot (written x i (d.rg die x.reg i) v)))
  | .aonCfg => d.aonCfgWrite v
  | .aonCountLo => d.aonCountWrite w false v
  | .aonCountHi => d.aonCountWrite w true v
  | .ldrCtrl => d.compactWrite v
  | .fabScrubCmd => d.scrubCmdWrite s v
  | .fabHookCfg => d.hookCfgWrite die x i v
  | .fabNocPortEn => d.portEnWrite (die - 2) v
  | _ =>
    if x.off % 0x100000 / 0x1000 = 0xFF then d.pageWrite s i x.reg v
    else match clearedWith x.reg with
    | [] => (stOk, d.plainWrite die x i v)
    | l => (stOk, if setsBit x v then l.foldl (fun d r => d.resetRg die r) d else d)

/-- TE's copies of registers that are active in TW only ignore writes. -/
def idleCopy (die : Nat) (x : RegDesc) : Bool :=
  die = 1 && ((decide (0xC00000 ≤ x.off) && decide (x.off < 0xC00100)) || (decide (0xD08000 ≤ x.off) && decide (x.off ≤ 0xD08018)))

/-- A register write: the burst lock, then the register's own rules. -/
def Dev.writeReg (d : Dev) (life : Life) (w : Writer) (die : Nat) (x : RegDesc) (i : Nat) (v : Word) : Nat × Dev :=
  if idleCopy die x then (stOk, d)
  else if x.reg ≠ .shelfCtrl && d.lockHolds die x.reg && d.changesLocked die x i v then (stWrong, d)
  else d.hookWrite life w die x i v

/-- A write of one word to a place of one die. A write inside the Cellar window is DENIED beyond the DIMM capacity too, where R28
ignores writes and R30 denies them (DESIGN CHOICE, log entry 58). -/
def Dev.writePlace (d : Dev) (life : Life) (w : Writer) (p : Place) (v : Word) : Nat × Dev :=
  match p with
  | .reg die x i => d.writeReg life w die x i v
  | .attic s o => if d.atticDenied life s o then (stDenied, d) else (stOk, d.atticWrite s o v)
  | .shelf s o => if !life.open then (stDenied, d) else d.shelfWrite s o v
  | .cellar _ _ => (stDenied, d)
  | .reject => (stBadArg, d)
  | _ => (stOk, d)

/-- A write to a place if it can be reached. Firmware writes its own die. -/
def Dev.writeTo (d : Dev) (life : Life) (w : Writer) (p : Place) (far : Bool) (v : Word) : Nat × Dev :=
  match if w = .fw ∧ p ≠ .reject then none else d.unreached p far with
  | some st => (st, d)
  | none => d.writePlace life w p v

/-- A broadcast write (R29): each T-die on its own, TW alone for a block active in TW only or while the Stairwell is down. -/
def Dev.broadcast (d : Dev) (life : Life) (w : Writer) (o : Nat) (v : Word) : Nat × Dev :=
  let (st, d) := d.writeTo life w (placeT 0 o) false v
  if placeT 0 o = .reject ∨ placeT 1 o = .reject then (st, d)
  else if d.stwDown then (if st = stOk then stDegraded else st, d)
  else
    let (st', d) := d.writeTo life w (placeT 1 o) true v
    (if st = stOk then st' else st, d)

/-- A management write of one word (R28 to R32): status and state. -/
def Dev.writeWord (d : Dev) (life : Life) (w : Writer) (addr : Nat) (v : Word) : Nat × Dev :=
  if addr / 2 ^ 40 = 15 then d.broadcast life w (addr % 2 ^ 40) v
  else d.writeTo life w (placeOf addr) (farAddr addr) v

/-- A command that writes one register of a die: its status is shown. -/
def regCommand (w : Writer) (die : Nat) (r : Rg) (i : Nat) (v : Word) (life : Life) (d : Dev) : Dev :=
  match allRegs.find? fun x => decide (x.reg = r) with
  | none => d
  | some x =>
    let (st, d) := d.writeTo life w (.reg die x i) (sideOf die = .e) v
    d.emit (.wrote st)

/-- REGISTER_WRITE: one word at a management address. -/
def registerWrite (w : Writer) (addr : Nat) (v : Word) (life : Life) (d : Dev) : Dev :=
  let (st, d) := d.writeWord life w addr v
  d.emit (.wrote st)

end Sys2Proof.Machine
end

