-- ==== Sys2Proof/Machine/Trapdoor.lean ====
section
/-! DEFINITION. The Trapdoor debug port (chapter 19): access by life cycle and token, peek and poke, halts, pin access, flash.
A command arrives whole with its CRC; its answer is a status byte, the result and a CRC (R483). -/
namespace Sys2Proof.Machine

/-- CRC-8 of R483 over one byte's bits, most significant first: polynomial x^8 + x^2 + x + 1. -/
def crc8Bits : Nat → Nat → Nat
  | 0, c => c
  | n + 1, c => crc8Bits n (if c < 128 then 2 * c else Nat.xor (2 * c % 256) 7)

/-- CRC-8 of a byte string, initial value 0. -/
def crc8 (l : List Byte) : Nat := l.foldl (fun c b => crc8Bits 8 (Nat.xor c b.toNat)) 0

/-- The answer to a command: status, result, CRC. -/
def Dev.answer (d : Dev) (status : Nat) (result : List Byte) : Dev :=
  let l := beBytes 1 status ++ result
  d.emit (.trap (l ++ beBytes 1 (crc8 l)))

/-- A request is answered MALFORMED with no effect when its CRC does not fit its command and arguments (R483). -/
def Dev.requested (d : Dev) (req : List Byte) (crc : Byte) (f : Dev → Dev) : Dev :=
  if crc8 req = crc.toNat then f d else d.answer stMalformed []

/-- Argument byte that names a die and a core (R483). -/
def dieCore (s : Side) (core : Nat) : Nat := 16 * s.code + core

/-! ## Access (R484, R485) -/

/-- SCOPE bits (R485). -/
def scHalt : Nat := 0
def scPeek : Nat := 1
def scPatch : Nat := 2
def scPins : Nat := 3
def scFlash : Nat := 4

/-- A command of a scope bit may run: in MANUFACTURE and RETURNED, or in DEPLOYED under a token that grants it. -/
def Dev.granted (d : Dev) (life : Life) (bit : Nat) : Bool :=
  match life with
  | .manufacture => true
  | .returned => true
  | .deployed => match d.dbg.scope with
    | some w => w.getLsbD bit
    | none => false
  | _ => false

/-- Run a command under its scope bit, else answer DENIED. -/
def Dev.under (d : Dev) (life : Life) (bit : Nat) (f : Dev → Dev) : Dev :=
  if d.granted life bit then f d else d.answer stDenied []

/-- IDCODE, in every state: IDENT_PART and SEC_LIFECYCLE. -/
def idcode (life : Life) (d : Dev) : Dev :=
  d.answer stOk (beBytes 4 (d.rg 0 .identPart).toNat ++ beBytes 1 life.code)

/-- CHALLENGE: a fresh nonce for one TOKEN attempt. -/
def challenge (life : Life) (d : Dev) : Dev :=
  if life = .blank ∨ life = .retired then d.answer stDenied [] else
  let n := Config.random d.free % 2 ^ 256
  (({ d with dbg := { d.dbg with nonce := some n } }).draw).answer stOk (beBytes 32 n)

/-- A token's signature by the Dwesol service key covers the latest nonce, ID_KEY_HASH and SCOPE. -/
def Dev.tokenOk (d : Dev) (f : Fuse) (scope reserved : Word) (sig : List Byte) : Bool :=
  match d.dbg.nonce with
  | none => false
  | some n =>
    decide (reserved = 0) && decide (scope.toNat < 32)
      && verifies f.serviceKey (beBytes 32 n ++ beBytes 48 d.idKeyHash ++ beBytes 4 scope.toNat) sig

/-- TOKEN: the attempt uses the nonce up. A token without a nonce before it, with a bit beyond SCOPE's five, with reserved
bytes, or whose signature fails is a failing one. -/
def token (f : Fuse) (scope reserved : Word) (sig : List Byte) (d : Dev) : Dev :=
  if f.life = .blank ∨ f.life = .retired then d.answer stDenied [] else
  let ok := d.tokenOk f scope reserved sig
  let d := { d with dbg := { d.dbg with nonce := none } }
  if ok then ({ d with dbg := { d.dbg with scope := some scope } }).answer stOk []
  else (d.raise .w blkDbg 0).answer stDenied []

/-- TOKEN_EXPIRE: 60 s pass without a request. -/
def tokenExpire (d : Dev) : Dev := { d with dbg := { d.dbg with scope := none } }

/-! ## Peek and poke (R486, R491, R492) -/

/-- A SEC register, which no token reaches in DEPLOYED. -/
def isSec (addr : Nat) : Bool := decide (0xC00000 ≤ addr % 2 ^ 40) && decide (addr % 2 ^ 40 < 0xC00100) && decide (addr / 2 ^ 40 < 16)

/-- A patch register, whose writes take scope bit 2. -/
def isPatch (addr : Nat) : Bool := decide (0x300100 ≤ addr % 2 ^ 40) && decide (addr % 2 ^ 40 < 0x300200)

/-- PEEK. -/
def peek (f : Fuse) (addr : Nat) (d : Dev) : Dev :=
  d.under f.life scPeek fun d =>
    if f.life = .deployed && isSec addr then d.answer stDenied [] else
    match d.readWord f true addr with
    | (st, v, d) => d.answer st (if st = stOk then beBytes 4 v.toNat else [])

/-- POKE: an ordinary write. -/
def poke (life : Life) (addr : Nat) (v : Word) (d : Dev) : Dev :=
  d.under life (if isPatch addr then scPatch else scPeek) fun d =>
    if life = .deployed && isSec addr then d.answer stDenied [] else
    let (st, d) := d.writeWord life .poke addr v
    d.answer st []

/-! ## Halt, step, resume, breakpoint (R487 to R490, R492) -/

/-- HALT: the whole CC domain of the T-die; the core named is recorded as the halting core. -/
def halt (life : Life) (s : Side) (core : Nat) (d : Dev) : Dev :=
  d.under life scHalt fun d =>
    let d := d.haltDie s 1
    ({ d with dbg := { d.dbg with halter := some (s, core) } }).answer stOk []

/-- STEP: the halted T-die runs until the core retires one instruction, and halts again; WRONG_STATE when it is not halted.
The instruction and the program counter are firmware's: free values. -/
def stepCore (life : Life) (s : Side) (d : Dev) : Dev :=
  d.under life scHalt fun d =>
    if !(d.half s).tsk.halted then d.answer stWrong [] else
    let pc := Config.firmware 12 d.free % 2 ^ 64
    (d.draw.haltDie s 1).answer stOk (beBytes 8 pc)

/-- RESUME: the T-die goes on; one that is not halted is not changed. -/
def resume (life : Life) (s : Side) (d : Dev) : Dev :=
  d.under life scHalt fun d => (d.releaseDie s).answer stOk []

/-- BREAKPOINT: a running core fetches a replacement word that holds the break encoding. -/
def breakpoint (s : Side) (core : Nat) (d : Dev) : Dev :=
  let t := (d.half s).tsk
  let patched := (List.range 16).any fun u => (d.rg s.code .tskPatchAddr u).getLsbD 31
  if (t.core core).on && !t.halted && patched then d.haltDie s 2 else d

/-! ## Pin access (R493) -/

/-- PINS enter: only UNCONFIGURED, with no half armed, in a burst or arming. An asserted SAFE net ends the mode at once. -/
def pinsEnter (life : Life) (d : Dev) : Dev :=
  d.under life scPins fun d =>
    if d.cfg.state ≠ 0 ∨ d.west.locked ∨ d.east.locked then d.answer stWrong []
    else ({ d with dbg := { d.dbg with pins := !d.safe.asserted } }).answer stOk [0]

/-- PINS exit. -/
def pinsExit (life : Life) (d : Dev) : Dev := d.under life scPins fun d => d.pinsOff.answer stOk [0]

/-- Kind of a pin index: 0 GPIO, 1 DRVD, 2 DRVE, 3 CMPH, 4 CMPL, 5 OSPI; with its channel. -/
def pinKind (i : Nat) : Option (Nat × Nat) :=
  if i < 256 then some (0, i)
  else if 512 ≤ i ∧ i < 1024 then some (1, i - 512)
  else if 1024 ≤ i ∧ i < 1536 then some (2, i - 1024)
  else if 1536 ≤ i ∧ i < 2048 then some (3, i - 1536)
  else if 2048 ≤ i ∧ i < 2560 then some (4, i - 2048)
  else if 3072 ≤ i ∧ i ≤ 3083 then some (5, i - 3072)
  else none

/-- Half and local channel of a global channel. -/
def chanSide (n : Nat) : Side := if n < 256 then .w else .e

/-- The level that a drive pair shows at its lands: what was set in pin-access mode, else what the channel drives, data
after its inversion (R41). -/
def Dev.landLevel (d : Dev) (pin kind n : Nat) : Bool :=
  match (d.dbg.drive.find? fun kv => decide (kv.1 = pin)) with
  | some kv => decide (kv.2.2 = 1)
  | none =>
    let s := chanSide n
    let p := d.pins s (n % 256)
    if kind = 1 then p.1 != (d.rg s.code .tchCfg (n % 256)).getLsbD 1 else p.2

/-- PINS set. -/
def pinsSet (life : Life) (pin : Nat) (oe out : Bool) (d : Dev) : Dev :=
  d.under life scPins fun d =>
    if !d.dbg.pins then d.answer stWrong [] else
    match pinKind pin with
    | none => d.answer stBadArg []
    | some (k, _) =>
      if k = 3 ∨ k = 4 then d.answer stBadArg [] else
      let low := d.dbg.drive.filter fun kv => decide (kv.1 < pin)
      let high := d.dbg.drive.filter fun kv => decide (pin < kv.1)
      ({ d with dbg := { d.dbg with drive := low ++ (pin, b1 oe, b1 out) :: high } }).answer stOk [0]

/-- PINS get: the level at the land, which a GPIO or OSPI pin takes from OUT while set drives it and from the board
otherwise; for a drive pair the level driven. -/
def pinsGet (life : Life) (pin : Nat) (level : Bool) (d : Dev) : Dev :=
  d.under life scPins fun d =>
    if !d.dbg.pins then d.answer stWrong [] else
    match pinKind pin with
    | none => d.answer stBadArg []
    | some (k, n) =>
      let v := if k = 1 ∨ k = 2 then d.landLevel pin k n
        else match d.dbg.drive.find? fun kv => decide (kv.1 = pin) with
          | some kv => if kv.2.1 = 1 then decide (kv.2.2 = 1) else level
          | none => level
      d.answer stOk (beBytes 1 (b1 v))

/-! ## Flash (R411, R414, R486) and the line -/

/-- FLASH: only firmware slots A and B and the patch set region, and not while a store runs. -/
def flash (life : Life) (addr : Nat) (data : List Byte) (d : Dev) : Dev :=
  d.under life scFlash fun d =>
    if data.length ≠ 256 then d.answer stMalformed []
    else if d.storing then d.answer stBusy []
    else if 0x2100000 < addr + 256 then d.answer stDenied []
    else ({ d with dbg := { d.dbg with flash := tblit 0xFF d.dbg.flash addr data } }).answer stOk []

/-- TRAP_LINE_IDLE: a request in progress is discarded. The model takes a request whole, so nothing is held of one. -/
def trapLineIdle (d : Dev) : Dev := d

/-- FRAMING_ERROR: the frame in progress is discarded with no effect; a low of 18 to 20 µs is logged when firmware runs, in a
form that the spec does not give (R444, R482). -/
def framingError (width18to20 : Bool) (d : Dev) : Dev :=
  if width18to20 && d.west.tsk.started && !d.west.tsk.halted then { d with dbg := { d.dbg with lows := d.dbg.lows + 1 } } else d

end Sys2Proof.Machine
end

