-- ==== Sys2Proof/Machine/Shadow.lean ====
section
/-! DEFINITION. Reconciliation (R33 to R35): the shadow that firmware keeps of each unit's state, the periodic comparison, and
the comparison before a command that touches the unit. -/
namespace Sys2Proof.Machine

/-- Page and source of STATE_DIVERGENCE of a unit. -/
def unitSource : Unit34 → Side × Nat × Nat
  | .face s => (s, blkFace, 5)
  | .drill s _ => (s, blkDrl, 2)
  | .quarry s => (s, blkQry, 3)
  | .chute s => (s, blkCel, 3)
  | .attic s => (s, blkAtt, 1)
  | .cal s => (s, blkCal, 5)
  | .haul s _ => (s, blkHaul, 5)
  | .stairwell s => (s, blkStw, 6)
  | .keySlot _ => (.w, blkXts, 8)
  | .mode s => (s, blkTsk, 6)
  | .cfg => (.w, blkCfg, 2)
  | .power => (.w, blkClk, 7)

/-- Number of a unit among all that have a shadow: the model's own. -/
def unitKey : Unit34 → Nat
  | .face s => s.code
  | .drill s d => 2 + 2 * s.code + d.val
  | .quarry s => 6 + s.code
  | .chute s => 8 + s.code
  | .attic s => 10 + s.code
  | .cal s => 12 + s.code
  | .haul s q => 14 + 4 * s.code + q.val
  | .stairwell s => 22 + s.code
  | .mode s => 24 + s.code
  | .cfg => 26
  | .power => 27
  | .keySlot n => 28 + n

/-- State code of a unit as the data path holds it: its status register's where it has one. -/
def Dev.unitCode (d : Dev) (u : Unit34) : Nat :=
  match u with
  | .face s => (d.half s).face.state.code
  | .drill s k => ((d.half s).drl k.val).st.val
  | .quarry s => (d.half s).qry.state.code
  | .chute s => b1 (d.half s).face.chuteOn
  | .attic s => d.rf s.code .attStage 0 4 0
  | .cal s => b1 (d.calValid s) + 2 * b1 (d.half s).cal.sweeping
  | .haul s q => ((d.half s).haul.quad q.val).st.code
  | .stairwell s => (d.half s).stw.state
  | .mode s => (d.half s).modes.toNat
  | .cfg => d.cfg.state
  | .power => b1 d.clk.short
  | .keySlot n => (d.slot n).kind.code

/-- The shadow of a unit: what firmware was last told, but where an upset has left another code. -/
def Dev.shadowOf (d : Dev) (u : Unit34) : Nat := (tget none d.shadow (unitKey u)).getD (d.unitCode u)

/-- The shadow and the data path differ. -/
def Dev.diverges (d : Dev) (u : Unit34) : Bool := decide (d.shadowOf u ≠ d.unitCode u)

/-- Firmware reconciles a unit: a mismatch is overwritten with the data path's state, logged with both states, and raised; the
data path itself is left (R33, R35). -/
def Dev.reconcileUnit (d : Dev) (u : Unit34) : Dev :=
  let x := unitSource u
  let e := d.diverges u
  let log : Option (Nat × Nat × Nat) := if e then some (unitKey u, d.shadowOf u, d.unitCode u) else d.diverged
  let d := { d with shadow := tset none d.shadow (unitKey u) none, diverged := log }
  if e then (d.event 6 (evSrc x.1 x.2.1) x.2.2).raise x.1 x.2.1 x.2.2 else d

/-- RECONCILE: firmware's periodic reconciliation of a unit (R34). `upset` is a code that an upset of firmware's state leaves in
the shadow after it; the next reconciliation of the unit, periodic or by a command, meets it (log entry 33). -/
def reconcile (u : Unit34) (upset : Option Nat) (d : Dev) : Dev :=
  let d := d.reconcileUnit u
  match upset with
  | some c => { d with shadow := tset none d.shadow (unitKey u) (some c) }
  | none => d

/-- Firmware of every half in a list runs and takes commands. -/
def Dev.reconciles (d : Dev) (l : List Side) : Bool :=
  l.all fun s => (d.half s).tsk.started && !(d.half s).tsk.halted && !(d.half s).tsk.reload && !(d.half s).down 11

/-- A command that touches units: firmware reconciles each before it looks at the command. A mismatch rejects the command with
WRONG_STATE and the units' current state codes, a byte each (DESIGN CHOICE, log entry 33), with no other effect (R34, R35). -/
def touching (units : List Unit34) (body : Body) : Body := fun life r d =>
  let l := units.filter fun u => d.reconciles [(unitSource u).1]
  let d' := l.foldl (fun d u => d.reconcileUnit u) d
  if l.any d.diverges then d'.finish life r stWrong (l.flatMap fun u => beBytes 1 (d.unitCode u)) else body life r d

/-- Units of a half that ARM touches. -/
def armUnits (s : Side) : List Unit34 :=
  [.face s, .drill s 0, .drill s 1, .quarry s, .chute s, .attic s, .cal s, .cfg, .power]

end Sys2Proof.Machine
end

