-- ==== Sys2Proof/Machine/Hoist.lean ====
section
/-! DEFINITION. The Hoist front end (chapter 13): violations, the sequence window, admission of a command by opcode, session,
life cycle and state, and the commands on registers, windows and sessions. -/
namespace Sys2Proof.Machine

/-- What the 24 bytes of a received header say, in network byte order (R343): the header of a request from its bytes and from
the rest that the front end knows of its frame. In a request STATUS is 0. -/
def Hdr.ofBytes (h : Hdr) (b : List Byte) : Hdr :=
  let n (o k : Nat) : Nat := ofBe (((b.drop o).take k).map fun (x : Byte) => x.toNat)
  let flags := n 1 1
  { h with
    version := n 0 1, rsp := flags.testBit 0, sealed := flags.testBit 1
    resv := h.resv || decide (flags / 16 ≠ 0) || decide (n 3 1 ≠ 0) || decide (n 0x14 4 ≠ 0)
    session := n 4 4, seq := n 8 4, tag := n 0x0C 4, length := n 0x10 4 }

/-! ## Violations (R365 to R368) -/

/-- A violation is counted in HST_VIOL_CNT and for its session, or its source address. At N the session closes, and the
address's sessionless frames are ignored. -/
def Dev.violation (d : Dev) (session : Option Nat) (src cat : Nat) : Dev :=
  let d := d.bump 0 .hstViolCnt
  match session with
  | some id =>
    let (d, full) := d.countEvent .w blkHst 0 (2 * id)
    if full then (d.closeSession id 3 true).event 9 (evSrc .w blkHst) cat else d
  | none =>
    let (d, full) := d.countEvent .w blkHst 0 (2 * src + 1)
    if full then { d with hst := { d.hst with ignored := d.hst.ignored ++ [src] } } else d

/-- n sequence gaps of a session; they end with the session. -/
def Dev.gaps (d : Dev) (id src : Nat) : Nat → Dev
  | 0 => d
  | n + 1 => if (d.session id).isNone then d else (d.violation (some id) src 5).gaps id src n

/-! ## The sequence window (R346, R347) -/

/-- A number is stale: it lies below the window. -/
def Session.stale (x : Session) (s : Nat) : Bool := s = 0 || decide (s + 64 ≤ x.high)

/-- Numbers that leave the window without having arrived when the highest number becomes s. -/
def Session.lost (x : Session) (s : Nat) : Nat :=
  let hi := s - 64
  let lo := max 1 (x.high - 63)
  hi + 1 - lo - (x.seen.filter fun n => decide (n ≤ hi)).length

/-- The window after a new number s. -/
def Session.accept (x : Session) (s src : Nat) : Session :=
  let h := max x.high s
  { x with high := h, src := src
           seen := s :: x.seen.filter (fun n => decide (h < n + 64))
           asked := x.asked.filter fun n => decide (h < n + 64)
           kept := x.kept.filter fun q => decide (h < q.1 + 64) }

/-- The front end answers at once, and the answer is not retained. -/
def Dev.quick (d : Dev) (r : Reply) (status : Nat) (payload : List Byte) : Dev :=
  d.send { session := r.session, dst := r.src, tag := r.tag, op := r.op, status := status
           sealed := decide (r.session ≠ 0), payload := payload }

/-- The answer to a repeated number: in progress, retained, or neither (R346). -/
def Dev.repeated (d : Dev) (x : Session) (r : Reply) : Dev :=
  if x.busy.contains r.seq then (d.quick r stPending (beBytes 4 (Config.retry d.free % 2 ^ 32))).draw
  else match x.kept.find? fun q => decide (q.1 = r.seq) with
  | some q => d.send { q.2 with dst := r.src }
  | none => d.quick r stDup []

/-- Where the answer of a request goes: its session when it came sealed in one (R342). -/
def Dev.replyTo (d : Dev) (op : Nat) (h : Hdr) : Reply :=
  { session := if h.sealed && (d.session h.session).isSome then h.session else 0
    seq := h.seq, tag := h.tag, op := op, src := h.src, encap := h.encap.val }

/-- Bytes of the frame with its encapsulation and its authentication tag (R339, R341). -/
def frameBytes (h : Hdr) : Nat := encapBytes h.encap.val + 24 + h.length + 16 * b1 h.sealed

/-- The frame reaches the front end: its block is out of reset (R295), the link is up, its encapsulation is on, and its address is not ignored. -/
def Dev.hears (d : Dev) (h : Hdr) : Bool :=
  d.hst.linkUp && !d.west.stuck.getLsbD blkHst && !(decide (h.encap.val = 1) && decide (d.rg 0 .hstIpv4 = 0))
    && !(decide (h.session = 0) && d.hst.ignored.contains h.src)

/-- The checks of the frame, its session and its number (R346, R365): the state with the number accepted, or the state in
which the front end has done with the frame. -/
def Dev.receive (d : Dev) (op : Nat) (h : Hdr) : Except Dev Dev :=
  let r := d.replyTo op h
  let ses : Option Nat := (d.session h.session).map fun x => x.id
  if !d.hears h then .error d
  else if 9000 < frameBytes h then .error (d.bump 0 .hstViolCnt)
  else if h.version ≠ 1 || h.rsp || h.resv then .error ((d.quick r stMalformed []).violation ses h.src 1)
  else match d.session h.session with
  | none => if h.session ≠ 0 || h.sealed then .error ((d.quick r stDenied []).violation none h.src 2) else .ok d
  | some x =>
    if !h.sealed then .ok d
    else if !h.gcmOk then .error (d.violation ses h.src 3)
    else if x.stale h.seq then .error (d.violation ses h.src 4)
    else if x.seen.contains h.seq then .error (d.repeated x r)
    else
      let d := (d.modSession x.id fun x => x.accept h.seq h.src).gaps x.id h.src (min (x.lost h.seq) 65536)
      if (d.session x.id).isNone then .error d else .ok d

/-! ## Admission (R349 to R354) -/

/-- What the opcode table says of an opcode: its code, whether it requires a session, whether firmware executes it. -/
structure OpRow where
  code     : Nat
  required : Bool := true
  fw       : Bool := true
deriving DecidableEq, Repr

/-- In BLANK and RETIRED only these commands are accepted (R311, R354); `target` is that of LIFECYCLE_ADVANCE. -/
def lifeRefuses (life : Life) (op target : Nat) (h : Hdr) : Bool :=
  match life with
  | .blank => !(h.session = 0 && !h.sealed && (op = 0x05 || op = 0x70 || (op = 0xF0 && target = 1)))
  | .retired => !(op = 0x01 || op = 0x05 || op = 0x70)
  | _ => false

/-- DEVICE_STATE refuses the opcode (R352). -/
def stateRefuses (state op : Nat) : Bool :=
  (state = 1 && !([0x05, 0x70, 0x54, 0x55, 0x52, 0x53].contains op))
    || (state = 8 && [0x51, 0x52, 0x20, 0x60, 0x90, 0xB0].contains op)

/-- A session has 16 commands in progress (R350). -/
def Dev.full (d : Dev) (r : Reply) : Bool :=
  match d.session r.session with
  | some x => decide (16 ≤ x.busy.length)
  | none => false

/-- Firmware of a T-die is halted; `east` says that the command concerns the east half, TE, F2 or F3 too (R349). -/
def Dev.fwHalted (d : Dev) (east : Bool) : Bool := d.west.tsk.halted || (east && d.east.tsk.halted)

/-- Firmware of a half's T-die reloads or is held in reset. -/
def Half.away (h : Half) : Bool := h.tsk.reload || h.down 11

/-- Firmware cannot take a command now: not started, reloading, in reset, or its Hoist queue is full (R415, R418, R449). -/
def Dev.fwBusy (d : Dev) (east : Bool) : Bool :=
  !d.west.tsk.started || d.west.away || (east && d.east.away)
    || decide (queueCap .w blkHst ≤ (tget {} d.west.tsk.queues blkHst).entries.length)

/-- A firmware-dependent command is refused: HALTED or BUSY. `halt` and `away` say whether TE's firmware matters to it. -/
def Dev.fwRefusal (d : Dev) (fw halt away : Bool) : Option Nat :=
  if !fw then none else if d.fwHalted halt then some stHalted else if d.fwBusy away then some stBusy else none

/-- The request counts as one in progress. -/
def Dev.begin (d : Dev) (r : Reply) : Dev := d.modSession r.session fun x => { x with busy := x.busy ++ [r.seq] }

/-- Admission of a received request: unknown opcode, layout, life cycle, session, state and capacity, then firmware. -/
def Dev.admitted (d : Dev) (o : OpRow) (target : Nat) (halt away : Bool) (h : Hdr) (life : Life) : Except Dev Dev :=
  let r := d.replyTo o.code h
  let ses : Option Nat := (d.session h.session).map fun x => x.id
  if !h.opKnown then .error ((d.finish life r stUnknown []).violation ses h.src 6)
  else if !h.layoutOk then .error ((d.finish life r stMalformed []).violation ses h.src 1)
  else if lifeRefuses life o.code target h then .error (d.refuse life r stDenied)
  else if o.required && decide (r.session = 0) && decide (life ≠ .blank) then
    .error ((d.refuse life r stDenied).violation ses h.src 7)
  else if stateRefuses d.state o.code then .error (d.refuse life r stWrong)
  else if d.full r then .error (d.refuse life r stBusy)
  else match d.fwRefusal o.fw halt away with
  | some st => .error (d.refuse life r st)
  | none => .ok (d.begin r)

/-- The front end as a whole: the state in which the command starts, or in which the front end has answered it. -/
def Dev.enter (d : Dev) (o : OpRow) (target : Nat) (halt away : Bool) (h : Hdr) (life : Life) : Except Dev Dev :=
  match d.receive o.code h with
  | .error d => .error d
  | .ok d => d.admitted o target halt away h life

/-- A Hoist command: admission, then its body. -/
def hoist (o : OpRow) (east : Bool) (h : Hdr) (body : Body) (life : Life) (d : Dev) : Dev :=
  match d.enter o 0 east east h life with
  | .error d => d
  | .ok d => body life (d.replyTo o.code h) d

/-! ## Registers and windows (R357, R358) -/

/-- Consecutive words from an address: the words read, and the status that ended the run. -/
def readWords (f : Fuse) (addr : Nat) : Nat → Dev → Nat × List Word × Dev
  | 0, d => (stOk, [], d)
  | n + 1, d =>
    match d.readWord f false addr with
    | (0, v, d) =>
      let (st, l, d) := readWords f (addr + 4) n d
      (st, v :: l, d)
    | (st, _, d) => (st, [], d)

/-- READ_REG. A word that is refused refuses the whole and leaves no side effect but that of an uncorrectable line. -/
def readRegBody (f : Fuse) (addr count : Nat) : Body := fun life r d =>
  if count = 0 ∨ 256 < count ∨ !d.fits r (4 * count) then d.refuse life r stBadArg else
  match readWords f addr count d with
  | (0, l, d') => d'.finish life r stOk (l.flatMap fun v => beBytes 4 v.toNat)
  | (st, _, d') => if st = stIntegrity then d'.refuse life r st else d.refuse life r st

/-- Consecutive writes: they stop at the first refused one. A broadcast that TW alone performed counts as performed, and its
DEGRADED stays the status (R29). -/
def writeWords (life : Life) (addr : Nat) : List Word → Dev → Nat × Nat × Dev
  | [], d => (stOk, 0, d)
  | v :: l, d =>
    let (st, d) := d.writeWord life .host addr v
    if st = stOk ∨ (st = stDegraded ∧ addr / 2 ^ 40 = 15) then
      let (st', n, d) := writeWords life (addr + 4) l d
      (if st' = stOk then st else st', n + 1, d)
    else (st, 0, d)

/-- WRITE_REG: the status of the write that stopped it, and DONE. -/
def writeRegBody (addr : Nat) (values : List Word) : Body := fun life r d =>
  if values.isEmpty ∨ 256 < values.length then d.refuse life r stBadArg else
  let (st, n, d) := writeWords life addr values d
  if st = stBusy then (d.finish life r st (beBytes 4 (Config.retry d.free % 2 ^ 32) ++ beBytes 2 n)).draw
  else d.finish life r st (beBytes 2 n)

/-- READ_BLOCK of a file: ciphertext as stored, in MODE 1 with tags and metadata. -/
def readFileBody (id mode addr len : Nat) : Body := fun life r d =>
  let s := fileSide id
  match d.fileOrRefusal id with
  | .error st => d.refuse life r st
  | .ok f =>
    if addr % 64 ≠ 0 ∨ len % 64 ≠ 0 ∨ f.length < addr + len ∨ !d.fits r (if mode = 1 then len / 64 * 77 else len)
    then d.refuse life r stBadArg
    else if f.isOpen ∨ f.live then d.refuse life r stWrong
    else if d.retired f then d.refuse life r stDenied
    else
      let lines := (List.range (len / 64)).map fun k => addr / 64 + k
      match lines.find? fun k => (d.half s).cel.poison (cellarLine s id k) with
      | some k => (d.celUncorr s (cellarLine s id k)).refuse life r stIntegrity
      | none =>
        d.finish life r stOk (lines.flatMap fun k => d.storedLine s f k ++ if mode = 1 then d.storedTag s f k else [])

/-- READ_BLOCK of a window, or of a file when FILE_ID is not 0. -/
def readBlockBody (f : Fuse) (id mode addr len : Nat) : Body := fun life r d =>
  if 1 < mode then d.refuse life r stBadArg
  else if id ≠ 0 then readFileBody id mode addr len life r d
  else if addr % 4 ≠ 0 ∨ len % 4 ≠ 0 ∨ mode = 1 ∨ !d.fits r len then d.refuse life r stBadArg
  else
    match readWords f addr (len / 4) d with
    | (0, l, d') => d'.finish life r stOk (l.flatMap fun v => leBytes 4 v.toNat)
    | (st, _, d') => if st = stIntegrity then d'.refuse life r st else d.refuse life r st

/-- Words of block data, which keeps its own byte order. -/
def wordsOf (data : List Byte) : List Word :=
  (List.range (data.length / 4)).map fun k => BitVec.ofNat 32 (rdLE (fun i => data.getD i 0) (4 * k) 4)

/-- WRITE_BLOCK: a word refused part-way ends it, and the words before it stay written. -/
def writeBlockBody (addr : Nat) (data : List Byte) : Body := fun life r d =>
  if addr % 4 ≠ 0 ∨ data.length % 4 ≠ 0 then d.refuse life r stBadArg else
  let (st, _, d) := writeWords life addr (wordsOf data) d
  d.refuse life r st

/-! ## Sessions, status and configuration -/

/-- SESSION_CLOSE: the response is the sealed frame with REASON 1, and the session's keys are gone (R348). -/
def sessionCloseBody : Body := fun life r d => (d.finish life r stOk [1]).closeSession r.session 1 false

/-- STATUS. -/
def statusBody : Body := fun life r d => d.finish life r stOk (d.statusBlock life)

/-- SESSION_OPEN: its own response goes unsealed, so the request is done when it came inside a session. -/
def openBody (maxFrame : Nat) (nonce : BitVec 256) (eph : Nat) (chain : List (List Byte)) (sig : List Byte) : Body := fun life r d =>
  (sessionOpenBody r.src maxFrame nonce eph chain sig life r d).modSession r.session fun x =>
    { x with busy := x.busy.filter fun q => decide (q ≠ r.seq) }

/-- CONFIG_BEGIN (R253, R255, R258). -/
def configBeginBody (target length : Nat) : Body := fun life r d =>
  match d.configRefusal target length with
  | some st => d.refuse life r st
  | none => (d.configBegin r.session target length).finish life r stOk []

/-- CONFIG_DATA and CONFIG_END. -/
def configDataBody (offset : Nat) (data : List Byte) : Body := fun life r d => d.configData life r offset data
def configEndBody : Body := fun life r d => d.configEnd life r

/-! ## Whether a command concerns TE (R349) -/

/-- An access to TE, F2 or F3; a broadcast write addresses TE. -/
def farAccess (addr : Nat) (write : Bool) : Bool := farAddr addr || (write && decide (addr / 2 ^ 40 = 15))

def farFile (id : Nat) : Bool := id.testBit 31

/-- HALVES names the east half. -/
def farHalves (halves : Nat) : Bool := halves.testBit 1

/-! ## The other frames and times of the front end -/

/-- REPLAY_REQ: 2 ms after a higher number, a number inside the window is still missing (R347). -/
def replayReq (session seq : Nat) (d : Dev) : Dev :=
  match d.session session with
  | none => d
  | some x =>
    if x.stale seq || decide (x.high ≤ seq) || x.seen.contains seq || x.asked.contains seq then d else
    (d.send { session := session, dst := x.src, op := 0, replay := true, payload := beBytes 4 seq }).modSession session
      fun x => { x with asked := x.asked ++ [seq] }

/-- SESSION_IDLE_TIMEOUT: 60 s without a valid request (R348). -/
def sessionIdleTimeout (session : Nat) (d : Dev) : Dev := d.closeSession session 2 true

/-- SOURCE_IGNORE_END: the second of R366 is over. -/
def sourceIgnoreEnd (src : Nat) (d : Dev) : Dev :=
  { d with hst := { d.hst with ignored := d.hst.ignored.filter fun x => decide (x ≠ src) } }

/-- ETHERNET_LINK_UP. ETHCLK has to be qualified (R430). -/
def ethernetLinkUp (d : Dev) : Dev := if d.clk.eth.ok then { d with hst := { d.hst with linkUp := true } } else d

/-- ETHERNET_LINK_DOWN (R367). -/
def ethernetLinkDown (d : Dev) : Dev :=
  if !d.hst.linkUp then d else ({ d with hst := { d.hst with linkUp := false } }).raise .w blkHst 1

/-- NON_HOIST_FRAME: dropped without answer or count (R364). -/
def nonHoistFrame (d : Dev) : Dev := d

/-- BAD_FRAME: dropped and counted (R341). -/
def badFrame (d : Dev) : Dev := if d.hst.linkUp then d.bump 0 .hstViolCnt else d

/-- ARP_REQUEST for the device's IPv4 address (R341). -/
def arpRequest (target : Word) (d : Dev) : Dev :=
  let ip := d.rg 0 .hstIpv4
  if d.hst.linkUp && decide (ip ≠ 0) && decide (ip = target) then d.emit .arpReply else d

/-- The link-local address of RFC 4291 from a MAC address, modified EUI-64. -/
def linkLocal (mac : BitVec 48) : BitVec 128 :=
  let m := mac.toNat
  let hi := Nat.xor (m / 2 ^ 24) 0x020000
  BitVec.ofNat 128 (0xFE80 * 2 ^ 112 + hi * 2 ^ 40 + 0xFFFE * 2 ^ 24 + m % 2 ^ 24)

/-- NEIGHBOUR_SOLICITATION for the device's link-local address (R341). -/
def neighbourSolicitation (mac : BitVec 48) (target : BitVec 128) (d : Dev) : Dev :=
  if d.hst.linkUp && decide (linkLocal mac = target) then d.emit .naReply else d

end Sys2Proof.Machine
end

