-- ==== Sys2Proof/Machine/Commit.lean ====
section
/-! DEFINITION. How a command acts on the state: what it sends is collected afresh, its effect follows, and then what every
command leaves in order. -/
namespace Sys2Proof.Machine

/-- What a command's meaning answers. -/
abbrev Answer := Host.Outcome State Fault Refusal

/-- The module after an effect and what every command leaves in order. -/
def Dev.after (d : Dev) (life : Life) (f : Life → Dev → Dev) : Dev := (f life { d with out := [] }).settle life

/-- A command that reaches the module in every power state. -/
def commit (f : Life → Dev → Dev) (s : State) : Answer :=
  .next { s with dev := s.dev.after s.fuse.life f }

/-- A command that only a running module takes: without power, in SLEEP and in a module reset nothing happens (R23, R443,
R445, R450). -/
def running (f : Life → Dev → Dev) (s : State) : Answer :=
  if s.dev.powered then commit f s else .next { s with dev := { s.dev with out := [] } }

/-- A Trapdoor command: the debug block answers once it is out of reset (R295), and only a request whose CRC fits acts
(R483). -/
def trapdoor (req : List Byte) (crc : Byte) (f : Life → Dev → Dev) (s : State) : Answer :=
  running (fun life d => if d.west.stuck.getLsbD blkDbg then d else d.requested req crc (f life)) s

/-- RESET_PART: a halted T-die refuses it, a reload of TE's firmware does not keep it from TE. -/
def resetPartRow (h : Hdr) (half blocks : Nat) (life : Life) (d : Dev) : Dev :=
  let o : OpRow := { code := 0xA0 }
  match d.enter o 0 (decide (half = 1)) false h life with
  | .error d => d
  | .ok d => resetPartBody half blocks life (d.replyTo o.code h) d

/-- LIFECYCLE_ADVANCE: the one command that blows a fuse. -/
def lifecycleRow (h : Hdr) (target key : Nat) (auth : List Byte) (s : State) : Answer :=
  let life := s.fuse.life
  if !s.dev.powered then .next { s with dev := { s.dev with out := [] } } else
  let o : OpRow := { code := 0xF0 }
  match Dev.enter { s.dev with out := [] } o target false false h life with
  | .error d => .next { s with dev := d.settle life }
  | .ok d =>
    let (l, d) := lifecycleBody s.fuse target key auth (d.replyTo o.code h) d
    .next { s with fuse := { s.fuse with life := l }, dev := d.settle l }

/-- What an image is compared with: IDENT_PART, the stepping and IDENT_DIESET (R242). -/
def State.ident (s : State) : Word × Nat × Word := (s.dev.rg 0 .identPart, s.fuse.stepping, BitVec.ofNat 32 s.fuse.dieset)

/-- A fault page that exists: the block is one of the twenty, and active in the T-die (R17, R29). -/
def pageOk (s : Side) (blk : Nat) : Bool := decide (blk < 20) && !(decide (s = .e) && twOnly blk)

end Sys2Proof.Machine
end

