-- ==== Sys2Proof/Machine/Logic.lean ====
section
/-! DEFINITION. The array of product-term cells as it runs (R209 to R220): wires, macrocells, seams, synchronisers, the south
edge interface, GPIO pads and the beats of NoC ports, clocked by the fabric clocks. -/
namespace Sys2Proof.Machine

/-! ## Places -/

/-- Number of a cell by global column and row. -/
def cellNo (c r : Nat) : Nat := 128 * c + r

/-- The side that faces a side of the neighbour. -/
def facing (side : Nat) : Nat := (side + 2) % 4

/-- The cell on a side of a cell; none beyond the four edges of the array (R209). -/
def neighbour (c r side : Nat) : Option (Nat × Nat) :=
  match side with
  | 0 => if r < 127 then some (c, r + 1) else none
  | 1 => if c < 959 then some (c + 1, r) else none
  | 2 => if 0 < r then some (c, r - 1) else none
  | _ => if 0 < c then some (c - 1, r) else none

/-- A wire between columns of two F-dies crosses a seam (R217). -/
def seamWire (c r side : Nat) : Bool :=
  match neighbour c r side with
  | some (c', _) => decide (c / 240 ≠ c' / 240)
  | none => false

/-- Fabric clock of the bench that holds a cell. -/
def Dev.cellClock (d : Dev) (c r : Nat) : Option Nat := d.benchClock (c / 240) (benchOf (c % 240) r)

/-- A wire into a cell ends in registers of the cell's bench: a seam's, or a synchroniser of two benches without a common
clock (R217, R219). -/
def Dev.landed (d : Dev) (c r wire : Nat) : Bool :=
  match neighbour c r (wire / 16) with
  | none => false
  | some (c', r') => seamWire c r (wire / 16) || decide (d.cellClock c r ≠ d.cellClock c' r')

/-- The tap read line or tap input that a cell serves: memory of its F-die, port, and tap cell j (R222). -/
def tapOf (c r : Nat) : Option (Nat × Bool × Nat) :=
  let x := c % 240
  if x < 12 ∨ 228 ≤ x then none else
  let portB := decide (x % 24 < 12)
  let y := if portB then x % 24 else 23 - x % 24
  let k := if portB then x / 24 else x / 24 + 1
  some ((k - 1) * 256 + 4 * (r / 2) + y / 3, portB, y % 3 + 3 * (r % 2))

/-- The interface that a wire of the south edge attaches to, by local column, and its bit there (R228). -/
inductive EdgeBit where
  | hook (hook bit : Nat) | gpio (bit : Nat) | noc (port bit : Nat)
deriving DecidableEq, Repr

/-- Hooks are numbered as in the half's registers. -/
def edgeBit (c w : Nat) : EdgeBit :=
  let die := c / 240
  let x := c % 240
  let q := x / 47
  let y := x % 47
  if x < 188 then
    let g := 4 * (die % 2) + q
    if y < 18 then .hook g (16 * y + w) else .hook (8 + g) (16 * (y - 18) + w)
  else if x < 206 then .hook (16 + die % 2) (16 * (x - 188) + w)
  else if x < 214 then .gpio (16 * (x - 206) + w)
  else .noc ((16 * (x - 214) + w) / 13) ((16 * (x - 214) + w) % 13)

/-! ## GPIO pins (R238, R239) -/

/-- The half's GPIO pins show their safe values: the SAFE net is asserted, or a partial reset holds the half. -/
def Dev.gpioSafe (d : Dev) (s : Side) : Bool := d.safe.asserted || decide ((d.half s).reset ≠ 0)

/-- Level that a half's GPIO pin drives, none at high impedance. Before START the pins stand at high impedance. -/
def Dev.gpioDrive (d : Dev) (s : Side) (pin : Nat) : Option Bool :=
  if !d.released then none
  else if d.gpioSafe s then
    (if (d.rg s.code .fabGpioSafeOe (pin / 32)).getLsbD (pin % 32) then some ((d.rg s.code .fabGpioSafeOut (pin / 32)).getLsbD (pin % 32))
     else none)
  else if (d.half s).fab.padOe.getLsbD pin then some ((d.half s).fab.padOut.getLsbD pin) else none

/-- Level at the pin: what the module drives, else what the board gives. -/
def Dev.gpioLevel (d : Dev) (s : Side) (pin : Nat) : Bool :=
  (d.gpioDrive s pin).getD (Config.gpioLevel (128 * s.code + pin) d.casc.ctime.toNat)

/-- Fabric clock of an F-die's GPIO bench: the bench that holds the interface's first column. -/
def Dev.gpioClock (d : Dev) (die : Nat) : Option Nat := d.benchClock die (benchOf 206 0)

/-! ## Signals -/

/-- Level of an inbound wire of the south edge: hook and port wires idle while a partial reset holds the half (R18, R228,
R229, R236). -/
def Dev.edgeIn (d : Dev) (c w : Nat) : Bool :=
  let die := c / 240
  let s := dieSide die
  let h := d.half s
  match edgeBit c w with
  | .hook k bit =>
    let n := slotWidth k
    h.reset = 0 && decide (bit < 2 * n) && ((h.hook k).bus.getD (bit / n) 0).testBit (bit % n)
  | .gpio bit => decide (bit < 64) && (d.rg s.code .fabGpioIn (2 * (die % 2) + bit / 32)).getLsbD (bit % 32)
  | .noc p bit => h.reset = 0 && (h.port die p).wires.getLsbD bit

/-- A point of the array whose level is asked for: an inbound or outbound wire of a cell, or a macrocell's output. -/
inductive Spot where
  | into (c r wire : Nat) | out (c r wire : Nat) | mac (c r m : Nat)
deriving DecidableEq, Repr

/-- Number of a point. -/
def Spot.key : Spot → Nat
  | .into c r wire => 256 * cellNo c r + wire
  | .out c r wire => 256 * cellNo c r + 64 + wire
  | .mac c r m => 256 * cellNo c r + 128 + m

/-- A register of the array: held as its difference from its initial value (R213). -/
def Dev.arrayReg (d : Dev) (key : Nat) (init : Bool) : Bool := tget false d.array.regs key != init

def ffKey (c r m : Nat) : Nat := 128 * cellNo c r + m

def wireKey (c r wire : Nat) : Nat := 128 * cellNo c r + 64 + wire

def syncKey (c r wire : Nat) : Nat := 64 * cellNo c r + wire

/-- Tap read line i of a cell, when it is tapped. -/
def Dev.tapLine (d : Dev) (c r i : Nat) : Option Bool :=
  (tapOf c r).map fun t =>
    (tget ({} : BPort) d.array.bports (bportKey (c / 240) t.1 t.2.1)).dout.getLsbD (16 * t.2.2 + i)

/-- Level at a point, over at most n wires and macrocells back to the registers and interfaces that feed it (R209 to R214,
R217, R219). A path that no bench may have reads a free value. -/
def Dev.probe (d : Dev) : Nat → Spot → Bool
  | 0, x => Config.slowPath x.key d.casc.ctime.toNat
  | n + 1, .into c r wire =>
    if (((d.array.cell c r).wires.getD wire {}).loop) then d.probe n (.out c r wire) else
    match neighbour c r (wire / 16) with
    | none => wire / 16 = 2 && d.edgeIn c (wire % 16)
    | some (c', r') =>
      let w' := 16 * facing (wire / 16) + wire % 16
      if d.landed c r wire then (tget 0 d.array.sync (syncKey c r wire)).testBit 0
      else if ((d.array.cell c' r').wires.getD w' {}).loop then false
      else d.probe n (.out c' r' w')
  | n + 1, .out c r wire =>
    let x := (d.array.cell c r).wires.getD wire {}
    if x.registered then d.arrayReg (wireKey c r wire) x.init else
    match x.src with
    | .tied => false
    | .cellOut m => d.probe n (.mac c r m)
    | .pass w => decide (w / 16 ≠ wire / 16) && d.probe n (.into c r w)
  | n + 1, .mac c r m =>
    let cfg := d.array.cell c r
    let x := cfg.macros.getD m {}
    if x.registered then d.arrayReg (ffKey c r m) x.init else
    cfg.dIn (fun i => d.probe n (.into c r (cfg.inputs.getD i 0))) m (d.tapLine c r m)

/-- Steps of the longest path that the compiler may place: three hops of a wire, a pass-through or an array (R215, R216). -/
def pathSteps : Nat := 12

def Dev.inWire (d : Dev) (c r wire : Nat) : Bool := d.probe pathSteps (.into c r wire)

/-- The level that an outbound wire of the south edge drives. -/
def Dev.southOut (d : Dev) (c w : Nat) : Bool := d.probe pathSteps (.out c 0 (32 + w))

/-- A run of outbound bits of an interface as a number: F-die, first local column, first bit, count (R228). -/
def Dev.outBits (d : Dev) (die col first count : Nat) : Nat :=
  (List.range count).foldl (fun a i =>
    a + b1 (d.southOut (240 * die + col + (first + i) / 16) ((first + i) % 16)) * 2 ^ i) 0

/-! ## An edge -/

/-- What the registers of a cell take at an edge of its bench's clock: key and new difference from the initial value. -/
def Dev.cellNext (d : Dev) (c r : Nat) (cfg : CellCfg) : List (Nat × Bool) :=
  let inp (i : Nat) : Bool := d.inWire c r (cfg.inputs.getD i 0)
  let ffs := (List.range cfg.macros.length).map fun m =>
    let x := cfg.macros.getD m {}
    let q := d.arrayReg (ffKey c r m) x.init
    (ffKey c r m, cfg.next inp m (cfg.dIn inp m (d.tapLine c r m)) q != x.init)
  let wires := (List.range cfg.wires.length).filterMap fun w =>
    let x := cfg.wires.getD w {}
    if !x.registered then none else
    let v := match x.src with
      | .tied => false
      | .cellOut m => d.probe pathSteps (.mac c r m)
      | .pass w' => decide (w' / 16 ≠ w / 16) && d.inWire c r w'
    some (wireKey c r w, v != x.init)
  ffs ++ wires

/-- What the seam registers and synchronisers of a cell take: a wire of one clock ends in one register, a wire between clocks in
two, and there a changed level may be taken one edge later (R217, R219). -/
def Dev.syncNext (d : Dev) (c r : Nat) : List (Nat × Nat) :=
  (List.range 64).filterMap fun wire =>
    if !d.landed c r wire then none else
    match neighbour c r (wire / 16) with
    | none => none
    | some (c', r') =>
      let w' := 16 * facing (wire / 16) + wire % 16
      let v := !((d.array.cell c' r').wires.getD w' {}).loop && d.probe pathSteps (.out c' r' w')
      let key := syncKey c r wire
      let old := tget 0 d.array.sync key
      if d.cellClock c r = d.cellClock c' r' then some (key, b1 v)
      else
        let first := if v == old.testBit 2 || Config.syncChoice d.free key then v else old.testBit 2
        some (key, b1 (old.testBit 1) + 2 * b1 first + 4 * b1 v)

/-- Cells that the image configures, on the clocks that have an edge. -/
def Dev.clockedCells (d : Dev) (cks : List Nat) : List (Nat × Nat × CellCfg) :=
  d.array.logic.flatMap fun fr =>
    ((List.range fr.2.length).map fun r => (fr.1, r, fr.2.getD r {})).filter fun x =>
      decide (x.2.2 ≠ {}) && (match d.cellClock x.1 x.2.1 with
        | some n => cks.contains n
        | none => false)

/-- The registers of the array after an edge. -/
def Dev.arrayEdge (d : Dev) (cks : List Nat) : ArraySt :=
  let l := d.clockedCells cks
  let regs := (l.flatMap fun x => d.cellNext x.1 x.2.1 x.2.2).foldl (fun t kv => tset false t kv.1 kv.2) d.array.regs
  let sync := (l.flatMap fun x => d.syncNext x.1 x.2.1).foldl (fun t kv => tset 0 t kv.1 kv.2) d.array.sync
  { d.array with regs := regs, sync := sync }

/-! ## Interfaces at an edge -/

/-- A clock among those that have an edge. -/
def edgeOf (cks : List Nat) (ck : Option Nat) : Bool :=
  match ck with
  | some n => cks.contains n
  | none => false

/-- The image configures cells of the columns of an interface. -/
def Dev.hasLogic (d : Dev) (die lo hi : Nat) : Bool :=
  d.array.logic.any fun fr => decide (240 * die + lo ≤ fr.1) && decide (fr.1 ≤ 240 * die + hi) && !fr.2.isEmpty

/-- An outbound slot as the wires spell it (R229). -/
def slotOf (hook bits : Nat) (match_ : Bool) : HookRet :=
  if hook < 16 then
    let n := if hook < 8 then 32 else 64
    let w := if hook < 8 then 4 else 2
    { valid := bits.testBit 0, keep := bits.testBit 1, flag := match_
      vals := (List.range n).map fun c => bits / 2 ^ (2 + w * c) % 2 ^ w }
  else
    { valid := bits.testBit 0, keep := bits.testBit 1, flag := bits.testBit 82
      d := BitVec.ofNat 64 (bits / 4), ctl := BitVec.ofNat 16 (bits / 2 ^ 66) }

/-- Both slots that a hook's outbound bus carries at an edge of its clock. Where the image configures no cell of the hook's
columns, its returns come as HOOK_RETURN only (DESIGN CHOICE, log entry 63). -/
def Dev.hookReturns (d : Dev) (cks : List Nat) (s : Side) (hook : Nat) : List HookRet :=
  let (die, lo, hi) := hookCols s hook
  if !d.hasLogic die lo hi || !edgeOf cks (d.hookClock s hook) then [] else
  let n := if hook < 16 then 130 else 83
  let flag := decide (8 ≤ hook) && decide (hook < 16) && decide (d.outBits die lo 260 1 = 1)
  [slotOf hook (d.outBits die lo 0 n) flag, slotOf hook (d.outBits die lo n n) flag]

/-- The access that the taps of a port spell at an edge of its clock, none while EN is 0 (R222). -/
def Dev.tapAccess (d : Dev) (cks : List Nat) (die mem : Nat) (portB : Bool) : Option PortAcc :=
  if !edgeOf cks (d.bmemClock die mem portB) then none else
  let bit (n : Nat) : Bool :=
    let (c, r) := tapCell die mem portB (n / 16)
    d.probe pathSteps (.mac c r (n % 16))
  let num (lo n : Nat) : Nat := (List.range n).foldl (fun a i => a + b1 (bit (lo + i)) * 2 ^ i) 0
  if !bit 80 then none else
  some { din := BitVec.ofNat 64 (num 0 64), addr := num 64 15, we := bit 79 }

/-- Block memories with a configured tap cell. -/
def Dev.tappedMems (d : Dev) : List (Nat × Nat) :=
  (d.array.logic.flatMap fun fr => (List.range fr.2.length).filterMap fun r =>
    if fr.2.getD r {} = {} then none else (tapOf fr.1 r).map fun t => (fr.1 / 240, t.1)).eraseDups

/-- A port's pipeline at an edge: what was captured two edges ago is shown, and stays until the port's next read (R224). -/
def BPort.edge (p : BPort) : BPort :=
  { p0 := none, p1 := p.p0, dout := match p.p1 with
    | some v => v
    | none => p.dout }

/-- The pipelines of the ports on the clocks that have an edge. -/
def Dev.bportEdge (d : Dev) (cks : List Nat) : Dev :=
  { d with array := { d.array with bports := d.array.bports.foldl (fun t kv =>
      let die := kv.1 / 2 / 2304
      let mem := kv.1 / 2 % 2304
      if edgeOf cks (d.bmemClock die mem (decide (kv.1 % 2 = 1))) then tset {} t kv.1 kv.2.edge else t) d.array.bports } }

/-- The GPIO interface of an F-die at an edge of its bench's clock: the pads take OUT and OE, and IN samples the pins (R238). -/
def Dev.gpioEdge (d : Dev) (cks : List Nat) (die : Nat) : Dev :=
  if !edgeOf cks (d.gpioClock die) then d else
  let s := dieSide die
  let lo := 64 * (die % 2)
  let part (old : BitVec 128) (v : Nat) : BitVec 128 :=
    BitVec.ofNat 128 (old.toNat - old.toNat / 2 ^ lo % 2 ^ 64 * 2 ^ lo + v % 2 ^ 64 * 2 ^ lo)
  let out := d.outBits die 206 0 64
  let oe := d.outBits die 206 64 64
  let word (i : Nat) : Nat := (List.range 32).foldl (fun a j => a + b1 (d.gpioLevel s (lo + 32 * i + j)) * 2 ^ j) 0
  let w0 := word 0
  let w1 := word 1
  let d := d.mod s fun h => { h with fab := { h.fab with padOut := part h.fab.padOut out, padOe := part h.fab.padOe oe } }
  (d.setRg s.code .fabGpioIn (2 * (die % 2)) (BitVec.ofNat 32 w0)).setRg s.code .fabGpioIn (2 * (die % 2) + 1) (BitVec.ofNat 32 w1)

/-! ## NoC ports (R236, R237) -/

/-- A beat from the fabric (R236): FIRST begins a packet and LAST ends it; one beyond the credits or the eightieth is not
taken. The packet, when this beat ends it. -/
def PortSt.beat (x : PortSt) (on : Bool) (wires : BitVec 13) : PortSt × Option (List Byte) :=
  let x := if wires.getLsbD 12 then { x with room := min 16 (x.room + 1) } else x
  let starts := wires.getLsbD 9
  if !wires.getLsbD 8 || x.space = 0 || !(on && starts || !x.rx.isEmpty) then (x, none) else
  let l := BitVec.ofNat 8 wires.toNat :: (if starts then [] else x.rx)
  let x := { x with space := x.space - 1, owed := x.owed + 1 }
  if 80 < l.length then ({ x with rx := [] }, none)
  else if wires.getLsbD 10 then ({ x with rx := [] }, some l.reverse)
  else ({ x with rx := l }, none)

/-- The next inbound beat and credit pulse. A port that has been disabled ends with the packet in progress. -/
def PortSt.drive (x : PortSt) (on : Bool) : PortSt :=
  let credit := decide (0 < x.owed)
  let x := if credit then { x with owed := x.owed - 1, space := x.space + 1 } else x
  let c := 2 ^ 12 * b1 credit
  match x.tx with
  | [] => { x with wires := BitVec.ofNat 13 c }
  | [] :: rest => { x with tx := rest, begun := false, wires := BitVec.ofNat 13 c }
  | (b :: t) :: rest =>
    if x.room = 0 || !(on || x.begun) then { x with wires := BitVec.ofNat 13 c } else
    { x with room := x.room - 1, begun := !t.isEmpty, tx := if t.isEmpty then rest else t :: rest
             wires := BitVec.ofNat 13 (c + b.toNat + 2 ^ 8 + 2 ^ 9 * b1 (!x.begun) + 2 ^ 10 * b1 t.isEmpty + 2 ^ 11) }

/-- A port is enabled: each direction starts with 16 credits (R236). -/
def PortSt.setUp (x : PortSt) (on : Bool) : PortSt :=
  if on && !x.on then { x with on := true, space := 16, room := 16, owed := 0 }
  else if !on && x.rx.isEmpty && !x.begun then { x with on := false, tx := [], wires := 0 } else x

/-- A port at an edge of its clock. While a partial reset holds the half it accepts no beats and its credits stay as they are
(R237). -/
def Dev.portEdge (d : Dev) (cks : List Nat) (die p : Nat) : Dev :=
  let s := dieSide die
  if !edgeOf cks (d.portClock die p) || !d.hasLogic die (214 + 13 * p / 16) (214 + (13 * p + 12) / 16)
      || decide ((d.half s).reset ≠ 0) then d else
  let on := (d.rg (2 + die) .fabNocPortEn).getLsbD p
  let x := ((d.half s).port die p).setUp on
  if !x.on then d.mod s fun h => h.setPort die p x else
  let (x, packet) := x.beat on (BitVec.ofNat 13 (d.outBits die 214 (13 * p) 13))
  let d := d.mod s fun h => h.setPort die p (x.drive on)
  match packet with
  | some l => nocPortRequest die p l .pass d
  | none => d

/-! ## Edges -/

/-- One edge of each of some fabric clocks. Every register takes what stood before the edge (R220, R224). A slot on a hook's
inbound bus has been there for its one FC cycle (R230). -/
def Dev.fabricEdge (d : Dev) (cks : List Nat) : Dev :=
  let arr := d.arrayEdge cks
  let rets := [Side.w, Side.e].flatMap fun s => (List.range 18).map fun k => (s, k, d.hookReturns cks s k)
  let accs := d.tappedMems.map fun m => (m, d.tapAccess cks m.1 m.2 false, d.tapAccess cks m.1 m.2 true)
  let d1 := (List.range 4).foldl (fun d f => d.gpioEdge cks f) d
  let d1 := { d1 with array := { d1.array with regs := arr.regs, sync := arr.sync } }.bportEdge cks
  let d1 := if arr.sync.isEmpty then d1 else d1.draw
  let d1 := accs.foldl (fun d x => if x.2.1.isSome || x.2.2.isSome then bmemAccess x.1.1 x.1.2 x.2.1 x.2.2 d else d) d1
  let d1 := rets.foldl (fun d x => x.2.2.foldl (fun d r => hookReturn x.1 x.2.1 r d) d) d1
  let d1 := [Side.w, Side.e].foldl (fun d s => (List.range 18).foldl (fun d k =>
    if ((d.half s).hook k).bus.isEmpty || !edgeOf cks (d.hookClock s k) then d
    else d.mod s fun h => h.setHook k { (h.hook k) with bus := [] }) d) d1
  if d1.array.logic.isEmpty then d1 else
  (List.range 4).foldl (fun d f => (List.range 32).foldl (fun d p => d.portEdge cks f p) d) d1

/-- The fabric in one SC cycle: each fabric clock advances by its frequency, and has an edge for each 800 MHz (R218). Edges of
several clocks in one SC cycle come together (DESIGN CHOICE, log entry 63). -/
def Dev.fabricCycle (d : Dev) : Dev :=
  if !d.released then d else
  let acc (n : Nat) : Nat := d.array.phase.getD n 0 + d.clk.fck.getD n 0
  let cks := (List.range 8).filter fun n => decide (800 ≤ acc n)
  let d := { d with array := { d.array with phase := (List.range 8).map fun n => acc n % 800 } }
  if cks.isEmpty then d else d.fabricEdge cks

end Sys2Proof.Machine
end

