-- ==== Sys2Proof/Machine/Clock.lean ====
section
/-! DEFINITION. One cycle of the system clock SC, 1.25 ns, which the block runs when no command waits (log entry 5). -/
namespace Sys2Proof.Machine

/-- A burst's SC cycle counter goes on until its flush ends (R43, R130, R135). -/
def FaceSt.cycle (f : FaceSt) : FaceSt :=
  if f.bursting || f.flushing then { f with burst := { f.burst with cycle := f.burst.cycle + 1 } } else f

/-- The always-on counter counts AC at 32.768 kHz: 16 parts in 390 625 of an SC cycle (R452, log entry 6). It stands still
while the crystal has stopped and no tick from BC takes its place (R434). -/
def Dev.aonTick (d : Dev) : Dev :=
  let a := d.aon
  if a.stopped || !(a.xoOk || d.clk.tick) then d else
  let n := a.frac + 16
  if n < 390625 then d.setAon fun a => { a with frac := n }
  else d.setAon fun a => { a with frac := n - 390625, count := a.count + 1 }

/-- A half's burst and the shelf load in progress take one SC cycle. -/
def Dev.halfCycle (d : Dev) (s : Side) : Dev :=
  (d.mod s fun h => { h with face := h.face.cycle }).loadCyclesPass s 1

/-- One SC cycle: the always-on counter, and in a running module cascade time, the bursts' cycles, the shelf loads
and the fabric. -/
def Dev.cycle (d : Dev) : Dev :=
  let d := { d with out := [] }.aonTick
  if !d.powered then d else
  let d := { d with casc := { d.casc with ctime := d.casc.ctime + 1 }, clk := { d.clk with cycles := d.clk.cycles + 1 } }
  ((d.halfCycle .w).halfCycle .e).fabricCycle

end Sys2Proof.Machine
end

