-- ==== Sys2Proof/Machine/BurstRows.lean ====
section
/-! DEFINITION. The meanings of the rows on channels, capture, hooks, the shelf and calibration (chapters 2, 3, 5 to
8): one definition for each row, over the operations that it shares with others. -/
namespace Sys2Proof.Machine

/-- DRIVE_EVENT (R49). -/
def execDriveEvent (side : Side) (ch : Fin 256) (issue : Nat) (slot : Fin 6) (s : State) : Answer :=
  running (fun _ d => driveEvent side ch.val issue slot.val d) s

/-- EDGE_STROBE (R54). -/
def execEdgeStrobe (side : Side) (ch : Fin 256) (issue : Nat) (slot : Fin 6) (cmph cmpl : Bool) (s : State) :
    Answer :=
  running (fun _ d => edgeStrobe side ch.val issue slot.val cmph cmpl d) s

/-- WINDOW_OPEN (R56). -/
def execWindowOpen (side : Side) (ch : Fin 256) (issue : Nat) (slot : Fin 6) (s : State) : Answer :=
  running (fun _ d => windowOpen side ch.val issue slot.val d) s

/-- WINDOW_CLOSE (R56). -/
def execWindowClose (side : Side) (ch : Fin 256) (issue : Nat) (slot : Fin 6) (seen : Option Sampled) (invalid : Bool)
    (s : State) : Answer :=
  running (fun _ d => windowClose side ch.val issue slot.val seen invalid d) s

/-- COMPARE_RESULT (R47). -/
def execCompareResult (side : Side) (group : Fin 8) (issue : Nat) (e : Faults) (s : State) : Answer :=
  running (fun _ d => compareResult side group.val issue e d) s

/-- RECORD_QUEUE_DRAIN (R172). -/
def execRecordQueueDrain (side : Side) (e : Ecc) (s : State) : Answer :=
  running (fun _ d => recordQueueDrain side e d) s

/-- SPOIL_CACHE_FILL (R177). -/
def execSpoilCacheFill (side : Side) (line : Nat) (e : Faults) (s : State) : Answer :=
  running (fun _ d => spoilCacheFill side line (cellarClass e) d) s

/-- QUARRY_FLUSH_COMPLETE (R183). -/
def execQuarryFlushComplete (side : Side) (s : State) : Answer :=
  running (fun _ d => journalingRoots side (quarryFlushComplete side) d) s

/-- FLUSH_TIMEOUT (R183). -/
def execFlushTimeout (side : Side) (s : State) : Answer :=
  running (fun _ d => journalingRoots side (flushTimeout side) d) s

/-- PIPE_FAULT (R78). -/
def execPipeFault (side : Side) (s : State) : Answer :=
  running (fun _ d => pipeFault side d) s

/-- DRILL_PARITY (R160). -/
def execDrillParity (side : Side) (drill : Fin 2) (s : State) : Answer :=
  running (fun _ d => drillParity side drill.val d) s

/-- PLAN_PARITY (R139). -/
def execPlanParity (side : Side) (s : State) : Answer :=
  running (fun _ d => planParity side d) s

/-- HOOK_SLOT_PRESENT (R230). -/
def execHookSlotPresent (side : Side) (hook : Fin 18) (s : State) : Answer :=
  running (fun _ d => hookSlotPresent side hook.val d) s

/-- HOOK_RETURN (R231). -/
def execHookReturn (side : Side) (hook : Fin 18) (r : HookRet) (s : State) : Answer :=
  running (fun _ d => hookReturn side hook.val r d) s

/-- HOOK_LATE (R232). -/
def execHookLate (side : Side) (hook : Fin 18) (s : State) : Answer :=
  running (fun _ d => hookLate side hook.val d) s

/-- SHELF_LOAD_COMPLETE (R93). -/
def execShelfLoadComplete (side : Side) (s : State) : Answer :=
  running (fun _ d => shelfLoadComplete side d) s

/-- LOAD_CHECK (R90). -/
def execLoadCheck (side : Side) (reason channel tset wave slot : Nat) (s : State) : Answer :=
  running (fun _ d => loadCheck side (reason, channel, tset, wave, slot) d) s

/-- SHELF_SWAP_WRITE (R83). -/
def execShelfSwapWrite (w : Writer) (side : Side) (v : Word) (s : State) : Answer :=
  running (regCommand w side.code .shelfCtrl 0 v) s

/-- TEMP_SAMPLE (R189). -/
def execTempSample (side : Side) (temps : List Int) (s : State) : Answer :=
  running (fun _ d => tempSample side temps d) s

/-- PHASE_COMPARE (R204). -/
def execPhaseCompare (reading : Int) (s : State) : Answer :=
  running (fun _ d => phaseCompare reading d) s

/-- SWEEP_START (R201). -/
def execSweepStart (side : Side) (selfOk : List Bool) (s : State) : Answer :=
  running (fun _ d => sweepStart side selfOk d) s

/-- SWEEP_CHANNEL_COMMIT (R201). -/
def execSweepChannelCommit (side : Side) (ch : Fin 256) (readings : List Int) (e : Ecc) (s : State) : Answer :=
  running (fun _ d => sweepChannelCommit side ch.val readings e d) s

/-- SWEEP_END (R201). -/
def execSweepEnd (side : Side) (fireOffset : Int) (s : State) : Answer :=
  running (fun life d => sweepOver life side fireOffset d) s

/-- CAL_TABLE_JOURNAL (R192). -/
def execCalTableJournal (side : Side) (s : State) : Answer :=
  running (fun _ d => calTableJournal side d) s

/-- CAL_MEASUREMENT_AGED (R202). -/
def execCalMeasurementAged (side : Side) (ch : Fin 256) (s : State) : Answer :=
  running (fun _ d => calMeasurementAged side ch.val d) s

end Sys2Proof.Machine
end

