-- ==== Sys2Proof/Machine/CellarRows.lean ====
section
/-! DEFINITION. The meanings of the rows on the Cellar, the Attic and the remote-data cache (chapter 10): one
definition for each row, over the operations that it shares with others. -/
namespace Sys2Proof.Machine

/-- CEL_TRAIN_START (R277). -/
def execCelTrainStart (w : Writer) (side : Side) (v : Word) (s : State) : Answer :=
  running (regCommand w side.code .celTrain 0 v) s

/-- CEL_TRAIN_COMMIT (R276). -/
def execCelTrainCommit (w : Writer) (side : Side) (v : Word) (s : State) : Answer :=
  running (regCommand w side.code .celTrain 0 v) s

/-- CEL_DLY_DATA_WRITE (R276). -/
def execCelDlyDataWrite (w : Writer) (side : Side) (v : Word) (s : State) : Answer :=
  running (regCommand w side.code .celDlyData 0 v) s

/-- CEL_SWEEP_COMPLETE (R274). -/
def execCelSweepComplete (side : Side) (supported : Bool) (edges : List (Nat × Nat × Nat)) (s : State) : Answer :=
  running (fun _ d => celSweepComplete side supported edges d) s

/-- CEL_VERIFY_COMPLETE (R275). -/
def execCelVerifyComplete (side : Side) (ok : List Bool) (rates : List (Fin 4)) (mib : List Nat) (dev32 x4 ranks2 : Bool)
    (s : State) : Answer :=
  running (fun _ d => celVerifyComplete side ok (rates.map Fin.val) mib dev32 x4 ranks2 d) s

/-- CA_RETRY (R273). -/
def execCaRetry (side : Side) (ch : Fin 4) (nth : Nat) (s : State) : Answer :=
  running (fun life d => caRetry life side ch.val nth d) s

/-- REFRESH (R268). -/
def execRefresh (side : Side) (ch : Fin 4) (s : State) : Answer :=
  running (fun _ d => refresh side ch.val d) s

/-- DIMM_TEMP_READ (R268). -/
def execDimmTempRead (side : Side) (ch : Fin 4) (sensor : Fin 2) (celsius : Int) (s : State) : Answer :=
  running (fun _ d => dimmTempRead side ch.val sensor.val celsius d) s

/-- ZQ_CALIBRATION (R268). -/
def execZqCalibration (side : Side) (ch : Fin 4) (s : State) : Answer :=
  running (fun _ d => zqCalibration side ch.val d) s

/-- CEL_SCRUB_GO (R299). -/
def execCelScrubGo (w : Writer) (side : Side) (v : Word) (s : State) : Answer :=
  running (regCommand w side.code .celScrubCfg 0 v) s

/-- PATROL_READ (R299). -/
def execPatrolRead (side : Side) (line : Nat) (e : Faults) (s : State) : Answer :=
  running (fun _ d => patrolRead side line (cellarClass e) d) s

/-- ATTIC_PATROL (R299). -/
def execAtticPatrol (side : Side) (line : Nat) (e : Faults) (s : State) : Answer :=
  running (fun _ d => atticPatrol side line (atticClass e) d) s

/-- SHELF_PATROL (R299). -/
def execShelfPatrol (side : Side) (e : Ecc) (s : State) : Answer :=
  running (fun _ d => shelfPatrol side e d) s

/-- LINE_READBACK (R298). -/
def execLineReadback (side : Side) (m : RemapMem) (line : Nat) (e : Faults) (s : State) : Answer :=
  running (fun _ d => lineReadback side m line e d) s

/-- ATT_STAGE_WRITE (R284). -/
def execAttStageWrite (w : Writer) (side : Side) (v : Word) (s : State) : Answer :=
  running (regCommand w side.code .attStage 0 v) s

/-- QRY_RESERVE_WRITE (R181). -/
def execQryReserveWrite (w : Writer) (side : Side) (v : Word) (s : State) : Answer :=
  running (regCommand w side.code .qryReserve 0 v) s

/-- REMOTE_READ (R285). -/
def execRemoteRead (side : Side) (line key : Nat) (s : State) : Answer :=
  running (fun _ d => remoteRead side line key d) s

/-- REMOTE_FILL (R287). -/
def execRemoteFill (side : Side) (line key : Nat) (s : State) : Answer :=
  running (fun _ d => remoteFill side line key d) s

/-- REMOTE_WRITE (R286). -/
def execRemoteWrite (side : Side) (file offset : Nat) (data : List Byte) (s : State) : Answer :=
  running (fun _ d => remoteWrite side file offset data d) s

/-- SNOOP_INVALIDATE (R286). -/
def execSnoopInvalidate (side : Side) (line : Nat) (s : State) : Answer :=
  running (fun _ d => snoopInvalidate side line d) s

/-- INVALIDATE_ACK (R286). -/
def execInvalidateAck (side : Side) (line : Nat) (s : State) : Answer :=
  running (fun _ d => invalidateAck side line d) s

/-- EVICTION_REPORT (R286). -/
def execEvictionReport (side : Side) (line : Nat) (s : State) : Answer :=
  running (fun _ d => evictionReport side line d) s

/-- DIMM_NOT_RESPONDING (R273). -/
def execDimmNotResponding (side : Side) (ch : Fin 4) (s : State) : Answer :=
  running (fun life d => dimmNotResponding life side ch.val d) s

end Sys2Proof.Machine
end

