-- ==== Sys2Proof/Machine/ConfigRows.lean ====
section
/-! DEFINITION. The meanings of the rows on the configuration stream, the scrubber, block memories and the fabric NoC
ports (chapters 8, 9, 15): one definition for each row, over the operations that it shares with others. -/
namespace Sys2Proof.Machine

/-- WCFG (R246). -/
def execWcfg (s : State) : Answer :=
  running (fun life d => wcfg life d) s

/-- FAR (R250). -/
def execFar (s : State) : Answer :=
  running (fun life d => far life d) s

/-- FDATA (R251). -/
def execFdata (s : State) : Answer :=
  running (fun life d => fdata life d) s

/-- IDCHECK (R254). -/
def execIdcheck (s : State) : Answer :=
  running (fun life d => idcheck life (s.ident) d) s

/-- GCLR (R248). -/
def execGclr (s : State) : Answer :=
  running (fun life d => gclr life d) s

/-- START (R257). -/
def execStart (s : State) : Answer :=
  running (fun life d => startCmd life d) s

/-- STREAM_END (R247). -/
def execStreamEnd (s : State) : Answer :=
  running (fun life d => streamEnd life d) s

/-- GCLR_COMPLETE (R248). -/
def execGclrComplete (seamOk : List Bool) (s : State) : Answer :=
  running (fun life d => gclrComplete life seamOk d) s

/-- CONFIG_CHECK_COMPLETE (R254). -/
def execConfigCheckComplete (s : State) : Answer :=
  running (fun life d => configCheckComplete life s.ident d) s

/-- CONFIG_VERIFY_COMPLETE (R257). -/
def execConfigVerifyComplete (s : State) : Answer :=
  running (fun life d => configVerifyComplete life d) s

/-- CONFIG_CLEAR_COMPLETE (R253). -/
def execConfigClearComplete (s : State) : Answer :=
  running (fun _ d => configClearComplete d) s

/-- CONFIG_IDLE_TIMEOUT (R256). -/
def execConfigIdleTimeout (s : State) : Answer :=
  running (fun life d => configIdleTimeout life d) s

/-- CONFIG_STORE_COMPLETE (R258). -/
def execConfigStoreComplete (bad : List (Nat × Byte)) (s : State) : Answer :=
  running (fun life d => configStoreComplete life bad d) s

/-- AUTOLOAD_START (R259). -/
def execAutoloadStart (s : State) : Answer :=
  running (fun _ d => autoloadStart d) s

/-- SCRUB_PASS (R300). -/
def execScrubPass (side : Side) (canary : List (Nat × Nat)) (frames : List FrameUpset) (s : State) : Answer :=
  running (fun _ d => scrubPass side canary frames d) s

/-- FAB_SCRUB_CMD (R302). -/
def execFabScrubCmd (w : Writer) (side : Side) (v : Word) (s : State) : Answer :=
  running (regCommand w side.code .fabScrubCmd 0 v) s

/-- SCRUB_CMD_COMPLETE (R302). -/
def execScrubCmdComplete (side : Side) (u : FrameUpset) (s : State) : Answer :=
  running (fun _ d => scrubCmdComplete side u d) s

/-- FAB_NOC_PORT_EN (R237). -/
def execFabNocPortEn (w : Writer) (die : Fin 4) (v : Word) (s : State) : Answer :=
  running (regCommand w (2 + die.val) .fabNocPortEn 0 v) s

/-- BMEM_ACCESS (R224). -/
def execBmemAccess (die : Fin 4) (mem : Nat) (a b : Option PortAcc) (s : State) : Answer :=
  running (fun _ d => bmemAccess die.val mem a b d) s

/-- NOC_PORT_REQUEST (R407). -/
def execNocPortRequest (die : Fin 4) (port : Fin 32) (packet : List Byte) (line : LineOutcome) (s : State) : Answer :=
  running (fun _ d => nocPortRequest die.val port.val packet line d) s

/-- NOC_TIMEOUT (R405). -/
def execNocTimeout (side : Side) (txn : Nat) (s : State) : Answer :=
  running (fun _ d => nocTimeout side txn d) s

/-- NOC_LATE (R405). -/
def execNocLate (side : Side) (txn : Nat) (s : State) : Answer :=
  running (fun _ d => nocLate side txn d) s

/-- FLIT_ERROR (R408). -/
def execFlitError (side : Side) (txn : Nat) (s : State) : Answer :=
  running (fun _ d => flitError side txn d) s

/-- NOC_RESPONSE (R407). -/
def execNocResponse (side : Side) (txn : Nat) (s : State) : Answer :=
  running (fun _ d => nocResponse side txn d) s

end Sys2Proof.Machine
end

