-- ==== Sys2Proof/Machine/CoreRows.lean ====
section
/-! DEFINITION. The meanings of the rows on firmware, watchdogs and the task unit (chapter 16): one definition for
each row, over the operations that it shares with others. -/
namespace Sys2Proof.Machine

/-- FIRMWARE_START (R412). -/
def execFirmwareStart (a b : Bool) (s : State) : Answer :=
  running (fun life d => firmwareStart life s.ident s.fuse.firmwareKey a b d) s

/-- TE_FIRMWARE_START (R413). -/
def execTeFirmwareStart (ok : Bool) (s : State) : Answer :=
  running (fun _ d => teFirmwareStart s.fuse.firmwareKey ok d) s

/-- FIRMWARE_RELOAD (R415). -/
def execFirmwareReload (side : Side) (s : State) : Answer :=
  running (fun _ d => firmwareReload side d) s

/-- FIRMWARE_RELOAD_COMPLETE (R415). -/
def execFirmwareReloadComplete (side : Side) (s : State) : Answer :=
  running (fun _ d => firmwareReloadComplete s.fuse.firmwareKey side d) s

/-- WATCHDOG_KICK (R420). -/
def execWatchdogKick (side : Side) (core : Fin 4) (s : State) : Answer :=
  running (fun _ d => watchdogKick side core.val d) s

/-- WDOG_EXPIRE (R420). -/
def execWdogExpire (side : Side) (core : Fin 4) (s : State) : Answer :=
  running (fun _ d => wdogExpire side core.val d) s

/-- TSK_WDOG_CFG_WRITE (R421). -/
def execTskWdogCfgWrite (w : Writer) (side : Side) (core : Fin 4) (v : Word) (s : State) : Answer :=
  running (regCommand w side.code .tskWdogCfg core.val v) s

/-- TASK_DELAY_EXPIRE (R417). -/
def execTaskDelayExpire (side : Side) (tick : Nat) (s : State) : Answer :=
  running (fun _ d => taskDelayExpire side tick d) s

/-- EVENT_QUEUE_POST (R418). -/
def execEventQueuePost (side : Side) (q : Fin 64) (entry : BitVec 64) (s : State) : Answer :=
  running (fun _ d => eventQueuePost side q.val entry d) s

/-- TSK_PATCH_WRITE (R422). -/
def execTskPatchWrite (w : Writer) (side : Side) (u : Fin 16) (part : Fin 3) (v : Word) (s : State) : Answer :=
  running (fun life d => regCommand w side.code (if part.val = 0 then .tskPatchAddr else if part.val = 1 then
    .tskPatchLo else .tskPatchHi) u.val v life d) s

/-- FW_HASH_RECOMPUTE (R424). -/
def execFwHashRecompute (side : Side) (s : State) : Answer :=
  running (fun _ d => fwHashRecompute side d) s

/-- TASK_YIELD (R416). -/
def execTaskYield (side : Side) (core : Fin 4) (how arg : Nat) (s : State) : Answer :=
  running (fun _ d => taskYield side core.val how arg d) s

end Sys2Proof.Machine
end

