-- ==== Sys2Proof/Machine/FaultRows.lean ====
section
/-! DEFINITION. The meanings of the rows on the Larder, fault pages, the SAFE net and self-test (chapters 11, 18): one
definition for each row, over the operations that it shares with others. -/
namespace Sys2Proof.Machine

/-- LARDER_APPEND (R303). -/
def execLarderAppend (type key payload : Nat) (s : State) : Answer :=
  running (fun _ d => larderAppend type key payload d) s

/-- LARDER_COMPACTION_COMPLETE (R306). -/
def execLarderCompactionComplete (s : State) : Answer :=
  running (fun _ d => larderCompactionComplete d) s

/-- LDR_COMPACT (R306). -/
def execLdrCompact (w : Writer) (v : Word) (s : State) : Answer :=
  running (regCommand w 0 .ldrCtrl 0 v) s

/-- REKEY_SECTOR (R336). -/
def execRekeySector (side : Side) (s : State) : Answer :=
  running (fun _ d => rekeySector side d) s

/-- REVOTE (R296). -/
def execRevote (word : VotedWord) (v : Vote) (s : State) : Answer :=
  running (fun _ d => revote word v d) s

/-- BUCKET_LEAK (R297). -/
def execBucketLeak (side : Side) (blk : Nat) (idx : Fin 16) (s : State) : Answer :=
  running (fun _ d => if pageOk side blk then bucketLeak side blk idx.val d else d) s

/-- COUNT_WINDOW_END (R460). -/
def execCountWindowEnd (side : Side) (blk inst : Nat) (s : State) : Answer :=
  running (fun _ d => if pageOk side blk then countWindowEnd side blk inst d else d) s

/-- FLT_STATUS_CLEAR (R469). -/
def execFltStatusClear (w : Writer) (side : Side) (blk : Nat) (v : Word) (s : State) : Answer :=
  running (fun life d => if pageOk side blk then regCommand w side.code .fltStatus blk v life d else d.emit
    (.wrote stBadArg)) s

/-- FLT_SEVERITY_WRITE (R463). -/
def execFltSeverityWrite (w : Writer) (side : Side) (blk : Nat) (v : Word) (s : State) : Answer :=
  running (fun life d => if pageOk side blk then regCommand w side.code .fltSeverity blk v life d else d.emit
    (.wrote stBadArg)) s

/-- FLT_ENABLE_WRITE (R463). -/
def execFltEnableWrite (w : Writer) (side : Side) (blk : Nat) (v : Word) (s : State) : Answer :=
  running (fun life d => if pageOk side blk then regCommand w side.code .fltEnable blk v life d else d.emit
    (.wrote stBadArg)) s

/-- SAFE_N (R468). -/
def execSafeN (s : State) : Answer :=
  commit (fun _ d => safeN d) s

/-- SAFE_RELEASE (R470). -/
def execSafeRelease (s : State) : Answer :=
  running (fun _ d => safeRelease d) s

/-- SAFE_CTRL_WRITE (R466). -/
def execSafeCtrlWrite (w : Writer) (v : Word) (s : State) : Answer :=
  running (regCommand w 0 .safeCtrl 0 v) s

/-- RECONCILE (R34). -/
def execReconcile (u : Unit34) (upset : Option Nat) (s : State) : Answer :=
  running (fun _ d => reconcile u upset d) s

/-- BIST_SLICE (R478). -/
def execBistSlice (side : Side) (kind unit : Nat) (ends : Option SliceEnd) (s : State) : Answer :=
  running (fun life d => bistSlice life side kind unit ends d) s

/-- SAFE_N_HIGH (R468). -/
def execSafeNHigh (s : State) : Answer :=
  commit (fun _ d => safeNHigh d) s

/-- ALIVE_EDGE (R466). -/
def execAliveEdge (s : State) : Answer :=
  running (fun _ d => aliveEdge d) s

end Sys2Proof.Machine
end

