-- ==== Sys2Proof/Machine/HaulRows.lean ====
section
/-! DEFINITION. The meanings of the rows on the Haul (chapter 14): one definition for each row, over the operations
that it shares with others. -/
namespace Sys2Proof.Machine

/-- RELAY_FRAME_CLOSE (R387). -/
def execRelayFrameClose (side : Side) (quad : Fin 4) (s : State) : Answer :=
  running (fun _ d => relayFrameClose side quad.val d) s

/-- HAUL_MODE_WRITE (R377). -/
def execHaulModeWrite (w : Writer) (side : Side) (q : Fin 4) (v : Word) (s : State) : Answer :=
  running (regCommand w side.code .haulQCtrl q.val v) s

/-- HAUL_COMMIT (R373). -/
def execHaulCommit (w : Writer) (side : Side) (q : Fin 4) (v : Word) (s : State) : Answer :=
  running (regCommand w side.code .haulQCtrl q.val v) s

/-- HAUL_RETRAIN (R372). -/
def execHaulRetrain (w : Writer) (side : Side) (q : Fin 4) (v : Word) (s : State) : Answer :=
  running (regCommand w side.code .haulQCtrl q.val v) s

/-- HAUL_CLOCK_LOCK (R372). -/
def execHaulClockLock (side : Side) (q : Fin 4) (s : State) : Answer :=
  running (fun _ d => haulClockLock side q.val d) s

/-- HAUL_CLOCK_TIMEOUT (R372). -/
def execHaulClockTimeout (side : Side) (q : Fin 4) (s : State) : Answer :=
  running (fun _ d => haulClockTimeout side q.val d) s

/-- HAUL_ADAPT_DONE (R373). -/
def execHaulAdaptDone (side : Side) (q : Fin 4) (fom : List Nat) (eq : List Word) (s : State) : Answer :=
  running (fun _ d => haulAdaptDone side q.val fom eq d) s

/-- HAUL_ALIGN_DONE (R372). -/
def execHaulAlignDone (side : Side) (q : Fin 4) (slips : List Nat) (s : State) : Answer :=
  running (fun _ d => haulAlignDone side q.val slips d) s

/-- HAUL_LINK_DONE (R378). -/
def execHaulLinkDone (side : Side) (q : Fin 4) (roundTrip : Nat) (s : State) : Answer :=
  running (fun _ d => haulLinkDone side q.val roundTrip d) s

/-- HAUL_LOCK_LOSS (R372). -/
def execHaulLockLoss (side : Side) (q : Fin 4) (s : State) : Answer :=
  running (fun _ d => haulLockLoss side q.val d) s

/-- HAUL_CLOCK_ABSENT (R372). -/
def execHaulClockAbsent (side : Side) (q : Fin 4) (s : State) : Answer :=
  running (fun _ d => haulClockAbsent side q.val d) s

/-- RELAY (R388). -/
def execRelay (side : Side) (rx : HaulRx) (first : Nat) (issues : List (List Nat)) (s : State) : Answer :=
  running (fun _ d => relay side rx first issues d) s

/-- RELAY_TAG (R389). -/
def execRelayTag (side : Side) (rx : HaulRx) (first : Nat) (tag : BitVec 128) (s : State) : Answer :=
  running (fun _ d => relayTag side rx first tag d) s

/-- SPOIL (R390). -/
def execSpoil (side : Side) (rx : HaulRx) (line : List Byte) (s : State) : Answer :=
  running (fun _ d => spoil side rx line d) s

/-- HAUL_FIRE (R380). -/
def execHaulFire (side : Side) (rx : HaulRx) (t : BitVec 64) (s : State) : Answer :=
  running (fun _ d => haulFire side rx t d) s

/-- HAUL_FIRE_TIME (R381). -/
def execHaulFireTime (s : State) : Answer :=
  running (fun life d => haulFireTime life d) s

/-- TIME (R379). -/
def execTime (side : Side) (rx : HaulRx) (t : BitVec 64) (s : State) : Answer :=
  running (fun _ d => haulTime side rx t d) s

/-- FLAG (R383). -/
def execFlag (side : Side) (rx : HaulRx) (a : Nat) (mask values : BitVec 8) (s : State) : Answer :=
  running (fun _ d => haulFlag side rx a mask values d) s

/-- FLAG_APPLY (R383). -/
def execFlagApply (side : Side) (s : State) : Answer :=
  running (fun _ d => flagApply side d) s

/-- KEY (R389). -/
def execKey (side : Side) (rx : HaulRx) (done ok : Bool) (s : State) : Answer :=
  running (fun _ d => haulKey side rx done ok d) s

/-- ACK (R376). -/
def execAck (side : Side) (q : Fin 4) (ackSeq credits : Nat) (nak : Bool) (s : State) : Answer :=
  running (fun _ d => haulAckFrame side q.val ackSeq credits nak d) s

/-- CREDIT_RESET (R391). -/
def execCreditReset (side : Side) (q : Fin 4) (s : State) : Answer :=
  running (fun _ d => haulCreditReset side q.val d) s

/-- ECHO (R378). -/
def execEcho (side : Side) (q : Fin 4) (cookie : BitVec 64) (s : State) : Answer :=
  running (fun _ d => haulEcho side q.val cookie d) s

/-- ECHO_REPLY_SEND (R378). -/
def execEchoReplySend (side : Side) (q : Fin 4) (s : State) : Answer :=
  running (fun _ d => haulEchoReplySend side q.val d) s

/-- ECHO_REPLY (R378). -/
def execEchoReply (side : Side) (q : Fin 4) (_cookie : BitVec 64) (roundTrip : Nat) (s : State) : Answer :=
  running (fun _ d => haulEchoReply side q.val roundTrip d) s

/-- TIME_SYNC (R379). -/
def execTimeSync (w : Writer) (s : State) : Answer :=
  running (regCommand w 0 .haulCtrl 0 1) s

/-- FIRE_TX (R380). -/
def execFireTx (w : Writer) (s : State) : Answer :=
  running (regCommand w 0 .haulCtrl 0 2) s

/-- XMOD_PHASE_WRITE (R384). -/
def execXmodPhaseWrite (w : Writer) (v : Word) (s : State) : Answer :=
  running (regCommand w 0 .haulXmod 0 v) s

/-- XMOD_ALIGNED_WRITE (R385). -/
def execXmodAlignedWrite (w : Writer) (v : Word) (s : State) : Answer :=
  running (regCommand w 0 .haulXmod 0 v) s

/-- HAUL_ADJ_WRITE (R378). -/
def execHaulAdjWrite (w : Writer) (side : Side) (q : Fin 4) (v : Word) (s : State) : Answer :=
  running (regCommand w side.code .haulRxLat q.val v) s

/-- HAUL_CASCADE_WRITE (R379). -/
def execHaulCascadeWrite (w : Writer) (v : Word) (s : State) : Answer :=
  running (regCommand w 0 .haulCascade 0 v) s

/-- INJECT (R374). -/
def execInject (w : Writer) (side : Side) (q lane : Fin 4) (v : Word) (s : State) : Answer :=
  running (regCommand w side.code .haulLaneCtrl (4 * q.val + lane.val) v) s

/-- HAUL_SLIP (R373). -/
def execHaulSlip (w : Writer) (side : Side) (q lane : Fin 4) (v : Word) (s : State) : Answer :=
  running (regCommand w side.code .haulLaneCtrl (4 * q.val + lane.val) v) s

/-- HAUL_LANE_EQ_WRITE (R373). -/
def execHaulLaneEqWrite (w : Writer) (side : Side) (q lane : Fin 4) (v : Word) (s : State) : Answer :=
  running (regCommand w side.code .haulLaneEq (4 * q.val + lane.val) v) s

end Sys2Proof.Machine
end

