-- ==== Sys2Proof/Machine/HoistRows.lean ====
section
/-! DEFINITION. The meanings of the rows on the Hoist commands and the other frames and times of the front end
(chapter 13): one definition for each row, over the operations that it shares with others. -/
namespace Sys2Proof.Machine

/-- HELLO (R355). -/
def execHello (h : Hdr) (certOffset certMax : Nat) (s : State) : Answer :=
  running (hoist { code := 0x01, required := false, fw := true } false h (helloBody s.fuse certOffset certMax)) s

/-- ATTEST (R316). -/
def execAttest (h : Hdr) (nonce : BitVec 256) (s : State) : Answer :=
  running (hoist { code := 0x02, required := false, fw := false } false h (attestBody s.fuse nonce)) s

/-- SESSION_OPEN (R345). -/
def execSessionOpen (h : Hdr) (maxFrame : Nat) (nonce : BitVec 256) (eph : Nat) (chain : List (List Byte))
    (signature : List Byte) (s : State) : Answer :=
  running (hoist { code := 0x03, required := false, fw := false } false h (openBody maxFrame nonce eph chain
    signature)) s

/-- SESSION_CLOSE (R348). -/
def execSessionClose (h : Hdr) (s : State) : Answer :=
  running (hoist { code := 0x04, required := true, fw := false } false h sessionCloseBody) s

/-- STATUS (R353). -/
def execStatus (h : Hdr) (s : State) : Answer :=
  running (hoist { code := 0x05, required := false, fw := false } false h statusBody) s

/-- READ_REG (R357). -/
def execReadReg (h : Hdr) (addr count : Nat) (s : State) : Answer :=
  running (hoist { code := 0x10, required := true, fw := true } (farAccess addr false) h (readRegBody s.fuse addr
    count)) s

/-- WRITE_REG (R357). -/
def execWriteReg (h : Hdr) (addr : Nat) (values : List Word) (s : State) : Answer :=
  running (hoist { code := 0x11, required := true, fw := true } (farAccess addr true) h (writeRegBody addr values)) s

/-- REGISTER_WRITE (R32). -/
def execRegisterWrite (w : Writer) (addr : Nat) (v : Word) (s : State) : Answer :=
  running (registerWrite w addr v) s

/-- READ_BLOCK (R358). -/
def execReadBlock (h : Hdr) (fileId mode addr length : Nat) (s : State) : Answer :=
  running (hoist { code := 0x12, required := true, fw := true } (if fileId = 0 then farAccess addr false else
    farFile fileId) h (readBlockBody s.fuse fileId mode addr length)) s

/-- WRITE_BLOCK (R358). -/
def execWriteBlock (h : Hdr) (addr : Nat) (data : List Byte) (s : State) : Answer :=
  running (hoist { code := 0x13, required := true, fw := true } (farAccess addr true) h (writeBlockBody addr data)) s

/-- NON_HOIST_FRAME (R364). -/
def execNonHoistFrame (s : State) : Answer :=
  running (fun _ d => nonHoistFrame d) s

/-- ARP_REQUEST (R341). -/
def execArpRequest (target : Word) (s : State) : Answer :=
  running (fun _ d => arpRequest target d) s

/-- NEIGHBOUR_SOLICITATION (R341). -/
def execNeighbourSolicitation (target : BitVec 128) (s : State) : Answer :=
  running (fun _ d => neighbourSolicitation s.fuse.mac target d) s

/-- REPLAY_REQ (R347). -/
def execReplayReq (session seq : Nat) (s : State) : Answer :=
  running (fun _ d => replayReq session seq d) s

/-- SESSION_IDLE_TIMEOUT (R348). -/
def execSessionIdleTimeout (session : Nat) (s : State) : Answer :=
  running (fun _ d => sessionIdleTimeout session d) s

/-- SOURCE_IGNORE_END (R366). -/
def execSourceIgnoreEnd (src : Nat) (s : State) : Answer :=
  running (fun _ d => sourceIgnoreEnd src d) s

/-- ETHERNET_LINK_UP (R340). -/
def execEthernetLinkUp (s : State) : Answer :=
  running (fun _ d => ethernetLinkUp d) s

/-- ETHERNET_LINK_DOWN (R367). -/
def execEthernetLinkDown (s : State) : Answer :=
  running (fun _ d => ethernetLinkDown d) s

/-- CONFIG_BEGIN (R255). -/
def execConfigBegin (h : Hdr) (target length : Nat) (s : State) : Answer :=
  running (hoist { code := 0x20, required := true, fw := true } (decide (target = 0)) h (touching [.cfg]
    (configBeginBody target length))) s

/-- CONFIG_DATA (R359). -/
def execConfigData (h : Hdr) (offset : Nat) (data : List Byte) (s : State) : Answer :=
  running (hoist { code := 0x21, required := true, fw := true } s.dev.loading h (configDataBody offset data)) s

/-- CONFIG_END (R255). -/
def execConfigEnd (h : Hdr) (s : State) : Answer :=
  running (hoist { code := 0x22, required := true, fw := true } s.dev.loading h configEndBody) s

/-- FILE_OPEN (R320). -/
def execFileOpen (h : Hdr) (half slot length : Nat) (s : State) : Answer :=
  running (hoist { code := 0x30, required := true, fw := true } (decide (half = 1)) h (fileOpenBody half slot
    length)) s

/-- FILE_WRITE (R359). -/
def execFileWrite (h : Hdr) (fileId offset : Nat) (data : List Byte) (s : State) : Answer :=
  running (hoist { code := 0x31, required := true, fw := true } (farFile fileId) h (fileWriteBody fileId offset
    data)) s

/-- FILE_CLOSE (R320). -/
def execFileClose (h : Hdr) (fileId : Nat) (s : State) : Answer :=
  running (hoist { code := 0x32, required := true, fw := true } (farFile fileId) h (fileCloseBody fileId)) s

/-- FILE_DROP (R89). -/
def execFileDrop (h : Hdr) (fileId : Nat) (s : State) : Answer :=
  running (hoist { code := 0x33, required := true, fw := true } (farFile fileId) h (fileDropBody fileId)) s

/-- KEY_INSTALL (R319). -/
def execKeyInstall (h : Hdr) (slot : Nat) (body : KeyBody) (s : State) : Answer :=
  running (hoist { code := 0x40, required := true, fw := true } false h (touching [.keySlot slot]
    (keyInstallBody s.fuse slot body))) s

/-- KEY_RETIRE (R323). -/
def execKeyRetire (h : Hdr) (slot : Nat) (s : State) : Answer :=
  running (hoist { code := 0x41, required := true, fw := true } false h (touching [.keySlot slot]
    (keyRetireBody slot))) s

/-- PLAN_LOAD (R128). -/
def execPlanLoad (h : Hdr) (half fileId : Nat) (s : State) : Answer :=
  running (hoist { code := 0x50, required := true, fw := true } (decide (half = 1)) h
    (touching [.face (if half = 0 then .w else .e)] (planLoadBody half fileId))) s

/-- ARM (R131). -/
def execArm (h : Hdr) (halves : Nat) (s : State) : Answer :=
  running (hoist { code := 0x51, required := true, fw := true } (farHalves halves) h
    (touching ((namedHalves halves).flatMap armUnits) (armBody halves))) s

/-- FIRE (R132). -/
def execFire (h : Hdr) (halves : Nat) (s : State) : Answer :=
  running (hoist { code := 0x52, required := true, fw := false } false h (fireBody halves)) s

/-- ABORT (R130). -/
def execAbort (h : Hdr) (halves : Nat) (s : State) : Answer :=
  running (hoist { code := 0x53, required := true, fw := false } false h
    (touching ((namedHalves halves).map .face) (abortBody halves))) s

/-- RESULT_GET (R362). -/
def execResultGet (h : Hdr) (half burst : Nat) (s : State) : Answer :=
  running (hoist { code := 0x54, required := true, fw := false } false h (resultGetBody half burst)) s

/-- RESULT_RELEASE (R362). -/
def execResultRelease (h : Hdr) (half burst : Nat) (s : State) : Answer :=
  running (hoist { code := 0x55, required := true, fw := false } false h (resultReleaseBody half burst)) s

/-- CAL_RUN (R201). -/
def execCalRun (h : Hdr) (halves : Nat) (s : State) : Answer :=
  running (hoist { code := 0x60, required := true, fw := true } (farHalves halves) h
    (touching ((namedHalves halves).map .cal) (calRunBody halves))) s

/-- CAL_TABLE_GET (R193). -/
def execCalTableGet (h : Hdr) (half first count : Nat) (s : State) : Answer :=
  running (hoist { code := 0x61, required := true, fw := true } (decide (half = 1)) h (calTableGetBody half first
    count)) s

/-- CAL_TABLE_SET (R194). -/
def execCalTableSet (h : Hdr) (image : List Byte) (s : State) : Answer :=
  running (hoist { code := 0x62, required := true, fw := true } (decide (tableSide image = .e)) h
    (touching [.cal (tableSide image)] (calTableSetBody image))) s

/-- EVENT_POLL (R363). -/
def execEventPoll (h : Hdr) (start max : Nat) (s : State) : Answer :=
  running (hoist { code := 0x70, required := false, fw := false } false h (eventPollBody start max)) s

/-- LOG_READ (R363). -/
def execLogRead (h : Hdr) (start max : Nat) (s : State) : Answer :=
  running (hoist { code := 0x71, required := true, fw := true } false h (logReadBody start max)) s

/-- MODE_SET (R425). -/
def execModeSet (h : Hdr) (function halves mode : Nat) (s : State) : Answer :=
  running (hoist { code := 0x80, required := true, fw := true } (decide (function < 8) && farHalves halves) h
    (touching (if function < 8 then (namedHalves halves).map .mode else [])
      (modeSetBody function halves mode))) s

/-- MODE_GET (R360). -/
def execModeGet (h : Hdr) (s : State) : Answer :=
  running (hoist { code := 0x81, required := true, fw := true } false h modeGetBody) s

/-- BIST_RUN (R473). -/
def execBistRun (h : Hdr) (test arg : Nat) (signature : BitVec 64) (agrees : Bool) (s : State) : Answer :=
  running (hoist { code := 0x90, required := true, fw := true } (decide (bistSide test arg = .e)) h (bistRunBody
    test arg signature agrees)) s

/-- RESET_PART (R446). -/
def execResetPart (h : Hdr) (half blocks : Nat) (s : State) : Answer :=
  running (resetPartRow h half blocks) s

/-- SLEEP (R450). -/
def execSleep (h : Hdr) (wakeAt : BitVec 64) (s : State) : Answer :=
  running (hoist { code := 0xB0, required := true, fw := true } false h (sleepBody wakeAt)) s

/-- LIFECYCLE_ADVANCE (R310). -/
def execLifecycleAdvance (h : Hdr) (target key : Nat) (auth : List Byte) (s : State) : Answer :=
  lifecycleRow h target key auth s

/-- BAD_FRAME (R341). -/
def execBadFrame (s : State) : Answer :=
  running (fun _ d => badFrame d) s

end Sys2Proof.Machine
end

