-- ==== Sys2Proof/Machine/PlanRows.lean ====
section
/-! DEFINITION. The meanings of the rows on plan loads, arming, fire, and the steps of a cut plan (chapter 4): one
definition for each row, over the operations that it shares with others. -/
namespace Sys2Proof.Machine

/-- PLAN_AUDIT_DONE (R128). -/
def execPlanAuditDone (side : Side) (s : State) : Answer :=
  running (fun life d => planAuditDone life side d) s

/-- ARM_WORK_COMPLETE (R130). -/
def execArmWorkComplete (side : Side) (s : State) : Answer :=
  running (fun life d => armWorkComplete life side d) s

/-- ARM_WORK_FAIL (R131). -/
def execArmWorkFail (side : Side) (why : ArmFail) (s : State) : Answer :=
  running (fun life d => armWorkFail life side why d) s

/-- FIRE_IN (R132). -/
def execFireIn (s : State) : Answer :=
  running (fun life d => fireIn life d) s

/-- RUN (R109). -/
def execRun (side : Side) (s : State) : Answer :=
  running (fun _ d => runStep side d) s

/-- DRUN (R110). -/
def execDrun (side : Side) (s : State) : Answer :=
  running (fun _ d => drunStep side d) s

/-- LOOP (R113). -/
def execLoop (side : Side) (s : State) : Answer :=
  running (fun _ d => loopStep side d) s

/-- LEND (R120). -/
def execLend (side : Side) (s : State) : Answer :=
  running (fun _ d => lendStep side d) s

/-- FORK (R114). -/
def execFork (side : Side) (s : State) : Answer :=
  running (fun _ d => forkStep side d) s

/-- CAL (R198). -/
def execCal (side : Side) (selfOk : List Bool) (readings : List (List Int)) (s : State) : Answer :=
  running (fun _ d => calStep side selfOk readings d) s

/-- PAUSE (R111). -/
def execPause (side : Side) (s : State) : Answer :=
  running (fun _ d => pauseStep side d) s

/-- DSTART (R156). -/
def execDstart (side : Side) (s : State) : Answer :=
  running (fun _ d => dstartStep side d) s

/-- DSTOP (R156). -/
def execDstop (side : Side) (s : State) : Answer :=
  running (fun _ d => dstopStep side d) s

/-- SLOAD (R95). -/
def execSload (side : Side) (s : State) : Answer :=
  running (fun _ d => sloadStep side d) s

/-- SSWAP (R95). -/
def execSswap (side : Side) (s : State) : Answer :=
  running (fun _ d => sswapStep side d) s

/-- SMASK (R112). -/
def execSmask (side : Side) (s : State) : Answer :=
  running (fun _ d => smaskStep side d) s

/-- SRC (R112). -/
def execSrc (side : Side) (s : State) : Answer :=
  running (fun _ d => srcStep side d) s

/-- END (R130). -/
def execEndStep (side : Side) (s : State) : Answer :=
  running (fun _ d => endStep side d) s

/-- PREFETCH_TRIGGER (R122). -/
def execPrefetchTrigger (side : Side) (entry : Nat) (s : State) : Answer :=
  running (fun _ d => prefetchTrigger side entry d) s

/-- CHUTE_ENTRY_START (R122). -/
def execChuteEntryStart (side : Side) (s : State) : Answer :=
  running (fun _ d => chuteEntryStart side d) s

/-- CHUTE_ENTRY_COMPLETE (R280). -/
def execChuteEntryComplete (side : Side) (error : Bool) (s : State) : Answer :=
  running (fun life d => chuteEntryComplete life side error d) s

/-- CHUTE_LATE (R124). -/
def execChuteLate (side : Side) (entry : Nat) (s : State) : Answer :=
  running (fun _ d => chuteLate side entry d) s

/-- LINE_CHECK_COMPLETE (R333). -/
def execLineCheckComplete (side : Side) (file sector line : Nat) (r : LineOutcome) (s : State) : Answer :=
  running (fun life d => lineChecked life side file sector line r d) s

/-- VECTOR_ISSUE (R45). -/
def execVectorIssue (side : Side) (e : Faults) (s : State) : Answer :=
  running (fun _ d => issueVector side e d) s

end Sys2Proof.Machine
end

