-- ==== Sys2Proof/Machine/PowerRows.lean ====
section
/-! DEFINITION. The meanings of the rows on clocks, power, resets and the always-on domain (chapter 17): one
definition for each row, over the operations that it shares with others. -/
namespace Sys2Proof.Machine

/-- RESET_PART_COMPLETE (R448). -/
def execResetPartComplete (side : Side) (checkFail : List Nat) (s : State) : Answer :=
  running (fun life d => resetPartComplete life s.fuse.firmwareKey side checkFail d) s

/-- POWER_ON (R442). -/
def execPowerOn (vbakPresent : Bool) (seamOk : List Bool) (checkFail : List (Side × Nat)) (s : State) : Answer :=
  commit (fun _ d => powerOn s.fuse.held vbakPresent seamOk checkFail d) s

/-- VIN_WARN (R443). -/
def execVinWarn (s : State) : Answer :=
  commit (fun _ d => vinWarn d) s

/-- VIN_WARN_CLEAR (R443). -/
def execVinWarnClear (s : State) : Answer :=
  commit (fun _ d => vinWarnClear d) s

/-- VIN_CUT (R443). -/
def execVinCut (s : State) : Answer :=
  commit (fun _ d => vinCut d) s

/-- QUAL_WINDOW (R430). -/
def execQualWindow (c : ClkIn) (good : Bool) (s : State) : Answer :=
  running (fun _ d => qualWindow c good d) s

/-- CLOCK_EDGE_LOSS (R430). -/
def execClockEdgeLoss (c : ClkIn) (s : State) : Answer :=
  running (fun _ d => clockEdgeLoss c d) s

/-- CRYSTAL_DELAY_EXPIRE (R431). -/
def execCrystalDelayExpire (s : State) : Answer :=
  commit (fun _ d => crystalDelayExpire d) s

/-- PLL_UNLOCK (R429). -/
def execPllUnlock (p : Pll) (s : State) : Answer :=
  running (fun _ d => pllUnlock p d) s

/-- PLL_LOCK (R429). -/
def execPllLock (p : Pll) (s : State) : Answer :=
  running (fun _ d => pllLock p d) s

/-- GOVERNOR_EVAL (R438). -/
def execGovernorEval (vinMinMv currentMa : Nat) (s : State) : Answer :=
  running (fun _ d => governorEval vinMinMv currentMa d) s

/-- ILIMIT (R436). -/
def execIlimit (s : State) : Answer :=
  running (fun _ d => ilimit d) s

/-- RAIL_UV (R436). -/
def execRailUv (s : State) : Answer :=
  running (fun _ d => railUv d) s

/-- PHASE_MOVE_COMPLETE (R432). -/
def execPhaseMoveComplete (s : State) : Answer :=
  running (fun _ d => phaseMoveComplete d) s

/-- ALARM (R453). -/
def execAlarm (s : State) : Answer :=
  commit (fun _ d => alarm d) s

/-- WAKE_N (R451). -/
def execWakeN (s : State) : Answer :=
  commit (fun _ d => wakeN d) s

/-- VBAK_LOW (R454). -/
def execVbakLow (s : State) : Answer :=
  commit (fun _ d => vbakLow d) s

/-- OVER_TEMP (R454). -/
def execOverTemp (s : State) : Answer :=
  commit (fun _ d => overTemp d) s

/-- LID_OPEN (R454). -/
def execLidOpen (s : State) : Answer :=
  commit (fun _ d => lidOpen d) s

/-- AON_COUNT_WRITE (R452). -/
def execAonCountWrite (w : Writer) (hi : Bool) (v : Word) (s : State) : Answer :=
  running (fun life d => regCommand w 0 (if hi then .aonCountHi else .aonCountLo) 0 v life d) s

/-- CLK_SRC_WRITE (R434). -/
def execClkSrcWrite (w : Writer) (v : Word) (s : State) : Answer :=
  running (regCommand w 0 .clkSrc 0 v) s

/-- MODULE_RESET (R444). -/
def execModuleReset (s : State) : Answer :=
  running (fun _ d => moduleReset d) s

/-- MODULE_RESET_RELEASE (R444). -/
def execModuleResetRelease (seamOk : List Bool) (checkFail : List (Side × Nat)) (s : State) : Answer :=
  commit (fun _ d => moduleResetRelease seamOk checkFail d) s

/-- RAIL_IN_REGULATION (R469). -/
def execRailInRegulation (s : State) : Answer :=
  running (fun _ d => railInRegulation d) s

/-- LID_CLOSED (R454). -/
def execLidClosed (s : State) : Answer :=
  commit (fun _ d => lidClosed d) s

/-- OVER_TEMP_CLEAR (R454). -/
def execOverTempClear (s : State) : Answer :=
  commit (fun _ d => overTempClear d) s

/-- VBAK_RESTORE (R452). -/
def execVbakRestore (s : State) : Answer :=
  commit (fun _ d => vbakRestore d) s

/-- XO32_STOP (R434). -/
def execXo32Stop (s : State) : Answer :=
  commit (fun _ d => xo32Stop d) s

/-- XO32_RESUME (R434). -/
def execXo32Resume (s : State) : Answer :=
  commit (fun _ d => xo32Resume d) s

end Sys2Proof.Machine
end

