-- ==== Sys2Proof/Machine/StairwellRows.lean ====
section
/-! DEFINITION. The meanings of the rows on the Stairwell (chapter 15): one definition for each row, over the
operations that it shares with others. -/
namespace Sys2Proof.Machine

/-- STW_FRAME (R395). -/
def execStwFrame (side : Side) (f : StwRx) (s : State) : Answer :=
  running (fun _ d => stwFrame side f d) s

/-- STW_TRAINING_PATTERN (R397). -/
def execStwTrainingPattern (side : Side) (s : State) : Answer :=
  running (fun _ d => stwTrainingPattern side d) s

/-- STW_LOCK_LOSS (R397). -/
def execStwLockLoss (side : Side) (lane : Fin 16) (s : State) : Answer :=
  running (fun _ d => stwLockLoss side lane.val d) s

/-- STW_TRAIN_AGREE (R396). -/
def execStwTrainAgree (passW passE : BitVec 16) (s : State) : Answer :=
  running (fun _ d => stwTrainAgree passW passE d) s

/-- STW_ATTEMPT_TIMEOUT (R397). -/
def execStwAttemptTimeout (side : Side) (s : State) : Answer :=
  running (fun _ d => stwAttemptTimeout side d) s

/-- STW_DOWN_RETRY (R397). -/
def execStwDownRetry (side : Side) (s : State) : Answer :=
  running (fun _ d => stwDownRetry side d) s

/-- STW_TARGET_WRITE (R396). -/
def execStwTargetWrite (w : Writer) (side : Side) (v : Word) (s : State) : Answer :=
  running (regCommand w side.code .stwCtrl 0 v) s

/-- STW_RETRAIN_WRITE (R397). -/
def execStwRetrainWrite (w : Writer) (side : Side) (v : Word) (s : State) : Answer :=
  running (regCommand w side.code .stwCtrl 0 v) s

/-- STW_COMMIT (R401). -/
def execStwCommit (w : Writer) (side : Side) (v : Word) (s : State) : Answer :=
  running (regCommand w side.code .stwCtrl 0 v) s

/-- STW_SLIP (R401). -/
def execStwSlip (w : Writer) (side : Side) (lane : Fin 16) (v : Word) (s : State) : Answer :=
  running (regCommand w side.code .stwLane lane.val v) s

/-- STW_WIRE_FAULT (R22). -/
def execStwWireFault (side : Side) (lane : Fin 16) (s : State) : Answer :=
  running (fun _ d => stwWireFault side lane.val d) s

end Sys2Proof.Machine
end

