-- ==== Sys2Proof/Machine/TrapdoorRows.lean ====
section
/-! DEFINITION. The meanings of the rows on the Trapdoor (chapter 19): one definition for each row, over the
operations that it shares with others. -/
namespace Sys2Proof.Machine

/-- IDCODE (R484). -/
def execIdcode (crc : Byte) (s : State) : Answer :=
  trapdoor [0x01] crc (fun life d => idcode life d) s

/-- CHALLENGE (R485). -/
def execChallenge (crc : Byte) (s : State) : Answer :=
  trapdoor [0x02] crc (fun life d => challenge life d) s

/-- TOKEN (R485). -/
def execToken (scope reserved : Word) (signature : List Byte) (crc : Byte) (s : State) : Answer :=
  trapdoor (0x03 :: beBytes 4 scope.toNat ++ beBytes 4 reserved.toNat ++ signature) crc
    (fun _ d => token s.fuse scope reserved signature d) s

/-- TOKEN_EXPIRE (R485). -/
def execTokenExpire (s : State) : Answer :=
  running (fun _ d => tokenExpire d) s

/-- PEEK (R491). -/
def execPeek (addr : Nat) (crc : Byte) (s : State) : Answer :=
  trapdoor (0x10 :: beBytes 6 addr) crc (fun _ d => peek s.fuse addr d) s

/-- POKE (R491). -/
def execPoke (addr : Nat) (v : Word) (crc : Byte) (s : State) : Answer :=
  trapdoor (0x11 :: beBytes 6 addr ++ beBytes 4 v.toNat) crc (fun life d => poke life addr v d) s

/-- HALT (R487). -/
def execHalt (side : Side) (core : Fin 4) (crc : Byte) (s : State) : Answer :=
  trapdoor (0x20 :: beBytes 1 (dieCore side core.val)) crc (fun life d => halt life side core.val d) s

/-- STEP (R488). -/
def execStep (side : Side) (core : Fin 4) (crc : Byte) (s : State) : Answer :=
  trapdoor (0x21 :: beBytes 1 (dieCore side core.val)) crc (fun life d => stepCore life side d) s

/-- RESUME (R488). -/
def execResume (side : Side) (crc : Byte) (s : State) : Answer :=
  trapdoor (0x22 :: beBytes 1 (dieCore side 0)) crc (fun life d => resume life side d) s

/-- BREAKPOINT (R492). -/
def execBreakpoint (side : Side) (core : Fin 4) (s : State) : Answer :=
  running (fun _ d => breakpoint side core.val d) s

/-- PINS_ENTER (R493). -/
def execPinsEnter (rest : BitVec 24) (crc : Byte) (s : State) : Answer :=
  trapdoor (0x30 :: 0 :: beBytes 3 rest.toNat) crc (fun life d => pinsEnter life d) s

/-- PINS_EXIT (R493). -/
def execPinsExit (rest : BitVec 24) (crc : Byte) (s : State) : Answer :=
  trapdoor (0x30 :: 1 :: beBytes 3 rest.toNat) crc (fun life d => pinsExit life d) s

/-- PINS_SET (R493). -/
def execPinsSet (pin : Nat) (value crc : Byte) (s : State) : Answer :=
  trapdoor (0x30 :: 2 :: beBytes 2 pin ++ [value]) crc
    (fun life d => pinsSet life pin (value.getLsbD 1) (value.getLsbD 0) d) s

/-- PINS_GET (R493). -/
def execPinsGet (pin : Nat) (value : Byte) (level : Bool) (crc : Byte) (s : State) : Answer :=
  trapdoor (0x30 :: 3 :: beBytes 2 pin ++ [value]) crc (fun life d => pinsGet life pin level d) s

/-- FLASH (R486). -/
def execFlash (addr : Nat) (data : List Byte) (crc : Byte) (s : State) : Answer :=
  trapdoor (0x40 :: beBytes 4 addr ++ data) crc (fun life d => flash life addr data d) s

/-- TRAP_LINE_IDLE (R483). -/
def execTrapLineIdle (s : State) : Answer :=
  running (fun _ d => trapLineIdle d) s

/-- FRAMING_ERROR (R482). -/
def execFramingError (width18to20 : Bool) (s : State) : Answer :=
  running (fun _ d => framingError width18to20 d) s

end Sys2Proof.Machine
end

