-- ==== Sys2Proof/Machine/Dispatch.lean ====
section
/-! DEFINITION. The meaning of every command: one arm per constructor, each one direct call. -/
namespace Sys2Proof.Machine

def exec (i : Instr) (s : State) : Host.Outcome State Fault Refusal :=
  match i with
  | .hello h certOffset certMax => Sys2Proof.Machine.execHello h certOffset certMax s
  | .attest h nonce => Sys2Proof.Machine.execAttest h nonce s
  | .sessionOpen h maxFrame nonce eph chain signature => Sys2Proof.Machine.execSessionOpen h maxFrame nonce eph chain signature s
  | .sessionClose h => Sys2Proof.Machine.execSessionClose h s
  | .status h => Sys2Proof.Machine.execStatus h s
  | .readReg h addr count => Sys2Proof.Machine.execReadReg h addr count s
  | .writeReg h addr values => Sys2Proof.Machine.execWriteReg h addr values s
  | .registerWrite w addr v => Sys2Proof.Machine.execRegisterWrite w addr v s
  | .readBlock h fileId mode addr length => Sys2Proof.Machine.execReadBlock h fileId mode addr length s
  | .writeBlock h addr data => Sys2Proof.Machine.execWriteBlock h addr data s
  | .nonHoistFrame => Sys2Proof.Machine.execNonHoistFrame s
  | .arpRequest target => Sys2Proof.Machine.execArpRequest target s
  | .neighbourSolicitation target => Sys2Proof.Machine.execNeighbourSolicitation target s
  | .replayReq session seq => Sys2Proof.Machine.execReplayReq session seq s
  | .sessionIdleTimeout session => Sys2Proof.Machine.execSessionIdleTimeout session s
  | .sourceIgnoreEnd src => Sys2Proof.Machine.execSourceIgnoreEnd src s
  | .ethernetLinkUp => Sys2Proof.Machine.execEthernetLinkUp s
  | .ethernetLinkDown => Sys2Proof.Machine.execEthernetLinkDown s
  | .configBegin h target length => Sys2Proof.Machine.execConfigBegin h target length s
  | .configData h offset data => Sys2Proof.Machine.execConfigData h offset data s
  | .configEnd h => Sys2Proof.Machine.execConfigEnd h s
  | .fileOpen h half slot length => Sys2Proof.Machine.execFileOpen h half slot length s
  | .fileWrite h fileId offset data => Sys2Proof.Machine.execFileWrite h fileId offset data s
  | .fileClose h fileId => Sys2Proof.Machine.execFileClose h fileId s
  | .fileDrop h fileId => Sys2Proof.Machine.execFileDrop h fileId s
  | .keyInstall h slot body => Sys2Proof.Machine.execKeyInstall h slot body s
  | .keyRetire h slot => Sys2Proof.Machine.execKeyRetire h slot s
  | .planLoad h half fileId => Sys2Proof.Machine.execPlanLoad h half fileId s
  | .planAuditDone side => Sys2Proof.Machine.execPlanAuditDone side s
  | .arm h halves => Sys2Proof.Machine.execArm h halves s
  | .armWorkComplete side => Sys2Proof.Machine.execArmWorkComplete side s
  | .armWorkFail side why => Sys2Proof.Machine.execArmWorkFail side why s
  | .fire h halves => Sys2Proof.Machine.execFire h halves s
  | .fireIn => Sys2Proof.Machine.execFireIn s
  | .abort h halves => Sys2Proof.Machine.execAbort h halves s
  | .resultGet h half burst => Sys2Proof.Machine.execResultGet h half burst s
  | .resultRelease h half burst => Sys2Proof.Machine.execResultRelease h half burst s
  | .calRun h halves => Sys2Proof.Machine.execCalRun h halves s
  | .calTableGet h half first count => Sys2Proof.Machine.execCalTableGet h half first count s
  | .calTableSet h image => Sys2Proof.Machine.execCalTableSet h image s
  | .eventPoll h start max => Sys2Proof.Machine.execEventPoll h start max s
  | .logRead h start max => Sys2Proof.Machine.execLogRead h start max s
  | .modeSet h function halves mode => Sys2Proof.Machine.execModeSet h function halves mode s
  | .modeGet h => Sys2Proof.Machine.execModeGet h s
  | .bistRun h test arg signature agrees => Sys2Proof.Machine.execBistRun h test arg signature agrees s
  | .resetPart h half blocks => Sys2Proof.Machine.execResetPart h half blocks s
  | .resetPartComplete side checkFail => Sys2Proof.Machine.execResetPartComplete side checkFail s
  | .sleep h wakeAt => Sys2Proof.Machine.execSleep h wakeAt s
  | .lifecycleAdvance h target key auth => Sys2Proof.Machine.execLifecycleAdvance h target key auth s
  | .run side => Sys2Proof.Machine.execRun side s
  | .drun side => Sys2Proof.Machine.execDrun side s
  | .loop side => Sys2Proof.Machine.execLoop side s
  | .lend side => Sys2Proof.Machine.execLend side s
  | .fork side => Sys2Proof.Machine.execFork side s
  | .cal side selfOk readings => Sys2Proof.Machine.execCal side selfOk readings s
  | .pause side => Sys2Proof.Machine.execPause side s
  | .dstart side => Sys2Proof.Machine.execDstart side s
  | .dstop side => Sys2Proof.Machine.execDstop side s
  | .sload side => Sys2Proof.Machine.execSload side s
  | .sswap side => Sys2Proof.Machine.execSswap side s
  | .smask side => Sys2Proof.Machine.execSmask side s
  | .src side => Sys2Proof.Machine.execSrc side s
  | .endStep side => Sys2Proof.Machine.execEndStep side s
  | .prefetchTrigger side entry => Sys2Proof.Machine.execPrefetchTrigger side entry s
  | .chuteEntryStart side => Sys2Proof.Machine.execChuteEntryStart side s
  | .chuteEntryComplete side error => Sys2Proof.Machine.execChuteEntryComplete side error s
  | .chuteLate side entry => Sys2Proof.Machine.execChuteLate side entry s
  | .lineCheckComplete side file sector line r => Sys2Proof.Machine.execLineCheckComplete side file sector line r s
  | .vectorIssue side e => Sys2Proof.Machine.execVectorIssue side e s
  | .relayFrameClose side quad => Sys2Proof.Machine.execRelayFrameClose side quad s
  | .driveEvent side ch issue slot => Sys2Proof.Machine.execDriveEvent side ch issue slot s
  | .edgeStrobe side ch issue slot cmph cmpl => Sys2Proof.Machine.execEdgeStrobe side ch issue slot cmph cmpl s
  | .windowOpen side ch issue slot => Sys2Proof.Machine.execWindowOpen side ch issue slot s
  | .windowClose side ch issue slot seen invalid => Sys2Proof.Machine.execWindowClose side ch issue slot seen invalid s
  | .compareResult side group issue e => Sys2Proof.Machine.execCompareResult side group issue e s
  | .recordQueueDrain side e => Sys2Proof.Machine.execRecordQueueDrain side e s
  | .spoilCacheFill side line e => Sys2Proof.Machine.execSpoilCacheFill side line e s
  | .quarryFlushComplete side => Sys2Proof.Machine.execQuarryFlushComplete side s
  | .flushTimeout side => Sys2Proof.Machine.execFlushTimeout side s
  | .pipeFault side => Sys2Proof.Machine.execPipeFault side s
  | .drillParity side drill => Sys2Proof.Machine.execDrillParity side drill s
  | .planParity side => Sys2Proof.Machine.execPlanParity side s
  | .hookSlotPresent side hook => Sys2Proof.Machine.execHookSlotPresent side hook s
  | .hookReturn side hook r => Sys2Proof.Machine.execHookReturn side hook r s
  | .hookLate side hook => Sys2Proof.Machine.execHookLate side hook s
  | .shelfLoadComplete side => Sys2Proof.Machine.execShelfLoadComplete side s
  | .loadCheck side reason channel tset wave slot => Sys2Proof.Machine.execLoadCheck side reason channel tset wave slot s
  | .shelfSwapWrite w side v => Sys2Proof.Machine.execShelfSwapWrite w side v s
  | .tempSample side temps => Sys2Proof.Machine.execTempSample side temps s
  | .phaseCompare reading => Sys2Proof.Machine.execPhaseCompare reading s
  | .sweepStart side selfOk => Sys2Proof.Machine.execSweepStart side selfOk s
  | .sweepChannelCommit side ch readings e => Sys2Proof.Machine.execSweepChannelCommit side ch readings e s
  | .sweepEnd side fireOffset => Sys2Proof.Machine.execSweepEnd side fireOffset s
  | .calTableJournal side => Sys2Proof.Machine.execCalTableJournal side s
  | .wcfg => Sys2Proof.Machine.execWcfg s
  | .far => Sys2Proof.Machine.execFar s
  | .fdata => Sys2Proof.Machine.execFdata s
  | .idcheck => Sys2Proof.Machine.execIdcheck s
  | .gclr => Sys2Proof.Machine.execGclr s
  | .start => Sys2Proof.Machine.execStart s
  | .streamEnd => Sys2Proof.Machine.execStreamEnd s
  | .gclrComplete seamOk => Sys2Proof.Machine.execGclrComplete seamOk s
  | .configCheckComplete => Sys2Proof.Machine.execConfigCheckComplete s
  | .configVerifyComplete => Sys2Proof.Machine.execConfigVerifyComplete s
  | .configClearComplete => Sys2Proof.Machine.execConfigClearComplete s
  | .configIdleTimeout => Sys2Proof.Machine.execConfigIdleTimeout s
  | .configStoreComplete bad => Sys2Proof.Machine.execConfigStoreComplete bad s
  | .autoloadStart => Sys2Proof.Machine.execAutoloadStart s
  | .scrubPass side canary frames => Sys2Proof.Machine.execScrubPass side canary frames s
  | .fabScrubCmd w side v => Sys2Proof.Machine.execFabScrubCmd w side v s
  | .scrubCmdComplete side u => Sys2Proof.Machine.execScrubCmdComplete side u s
  | .fabNocPortEn w die v => Sys2Proof.Machine.execFabNocPortEn w die v s
  | .bmemAccess die mem a b => Sys2Proof.Machine.execBmemAccess die mem a b s
  | .nocPortRequest die port packet line => Sys2Proof.Machine.execNocPortRequest die port packet line s
  | .nocTimeout side txn => Sys2Proof.Machine.execNocTimeout side txn s
  | .nocLate side txn => Sys2Proof.Machine.execNocLate side txn s
  | .flitError side txn => Sys2Proof.Machine.execFlitError side txn s
  | .celTrainStart w side v => Sys2Proof.Machine.execCelTrainStart w side v s
  | .celTrainCommit w side v => Sys2Proof.Machine.execCelTrainCommit w side v s
  | .celDlyDataWrite w side v => Sys2Proof.Machine.execCelDlyDataWrite w side v s
  | .celSweepComplete side supported edges => Sys2Proof.Machine.execCelSweepComplete side supported edges s
  | .celVerifyComplete side ok rates mib dev32 x4 ranks2 => Sys2Proof.Machine.execCelVerifyComplete side ok rates mib dev32 x4 ranks2 s
  | .caRetry side ch nth => Sys2Proof.Machine.execCaRetry side ch nth s
  | .refresh side ch => Sys2Proof.Machine.execRefresh side ch s
  | .dimmTempRead side ch sensor celsius => Sys2Proof.Machine.execDimmTempRead side ch sensor celsius s
  | .zqCalibration side ch => Sys2Proof.Machine.execZqCalibration side ch s
  | .celScrubGo w side v => Sys2Proof.Machine.execCelScrubGo w side v s
  | .patrolRead side line e => Sys2Proof.Machine.execPatrolRead side line e s
  | .atticPatrol side line e => Sys2Proof.Machine.execAtticPatrol side line e s
  | .shelfPatrol side e => Sys2Proof.Machine.execShelfPatrol side e s
  | .lineReadback side m line e => Sys2Proof.Machine.execLineReadback side m line e s
  | .attStageWrite w side v => Sys2Proof.Machine.execAttStageWrite w side v s
  | .qryReserveWrite w side v => Sys2Proof.Machine.execQryReserveWrite w side v s
  | .remoteRead side line key => Sys2Proof.Machine.execRemoteRead side line key s
  | .remoteFill side line key => Sys2Proof.Machine.execRemoteFill side line key s
  | .remoteWrite side file offset data => Sys2Proof.Machine.execRemoteWrite side file offset data s
  | .snoopInvalidate side line => Sys2Proof.Machine.execSnoopInvalidate side line s
  | .invalidateAck side line => Sys2Proof.Machine.execInvalidateAck side line s
  | .evictionReport side line => Sys2Proof.Machine.execEvictionReport side line s
  | .larderAppend type key payload => Sys2Proof.Machine.execLarderAppend type key payload s
  | .larderCompactionComplete => Sys2Proof.Machine.execLarderCompactionComplete s
  | .ldrCompact w v => Sys2Proof.Machine.execLdrCompact w v s
  | .rekeySector side => Sys2Proof.Machine.execRekeySector side s
  | .revote word v => Sys2Proof.Machine.execRevote word v s
  | .bucketLeak side blk idx => Sys2Proof.Machine.execBucketLeak side blk idx s
  | .countWindowEnd side blk inst => Sys2Proof.Machine.execCountWindowEnd side blk inst s
  | .fltStatusClear w side blk v => Sys2Proof.Machine.execFltStatusClear w side blk v s
  | .fltSeverityWrite w side blk v => Sys2Proof.Machine.execFltSeverityWrite w side blk v s
  | .fltEnableWrite w side blk v => Sys2Proof.Machine.execFltEnableWrite w side blk v s
  | .safeN => Sys2Proof.Machine.execSafeN s
  | .safeRelease => Sys2Proof.Machine.execSafeRelease s
  | .safeCtrlWrite w v => Sys2Proof.Machine.execSafeCtrlWrite w v s
  | .reconcile u upset => Sys2Proof.Machine.execReconcile u upset s
  | .powerOn vbakPresent seamOk checkFail => Sys2Proof.Machine.execPowerOn vbakPresent seamOk checkFail s
  | .vinWarn => Sys2Proof.Machine.execVinWarn s
  | .vinWarnClear => Sys2Proof.Machine.execVinWarnClear s
  | .vinCut => Sys2Proof.Machine.execVinCut s
  | .qualWindow c good => Sys2Proof.Machine.execQualWindow c good s
  | .clockEdgeLoss c => Sys2Proof.Machine.execClockEdgeLoss c s
  | .crystalDelayExpire => Sys2Proof.Machine.execCrystalDelayExpire s
  | .pllUnlock p => Sys2Proof.Machine.execPllUnlock p s
  | .pllLock p => Sys2Proof.Machine.execPllLock p s
  | .governorEval vinMinMv currentMa => Sys2Proof.Machine.execGovernorEval vinMinMv currentMa s
  | .ilimit => Sys2Proof.Machine.execIlimit s
  | .railUv => Sys2Proof.Machine.execRailUv s
  | .phaseMoveComplete => Sys2Proof.Machine.execPhaseMoveComplete s
  | .alarm => Sys2Proof.Machine.execAlarm s
  | .wakeN => Sys2Proof.Machine.execWakeN s
  | .vbakLow => Sys2Proof.Machine.execVbakLow s
  | .overTemp => Sys2Proof.Machine.execOverTemp s
  | .lidOpen => Sys2Proof.Machine.execLidOpen s
  | .aonCountWrite w hi v => Sys2Proof.Machine.execAonCountWrite w hi v s
  | .clkSrcWrite w v => Sys2Proof.Machine.execClkSrcWrite w v s
  | .moduleReset => Sys2Proof.Machine.execModuleReset s
  | .firmwareStart a b => Sys2Proof.Machine.execFirmwareStart a b s
  | .teFirmwareStart ok => Sys2Proof.Machine.execTeFirmwareStart ok s
  | .firmwareReload side => Sys2Proof.Machine.execFirmwareReload side s
  | .firmwareReloadComplete side => Sys2Proof.Machine.execFirmwareReloadComplete side s
  | .watchdogKick side core => Sys2Proof.Machine.execWatchdogKick side core s
  | .wdogExpire side core => Sys2Proof.Machine.execWdogExpire side core s
  | .tskWdogCfgWrite w side core v => Sys2Proof.Machine.execTskWdogCfgWrite w side core v s
  | .taskDelayExpire side tick => Sys2Proof.Machine.execTaskDelayExpire side tick s
  | .eventQueuePost side q entry => Sys2Proof.Machine.execEventQueuePost side q entry s
  | .tskPatchWrite w side u part v => Sys2Proof.Machine.execTskPatchWrite w side u part v s
  | .fwHashRecompute side => Sys2Proof.Machine.execFwHashRecompute side s
  | .bistSlice side kind unit ends => Sys2Proof.Machine.execBistSlice side kind unit ends s
  | .haulModeWrite w side q v => Sys2Proof.Machine.execHaulModeWrite w side q v s
  | .haulCommit w side q v => Sys2Proof.Machine.execHaulCommit w side q v s
  | .haulRetrain w side q v => Sys2Proof.Machine.execHaulRetrain w side q v s
  | .haulClockLock side q => Sys2Proof.Machine.execHaulClockLock side q s
  | .haulClockTimeout side q => Sys2Proof.Machine.execHaulClockTimeout side q s
  | .haulAdaptDone side q fom eq => Sys2Proof.Machine.execHaulAdaptDone side q fom eq s
  | .haulAlignDone side q slips => Sys2Proof.Machine.execHaulAlignDone side q slips s
  | .haulLinkDone side q roundTrip => Sys2Proof.Machine.execHaulLinkDone side q roundTrip s
  | .haulLockLoss side q => Sys2Proof.Machine.execHaulLockLoss side q s
  | .haulClockAbsent side q => Sys2Proof.Machine.execHaulClockAbsent side q s
  | .relay side rx first issues => Sys2Proof.Machine.execRelay side rx first issues s
  | .relayTag side rx first tag => Sys2Proof.Machine.execRelayTag side rx first tag s
  | .spoil side rx line => Sys2Proof.Machine.execSpoil side rx line s
  | .haulFire side rx t => Sys2Proof.Machine.execHaulFire side rx t s
  | .haulFireTime => Sys2Proof.Machine.execHaulFireTime s
  | .time side rx t => Sys2Proof.Machine.execTime side rx t s
  | .flag side rx a mask values => Sys2Proof.Machine.execFlag side rx a mask values s
  | .flagApply side => Sys2Proof.Machine.execFlagApply side s
  | .key side rx done ok => Sys2Proof.Machine.execKey side rx done ok s
  | .ack side q ackSeq credits nak => Sys2Proof.Machine.execAck side q ackSeq credits nak s
  | .creditReset side q => Sys2Proof.Machine.execCreditReset side q s
  | .echo side q cookie => Sys2Proof.Machine.execEcho side q cookie s
  | .echoReplySend side q => Sys2Proof.Machine.execEchoReplySend side q s
  | .echoReply side q cookie roundTrip => Sys2Proof.Machine.execEchoReply side q cookie roundTrip s
  | .timeSync w => Sys2Proof.Machine.execTimeSync w s
  | .fireTx w => Sys2Proof.Machine.execFireTx w s
  | .xmodPhaseWrite w v => Sys2Proof.Machine.execXmodPhaseWrite w v s
  | .xmodAlignedWrite w v => Sys2Proof.Machine.execXmodAlignedWrite w v s
  | .haulAdjWrite w side q v => Sys2Proof.Machine.execHaulAdjWrite w side q v s
  | .haulCascadeWrite w v => Sys2Proof.Machine.execHaulCascadeWrite w v s
  | .inject w side q lane v => Sys2Proof.Machine.execInject w side q lane v s
  | .haulSlip w side q lane v => Sys2Proof.Machine.execHaulSlip w side q lane v s
  | .haulLaneEqWrite w side q lane v => Sys2Proof.Machine.execHaulLaneEqWrite w side q lane v s
  | .stwFrame side f => Sys2Proof.Machine.execStwFrame side f s
  | .stwTrainingPattern side => Sys2Proof.Machine.execStwTrainingPattern side s
  | .stwLockLoss side lane => Sys2Proof.Machine.execStwLockLoss side lane s
  | .stwTrainAgree passW passE => Sys2Proof.Machine.execStwTrainAgree passW passE s
  | .stwAttemptTimeout side => Sys2Proof.Machine.execStwAttemptTimeout side s
  | .stwDownRetry side => Sys2Proof.Machine.execStwDownRetry side s
  | .stwTargetWrite w side v => Sys2Proof.Machine.execStwTargetWrite w side v s
  | .stwRetrainWrite w side v => Sys2Proof.Machine.execStwRetrainWrite w side v s
  | .stwCommit w side v => Sys2Proof.Machine.execStwCommit w side v s
  | .stwSlip w side lane v => Sys2Proof.Machine.execStwSlip w side lane v s
  | .stwWireFault side lane => Sys2Proof.Machine.execStwWireFault side lane s
  | .idcode crc => Sys2Proof.Machine.execIdcode crc s
  | .challenge crc => Sys2Proof.Machine.execChallenge crc s
  | .token scope reserved signature crc => Sys2Proof.Machine.execToken scope reserved signature crc s
  | .tokenExpire => Sys2Proof.Machine.execTokenExpire s
  | .peek addr crc => Sys2Proof.Machine.execPeek addr crc s
  | .poke addr v crc => Sys2Proof.Machine.execPoke addr v crc s
  | .halt side core crc => Sys2Proof.Machine.execHalt side core crc s
  | .step side core crc => Sys2Proof.Machine.execStep side core crc s
  | .resume side crc => Sys2Proof.Machine.execResume side crc s
  | .breakpoint side core => Sys2Proof.Machine.execBreakpoint side core s
  | .pinsEnter rest crc => Sys2Proof.Machine.execPinsEnter rest crc s
  | .pinsExit rest crc => Sys2Proof.Machine.execPinsExit rest crc s
  | .pinsSet pin value crc => Sys2Proof.Machine.execPinsSet pin value crc s
  | .pinsGet pin value level crc => Sys2Proof.Machine.execPinsGet pin value level crc s
  | .flash addr data crc => Sys2Proof.Machine.execFlash addr data crc s
  | .trapLineIdle => Sys2Proof.Machine.execTrapLineIdle s
  | .safeNHigh => Sys2Proof.Machine.execSafeNHigh s
  | .moduleResetRelease seamOk checkFail => Sys2Proof.Machine.execModuleResetRelease seamOk checkFail s
  | .railInRegulation => Sys2Proof.Machine.execRailInRegulation s
  | .lidClosed => Sys2Proof.Machine.execLidClosed s
  | .overTempClear => Sys2Proof.Machine.execOverTempClear s
  | .vbakRestore => Sys2Proof.Machine.execVbakRestore s
  | .xo32Stop => Sys2Proof.Machine.execXo32Stop s
  | .xo32Resume => Sys2Proof.Machine.execXo32Resume s
  | .dimmNotResponding side ch => Sys2Proof.Machine.execDimmNotResponding side ch s
  | .nocResponse side txn => Sys2Proof.Machine.execNocResponse side txn s
  | .badFrame => Sys2Proof.Machine.execBadFrame s
  | .aliveEdge => Sys2Proof.Machine.execAliveEdge s
  | .taskYield side core how arg => Sys2Proof.Machine.execTaskYield side core how arg s
  | .calMeasurementAged side ch => Sys2Proof.Machine.execCalMeasurementAged side ch s
  | .framingError width18to20 => Sys2Proof.Machine.execFramingError width18to20 s

end Sys2Proof.Machine
end

