-- ==== Sys2Proof/Machine/Step.lean ====
section
/-! DEFINITION. One step of the block: the command at the front of the queue, or one SC cycle when none waits. -/
namespace Sys2Proof.Machine

/-- The state in which the next step runs the command that a word spells: no row has bits, so it stays as it is. -/
def State.withFetchWord (s : State) (nbits w : Nat) : State :=
  match decodeTableWord nbits w with
  | some c => { s with pending := c :: s.pending }
  | none => s

def step (s : State) : Host.Outcome State Fault Refusal :=
  match s.pending with
  | [] => .next { s with dev := s.dev.cycle }
  | c :: rest => exec c { s with pending := rest }

end Sys2Proof.Machine
end

