-- ==== Sys2Proof/Safety.lean ====
section
/-! DEFINITION. What claims say of runs: answers, the order of the life cycle, and the module without its bookkeeping. -/
namespace Sys2Proof.Machine

/-- A core without the task it runs and the record of when it ran tasks. -/
def Core4.bare (x : Core4) : Core4 := { x with task := none, from_ := 0, spans := [] }

/-- A task unit without what scheduling and posting change: tasks, ready and event queues, the waits and loads they leave, and
which task a core runs. -/
def TskSt.bare (t : TskSt) : TskSt :=
  { t with
    tasks := [], ready := [], queues := [], longest := (0, 0)
    core0 := t.core0.bare, core1 := t.core1.bare, core2 := t.core2.bare, core3 := t.core3.bare }

/-- The module without its bookkeeping: what a raise, an event, a response, the tasks (but for whether firmware runs), the model's own counter and the log of
what was sent change is left out; registers, memories, sequencers, engines, links, keys, clocks and pins stay. -/
def Dev.bare (d : Dev) : Dev :=
  { d with
    pages := [], out := [], free := 0
    hst := { d.hst with sessions := [], events := [], next := 0, devState := 0, faceW := .idle, faceE := .idle }
    safe := { d.safe with releasing := false }
    west := { d.west with tsk := { started := d.west.tsk.started } }
    east := { d.east with tsk := { started := d.east.tsk.started } } }

/-- What the assertion of the SAFE net and all bookkeeping leave of a half: its calibration tables, memories, links and modes. -/
def Half.deep (h : Half) : Half :=
  { h with
    cal := { h.cal with changed := false }
    xts := { h.xts with checks := [] }
    tch := {}, shelf := {}, face := {}, drl0 := {}, drl1 := {}, qry := {}, fab := {}, files := []
    tsk := { started := h.tsk.started } }

/-- What the assertion of the SAFE net, the journal of ended halves and all bookkeeping leave of the module: besides what
`Half.deep` keeps, keys, cascade time, the power states, and the clocks but for the fabric's. -/
def Dev.deep (d : Dev) : Dev :=
  { d with
    regs := [], pages := [], out := [], free := 0, cfg := {}, array := {}, ldr := {}
    hst := { linkUp := d.hst.linkUp, ignored := d.hst.ignored, cals := d.hst.cals }
    safe := { d.safe with releasing := false, asserted := false, slices := [] }
    dbg := { d.dbg with pins := false, drive := [], flash := [] }
    clk := { d.clk with fck := [] }
    west := d.west.deep
    east := d.east.deep }

/-- From one state of the module to a later one, fault pages and the log of what was sent only grow: conditions and enables
stay, SRC bits stay set, and what was sent stays sent. -/
def Dev.grows (d e : Dev) : Prop :=
  (∀ s b, (e.page s b).active = (d.page s b).active ∧ (e.page s b).enable = (d.page s b).enable
    ∧ ∀ i, (d.page s b).src.getLsbD i = true → (e.page s b).src.getLsbD i = true)
  ∧ ∀ o ∈ d.out, o ∈ e.out

/-- A load past CHECKING whose frame path the Stairwell does not carry (R256). -/
def Dev.pathCut (d : Dev) : Bool := d.cfg.load.any fun l => l.cutOff d.stwDown

/-- Nothing is left that every command leaves in order: the SAFE net is asserted when something requests it (R464, R465), no
load past CHECKING is cut off by the Stairwell (R256), and a half that ended has its changed tables journaled (R192). -/
abbrev Dev.calm (d : Dev) : Prop :=
  (d.safeWanted = true → d.safe.asserted = true) ∧ d.pathCut = false ∧ d.justEnded .w = false ∧ d.justEnded .e = false

/-- A raise of the source, with its entry pushed back or not, does not request the SAFE net (R459). -/
abbrev Dev.mild (d : Dev) (s : Side) (blk idx : Nat) : Prop :=
  (d.page s blk).sev blk idx ≠ 3 ∧ (d.page s blkTsk).sev blkTsk 5 ≠ 3

/-- The journal of an ended half does not request the SAFE net, full Larder or not (R192, R307). -/
abbrev Dev.meek (d : Dev) : Prop := d.mild .w blkAon 10 ∧ d.mild .w blkAon 11

/-- A writer reaches every register: firmware its own die, any other while no RESET_PART runs and the Stairwell is up. -/
abbrev Dev.openTo (d : Dev) (w : Writer) : Prop := w = .fw ∨ (d.west.reset = 0 ∧ d.east.reset = 0 ∧ d.stwDown = false)

/-- Registers whose writes do more than set their fields, besides those of the fault pages. -/
def hooked (r : Rg) : Bool :=
  [Rg.clkSrc, .safeCtrl, .tskWdogCfg, .tskPatchAddr, .tskPatchLo, .tskPatchHi, .shelfCtrl, .drlStatus, .celTrain, .celDlyData,
   .celScrubCfg, .attStage, .qryReserve, .haulQCtrl, .haulRxLat, .haulLaneCtrl, .haulLaneEq, .haulCascade, .haulCtrl, .haulXmod,
   .stwCtrl, .stwLane, .nocTimeout, .cfgBoot, .aonCfg, .aonCountLo, .aonCountHi, .ldrCtrl, .fabScrubCmd, .fabHookCfg, .fabNocPortEn].contains r

/-- A register that holds what is written to its fields, and no more (R8). -/
def plainReg (x : RegDesc) : Bool :=
  !hooked x.reg && decide (x.off % 0x100000 / 0x1000 ≠ 0xFF) && decide (clearedWith x.reg = [])

/-- A register whose read changes nothing (R8, R491). -/
def silentReg (x : RegDesc) : Bool :=
  !isHi x.reg && decide (hiOf x.reg = none) && !peekBlocked x.reg
    && !([Rg.tskCoreLoad, .fltVote].contains x.reg) && !(x.fields.any fun f => decide (f.acc = .rc))

/-- The front end hears a frame that is in order, alone or sealed in a session that takes its number and has room for it
(R341 to R347, R350). -/
def Dev.takes (d : Dev) (h : Hdr) : Prop :=
  d.hears h = true ∧ frameBytes h ≤ 9000 ∧ h.version = 1 ∧ h.rsp = false ∧ h.resv = false ∧ h.opKnown = true ∧ h.layoutOk = true
  ∧ ((h.session = 0 ∧ h.sealed = false ∧ d.session 0 = none)
    ∨ (h.session ≠ 0 ∧ h.sealed = true ∧ h.gcmOk = true ∧ ∃ x, d.session h.session = some x ∧ x.stale h.seq = false
      ∧ x.seen.contains h.seq = false ∧ x.lost h.seq = 0 ∧ x.busy.length < 16))

/-- The module with a request taken: its number, and its place among those in progress, are its session's (R346, R350). -/
def Dev.accepted (d : Dev) (h : Hdr) : Dev :=
  let d : Dev := { d with out := [] }
  if h.sealed then (d.modSession h.session fun x => x.accept h.seq h.src).modSession h.session
    fun x => { x with busy := x.busy ++ [h.seq] } else d

/-- A final response to a request was sent (R350). -/
def Dev.tells (d : Dev) (r : Reply) (status : Nat) (payload : List Byte) : Prop :=
  ∃ (f : Frame) (wire : List Nat), Out.hoist f wire ∈ d.out ∧ f.session = r.session ∧ f.dst = r.src ∧ f.tag = r.tag ∧ f.op = r.op
    ∧ f.status = status ∧ f.payload = payload

/-- The Trapdoor takes a request: it is out of reset, and the CRC is that of command and arguments (R295, R483). -/
abbrev Dev.trapTakes (d : Dev) (req : List Byte) (crc : Byte) : Prop :=
  d.west.stuck.getLsbD blkDbg = false ∧ crc8 req = crc.toNat

/-- A Trapdoor response: status, result and their CRC (R483). -/
def trapReply (status : Nat) (result : List Byte) : Out :=
  .trap (beBytes 1 status ++ result ++ beBytes 1 (crc8 (beBytes 1 status ++ result)))

end Sys2Proof.Machine

namespace Sys2Proof.Safety

open Sys2Proof.Machine

/-- An answer is a next state. -/
def Completes (o : Answer) : Prop := ∃ t, o = .next t

/-- A property holds of the next state that an answer is. -/
def Gives (o : Answer) (p : State → Prop) : Prop := ∃ t, o = .next t ∧ p t

/-- A command answers a next state with the queue and the fuses as they were, and with p of the module. -/
def Yields (c : Instr) (s : State) (p : Dev → Prop) : Prop :=
  ∃ t, exec c s = .next t ∧ t.pending = s.pending ∧ t.fuse = s.fuse ∧ p t.dev

/-- A register write is reported OK, and it and bookkeeping alone lead from the module to e. -/
def Writes (c : Instr) (s : State) (e : Dev) : Prop := Yields c s fun d => d.bare = e.bare ∧ Out.wrote stOk ∈ d.out

/-- A running module takes a Hoist request of opcode op: its frame is in order, and its session, the life cycle, DEVICE_STATE
and firmware take it (R346 to R354). -/
structure Admits (s : State) (h : Hdr) (op : Nat) (required fw far : Bool) : Prop where
  powered : s.dev.powered = true
  calm : s.dev.calm
  takes : s.dev.takes h
  life : s.fuse.life ≠ .blank ∧ s.fuse.life ≠ .retired
  session : required = true → h.sealed = true
  state : stateRefuses s.dev.state op = false
  firmware : s.dev.fwRefusal fw far far = none

/-- A command is answered with a status and a payload, and it and bookkeeping alone lead from the module to e. -/
def Answers (c : Instr) (s : State) (h : Hdr) (op status : Nat) (payload : List Byte) (e : Dev) : Prop :=
  Yields c s fun d => d.bare = e.bare ∧ d.tells (s.dev.replyTo op h) status payload

/-- The life cycle has come at least so far (R309). -/
def LifeAtLeast (l : Life) (s : State) : Prop := l.code ≤ s.fuse.life.code

end Sys2Proof.Safety
end

