-- ==== Sys2Proof/Certificates/Slice0/Obligations.lean ====
section
/-! DEFINITION. The statements for the provers, by chapter of the spec. -/

open Sys2Proof Sys2Proof.Machine Sys2Proof.Safety

/-! ## Registers with rules of their own, and the whole block -/

/-- SHELF_CTRL.SWAP activates the shadow slot at once in MANUFACTURE and RETURNED, is DENIED elsewhere, and WRONG_STATE in a locked
half; AON_COUNT_HI is kept until AON_COUNT_LO loads both, and a load from outside sets TIME_VALID; CLK_SRC is firmware's (R95,
R434, R452, R453). -/
def Obligations.OwnRegisterWrites : Prop :=
  ∀ (s : State) (w : Writer) (v : Word), s.dev.powered = true → s.dev.calm → s.dev.openTo w →
    let kept (c : Instr) (status : Nat) : Prop := Yields c s (fun d => d.bare = s.dev.bare ∧ Out.wrote status ∈ d.out)
    (∀ side, let h := s.dev.half side
      v.getLsbD 0 = true →
      (s.fuse.life.open = false → kept (.shelfSwapWrite w side v) stDenied)
      ∧ (s.fuse.life.open = true → h.locked = true ∨ h.shelf.st0 ≠ .valid ∨ h.shelf.st1 ≠ .valid →
        kept (.shelfSwapWrite w side v) stWrong)
      ∧ (s.fuse.life.open = true → h.locked = false → h.shelf.st0 = .valid → h.shelf.st1 = .valid →
        Yields (.shelfSwapWrite w side v) s (fun d => Out.wrote stOk ∈ d.out
          ∧ (d.half side).shelf.active = 1 - h.shelf.active
          ∧ d.rf side.code .shelfSwapCnt 0 31 0 = min (s.dev.rf side.code .shelfSwapCnt 0 31 0 + 1) (2 ^ 32 - 1))))
    ∧ Writes (.aonCountWrite w true v) s { s.dev with aon := { s.dev.aon with hiWritten := v } }
    ∧ Writes (.aonCountWrite w false v) s { s.dev with aon := { s.dev.aon with
        count := s.dev.aon.hiWritten ++ v
        timeValid := s.dev.aon.timeValid || decide (w ≠ .fw) } }
    ∧ (w = .fw → Writes (.clkSrcWrite w v) s { s.dev with clk := { s.dev.clk with tick := v.getLsbD 0 } })
    ∧ (w ≠ .fw → kept (.clkSrcWrite w v) stDenied)

/-- A step takes the command at the front of the queue with the rest of the queue; with none waiting an SC cycle passes, in which
cascade time and the cycles of bursts count in a running module (the empty queue is the model's own, log entry 5; R2). -/
def Obligations.StepRunsFront : Prop :=
  (∀ (c : Instr) (rest : List Instr) (s : State), step { s with pending := c :: rest } = exec c { s with pending := rest })
  ∧ ∀ s : State, s.pending = [] → ∃ t, step s = .next t ∧ t.pending = [] ∧ t.fuse = s.fuse ∧ t.dev.out = []
    ∧ t.dev.regs = s.dev.regs ∧ t.dev.pages = s.dev.pages
    ∧ (s.dev.powered = true → t.dev.casc.ctime = s.dev.casc.ctime + 1
      ∧ ∀ side, (t.dev.half side).face.burst.cycle
        = (s.dev.half side).face.burst.cycle + if (s.dev.half side).face.bursting then 1 else 0)

/-- The block after reset: no command waits, no fault is latched, every severity and enable is at its default, both halves are IDLE
with no plan, UNCONFIGURED, the Stairwell is OFF, memories list nothing, no session is open, and every field kept in the register
table holds its Reset column value (fuses and straps, which are the model's choice, stand outside it: log entry 1) (R31, R69, R130, R253, R397, R421, R456). -/
def Obligations.ResetValues : Prop :=
  let s := State.reset
  s.pending = [] ∧ s.dev.calm ∧ s.dev.safe.asserted = false ∧ s.dev.state = 1 ∧ s.dev.cfg.state = 0
  ∧ (∀ side blk, (s.dev.page side blk).src = 0 ∧ (s.dev.page side blk).enable = BitVec.allOnes 16
    ∧ (s.dev.page side blk).noMaj = false
    ∧ ∀ i < 16, ∀ n fixed, srcClass blk i = some (.sev n fixed) → (s.dev.page side blk).sev blk i = n)
  ∧ (∀ side, (s.dev.half side).face.state = .idle ∧ (s.dev.half side).face.plan = none ∧ (s.dev.half side).stw.state = 0
    ∧ (s.dev.half side).attic = [] ∧ Memory.wf (s.dev.half side).attic = true ∧ (s.dev.half side).tsk.started = false)
  ∧ s.dev.hst.sessions = [] ∧ s.dev.hst.events = []
  ∧ (∀ (die : Nat) (x : RegDesc) (f : Field) (i : Nat), x ∈ allRegs → x.reg ≠ .celQos → f ∈ x.fields → i < 8192 →
    s.dev.rf die x.reg i f.hi f.lo = f.reset)

/-- Every command answers a next state from every state: the rest of the queue and the fuses stay, but for the life cycle under
LIFECYCLE_ADVANCE; and without power, in SLEEP or in a module reset a command other than those on power, the always-on domain,
the crystal, TRAP_N and SAFE_N changes nothing (R23, R309, R443, R445, R450). -/
def Obligations.EveryCommandCompletes : Prop :=
  ∀ (c : Instr) (s : State), ∃ t, exec c s = .next t ∧ t.pending = s.pending ∧ { t.fuse with life := s.fuse.life } = s.fuse
    ∧ (t.fuse.life ≠ s.fuse.life → ∃ h target key ok, c = .lifecycleAdvance h target key ok)
    ∧ (s.dev.powered = false → t = s ∨ t = { s with dev := { s.dev with out := [] } } ∨ (∃ a b l, c = .powerOn a b l)
      ∨ (∃ a l, c = .moduleResetRelease a l) ∨ c ∈ [.vinWarn, .vinWarnClear, .vinCut, .safeN, .safeNHigh, .alarm, .wakeN,
        .vbakLow, .vbakRestore, .overTemp, .overTempClear, .lidOpen, .lidClosed, .crystalDelayExpire, .xo32Stop, .xo32Resume])

/-- A fuse is only ever blown: no step takes the life cycle back (R309). -/
def Obligations.LifeNeverGoesBack : Prop :=
  ∀ (l : Life) (s t : State), LifeAtLeast l s → step s = .next t → LifeAtLeast l t

/-- Every step keeps the SAFE net asserted while a fault page or SAFE_N requests it in a running module (R464). -/
def Obligations.SafeNetFollows : Prop :=
  ∀ s t : State, (s.dev.powered = true → s.dev.calm) → step s = .next t → t.dev.powered = true → t.dev.calm

/-! ## Plans and bursts (chapters 2 to 8) -/

/-- A running half that stands at a RUN, DRUN, LOOP, PAUSE, DSTART, DSTOP, SMASK, SRC or END step executes it: the step counts, the
sequencer moves on as the step says, and nothing else but bookkeeping changes; END while no shelf load is in progress (R107 to
R113, R130, R137). -/
def Obligations.PlanSteps : Prop :=
  ∀ (s : State) (side : Side), s.dev.powered = true → s.dev.calm →
    let h := s.dev.half side
    let rd := h.planRd
    let c := h.face.cur
    let gives (i : Instr) (f : Half → Half) : Prop := Yields i s (fun d => d.bare = (s.dev.mod side f).bare)
    let goes (h : Half) (c : Cur) : Half := { h with face := { h.face.stepped true with cur := c } }
    let next : Cur := { c with pc := c.pc + 1 }
    (h.atStep 1 = true → gives (.run side) fun h => { h with face := { h.face.stepped (decide (h.face.burst.issues < 64)) with
        cur := { c with busy := true, ent := PlanImg.fc rd c.pc % 2 ^ 16, hv := PlanImg.fc rd c.pc / 2 ^ 16 % 2 ^ 32 * 132,
                        left := PlanImg.fb rd c.pc, rep := 0 } } })
    ∧ (h.atStep 2 = true → gives (.drun side) fun h => goes h { c with
        busy := true, left := PlanImg.fc rd c.pc % 2 ^ 32, rep := 0 })
    ∧ (h.atStep 3 = true → gives (.loop side) fun h => goes h { next with loops := (c.pc, PlanImg.fb rd c.pc - 1) :: c.loops })
    ∧ (h.atStep 7 = true → gives (.pause side) fun h => (goes h next).insertTime (PlanImg.fb rd c.pc))
    ∧ (h.atStep 8 = true → gives (.dstart side) fun h =>
        goes (h.setDrl (PlanImg.fa rd c.pc) ((h.drl (PlanImg.fa rd c.pc)).start (PlanImg.fb rd c.pc))) next)
    ∧ (h.atStep 9 = true → gives (.dstop side) fun h =>
        goes (h.setDrl (PlanImg.fa rd c.pc) (h.drl (PlanImg.fa rd c.pc)).stop) next)
    ∧ (h.atStep 12 = true → Yields (.smask side) s (fun d =>
        d.bare = ((s.dev.mod side fun h => goes h next).setSiteMask side (PlanImg.fa rd c.pc) (PlanImg.fc rd c.pc)).bare))
    ∧ (h.atStep 13 = true → gives (.src side) fun h =>
        { goes h next with face := { (goes h next).face with srcMap := PlanImg.fa rd c.pc } })
    ∧ (h.atStep 15 = true → h.shelf.load = none → gives (.endStep side) fun h =>
        let b := { h.face.burst with cycle := max h.face.burst.cycle (h.face.burst.tvs / 10000) }
        { h with
          face := { ({ h.face with burst := b } : FaceSt).stepped true with state := .draining, chuteQ := [], chuteOn := false }
          qry := { h.qry with state := .flushing } })

/-- FORK continues at TRUE_STEP when its sampled flag is 1 and at the next step when it is 0; an LEND without a match repeats its
body while runs are left and then falls through; either uses up what it read. SLOAD starts a load of reference A into the shadow
slot when that is not LOADING, its completion writes what its lines say and leaves the slot VALID, and SSWAP makes a VALID shadow
slot the active one and ends the burst with SHELF_LATE where it is not VALID; a failing entry raises LOAD_CHECK and leaves
memories and links as they are (R90, R93, R95, R97, R98, R113, R114). -/
def Obligations.Branches : Prop :=
  (
    ∀ (s : State) (side : Side), s.dev.powered = true → s.dev.calm →
      let h := s.dev.half side
      let rd := h.planRd
      let c := h.face.cur
      (∀ v : Bool, h.atStep 5 = true → tget 2 h.face.samples (PlanImg.fc rd c.pc % 1024) = b1 v →
        Yields (.fork side) s (fun d =>
          (d.half side).face.cur = { c with pc := if v then PlanImg.forkTrue rd (PlanImg.fc rd c.pc % 1024) else c.pc + 1 }
          ∧ tget 2 (d.half side).face.samples (PlanImg.fc rd c.pc % 1024) = 2
          ∧ (d.half side).face.burst.forksTrue = h.face.burst.forksTrue + b1 v
          ∧ (d.half side).face.burst.steps = h.face.burst.steps + 1 ∧ (d.half side).face.state = .running))
      ∧ (∀ l n outer, h.atStep 4 = true → PlanImg.sflags rd c.pc ≠ 1 → c.loops = (l, n) :: outer →
        Yields (.lend side) s (fun d =>
          (d.half side).face.cur = (if n = 0 then { c with pc := c.pc + 1, loops := outer }
            else { c with pc := l + 1, loops := (l, n - 1) :: outer })
          ∧ (d.half side).face.burst.steps = h.face.burst.steps + 1 ∧ (d.half side).face.state = .running)))
  ∧ (
    ∀ (s : State) (side : Side), s.dev.powered = true → s.dev.calm →
      let h := s.dev.half side
      let rd := h.planRd
      let c := h.face.cur
      (h.atStep 10 = true → h.shelf.load = none → h.shelf.slot h.shelf.shadow ≠ .loading → Yields (.sload side) s (fun d =>
          (d.half side).shelf.load = some { slot := h.shelf.shadow, ref := PlanImg.fa rd c.pc }
          ∧ (d.half side).shelf.slot h.shelf.shadow = .loading ∧ (d.half side).shelf.active = h.shelf.active
          ∧ (d.half side).face.cur = { c with pc := c.pc + 1 } ∧ (d.half side).shelf.ram = h.shelf.ram))
      ∧ (h.atStep 11 = true → h.shelf.load = none → h.shelf.slot h.shelf.shadow = .valid → Yields (.sswap side) s (fun d =>
          (d.half side).shelf = { h.shelf with active := h.shelf.shadow } ∧ (d.half side).face.cur = { c with pc := c.pc + 1 }))
      ∧ (h.atStep 11 = true → h.shelf.load = none → h.shelf.slot h.shelf.shadow ≠ .valid → s.dev.meek →
          s.dev.mild side blkShelf 1 → (s.dev.page side blkShelf).enable.getLsbD 1 = true → Yields (.sswap side) s (fun d =>
            (d.half side).face.state = .aborted ∧ (d.half side).face.cause = 4
            ∧ (d.page side blkShelf).src.getLsbD 1 = true))
      ∧ (∀ l, h.shelf.load = some l → h.face.bursting = true → h.face.arming = false →
          let n := loadCycles rd (stagedAt rd l.ref)
          h.loadPoison l l.cycle n = none → (h.loadSpan l l.cycle n false).2 = none → l.cycle ≤ n →
          Yields (.shelfLoadComplete side) s (fun d =>
            (d.half side).shelf.slot l.slot = .valid ∧ (d.half side).shelf.load = none
            ∧ (d.half side).shelf.ram = (h.loadSpan l l.cycle n false).1.shelf.ram
            ∧ (d.half side).shelf.period = (h.loadSpan l l.cycle n false).1.shelf.period
            ∧ (d.half side).shelf.active = h.shelf.active ∧ (d.half side).attic = h.attic))
      ∧ (∀ l reason channel tset wave slot, h.shelf.load = some l → h.face.bursting = true →
          (s.dev.page side blkShelf).enable.getLsbD 0 = true →
          Yields (.loadCheck side reason channel tset wave slot) s (fun d =>
            (d.page side blkShelf).src.getLsbD 0 = true ∧ d.deep = s.dev.deep)))

/-- Prefetch entries in a burst: a trigger puts its entry at the tail of the trigger queue, the chute takes the oldest one, and its
completion writes its file's bytes and the fill tags of its trigger into the Attic and marks it complete, unless an error came; a
deadline met by an entry that is not complete ends the burst (R122 to R124, R136, R280). -/
def Obligations.PrefetchRows : Prop :=
  ∀ (s : State) (side : Side) (e : Nat), s.dev.powered = true → s.dev.calm → (s.dev.half side).face.bursting = true →
    let h := s.dev.half side
    (e < PlanImg.entries h.planRd → tget 0 h.face.trigs e < h.trigWanted e →
      Yields (.prefetchTrigger side e) s (fun d => d.bare = (s.dev.mod side fun h => { h with face := { h.face with
        trigs := tset 0 h.face.trigs e (tget 0 h.face.trigs e + 1)
        undone := h.face.undone ++ [(e, tget 0 h.face.trigs e + 1)]
        chuteQ := h.face.chuteQ ++ [(e, tget 0 h.face.trigs e + 1)] } }).bare))
    ∧ (∀ n rest, h.face.chuteQ = (e, n) :: rest → h.face.chuteOn = false →
      Yields (.chuteEntryStart side) s (fun d => d.bare = (s.dev.mod side fun h => { h with
        face := { h.face with chuteOn := true, chuteAt := s.dev.clk.cycles }
        xts := { h.xts with checks := h.xts.checks ++ [(PlanImg.fileId h.planRd (PlanImg.entFile h.planRd e),
          PlanImg.entSrc h.planRd e / 64, PlanImg.entLen h.planRd e / 64)] } }).bare))
    ∧ (∀ n rest, h.face.chuteQ = (e, n) :: rest → h.face.chuteOn = true → h.face.arming = false → h.chuteLost side = none →
      Yields (.chuteEntryComplete side false) s (fun d =>
        let base := stageAddr h.planRd e 0
        (d.half side).face.chuteQ = rest ∧ (d.half side).face.chuteOn = false ∧ (e, n) ∉ (d.half side).face.undone
        ∧ (d.half side).files = h.files
        ∧ (∀ l < PlanImg.entLen h.planRd e / 64, tget 0 (d.half side).tags (base / 64 + l) = fillTag h.planRd e n)
        ∧ ∀ f, h.fileNow (PlanImg.fileId h.planRd (PlanImg.entFile h.planRd e)) = some f →
          (∀ k < PlanImg.entLen h.planRd e, tget 0 (d.half side).attic (base + k)
            = tget 0 f.data (PlanImg.entSrc h.planRd e + k))
          ∧ ∀ k, k < base ∨ base + PlanImg.entLen h.planRd e ≤ k → tget 0 (d.half side).attic k = tget 0 h.attic k)
      ∧ Yields (.chuteEntryComplete side true) s (fun d => d.bare = (s.dev.mod side fun h =>
        { h with face := { h.face with chuteQ := rest, chuteOn := false } }).bare))
    ∧ (h.face.undone.any (fun x => decide (x.1 = e)) = true → s.dev.meek →
      (s.dev.page side blkFace).enable.getLsbD 1 = true → s.dev.mild side blkFace 1 →
      Yields (.chuteLate side e) s (fun d => (d.half side).face.state = .aborted ∧ (d.half side).face.cause = 3
        ∧ (d.half side).face.burst.abortIssue = some h.face.burst.issues ∧ (d.page side blkFace).src.getLsbD 1 = true))

/-- VECTOR_ISSUE in a RUN or DRUN with no fork due, no relay and no fabric in force: the vector enters the pipelines with the next
issue index, its header the DRUN's or its half-vector's, its T_VS the end of the one before, and the period of its timing set
passes (R43, R45, R96, R100, R110). -/
def Obligations.VectorIssue : Prop :=
  ∀ (s : State) (side : Side) (e : Faults) (h1 : Half), s.dev.powered = true → s.dev.calm → s.dev.configured = false →
    let h := s.dev.half side
    let b := h.face.burst
    let rd := h.planRd
    let c := h.face.cur
    let v := if c.rep = 0 then h1.face.fetched.headD [] else h1.face.present
    let header : Word := BitVec.ofNat 32
      (if PlanImg.op rd c.pc = 2 then PlanImg.fb rd c.pc else rdLE (fun i => v.getD i 0) 0 4)
    let period := (tget 0 h.shelf.period (16 * h.shelf.active + fld header 3 0)).toNat
    h.face.state = .running → c.busy = true → h.dueFork = none → h.shelf.load = none →
    s.dev.relayed side = false → s.dev.relays side = false →
    Half.readAhead { h with face := { h.face with burst := { b with cycle := max b.cycle (b.tvs / 10000) } } } false (atticClass e)
      = .ok h1 none →
    Yields (.vectorIssue side e) s (fun d =>
      (d.half side).face.burst.issues = b.issues + 1 ∧ (d.half side).face.burst.tvs = b.tvs + period
      ∧ (d.half side).face.burst.endAt = b.tvs + period ∧ (d.half side).face.burst.vecStep = c.pc
      ∧ ∃ i ∈ (d.half side).face.issues, i.idx = b.issues ∧ i.tvs = b.tvs ∧ i.period = period ∧ i.header = header
        ∧ i.step = c.pc ∧ i.page = h.shelf.active)

/-- The first drive event, strobe and window event of a channel in a burst, when its correction is not clamped: each is placed at
its nominal instant plus the correction; the drive event sets the channel's level, the strobe gives a result with the state that
the comparators show, a WO opens a window, and a WC closes it. COMPARE_RESULT of the group that is next on the compare stream, the
fabric not in force: results that all pass make their sites active and leave SITE_PASS and SITE_FAILS; with records, bitmaps and
repair counters off, failing results clear SITE_PASS of their sites and count in SITE_FAILS (R47, R49, R51, R53 to R56, R164,
R165, R188, R190). -/
def Obligations.ChannelEvents : Prop :=
  (
    ∀ (s : State) (side : Side) (ch : Fin 256) (n : Nat) (slot : Fin 6) (i : Issue), s.dev.powered = true → s.dev.calm →
      let h := s.dev.half side
      let w := h.eventWord i ch slot
      let code := fld w 31 28
      let nominal : Int := i.tvs + fld w 27 0
      let at_ (type : Nat) : Int := nominal + (h.correction i ch type).1
      let strobed (c : Chan) (type : Nat) : Chan := { c with nomS := some nominal, plS := some (at_ type) }
      let drives := h.due i ch slot .drive
      let strobes := h.due i ch slot .strobe
      h.issue n = some i → h.face.bursting = true → s.dev.inhibited side = false →
      (1 ≤ code → code ≤ 4 → drives = true → s.dev.chanOn side ch = true → (h.chan ch).nomD = none → (h.chan ch).plD = none →
        (h.correction i ch (driveType code)).2 = false →
        Yields (.driveEvent side ch n slot) s (fun d => d.bare = (s.dev.mod side fun h => (h.take n ch slot).modChan ch fun c =>
          ({ c with nomD := some nominal, plD := some (at_ (driveType code)) } : Chan).drive code).bare))
      ∧ (strobes = true → (h.chan ch).nomS = none → (h.chan ch).plS = none →
        (5 ≤ code → code ≤ 8 → (h.correction i ch 4).2 = false → ∀ cmph cmpl : Bool,
          let hi := cmph != (s.dev.rg side.code .tchCfg ch).getLsbD 2
          let lo := cmpl != (s.dev.rg side.code .tchCfg ch).getLsbD 3
          sampledOf hi lo ≠ .invalid →
          Yields (.edgeStrobe side ch n slot cmph cmpl) s (fun d => d.bare = (s.dev.mod side fun h =>
            ((h.take n ch slot).addResult n { ch := ch, slot := slot, instant := at_ 4, sampled := sampledOf hi lo
                                              expect := strobeExpect code }).modChan ch fun c =>
              { strobed c 4 with cmph := hi, cmpl := lo, cmpAt := some s.dev.casc.ctime.toNat }).bare))
        ∧ ((h.correction i ch 5).2 = false →
          (10 ≤ code → code ≤ 12 → (h.chan ch).win = none → Yields (.windowOpen side ch n slot) s (fun d =>
            d.bare = (s.dev.mod side fun h => (h.take n ch slot).modChan ch fun c =>
              { strobed c 5 with win := some { expect := windowExpect code } }).bare))
          ∧ (∀ (win : Win) (seen : Option Sampled), code = 9 → (h.chan ch).win = some win → seen.getD win.expect ≠ .invalid →
            Yields (.windowClose side ch n slot seen false) s (fun d => d.bare = (s.dev.mod side fun h =>
              ((h.take n ch slot).addResult n { ch := ch, slot := slot, instant := at_ 5
                                                sampled := seen.getD win.expect, expect := some win.expect }).modChan ch
                fun c => { strobed c 5 with win := none }).bare)))))
  ∧ (
    ∀ (s : State) (side : Side) (g : Fin 8) (n : Nat) (i : Issue) (e : Faults), s.dev.powered = true → s.dev.calm →
      let h := s.dev.half side
      let l := s.dev.groupResults side i g
      let cfg := s.dev.rg side.code .qryCfg 0
      let site (x : Nat × Nat × Sampled × Outcome) : Nat := s.dev.rf side.code .tchCfg (32 * g + x.1) 21 16
      h.issue n = some i → h.face.sampling = true → h.streamNext i g = true → s.dev.configured = false →
      i.header.getLsbD 9 = false →
      ((∀ x ∈ l, x.2.2.2 ≠ .fail) → Yields (.compareResult side g n e) s (fun d =>
        (d.half side).qry.sitePass = h.qry.sitePass ∧ (d.half side).qry.siteFails = h.qry.siteFails
        ∧ (∀ x ∈ l, x.2.2.2 = .pass → (d.half side).qry.siteActive.getLsbD (site x) = true)
        ∧ ∀ j ∈ (d.half side).face.issues, j.idx = n → j.doneGroups.getLsbD g = true))
      ∧ (cfg.getLsbD 0 = false → cfg.getLsbD 1 = false → cfg.getLsbD 2 = false → cfg.getLsbD 5 = false → h.assisted 4 = false →
        Yields (.compareResult side g n e) s (fun d => ∀ k < 64,
          ((d.half side).qry.sitePass.getLsbD k
            = (h.qry.sitePass.getLsbD k && !(l.any fun x => decide (x.2.2.2 = .fail) && decide (site x = k))))
          ∧ ((d.half side).qry.siteActive.getLsbD k = (h.qry.siteActive.getLsbD k
            || l.any fun x => (decide (x.2.2.2 = .fail) || decide (x.2.2.2 = .pass)) && decide (site x = k)))
          ∧ let fails := (l.filter fun x => decide (x.2.2.2 = .fail) && decide (site x = k)).length
            tget 0 (d.half side).qry.siteFails k
              = if fails = 0 then tget 0 h.qry.siteFails k else min (tget 0 h.qry.siteFails k + fails) (2 ^ 32 - 1))))

/-- The Quarry engine: the flush of a DRAINING burst whose engine is empty leaves the half DONE with its record ready, the drills
and the loader stopped, and an abandoned flush leaves it DONE with what was left counted lost; the record queue drains its
head's 32 bytes to the end of the LOG file, every other byte as before, or loses a head that its memory cannot correct; a missed
line enters its set as the most recently used one, with the bit of the update that missed set (R130, R137, R155, R166, R172, R175,
R177, R183, R294). -/
def Obligations.FlushEnds : Prop :=
  (
    ∀ (s : State) (side : Side), s.dev.powered = true → s.dev.calm →
      let h := s.dev.half side
      let q := h.qry
      h.face.state = .draining → h.face.arming = false → h.drained = true → (∀ kv ∈ h.tch.chans, kv.2.win = none) →
      q.openRecs = [] → s.dev.meek → s.dev.mild side blkTch 3 → s.dev.mild side blkTch 5 →
      (q.queue = [] → q.updates = [] → q.misses = [] → Yields (.quarryFlushComplete side) s (fun d =>
        (d.half side).face.state = .done ∧ (d.half side).face.ready = true ∧ (d.half side).face.burst.unwritten = false
        ∧ (∃ r, (d.half side).face.records = h.face.records ++ [r] ∧ r.burst = h.face.fires ∧ r.got = false)
        ∧ (d.half side).qry.state = .idle ∧ (d.half side).drl0 = h.drl0.stop ∧ (d.half side).drl1 = h.drl1.stop
        ∧ (d.half side).shelf = h.shelf.stopLoad))
      ∧ ((s.dev.page side blkQry).enable.getLsbD 1 = true → s.dev.mild side blkQry 0 → s.dev.mild side blkQry 1 →
        q.cache = [] → (∀ k ∈ [3, 4, 5], q.fileOf k = none) →
        Yields (.flushTimeout side) s (fun d =>
          (d.half side).face.state = .done ∧ (d.half side).qry.queue = [] ∧ (d.half side).qry.updates = []
          ∧ (d.half side).qry.lost = q.lost + (q.queue.length + q.updates.length + q.misses.length)
          ∧ (d.page side blkQry).src.getLsbD 1 = true)))
  ∧ (
    ∀ (s : State) (side : Side) (r : Rec) (rest : List Rec), s.dev.powered = true → s.dev.calm →
      let h := s.dev.half side
      let q := h.qry
      h.face.bursting = true → q.queue = r :: rest →
      (∀ id f, q.fileOf 1 = some id → h.file id = some f → q.logLen + 32 ≤ f.length → q.logLen % 64 = 0 →
        Yields (.recordQueueDrain side .clean) s (fun d =>
          (d.half side).qry.queue = rest ∧ (d.half side).qry.logLen = q.logLen + 32 ∧ (d.half side).qry.lost = q.lost
          ∧ ∃ f', (d.half side).file id = some f' ∧ memRead f'.data q.logLen 32 = r.bytes
            ∧ ∀ k, k < q.logLen ∨ q.logLen + 32 ≤ k → tget 0 f'.data k = tget 0 f.data k))
      ∧ (q.overflow = true → Yields (.recordQueueDrain side .uncorr) s (fun d =>
          d.bare = (s.dev.mod side fun h => { h with qry := { h.qry with queue := rest, lost := h.qry.lost + 1 } }).bare)))
  ∧ (
    ∀ (s : State) (side : Side) (id line : Nat) (f : FileRec) (u : Upd), s.dev.powered = true → s.dev.calm →
      let h := s.dev.half side
      let bit := (s.dev.bmPlace side u).2
      let old := tget [] h.qry.cache (Dev.cacheSet side id line)
      h.qry.fileOf 2 = some id → h.file id = some f → h.qry.misses = [(line, u)] → h.qry.updates = [] →
      (s.dev.bmPlace side u).1 = line → u.drill = none → h.cel.poison (cellarLine side id line) = false →
      old.length < 16 → (∀ c ∈ old, c.line ≠ line) →
      Yields (.spoilCacheFill side line []) s (fun d =>
        (d.half side).qry.misses = [] ∧ (d.half side).files = h.files
        ∧ ∃ c, tget [] (d.half side).qry.cache (Dev.cacheSet side id line) = c :: old ∧ c.line = line ∧ c.held = 1
          ∧ ∀ k < 64, ∀ j < 8, (tget 0 c.bytes k).getLsbD j
            = ((tget 0 f.data (64 * line + k)).getLsbD j || decide (8 * k + j = bit))))

/-- Parity errors: in a pipeline one ends the burst with PIPE, in a running drill with DRILL and the drill stopped and marked, each
at a severity below 3; in the plan image it raises its source and leaves memories and links as they are (R77, R78, R139, R155,
R160). -/
def Obligations.ParityRows : Prop :=
  ∀ (s : State) (side : Side), s.dev.powered = true → s.dev.calm → s.dev.meek →
    let h := s.dev.half side
    (h.face.bursting = true → (s.dev.page side blkTch).enable.getLsbD 0 = true → s.dev.mild side blkTch 0 →
      Yields (.pipeFault side) s (fun d => (d.half side).face = ((s.dev.half side).abort 7).face ∧ (d.half side).tch.cause = 6
        ∧ (d.half side).qry.state = .flushing ∧ d.bare.half side.other = s.dev.bare.half side.other
        ∧ (d.page side blkTch).src.getLsbD 0 = true))
    ∧ (∀ n : Fin 2, h.face.bursting = true → (h.drl n).st = 2 → (s.dev.page side blkDrl).enable.getLsbD 0 = true →
      s.dev.mild side blkDrl 0 →
      Yields (.drillParity side n) s (fun d => (d.half side).face.state = .aborted ∧ (d.half side).face.cause = 8
        ∧ ((d.half side).drl n).st = 1 ∧ ((d.half side).drl n).fault = true ∧ (d.page side blkDrl).src.getLsbD 0 = true))
    ∧ (h.face.plan.isSome = true → (s.dev.page side blkFace).enable.getLsbD 4 = true →
      Yields (.planParity side) s (fun d => (d.page side blkFace).src.getLsbD 4 = true ∧ d.deep = s.dev.deep))

/-- A hook that can work presents the oldest waiting issue in the first or second slot of the FC cycle; a valid return pairs with
the oldest presented one, and a symbol return without KEEP replaces the symbols of its group and no others; a deadline that passes
marks the slot late, counts it and raises HOOK_LATE (R119, R229 to R232). -/
def Obligations.HookRows : Prop :=
  ∀ (s : State) (side : Side) (k : Fin 18) (n : Nat), s.dev.powered = true → s.dev.calm → s.dev.hookLive side k = true →
    let x := (s.dev.half side).hook k
    let compare : Prop := 8 ≤ k.val ∧ k.val < 16
    (∀ rest i, x.queue = n :: rest → (s.dev.half side).issue n = some i → s.dev.hookOn side k = true →
      (compare → Dev.offerCompare { s.dev with out := [] } side (k.val - 8) = { s.dev with out := [] }) →
      let bits := s.dev.hookSlot side k i
      let second := decide (x.bus.length = 1)
      Yields (.hookSlotPresent side k) s (fun d =>
        d.bare = (s.dev.mod side fun h => h.setHook k { x with
          queue := rest, out := x.out ++ [(n, false)], bus := if second then x.bus ++ [bits] else [bits] }).bare
        ∧ Out.hook side k n (b1 second) bits ∈ d.out))
    ∧ (∀ (r : HookRet) (rest : List (Nat × Bool)), r.valid = true → x.out = (n, false) :: rest → s.dev.hookOn side k = true →
      (k.val < 16 → r.keep = true → Yields (.hookReturn side k r) s (fun d =>
        (d.half side).hook k = { x with out := rest, flag := if 8 ≤ k.val then r.flag else x.flag }
        ∧ (d.half side).face = (s.dev.half side).face))
      ∧ (∀ i, k.val < 8 → r.keep = false → (s.dev.half side).issue n = some i → Yields (.hookReturn side k r) s (fun d =>
        (d.half side).hook k = { x with out := rest } ∧ ∃ j, (d.half side).issue n = some j ∧ j.results = i.results
          ∧ ∀ ch < 256, j.symbol ch = if ch / 32 = k.val then r.vals.getD (ch % 32) 0 % 16 else i.symbol ch)))
    ∧ (∀ rest : List (Nat × Bool), x.out = (n, false) :: rest → s.dev.hookOn side k = true →
      (s.dev.page side blkFab).enable.getLsbD 0 = true → s.dev.mild side blkFab 0 → Yields (.hookLate side k) s (fun d =>
        (d.half side).hook k = { x with out := (n, true) :: rest }
        ∧ d.rf side.code .fabHookLate k 15 0 = min (s.dev.rf side.code .fabHookLate k 15 0 + 1) 65535
        ∧ (d.page side blkFab).src.getLsbD 0 = true))

/-- From plan to burst: a PLAN_LOAD whose audit passes leaves the plan in the staging partition byte for byte from offset 0, every
fill tag 0, the half LOADED; ARM work that passes ends ARMED, a chute error ends it in LOADED with the plan kept; FIRE_IN away
from a cascade master fires both ARMED halves whose plans permit it, with valid calibration and two record slots free: each is
RUNNING with its burst counted, the source FIRE_IN, the fire time of the always-on counter, and SITE_PASS all ones (R105, R130
to R132, R134, R165, R281, R522). -/
def Obligations.PlanLoaded : Prop :=
  (
    ∀ (s : State) (side : Side) (id : Nat) (r : Reply) (rest : List (Nat × Reply)) (f : FileRec) (longest minPeriod : Nat),
      s.dev.powered = true → s.dev.calm →
      let h := s.dev.half side
      h.face.loading = (id, r) :: rest → h.locked = false → h.fileNow id = some f →
      (Dev.mod { s.dev with out := [] } side fun h => { h with face := { h.face with loading := rest } }).audit side f
        = .passed longest minPeriod →
      Yields (.planAuditDone side) s (fun d =>
        (d.half side).face.state = .loaded ∧ (d.half side).face.loading = rest ∧ (d.half side).tags = []
        ∧ (∃ p, (d.half side).face.plan = some p ∧ p.fileId = f.id ∧ p.longest = longest ∧ p.minPeriod = minPeriod)
        ∧ (∀ k < PlanImg.length f.rd, tget 0 (d.half side).attic k = tget 0 f.data k)
        ∧ (∀ k, PlanImg.length f.rd ≤ k → tget 0 (d.half side).attic k = tget 0 h.attic k)))
  ∧ (
    ∀ (s : State) (side : Side), s.dev.powered = true → s.dev.calm →
      let h := s.dev.half side
      h.face.arming = true →
      let d2 := (Dev.mod { s.dev with out := [] } side fun h => h.loadDrills.stageArm).armShelf side
      (∀ (d3 : Dev) (h3 : Half) (c : Option Nat), h.drillFault = none → h.face.flushing = false → h.xts.checks = [] →
        (d2.half side).shelf.armLoads = 2 → d2.deliverKeys side = .ok d3 → (d3.half side).readFirst 64 = .ok h3 c →
        s.dev.mild side blkQry 0 → s.dev.mild side blkQry 2 →
        Yields (.armWorkComplete side) s (fun d =>
          (d.half side).face.state = .armed ∧ (d.half side).face.arming = false ∧ (d.half side).face.plan = h.face.plan))
      ∧ (∀ why : ArmFail, (∀ file sector line, why ≠ .integrity file sector line .pass) →
          (why = .drill → h.drillFault.isSome = true) → Yields (.armWorkFail side why) s (fun d =>
            (d.half side).face.state = .loaded ∧ (d.half side).face.arming = false ∧ (d.half side).face.plan = h.face.plan))
      ∧ Yields (.armWorkFail side .chute) s (fun d => d.deep = s.dev.deep))
  ∧ (
    ∀ s : State, s.dev.powered = true → s.dev.calm → s.dev.isMaster = false → s.dev.hst.cals = [] → 2 ≤ s.dev.slotsFree →
      (∀ side, (s.dev.half side).face.state = .armed ∧ (s.dev.half side).permits 1 = true ∧ s.dev.calValid side = true
        ∧ (s.dev.half side).face.burst.unwritten = false ∧ s.dev.mild side blkFab 0) →
      Yields .fireIn s (fun d => ∀ side,
        (d.half side).face.state = .running ∧ (d.half side).face.fires = (s.dev.half side).face.fires + 1
        ∧ (d.half side).face.lastFire = 1 ∧ (d.half side).face.burst.fireTime = s.dev.aon.count
        ∧ (d.half side).face.burst.unwritten = true ∧ (d.half side).qry.sitePass = BitVec.allOnes 64
        ∧ (d.half side).face.plan = (s.dev.half side).face.plan))

/-! ## Calibration (chapter 7) -/

/-- Calibration: in a half that runs no burst a temperature sample is taken for all eight groups, a comparator reading is held until
the sixteenth, a sweep that is due starts with its witnesses and ends when every channel is measured, TW's with the FIRE_IN
offset in both halves unless witness 0 failed, a channel ages, and a host-assisted measurement keeps its readings and leaves
the corrections; a CAL step of a running half, its witnesses passing, at severities below 3 takes 8 000 SC cycles and
its next slot starts one channel further (R37, R111, R189, R195, R197, R198, R200, R201, R202, R204). -/
def Obligations.CalibrationRows : Prop :=
  (
    ∀ (s : State) (side : Side), s.dev.powered = true → s.dev.calm → (s.dev.half side).face.bursting = false →
      let h := s.dev.half side
      let onlyCal (c : Instr) (x : CalSt) : Prop := Yields c s (fun d => d.bare = (s.dev.mod side fun h => { h with cal := x }).bare)
      (∀ temps : List Int, temps.length = 8 →
        onlyCal (.tempSample side temps) { h.cal with temps := temps, epoch := { h.cal.epoch with temps := temps } })
      ∧ (∀ reading, side = .e → h.cal.phs.length < 15 → onlyCal (.phaseCompare reading) { h.cal with phs := h.cal.phs ++ [reading] })
      ∧ (h.face.arming = false → h.cal.sweeping = false → h.reset = 0 → s.dev.sweepDue side = true →
        Yields (.sweepStart side [true, true, true, true]) s (fun d => d.bare = ((s.dev.abandon side).mod side fun h => { h with
          cal := { h.cal with sweeping := true, swept := 0, witness := List.replicate 4 (some true) } }).bare))
      ∧ (∀ ch : Fin 256, onlyCal (.calMeasurementAged side ch) { h.cal with aged := bitSet h.cal.aged ch })
      ∧ (∀ fireOffset, h.cal.sweeping = true → h.cal.sweepDone = true → Yields (.sweepEnd side fireOffset) s (fun d =>
          (d.half side).cal.sweeping = false ∧ (d.half side).cal.blocks = h.cal.blocks
          ∧ (side = .w → h.cal.passed 0 = true → h.face.active = false → s.dev.east.face.active = false → ∀ half : Side,
            d.rg half.code .faceFireOffset 0 = BitVec.ofNat 32 (unsgn 2 fireOffset))
          ∧ (side = .e ∨ h.cal.passed 0 = false → ∀ half : Side,
            d.rg half.code .faceFireOffset 0 = s.dev.rg half.code .faceFireOffset 0)))
      ∧ (∀ (ch : Fin 256) (readings : List Int), h.cal.awaits ch = true → h.assisted 1 = true →
        Yields (.sweepChannelCommit side ch readings .clean) s (fun d =>
          let b := tget {} h.cal.blocks ch
          (d.half side).cal.swept = bitSet h.cal.swept ch
          ∧ (tget {} (d.half side).cal.blocks ch).entries
              = b.entries.zipIdx.map (fun e => { e.1 with wlast := readings.getD e.2 0 })
          ∧ (tget {} (d.half side).cal.blocks ch).tref = b.tref
          ∧ ∀ c ≠ ch.val, tget {} (d.half side).cal.blocks c = tget {} h.cal.blocks c)))
  ∧ (
    ∀ (s : State) (side : Side) (readings : List (List Int)), s.dev.powered = true → s.dev.calm →
      (s.dev.half side).atStep 6 = true →
      (∀ i < 8, (s.dev.page side blkCal).sev blkCal i ≠ 3) → (s.dev.page side blkTsk).sev blkTsk 5 ≠ 3 →
      Yields (.cal side [true, true, true, true] readings) s (fun d =>
        let h := s.dev.half side
        let h' := d.half side
        h'.cal.pointer = (h.cal.pointer + 1) % 32
        ∧ h'.face.burst.tvs = h.face.burst.tvs + 80000000 ∧ h'.face.burst.calSlots = h.face.burst.calSlots + 1
        ∧ h'.face.burst.steps = h.face.burst.steps + 1 ∧ h'.face.cur = { h.face.cur with pc := h.face.cur.pc + 1 }
        ∧ h'.face.state = .running ∧ h'.cal.witness = List.replicate 4 (some true)))

/-! ## Configuration and fabric (chapters 8, 9, 11) -/

/-- The commands of a load: CONFIG_BEGIN that nothing refuses starts CHECKING, or a store, at RECEIVED 0; CONFIG_DATA at RECEIVED
appends, and is answered when the loader has taken what it can; CONFIG_END waits for the load's end, and answers with its outcome
when it has ended (R253, R255, R258, R359). -/
def Obligations.ConfigCommands : Prop :=
  ∀ (s : State) (h : Hdr),
    let d := s.dev.accepted h
    let r (op : Nat) := s.dev.replyTo op h
    (∀ target length, Admits s h 0x20 true true (decide (target = 0)) → d.diverges .cfg = false →
      d.configRefusal target length = none →
      Answers (.configBegin h target length) s h 0x20 stOk [] { d with cfg := { d.cfg with
        load := some { source := 3, store := if target = 0 then none else some (target - 1), session := h.session,
                       length := length, prev := d.cfg.state }
        ended := none, state := if target = 0 then 1 else d.cfg.state } })
    ∧ (∀ l, d.cfg.load = some l → l.source = 3 → l.session = h.session → l.finished = false →
      (∀ data : List Byte, Admits s h 0x21 true true s.dev.loading → 0 < data.length → data.length % 4 = 0 →
        l.received + data.length ≤ l.length →
        let upTo := l.received + data.length
        let l' := { l with image := l.image ++ data.map BitVec.toNat }
        let waits := l.replies ++ [(upTo, r 0x21)]
        Yields (.configData h l.received data) s (fun e =>
          e.bare = ({ d with cfg := { d.cfg with load := some { l' with
            replies := if l'.hungry (s.dev.imageKey l).bodyKey = true then waits.filter fun x => decide (x.2.op ≠ 0x21) else waits } } }
            : Dev).bare
          ∧ (l'.hungry (s.dev.imageKey l).bodyKey = true → l.replies = [] → e.tells (r 0x21) stOk (beBytes 8 upTo))))
      ∧ (Admits s h 0x22 true true s.dev.loading → l.length ≤ l.received → (l.passed = true ∨ 20 ≤ l.length) →
        Yields (.configEnd h) s (fun e => e.bare = ({ d with cfg := { d.cfg with
            load := some { l with replies := l.replies ++ [(l.length + 1, r 0x22)], finished := true } } } : Dev).bare)))
    ∧ (∀ reason at_, Admits s h 0x22 true true s.dev.loading → d.cfg.load = none →
      d.cfg.ended = some (h.session, reasonStatus reason, reason, at_) →
      Answers (.configEnd h) s h 0x22 (reasonStatus reason) (beBytes 1 reason ++ beBytes 3 0 ++ beBytes 4 at_)
        { d with cfg := { d.cfg with ended := none } })

/-- The command stream of a load in its order: IDCHECK opens a service image and clears the array, GCLR starts the global clear,
WCFG and FAR are held, FDATA fills its frame and no other column or row, START asks for the release; each takes its bytes; a word
that is no command of the stream ends the load as COMMAND (R246 to R252, R256). -/
def Obligations.Stream : Prop :=
  ∀ (s : State) (l : Load), s.dev.powered = true → s.dev.calm → s.dev.cfg.load = some l → l.store = none →
    let key := (s.dev.imageKey l).bodyKey
    let d := s.dev
    let takes (c : Instr) (n : Nat) (e : Dev) (l' : Load) : Prop := Yields c s fun d => ∃ r : List (Nat × Reply),
      d.bare = ({ e with cfg := { e.cfg with load := some { l' with taken := l.taken + n, replies := r } } } : Dev).bare
      ∧ (l.replies = [] → r = [])
    (l.passed = false → l.source = 3 → s.fuse.life.open = true → 20 ≤ l.received → leAt l.image 0 4 = serviceWord →
      leAt l.image 4 4 = (d.rg 0 .identPart).toNat → leAt l.image 8 4 % 256 = s.fuse.stepping →
      leAt l.image 12 4 % 2 ^ 24 = fld (BitVec.ofNat 32 s.fuse.dieset) 23 0 → leAt l.image 16 4 = 0 → d.stwDown = false →
      let e := Dev.resetRg d.clearArray 0 .cfgFrames
      e.array = {} ∧ e.cfg.hash = 0 ∧ e.cfg.wcfg = []
      ∧ takes .idcheck 20 { e with cfg := { e.cfg with state := 2, staged := [] } }
        { l with service := true, pos := .checked, passed := true })
    ∧ (l.passed = true → ∀ (c : StreamCmd) (n : Nat), l.next key = some (c, n) →
      (c = .gclr → l.pos = (if l.service = true then .checked else .first) → takes .gclr n d { l with pos := .clearing })
      ∧ (l.pos = .cells →
        (∀ index value, c = .wcfg index value → wcfgOk index value = true → (∀ kv ∈ l.wcfg, kv.1 ≠ index) →
          takes .wcfg n d { l with far := none, wcfg := tset (2 ^ 32) l.wcfg index value })
        ∧ (∀ a, c = .far a → farOk a = true → l.seen.contains a = false →
          takes .far n d { l with far := some a, seen := a :: l.seen })
        ∧ (c = .start → l.stoppedClock = false → takes .start n d { l with pos := .started })
        ∧ (∀ frame a data corrected, c = .fdata frame → l.far = some a → frame.length = 35 * frameWords a + 4 →
          decodeFrame a frame = (data, corrected, false) → Yields .fdata s (fun e =>
            (∃ r, e.cfg.load = some { l with far := none, frames := l.frames + 1, taken := l.taken + n, replies := r })
            ∧ (e.rg 0 .cfgFrames).toNat = (l.frames + 1) % 2 ^ 32 ∧ e.cfg.state = d.cfg.state
            ∧ e.west.files = d.west.files ∧ e.east.files = d.east.files
            ∧ if a.testBit 29 then
                let first := bmemKey (a / 2 ^ 30) ((a / 2 ^ 21 % 256 - 1) * 256 + 4 * (a / 2 ^ 15 % 64)) 0
                e.array.cells = d.array.cells ∧ e.array.logic = d.array.logic
                ∧ (∀ i < 2048, tget 0 e.array.bmem (first + i) = bmemRow (BitVec.ofNat 64 (leAt data (8 * i) 8)))
                ∧ ∀ k, k < first ∨ first + 2048 ≤ k → tget 0 e.array.bmem k = tget 0 d.array.bmem k
              else
                let column := 240 * (a / 2 ^ 30) + a / 2 ^ 21 % 256
                e.array.bmem = d.array.bmem ∧ tget [] e.array.cells column = data
                ∧ tget [] e.array.logic column = (List.range 128).map (Config.cellOf data)
                ∧ ∀ k ≠ column, tget [] e.array.cells k = tget [] d.array.cells k)))
      ∧ (c = .bad → l.pos ≠ .clearing → l.pos ≠ .ended → d.mild .w blkCfg 0 →
        ∀ row ∈ [Instr.gclr, .wcfg, .far, .fdata, .start, .streamEnd], Yields row s (fun e =>
          e.cfg.load = none ∧ e.cfg.state = 4 ∧ e.array = {} ∧ e.rf 0 .cfgResult 0 31 24 = rCommand
          ∧ (e.rg 0 .cfgResultAt 0).toNat = l.taken % 2 ^ 32)))

/-- How loads and stores end: the clear and the seam check, the header's checks with the signature, END at the declared place, a release that makes the
device CONFIGURED with the image's hash, the idle timeout, the end of a clear, a store by its hash, and auto-load's first slot
(R248, R253 to R259). -/
def Obligations.LoadEnds : Prop :=
  ∀ s : State, s.dev.powered = true → s.dev.calm →
    let releases (c : Instr) (l : Load) (hash : BitVec 384) : Prop := Yields c s (fun d =>
      d.configured = true ∧ d.cfg.load = none ∧ d.cfg.source = l.source ∧ d.cfg.keyId = l.hdr.keyId ∧ d.cfg.hash = hash
      ∧ d.array.cells = s.dev.array.cells ∧ d.array.logic = s.dev.array.logic ∧ d.array.bmem = s.dev.array.bmem
      ∧ d.array.regs = [])
    (∀ l, s.dev.cfg.load = some l →
      (l.pos = .clearing → Yields (.gclrComplete [true, true, true]) s (fun d => ∃ r, d.bare = ({ s.dev with cfg := { s.dev.cfg with
        load := some { l with pos := .cells, replies := r } } } : Dev).bare))
      ∧ (l.passed = false → l.store = none → leAt l.image 0 4 = 1 → 284 ≤ l.length → 256 ≤ l.received → s.dev.stwDown = false →
        s.dev.mild .w blkCfg 0 →
        let found := s.dev.headerReason s.fuse.life s.ident (if l.source = 3 then some l.length else none) (l.image.take 256)
        found = none ∨ l.source = 3 ∧ found = some rSignature →
        let e := Dev.resetRg s.dev.clearArray 0 .cfgFrames
        Yields .configCheckComplete s (fun d => if found = none then ∃ r, d.bare = ({ e with cfg := { e.cfg with
            state := 2, staged := []
            load := some { l with passed := true, hdr := parseHeader (l.image.take 256), taken := l.taken + 256, replies := r } } }
            : Dev).bare
          else d.cfg.load = none ∧ d.cfg.state = l.prev ∧ d.array = s.dev.array ∧ d.rf 0 .cfgResult 0 31 24 = rSignature))
      ∧ (∀ n, l.passed = true → l.pos = .started → l.store = none →
        l.next (s.dev.imageKey l).bodyKey = some (.ending, n) → l.taken + 4 = l.streamEnd →
        (l.service = false → Yields .streamEnd s (fun d => ∃ r, d.bare = ({ s.dev with cfg := { s.dev.cfg with
          state := 3
          load := some { l with pos := .ended, taken := l.taken + n, replies := r } } } : Dev).bare))
        ∧ (l.service = true → s.dev.mild .w blkClk 4 → s.dev.mild .w blkFab 4 → s.dev.mild .e blkFab 4 →
          releases .streamEnd l 0))
      ∧ (l.pos = .ended → l.length ≤ l.received → bodyHashOf l.image = l.hdr.bodyHash → trailerOk l.hdr l.image = true →
        l.frames = l.hdr.frames → s.dev.mild .w blkClk 4 → s.dev.mild .w blkFab 4 → s.dev.mild .e blkFab 4 →
        releases .configVerifyComplete l (if l.service = true then 0 else l.hdr.bodyHash))
      ∧ (l.source = 3 → l.store = none → l.received < l.length → s.dev.mild .w blkCfg 0 → Yields .configIdleTimeout s (fun d =>
          d.cfg.load = none ∧ d.cfg.ended = none
          ∧ (if l.passed = true then d.cfg.state = 4 ∧ d.array = {} else d.cfg.state = l.prev ∧ d.array = s.dev.array)))
      ∧ (∀ n, l.store = some n → n < 2 → l.passed = true → l.length ≤ l.received → l.finished = true →
        let put := tblit 0xFF s.dev.dbg.flash (slotBase n) (l.image.map (BitVec.ofNat 8))
        let e : Dev := { s.dev with dbg := { s.dev.dbg with flash := put } }
        let agree := bodyHashOf (e.slotBytes n l.length) = (parseHeader (e.slotBytes n 256)).bodyHash
        s.dev.mild .w blkCfg 0 →
        Yields (.configStoreComplete []) s (fun d => d.cfg.load = none ∧ d.cfg.state = s.dev.cfg.state ∧ d.array = s.dev.array
          ∧ if agree then d.cfg.slot n = { valid := true, reason := 0 } ∧ d.dbg.flash = put
            else d.cfg.slot n = { valid := false, reason := rHash })))
    ∧ (s.dev.cfg.state = 4 → s.dev.rf 0 .cfgResult 0 15 12 ≠ 1 → s.dev.rf 0 .cfgResult 0 15 12 ≠ 2 →
      Yields .configClearComplete s (fun d => d.bare = ({ s.dev with cfg := { s.dev.cfg with state := 0 } } : Dev).bare))
    ∧ (let a := s.dev.rf 0 .cfgBoot 0 1 1
      s.dev.cfg.state = 0 → s.dev.cfg.load = none → s.dev.west.tsk.started = true → s.dev.rf 0 .cfgBoot 0 0 0 = 1 →
      (s.dev.cfg.slot a).valid = true → Yields .autoloadStart s (fun d => d.cfg.state = 1 ∧ d.cfg.auto = [1 - a]
        ∧ ∃ l, d.cfg.load = some l ∧ l.source = a + 1 ∧ l.store = none ∧ l.passed = false ∧ l.taken = 0
          ∧ l.image = s.dev.slotBytes a l.length))

/-- The scrubber, its commanded frame, the NoC port enables and the block memories: a pass whose canary reports the corrupted
symbol is counted, one whose canary fails quarantines the scrubber, a commanded frame makes it busy until its outcome comes, and a
port access returns the word as it was and writes the bits of its width alone (R223 to R226, R237, R300 to R302). -/
def Obligations.FabricRows : Prop :=
  ∀ (s : State) (side : Side), s.dev.powered = true → s.dev.calm →
    let h := s.dev.half side
    (∀ canary frames, s.dev.scrubState side = 1 →
      (canary = [(h.fab.passes % 2176, h.fab.passes % 35)] → s.dev.mild side blkFab 6 →
        (∀ u ∈ frames, ∀ x ∈ u.hits, x.2 = []) ∨ s.dev.mild side blkFab 8 →
        Yields (.scrubPass side canary frames) s (fun d => (d.half side).fab.passes = h.fab.passes + 1
          ∧ (d.half side).fab.quarantined = false ∧ d.array.bmem = s.dev.array.bmem
          ∧ ((∀ u ∈ frames, ∀ x ∈ u.hits, x.2 = []) → d.bare = (((s.dev.setRf side.code .fabScrubStatus 0 2 2 1).mod side fun h =>
              { h with fab := { h.fab with passes := h.fab.passes + 1 } }).bump side.code .fabScrubStatus 0 31 16).bare)))
      ∧ (canary ≠ [(h.fab.passes % 2176, h.fab.passes % 35)] → s.dev.mild side blkFab 7 →
        Yields (.scrubPass side canary frames) s (fun d => (d.half side).fab.quarantined = true
          ∧ (d.half side).fab.passes = h.fab.passes ∧ d.array = s.dev.array ∧ (d.half side).assisted 5 = true)))
    ∧ (∀ u : FrameUpset, h.fab.scrubBusy = true → h.reset = 0 → s.dev.mild side blkFab 6 →
      (∀ x ∈ u.hits, x.2 = []) ∨ s.dev.mild side blkFab 8 →
      Yields (.scrubCmdComplete side u) s (fun d => (d.half side).fab.scrubBusy = false
        ∧ d.rf side.code .fabScrubResult 0 1 0 = (s.dev.scrubFrame side { u with addr := h.fab.cmdFrame }).1
        ∧ ((∀ x ∈ u.hits, x.2 = []) → d.bare = ((s.dev.mod side fun h => { h with fab := { h.fab with
            scrubBusy := false } }).setRf side.code .fabScrubResult 0 1 0 0).bare)))
    ∧ (∀ w (v : Word), s.dev.openTo w → h.fab.scrubBusy = false → s.dev.configured = true → ownFrame side v.toNat = true →
      h.assisted 5 = true → Writes (.fabScrubCmd w side v) s (s.dev.mod side fun h => { h with fab := { h.fab with
        scrubBusy := true, cmdFrame := v.toNat } }))
    ∧ (∀ w (die : Fin 4) v, s.dev.openTo w → s.dev.configured = true →
      Writes (.fabNocPortEn w die v) s (s.dev.setRg (2 + die) .fabNocPortEn 0 v))
    ∧ (∀ (die : Fin 4) mem (portB : Bool) (x : PortAcc), x.hit = [] → (s.dev.bmemClock die mem portB).isSome = true →
      let width := s.dev.portWidth die mem portB
      let word := x.addr % (32768 / width)
      let key := bmemKey die mem (word * width / 64)
      let row := tget 0 s.dev.array.bmem key
      let old := ofLe (bmemDecode row).data
      let at_ := word * width % 64
      (bmemDecode row).report = .clean →
      Yields (.bmemAccess die mem (if portB then none else some x) (if portB then some x else none)) s (fun d =>
        Out.bmem die mem portB (BitVec.ofNat 66 (old / 2 ^ at_ % 2 ^ width)) ∈ d.out
        ∧ (x.we = false → tget 0 d.array.bmem key = row)
        ∧ (x.we = true → ∃ v : BitVec 64, tget 0 d.array.bmem key = bmemRow v ∧ ∀ i < 64, v.getLsbD i =
            if at_ ≤ i ∧ i < at_ + width then x.din.getLsbD (i - at_) else old.testBit i)
        ∧ (∀ k ≠ key, tget 0 d.array.bmem k = tget 0 s.dev.array.bmem k)
        ∧ d.bare = ({ s.dev with array := { s.dev.array with bmem := d.array.bmem, bports := d.array.bports } } : Dev).bare))

/-! ## Cellar, Attic, stored-data protection (chapters 10 to 12) -/

/-- Training of a Cellar: START, the sweeps' end, the host's delays and COMMIT, channels that pass the verify test READY when all
channels trained at one rate, and the others OFFLINE. Its upkeep: a refresh closes its bank of every bank group, two while a
sensor of the channel is hot; ZQ calibration; a parity retry raises CA_PARITY and the fourth, like a DIMM that does not answer,
takes its channel OFFLINE; the host's scrub window; and the patrols, each reading its next line (R264, R268, R273 to R277, R279,
R294, R299). -/
def Obligations.CellarTraining : Prop :=
  (
    ∀ (s : State) (side : Side), s.dev.powered = true → s.dev.calm →
      let h := s.dev.half side
      let c := h.cel
      let cel (c : CelSt) : Dev := s.dev.mod side fun h => { h with cel := c }
      (∀ w (v : Word), s.dev.openTo w → v.getLsbD 0 = true → v.getLsbD 1 = false → (c.state = 0 ∨ c.state = 3) → h.quiet = true →
        Writes (.celTrainStart w side v) s (cel { c with
          chans := [1, 1, 1, 1], host := h.assisted 0, verifying := false, rate := 0, rows := []
          selfRef := c.selfRef || decide (c.state = 3) }))
      ∧ (c.verifying = false →
        (c.state = 2 → ∀ w (v : Word), s.dev.openTo w →
          (v.getLsbD 0 = false → v.getLsbD 1 = true →
            Writes (.celTrainCommit w side v) s (cel { c with delays := c.staged, verifying := true }))
          ∧ Writes (.celDlyDataWrite w side v) s (cel { c with
              staged := tset 0 c.staged (dlyKey (s.dev.rg side.code .celDlySel).toNat) (v.toNat % 4096) }))
        ∧ (c.state = 1 → ∀ edges : List (Nat × Nat × Nat), Yields (.celSweepComplete side true edges) s (fun d =>
            d.bare = (cel (if c.host then { c with
                chans := [2, 2, 2, 2], staged := c.delays, selfRef := false, edges := (d.half side).cel.edges }
              else { c with verifying := true, selfRef := false, delays := (d.half side).cel.delays })).bare
            ∧ ∀ sel l r before, edges = before ++ [(sel, l, r)] →
              if c.host then (tget 0 (d.half side).cel.edges (dlyKey sel)).toNat = l % 4096 + 65536 * (r % 4096)
              else tget 0 (d.half side).cel.delays (dlyKey sel) = (l + r) / 2))
        ∧ (c.state = 1 ∨ c.state = 2 → s.dev.mild side blkCel 0 → ∀ edges, Yields (.celSweepComplete side false edges) s (fun d =>
            d.bare = (cel { c with chans := [0, 0, 0, 0] }).bare)))
      ∧ (∀ ok (rates : List (Fin 4)) (mib : List Nat) dev32 x4 ranks2, c.verifying = true → s.dev.mild side blkCel 0 →
        let alike : Prop := ∃ r : Fin 4, r ≠ 0 ∧ ∀ n < 4, rates[n]? = some r
        Yields (.celVerifyComplete side ok rates mib dev32 x4 ranks2) s (fun d =>
          let c' := (d.half side).cel
          d.bare = (cel { c with chans := c'.chans, verifying := false, rate := c'.rate, chGib := c'.chGib
                                 dev32 := dev32, x4 := x4, ranks2 := ranks2 }).bare
          ∧ c'.chGib ≤ 16 ∧ (∀ n < 4, c'.chGib ≤ mib.getD n 0 / 1024) ∧ (c'.chGib = 16 ∨ ∃ n < 4, c'.chGib = mib.getD n 0 / 1024)
          ∧ (∀ n < 4, alike → c'.chans.getD n 0 = if ok.getD n false = true then 3 else 0)
          ∧ (alike → rates.head?.map Fin.val = some c'.rate) ∧ (¬ alike → c'.chans = [0, 0, 0, 0] ∧ c'.rate = 0))))
  ∧ (
    ∀ (s : State) (side : Side) (ch : Fin 4), s.dev.powered = true → s.dev.calm →
      let h := s.dev.half side
      let c := h.cel
      let withCel (c : CelSt) : Dev := s.dev.mod side fun h => { h with cel := c }
      let only (i : Instr) (c : CelSt) : Prop := Yields i s (fun d => d.bare = (withCel c).bare)
      let reads (i : Instr) (line : Nat) (e : Dev) : Prop := Yields i s (fun d =>
        d.bare = (e.mod side fun h => h.celTouch line 1).bare)
      let offline (i : Instr) : Prop :=
        Yields i s (fun d => (d.page side blkCel).active.getLsbD 1 = true ∧ (d.half side).cel.chans = c.chans.set ch 0)
        ∧ (h.chuteReads side ch = false → h.att.held = [] → h.qry.misses = [] → (s.dev.half side.other).att.fills = [] →
          s.dev.mild side blkCel 1 → only i { c with chans := c.chans.set ch 0 })
      (c.selfRef = false →
        Yields (.refresh side ch) s (fun d =>
          let c' := (d.half side).cel
          let n := tget 0 c.refreshes ch
          d.bare = (withCel { c with refreshes := c'.refreshes, rows := c'.rows }).bare
          ∧ tget 0 c'.refreshes ch = n + (if c.hot.getLsbD (2 * ch) || c.hot.getLsbD (2 * ch + 1) then 2 else 1)
          ∧ (∀ r ∈ c'.rows, r ∈ c.rows ∧ ¬ (r.1 / 128 = ch.val ∧ r.1 % 4 = n % 4)))
        ∧ only (.zqCalibration side ch) { c with zq := tset 0 c.zq ch (tget 0 c.zq ch + 1) })
      ∧ (∀ (sensor : Fin 2) (t : Int), only (.dimmTempRead side ch sensor t) { c with
          hot := if 85 ≤ t then bitSet c.hot (2 * ch + sensor) else bitClear c.hot (2 * ch + sensor) })
      ∧ (c.chans.getD ch 0 = 3 →
        (∀ nth, nth < 4 → s.dev.mild side blkCel 2 → (s.dev.page side blkCel).enable.getLsbD 2 = true →
          Yields (.caRetry side ch nth) s (fun d => d.bare = s.dev.bare ∧ (d.page side blkCel).src.getLsbD 2 = true))
        ∧ (∀ nth, 4 ≤ nth → offline (.caRetry side ch nth))
        ∧ offline (.dimmNotResponding side ch))
      ∧ (∀ w (v : Word), s.dev.openTo w → v.getLsbD 9 = true → h.assisted 6 = true →
        let lo := s.dev.rf side.code .celScrubWin 0 15 0 * 16384
        let hi := min c.lines (lo + s.dev.rf side.code .celScrubWin 0 31 16 * 16384)
        Yields (.celScrubGo w side v) s (fun d => Out.wrote stOk ∈ d.out
          ∧ d.bare = (({ s.dev with regs := d.regs } : Dev).mod side fun h => { h with
            cel := { c with window := if lo < hi then some (lo, hi) else none } }).bare))
      ∧ (∀ e : Faults, c.state = 3 → c.selfRef = false →
        (h.assisted 6 = false → s.dev.rf side.code .celScrubCfg 0 8 8 = 1 →
          (cellarClass e = .clean → c.poison c.patrol = false →
            (c.patrol + 1 < c.lines → reads (.patrolRead side c.patrol e) c.patrol (withCel { c with patrol := c.patrol + 1 }))
            ∧ (c.lines ≤ c.patrol + 1 →
              reads (.patrolRead side c.patrol e) c.patrol ((withCel { c with patrol := 0 }).bump side.code .celScrubStatus 0 31 16)))
          ∧ (cellarClass e = .uncorr ∨ c.poison c.patrol = true → c.patrol + 1 < c.lines → s.dev.mild side blkCel 5 →
            (s.dev.page side blkCel).enable.getLsbD 5 = true →
            Yields (.patrolRead side c.patrol e) s (fun d => c.patrol ∈ (d.half side).cel.suspect
              ∧ (d.half side).cel.patrol = c.patrol + 1 ∧ (d.rg side.code .celUeAddr).toNat = c.patrol % 2 ^ 30
              ∧ (d.page side blkCel).src.getLsbD 5 = true)))
        ∧ (∀ lo hi, h.assisted 6 = true → c.window = some (lo, hi) → cellarClass e = .clean → c.poison lo = false →
          reads (.patrolRead side lo e) lo (withCel { c with window := if lo + 1 < hi then some (lo + 1, hi) else none })))
      ∧ (∀ e : Faults, s.dev.rf side.code .attScrubCfg 0 16 16 = 1 → atticClass e = .clean →
        Yields (.atticPatrol side h.att.patrol e) s (fun d => d.bare = (s.dev.mod side fun h => { h with att := { h.att with
          patrol := if atticLines ≤ h.att.patrol + 1 then 0 else h.att.patrol + 1 } }).bare))
      ∧ Yields (.shelfPatrol side .clean) s (fun d => d.bare = s.dev.bare))

/-- LINE_READBACK of a suspect line that is good clears the suspicion; of one still faulty it takes a free entry of its channel, or
a spare row of its bank, or is told where none is free (R298). -/
def Obligations.Remaps : Prop :=
  ∀ (s : State) (side : Side) (line : Nat) (e : Faults), s.dev.powered = true → s.dev.calm → s.dev.meek →
    let h := s.dev.half side
    let c := (h.celTouch line 1).cel
    let a := h.att
    let good := c.suspect.filter fun x => decide (x ≠ line)
    let rest := a.suspect.filter fun x => decide (x ≠ line)
    (∀ ch : Fin 4, h.cel.suspect.contains line = true → line % 4 = ch →
      let free := decide ((h.cel.remap.filter fun r => decide (r.1 = ch.val)).length < 16)
      let row := Instr.lineReadback side (.cellar ch) line e
      (cellarClass e = .clean → Yields row s (fun d => (d.half side).cel = { c with suspect := good }))
      ∧ (cellarClass e ≠ .clean → free = true → Yields row s (fun d => (d.half side).cel = { c with
          suspect := good, remap := h.cel.remap ++ [(ch.val, line, decide (cellarClass e = .uncorr))] }))
      ∧ (cellarClass e ≠ .clean → free = false → s.dev.mild side blkCel 6 → (s.dev.page side blkCel).enable.getLsbD 6 = true →
        Yields row s (fun d => (d.half side).cel = { c with suspect := good } ∧ (d.page side blkCel).src.getLsbD 6 = true)))
    ∧ (∀ bank : Fin 16, a.suspect.contains line = true → line % 16 = bank →
      let free := decide ((a.spare.filter fun r => decide (r.1 = bank.val)).length < 8)
      let row := Instr.lineReadback side (.attic bank) line e
      (atticClass e = .clean → Yields row s (fun d => (d.half side).att = { a with suspect := rest }))
      ∧ (atticClass e ≠ .clean → free = true → Yields row s (fun d => (d.half side).att = { a with
          suspect := rest, spare := a.spare ++ [(bank.val, line, decide (atticClass e = .uncorr))] }))
      ∧ (atticClass e ≠ .clean → free = false → s.dev.mild side blkAtt 4 → (s.dev.page side blkAtt).enable.getLsbD 4 = true →
        Yields row s (fun d => (d.half side).att = { a with suspect := rest } ∧ (d.page side blkAtt).src.getLsbD 4 = true)))

/-- The remote-data cache: a hit moves its line to the front and is counted; a miss starts a fill, and a cached line's home notes
it; a fill is installed unless it is stale; a write drops the writer's own copies and reaches its file; an invalidation drops
the other half's copy and stales its fills; an acknowledgement and an eviction report clear the home's entry (R285 to R288). -/
def Obligations.RemoteCache : Prop :=
  ∀ (s : State) (side : Side) (line key : Nat), s.dev.powered = true → s.dev.calm →
    let a := (s.dev.half side).att
    let b := (s.dev.half side.other).att
    (∀ x, a.copy line key = some x → Yields (.remoteRead side line key) s (fun d => d.bare = ((s.dev.mod side fun h =>
      { h with att := { h.att with cache := tset [] a.cache (line % 1024) (x :: (a.ways line).filter fun w => decide (w ≠ x)) } }).bump
        side.code .attRcHit).bare))
    ∧ (a.copy line key = none → s.dev.stwDown = false → (s.dev.half side.other).cel.state = 3 →
      (s.dev.half side.other).cel.poison line = false → Yields (.remoteRead side line key) s (fun d =>
      let u := s.dev.uncached side.other line
      (d.half side).att = { a with fills := a.fills ++ [{ line := line, key := key, stale := u, since := s.dev.clk.cycles }] }
      ∧ (∀ l, l ∈ (d.half side.other).att.dir ↔ l ∈ b.dir ∨ (l = line ∧ u = false))
      ∧ d.rf side.code .attRcMiss 0 31 0 = min (s.dev.rf side.code .attRcMiss 0 31 0 + 1) (2 ^ 32 - 1)))
    ∧ (∀ f, a.fills.find? (fun f => decide (f.line = line) && decide (f.key = key)) = some f →
      Yields (.remoteFill side line key) s (fun d =>
        (d.half side).att.fills = a.fills.filter (fun g => !(decide (g.line = line) && decide (g.key = key)))
        ∧ if f.stale = true then (d.half side).att.cache = a.cache else
            let kept := ((a.ways line).filter fun w => decide (w.line ≠ line)).take 15
            ∃ way < 16, (∀ c ∈ kept, c.way ≠ way)
              ∧ (d.half side).att.cache = tset [] a.cache (line % 1024) ({ line := line, key := key, way := way } :: kept)))
    ∧ (∀ id off f (data : List Byte), s.dev.stwDown = false → (s.dev.half side.other).file id = some f →
      (s.dev.half side.other).fileLocked f = false → f.refused = false → data ≠ [] →
      (∀ l ∈ touched side.other id off data.length, b.dir.contains l = false ∧ ∀ w ∈ b.held, w.touches side.other l = false) →
      (∀ k ∈ sectorsOf off data.length, tget 0 f.wc k + 1 < rekeyAt) →
      (s.dev.half side.other).tornLine side.other f off data.length = none →
      Yields (.remoteWrite side id off data) s (fun d =>
        (∀ l ∈ touched side.other id off data.length, (d.half side).att.caches l = false)
        ∧ (d.half side).files = (s.dev.half side).files
        ∧ ∃ g, (d.half side.other).file id = some g ∧ memRead g.data off data.length = data
          ∧ ∀ k, k < off ∨ off + data.length ≤ k → tget 0 g.data k = tget 0 f.data k))
    ∧ (a.dir.contains line = true →
      ((∃ w ∈ a.held, (touched side w.file w.offset w.data.length).contains line = true) →
        Yields (.snoopInvalidate side line) s (fun d => (d.half side.other).att.caches line = false
          ∧ (∀ f ∈ (d.half side.other).att.fills, f.line = line → f.stale = true) ∧ (d.half side).att = a))
      ∧ (b.caches line = false → Yields (.invalidateAck side line) s (fun d =>
          (d.half side).att.dir = a.dir.filter (fun l => decide (l ≠ line)) ∧ (d.half side.other).att = b)))
    ∧ (b.caches line = false → Yields (.evictionReport side line) s (fun d =>
        (d.half side).att.dir = a.dir.filter (fun l => decide (l ≠ line)) ∧ (d.half side.other).att = b))

/-- The Larder: an append with room makes its record the live one of its TYPE and KEY under the next SEQ, and writes its codewords
into the flash; compaction on command in host-assisted mode, which erases the other area, and its end, which keeps every live record in the other area (R303, R305, R306). -/
def Obligations.LarderRows : Prop :=
  ∀ s : State, s.dev.powered = true → s.dev.calm →
    let l := s.dev.ldr
    (∀ type key n data, s.dev.ldrSnapshot type key n = some data → type ≠ 6 → l.hold = false → l.sector < 479 →
      s.dev.mild .w blkAon 11 →
      let r : LdrRec := { seq := (l.seq + 1) % 2 ^ 32, type := type, key := key, data := data }
      let fits := decide (l.used + ldrCodewords (data.length type key) ≤ 1872)
      Yields (.larderAppend type key n) s (fun d =>
        d.ldr.find type key = some data ∧ d.ldr.seq = r.seq
        ∧ d.dbg.flash = flashWrite s.dev.dbg.flash
            (if fits = true then sectorBase l.active l.sector + 35 * l.used else sectorBase l.active (l.sector + 1)) r.coded
        ∧ ∀ t k, (t, k) ≠ (type, key) → d.ldr.find t k = l.find t k))
    ∧ (∀ w (v : Word), v.getLsbD 0 = true → l.hostMode = true → l.compacting = false → s.dev.openTo w →
      Writes (.ldrCompact w v) s { s.dev with
        ldr := { l with compacting := true, texts := l.texts.filter fun x => decide (x.1 ≠ 1 - l.active) }
        dbg := { s.dev.dbg with flash := flashErase s.dev.dbg.flash (areaBase (1 - l.active)) 0x1E00000 } })
    ∧ (l.compacting = true → Yields .larderCompactionComplete s (fun d =>
        d.ldr.active = 1 - l.active ∧ d.ldr.generation = l.generation + 1 ∧ d.ldr.compacting = false
        ∧ (d.ldr.records.map fun r => (r.type, r.key, r.data)) = l.records.map fun r => (r.type, r.key, r.data)))

/-- Files at rest: a line that passes leaves the verify pipeline, one that fails makes its region stale with LINE_FAIL, or ends the
burst that reads it with INTEGRITY; a re-key goes on sector by sector and at its end the region stands at the next epoch.
ATT_STAGE of an IDLE half moves the end of the staging partition, and the bytes that change partition read 0; QRY_RESERVE takes
a size that holds the spoil files and that the free space admits (R181, R284, R329, R332 to R336). -/
def Obligations.LineChecks : Prop :=
  (
    ∀ (s : State) (side : Side) (id : Nat) (f : FileRec), s.dev.powered = true → s.dev.calm →
      let h := s.dev.half side
      h.file id = some f →
      (∀ sector line, h.xts.checks.any (inRun id (64 * sector + line)) = true →
        Yields (.lineCheckComplete side id sector line .pass) s (fun d => d.bare = (s.dev.mod side fun h =>
          { h with xts := { h.xts with checks := dropCheck id (64 * sector + line) h.xts.checks } }).bare
          ∧ (d.half side).xts.depth + 1 = h.xts.depth))
      ∧ (∀ sector line r, h.xts.checks.any (inRun id (64 * sector + line)) = true → h.face.arming = false → r ≠ .pass →
        r ≠ .uncorrectable → f.stale = false → s.dev.mild side blkXts 2 →
        (h.face.inBurst = false → s.dev.mild side blkXts 1 → (s.dev.page side blkXts).enable.getLsbD 1 = true →
          Yields (.lineCheckComplete side id sector line r) s (fun d => (d.half side).file id = some { f with stale := true }
            ∧ (d.half side).xts.depth + 1 = h.xts.depth ∧ (d.page side blkXts).src.getLsbD 1 = true))
        ∧ (h.face.bursting = true → s.dev.mild side blkXts 0 → s.dev.meek →
          Yields (.lineCheckComplete side id sector line r) s (fun d => (d.half side).file id = some { f with stale := true }
            ∧ (d.half side).face.state = .aborted ∧ (d.half side).face.cause = 5 ∧ (d.half side).qry.quarantined = true)))
      ∧ (∀ p k, h.xts.rekey = some (id, p) → f.nextSector p = some k →
        ((f.nextSector (k + 1)).isSome = true → Yields (.rekeySector side) s (fun d => (d.half side).xts.rekey = some (id, k + 1)
          ∧ (d.half side).file id = some (f.count k 1)))
        ∧ (f.nextSector (k + 1) = none →
          (∀ g ∈ h.files, g.refused = false → g.epoch < 63 → ∀ kv ∈ g.wc, kv.2 < rekeyAt) →
          Yields (.rekeySector side) s (fun d => (d.half side).xts.rekey = none
            ∧ (d.half side).file id = some { f.count k 1 with epoch := f.epoch + 1, ahead := [] }))))
  ∧ (
    ∀ (s : State) (side : Side) (w : Writer) (v : Word), s.dev.powered = true → s.dev.calm → s.dev.openTo w →
      let h := s.dev.half side
      (h.face.state = .idle → h.face.arming = false → 16 ≤ fld v 4 0 → fld v 4 0 ≤ 26 →
        Yields (.attStageWrite w side v) s (fun d => Out.wrote stOk ∈ d.out ∧ d.stageSize side = fld v 4 0 * 2 ^ 18
          ∧ (∀ k, min (s.dev.stageSize side) (d.stageSize side) ≤ k → k < max (s.dev.stageSize side) (d.stageSize side) →
            tget 0 (d.half side).attic k = 0)
          ∧ (∀ k, k < min (s.dev.stageSize side) (d.stageSize side) ∨ max (s.dev.stageSize side) (d.stageSize side) ≤ k →
            tget 0 (d.half side).attic k = tget 0 h.attic k)))
      ∧ (h.locked = false → h.spoilUsed ≤ fld v 15 0 * 2 ^ 20 →
        (fld v 15 0 ≤ s.dev.rf side.code .qryReserve 0 15 0
          ∨ (fld v 15 0 - s.dev.rf side.code .qryReserve 0 15 0) * 2 ^ 20 ≤ s.dev.cellarFree side) →
        Writes (.qryReserveWrite w side v) s (s.dev.setRf side.code .qryReserve 0 15 0 (fld v 15 0))))

/-! ## Hoist (chapter 13) -/

/-- The commands that ask the device something answer OK with what they ask for and change nothing but bookkeeping: identity,
attestation, STATUS, calibration tables, modes, the event queue and the event log (R193, R316, R353, R355, R360, R363). -/
def Obligations.HoistQueries : Prop :=
  ∀ (s : State) (h : Hdr),
    let d := s.dev.accepted h
    let r (op : Nat) := s.dev.replyTo op h
    (∀ o m, Admits s h 0x01 false true false → d.fits (r 1) (20 + (((d.sec.cert.getD []).drop o).take m).length) = true →
      Answers (.hello h o m) s h 0x01 stOk (beBytes 4 (d.rg 0 .identPart).toNat ++ beBytes 4 s.fuse.dieset
        ++ beBytes 1 s.fuse.stepping ++ beBytes 1 s.fuse.life.code ++ beBytes 1 d.state ++ beBytes 1 1
        ++ beBytes 6 s.fuse.mac.toNat ++ beBytes 2 (d.sec.cert.getD []).length ++ ((d.sec.cert.getD []).drop o).take m) d)
    ∧ (∀ nonce, Admits s h 0x02 false false false → d.west.tsk.hashing = false →
      Answers (.attest h nonce) s h 0x02 stOk (d.statement s.fuse nonce ++ d.signed (d.statement s.fuse nonce)) d)
    ∧ (Admits s h 0x05 false false false → Answers (.status h) s h 0x05 stOk (d.statusBlock s.fuse.life) d)
    ∧ (∀ (side : Side) first count, Admits s h 0x61 true true (decide (side = .e)) → 0 < count → first + count ≤ 256 →
      d.fits (r 0x61) (16 + 256 * count) = true → d.unavailable side 5 = none →
      Answers (.calTableGet h side.code first count) s h 0x61 stOk ((d.half side).tableImage side first count) d)
    ∧ (Admits s h 0x81 true true false → ∃ n < 2 ^ 20, Answers (.modeGet h) s h 0x81 stOk (beBytes 4 n) d
      ∧ (∀ f < 8, n / 4 ^ f % 4 = b1 (d.west.assisted f) + 2 * b1 (d.east.assisted f))
      ∧ n / 4 ^ 8 % 4 = 3 * b1 d.ldr.hostMode ∧ n / 4 ^ 9 % 4 = 3 * b1 d.clk.hostMode)
    ∧ (∀ start max, Admits s h 0x70 false false false →
      Answers (.eventPoll h start max) s h 0x70 stOk (d.eventPage (r 0x70) d.hst.events start max) d)
    ∧ (∀ start max, Admits s h 0x71 true true false →
      Answers (.logRead h start max) s h 0x71 stOk (d.eventPage (r 0x71) d.ldr.log start max) d)

/-- Sessions: SESSION_OPEN makes one with an id that is not 0 and not in use, and with keys of both nonces, and answers unsealed
under it; SESSION_CLOSE ends its
own with REASON 1 and idleness one with REASON 2; a missing number is asked for again once; and a source ignored is heard again
(R345, R347, R348, R366). -/
def Obligations.Sessions : Prop :=
  ∀ (s : State) (h : Hdr),
    (∀ maxFrame nonce eph chain sig, Admits s h 0x03 false false false → h.sealed = false → 1500 ≤ maxFrame → maxFrame ≤ 9000 →
      s.dev.credentialOk s.fuse.life maxFrame nonce eph chain sig = true → s.dev.hst.sessions.length < 4 →
      Yields (.sessionOpen h maxFrame nonce eph chain sig) s (fun d => d.bare = s.dev.bare ∧ ∃ x ∈ d.hst.sessions,
        x.id ≠ 0 ∧ (∀ y ∈ s.dev.hst.sessions, y.id ≠ x.id) ∧ x.maxFrame = maxFrame ∧ x.high = 0 ∧ x.src = h.src
        ∧ ∃ (f : Frame) (wire : List Nat), Out.hoist f wire ∈ d.out ∧ f.session = x.id ∧ f.sealed = false ∧ f.status = stOk
          ∧ f.tag = h.tag ∧ f.dst = h.src ∧ ∃ devNonce own : Nat,
            x.keys = sessionKeys nonce.toNat devNonce (Config.ecdh own eph)
            ∧ f.payload.take 129 = beBytes 32 devNonce ++ beBytes 97 (Config.pubKey own)))
    ∧ (Admits s h 0x04 true false false → Yields (.sessionClose h) s (fun d => d.bare = s.dev.bare
        ∧ d.tells (s.dev.replyTo 4 h) stOk [1] ∧ d.session h.session = none))
    ∧ (s.dev.powered = true → s.dev.calm →
      (∀ k x, s.dev.session k = some x → Yields (.sessionIdleTimeout k) s (fun d => d.bare = s.dev.bare ∧ d.session k = none
        ∧ (s.dev.hst.linkUp = true → ∃ (f : Frame) (wire : List Nat), Out.hoist f wire ∈ d.out ∧ f.session = k ∧ f.op = 4
          ∧ f.payload = [2])))
      ∧ (∀ k x n, s.dev.session k = some x → x.stale n = false → n < x.high → x.seen.contains n = false →
        x.asked.contains n = false → Yields (.replayReq k n) s (fun d => d.bare = s.dev.bare
          ∧ (∀ y ∈ d.hst.sessions, y.id = k → n ∈ y.asked)
          ∧ (s.dev.hst.linkUp = true → ∃ (f : Frame) (wire : List Nat), Out.hoist f wire ∈ d.out ∧ f.session = k
            ∧ f.replay = true ∧ f.payload = beBytes 4 n)))
      ∧ (∀ a, Yields (.sourceIgnoreEnd a) s (fun d => d.bare = ({ s.dev with hst := { s.dev.hst with
          ignored := s.dev.hst.ignored.filter fun x => decide (x ≠ a) } } : Dev).bare)))

/-- The Ethernet port: another frame is dropped, a bad one counted, an ARP request and a neighbour solicitation for the device's
addresses are answered, and the link comes up while ETHCLK is qualified and goes down with HST_LINK_DOWN (R340, R341, R364,
R367). -/
def Obligations.EthernetRows : Prop :=
  ∀ s : State, s.dev.powered = true → s.dev.calm →
    Yields .nonHoistFrame s (fun d => d.bare = s.dev.bare)
    ∧ (s.dev.hst.linkUp = true → Yields .badFrame s (fun d => d.bare = (s.dev.bump 0 .hstViolCnt).bare))
    ∧ (s.dev.hst.linkUp = true → s.dev.rg 0 .hstIpv4 ≠ 0 → Yields (.arpRequest (s.dev.rg 0 .hstIpv4)) s (fun d =>
        d.bare = s.dev.bare ∧ Out.arpReply ∈ d.out))
    ∧ (s.dev.hst.linkUp = true → Yields (.neighbourSolicitation (linkLocal s.fuse.mac)) s (fun d =>
        d.bare = s.dev.bare ∧ Out.naReply ∈ d.out))
    ∧ (s.dev.clk.eth.ok = true → Yields .ethernetLinkUp s (fun d =>
        d.bare = ({ s.dev with hst := { s.dev.hst with linkUp := true } } : Dev).bare))
    ∧ (s.dev.hst.linkUp = true → s.dev.mild .w blkHst 1 → Yields .ethernetLinkDown s (fun d =>
        d.bare = ({ s.dev with hst := { s.dev.hst with linkUp := false } } : Dev).bare
        ∧ ((s.dev.page .w blkHst).enable.getLsbD 1 = true → (d.page .w blkHst).src.getLsbD 1 = true)))

/-- A read of a register that a read does not change returns what the register shows: READ_REG with the highest byte first,
READ_BLOCK with the lowest first, PEEK in a Trapdoor response. READ_BLOCK of a closed file returns its lines as stored. Nothing
changes but bookkeeping (R357, R358, R491). -/
def Obligations.Reads : Prop :=
  ∀ (s : State) (h : Hdr),
    let d := s.dev.accepted h
    let d0 : Dev := { s.dev with out := [] }
    (∀ addr die x i, placeOf addr = .reg die x i → silentReg x = true →
      s.dev.unreached (.reg die x i) (farAddr addr) = none →
      (Admits s h 0x10 true true (farAddr addr) → d.fits (s.dev.replyTo 0x10 h) 4 = true →
        Answers (.readReg h addr 1) s h 0x10 stOk (beBytes 4 (d.view s.fuse die x i).toNat) d)
      ∧ (Admits s h 0x12 true true (farAddr addr) → addr % 4 = 0 → d.fits (s.dev.replyTo 0x12 h) 4 = true →
        Answers (.readBlock h 0 0 addr 4) s h 0x12 stOk (leBytes 4 (d.view s.fuse die x i).toNat) d)
      ∧ (s.dev.powered = true → s.dev.calm → s.dev.granted s.fuse.life scPeek = true →
        ¬(s.fuse.life = .deployed ∧ isSec addr = true) → ∀ crc, s.dev.trapTakes (0x10 :: beBytes 6 addr) crc →
        Yields (.peek addr crc) s (fun e => e.bare = s.dev.bare
          ∧ trapReply stOk (beBytes 4 (d0.view s.fuse die x i).toNat) ∈ e.out)))
    ∧ (∀ id addr len f, id ≠ 0 → Admits s h 0x12 true true (farFile id) → d.fileOrRefusal id = .ok f → addr % 64 = 0 →
      len % 64 = 0 → addr + len ≤ f.length → d.fits (s.dev.replyTo 0x12 h) len = true → f.isOpen = false → f.live = false →
      d.retired f = false →
      (∀ k < len / 64, (d.half (fileSide id)).cel.poison (cellarLine (fileSide id) id (addr / 64 + k)) = false) →
      Answers (.readBlock h id 0 addr len) s h 0x12 stOk
        (((List.range (len / 64)).map fun k => addr / 64 + k).flatMap fun k => d.storedLine (fileSide id) f k) d)

/-- A write of a plain register that no lock holds sets the fields that take it, and nothing else: as a command, by WRITE_REG, by
WRITE_BLOCK and by POKE (R8, R32, R357, R358, R491). -/
def Obligations.PlainWrites : Prop :=
  ∀ (s : State) (h : Hdr) (addr die : Nat) (x : RegDesc) (i : Nat) (v : Word),
    placeOf addr = .reg die x i → plainReg x = true → idleCopy die x = false → s.dev.lockHolds die x.reg = false →
    s.dev.unreached (.reg die x i) (farAddr addr) = none →
    let set (d : Dev) : Dev := d.setRg die x.reg i (written x i (d.rg die x.reg i) v)
    let d := s.dev.accepted h
    (∀ w, s.dev.powered = true → s.dev.calm → Writes (.registerWrite w addr v) s (set s.dev))
    ∧ (Admits s h 0x11 true true (farAddr addr) →
        Answers (.writeReg h addr [v]) s h 0x11 stOk (beBytes 2 1) (set d))
    ∧ (Admits s h 0x13 true true (farAddr addr) → addr % 4 = 0 →
        Answers (.writeBlock h addr (leBytes 4 v.toNat)) s h 0x13 stOk [] (set d))
    ∧ (s.dev.powered = true → s.dev.calm → s.dev.granted s.fuse.life scPeek = true → isPatch addr = false →
        ¬(s.fuse.life = .deployed ∧ isSec addr = true) →
        ∀ crc, s.dev.trapTakes (0x11 :: beBytes 6 addr ++ beBytes 4 v.toNat) crc →
        Yields (.poke addr v crc) s (fun e => e.bare = (set s.dev).bare ∧ trapReply stOk [] ∈ e.out))

/-- Files: FILE_OPEN makes an open file of its slot, FILE_WRITE at RECEIVED stores its bytes and no others, FILE_CLOSE closes the
file whose length and hash are its slot's and drops any other, and FILE_DROP removes it. Key slots: KEY_INSTALL of a root, an
owner, an owner blob and the certificate fills its slot where the signatures of it verify, the root's ending every session, and
is DENIED elsewhere; KEY_RETIRE empties the slot and every slot that an owner slot signed, and no other. exec answers a next
state for fileOpen, fileWrite, fileClose, fileDrop, keyInstall and keyRetire (R89, R313, R317, R319, R320, R323, R359). -/
def Obligations.Files : Prop :=
  (
    ∀ (s : State) (h : Hdr) (side : Side),
      let d := s.dev.accepted h
      (∀ slot length, Admits s h 0x30 true true (decide (side = .e)) → slot ≤ 1023 → d.cellarRefusal side = none →
        (d.slot slot).kind = .file → (d.slot slot).used = false → length ≤ d.cellarFree side →
        (side = .e → d.teRefusal slot = none) →
        let id := d.newFileId side
        Answers (.fileOpen h side.code slot length) s h 0x30 stOk (beBytes 4 id) ((d.mod side fun h => { h with
          files := h.files ++ [{ id := id, slot := slot, length := length, isOpen := true, epoch := (d.slot slot).epoch }] }).setSlot
            slot { d.slot slot with used := true, inTe := (d.slot slot).inTe || decide (side = .e) }))
      ∧ (∀ id f, fileSide id = side → d.fileOrRefusal id = .ok f →
        (∀ data : List Byte, Admits s h 0x31 true true (farFile id) → f.isOpen = true → (d.half side).fileLocked f = false →
          d.retired f = false → f.received % 64 = 0 → data.length % 64 = 0 → data ≠ [] → f.received + data.length ≤ f.length →
          (∀ l ∈ touched side id f.received data.length, (d.half side).att.dir.contains l = false
            ∧ ∀ w ∈ (d.half side).att.held, w.touches side l = false) → f.refused = false →
          (d.half side).tornLine side f f.received data.length = none →
          (∀ k ∈ sectorsOf f.received data.length, tget 0 f.wc k + 1 < rekeyAt) →
          Yields (.fileWrite h id f.received data) s (fun e =>
            e.tells (s.dev.replyTo 0x31 h) stOk (beBytes 8 (f.received + data.length))
            ∧ e.bare = (d.mod side fun h => { h with files := (e.half side).files, cel := (e.half side).cel }).bare
            ∧ (∀ j ≠ id, (e.half side).file j = (d.half side).file j)
            ∧ ∃ g, (e.half side).file id = some g ∧ g.received = f.received + data.length
              ∧ memRead g.data f.received data.length = data
              ∧ ∀ k, k < f.received ∨ f.received + data.length ≤ k → tget 0 g.data k = tget 0 f.data k))
        ∧ (Admits s h 0x32 true true (farFile id) → f.isOpen = true → d.retired f = false → d.meek →
          Yields (.fileClose h id) s (fun e => (∀ j ≠ id, (e.half side).file j = (d.half side).file j)
            ∧ if d.contentOk f then e.tells (s.dev.replyTo 0x32 h) stOk []
                ∧ (e.half side).file id = some { f with isOpen := false }
                ∧ (d.ldr.hold = false → d.ldr.sector < 479 → e.ldr.find 4 id = some (.root f.root))
              else e.tells (s.dev.replyTo 0x32 h) stIntegrity [] ∧ (e.half side).file id = none))
        ∧ (Admits s h 0x33 true true (farFile id) → (d.half side).fileLocked f = false →
          Yields (.fileDrop h id) s (fun e => e.tells (s.dev.replyTo 0x33 h) stOk [] ∧ (e.half side).file id = none
            ∧ (∀ j ≠ id, (e.half side).file j = (d.half side).file j) ∧ (e.half side).face = (d.half side).face))))
  ∧ (
    ∀ (s : State) (h : Hdr) (slot : Nat), s.dev.meek →
      let d := s.dev.accepted h
      d.diverges (.keySlot slot) = false →
      let took (e : Dev) (ok : Prop) [Decidable ok] (n : Nat) (k : KeySlot) : Prop := (∀ j ≠ n, e.slot j = d.slot j)
        ∧ if ok then e.tells (s.dev.replyTo 0x40 h) stOk [] ∧ e.slot n = k
          else e.tells (s.dev.replyTo 0x40 h) stDenied [] ∧ e.slot n = d.slot n
      Admits s h 0x40 true true false →
      (∀ key (sig : List Byte), slot = 0 → (d.slot 0).kind = .root → Yields (.keyInstall h slot (.root key sig)) s (fun e =>
        let ok : Bool := verifies (d.slot 0).key (beBytes 97 key ++ beBytes 32 d.sec.nonce) sig
        took e (ok = true) 0 { d.slot 0 with key := key } ∧ (ok = true → e.hst.sessions = [])))
      ∧ (∀ key, slot ≠ 0 → slot ≤ 1023 → (d.slot slot).kind = .empty → Yields (.keyInstall h slot (.owner key)) s (fun e =>
        took e True slot { kind := .owner, key := key }))
      ∧ (∀ (l : List Byte) k, blobKind (blobNum l 4 1) = some k → blobOk l k = true → (d.slot (blobSlot l)).kind = .empty →
        Yields (.keyInstall h slot (.blob l)) s (fun e =>
          took e ((d.blobSecret l k).isSome = true) (blobSlot l) {
            kind := k
            owner := blobOwner l
            key := (d.blobSecret l k).getD 0
            length := blobLength l
            hash := blobHash l
            pub := if k = .image then (d.slot (blobOwner l)).key else 0 }))
      ∧ (∀ der : List Byte, slot = 0 → der ≠ [] → der.length ≤ 2048 → s.fuse.life = .manufacture → d.sec.cert = none →
        Yields (.keyInstall h slot (.cert der)) s (fun e =>
          if certSigned s.fuse.rootKey der = true ∧ d.sec.idKey.map Config.pubKey = some (Config.certKey der) then
            e.tells (s.dev.replyTo 0x40 h) stOk [] ∧ e.sec = { d.sec with cert := some der }
          else e.tells (s.dev.replyTo 0x40 h) stDenied [] ∧ e.sec = d.sec))
      ∧ (Admits s h 0x41 true true false → slot ≠ 0 → slot ≤ 1023 → (d.slot slot).kind ≠ .empty →
        (∀ k ∈ d.retiredWith slot, d.inPlan k = false) → ((∃ k ∈ d.retiredWith slot, (d.slot k).inTe = true) → d.stwUp = true) →
        Yields (.keyRetire h slot) s (fun e => e.tells (s.dev.replyTo 0x41 h) stOk []
          ∧ (∀ k ∈ d.retiredWith slot, e.slot k = {}) ∧ ∀ k, k ∉ d.retiredWith slot → e.slot k = d.slot k)))

/-- LIFECYCLE_ADVANCE takes one step along the life cycle with the actions of that step: the identity key, the root in place of
every slot, every slot and its records gone, the identity and its certificate gone. No session stays. A return or a retirement
without the service key's signature is DENIED and leaves keys and slots. exec answers a next state for lifecycleAdvance (R309 to
R311). -/
def Obligations.LifeCycleSteps : Prop :=
  ∀ (s : State) (h : Hdr) (key : Nat) (auth : List Byte),
    let d := s.dev.accepted h
    let advances (l : Life) (p : Dev → Prop) : Prop := ∃ t, exec (.lifecycleAdvance h l.code key auth) s = .next t
      ∧ t.pending = s.pending ∧ t.fuse = { s.fuse with life := l } ∧ t.dev.hst.sessions = []
      ∧ t.dev.tells (s.dev.replyTo 0xF0 h) stOk [] ∧ p t.dev
    s.dev.west.locked = false → s.dev.east.locked = false →
    (s.fuse.life = .blank → s.dev.powered = true → s.dev.calm → s.dev.takes h → h.session = 0 → h.sealed = false →
      s.dev.hst.sessions = [] → stateRefuses s.dev.state 0xF0 = false → s.dev.fwRefusal true false false = none →
      advances .manufacture fun e => e.sec.idKey.isSome = true ∧ e.sec.slots = d.sec.slots)
    ∧ (Admits s h 0xF0 true true false → s.dev.meek →
      let stays (l : Life) : Prop := Yields (.lifecycleAdvance h l.code key auth) s (fun e =>
        e.tells (s.dev.replyTo 0xF0 h) stDenied [] ∧ { e.sec with nonce := 0 } = { s.dev.sec with nonce := 0 })
      (s.fuse.life = .manufacture → if s.dev.sec.cert.isSome then advances .deployed fun e =>
          e.sec.cert = s.dev.sec.cert ∧ ∀ k, e.slot k = if k = 0 then { kind := .root, key := key } else {}
        else stays .deployed)
      ∧ (s.fuse.life = .deployed → if d.authorised s.fuse auth then advances .returned fun e =>
          e.sec.slots = [] ∧ e.sec.idKey = s.dev.sec.idKey
          ∧ ∀ r ∈ e.ldr.records, r.type ≠ 3 ∧ r.type ≠ 4 ∧ (r.type = 2 → r.key = 1024)
        else stays .returned)
      ∧ (s.fuse.life = .returned → if d.authorised s.fuse auth then advances .retired fun e =>
          e.sec.idKey = none ∧ e.sec.cert = none ∧ ∀ r ∈ e.ldr.records, r.type = 2 → r.key ≠ 1024
        else stays .retired))

/-- The commands on plans and bursts, for every legal HALVES: PLAN_LOAD starts the audit of a closed file; ARM of halves that pass
every condition of R131 starts their work with the plan kept; FIRE starts every named half; ABORT ends a burst and an arming with
cause HOST, and leaves a half that runs no burst, or whose ARM work it stops, IDLE without a plan. exec answers a next state for
planLoad, arm, fire and abort (R130 to R135, R522). -/
def Obligations.BurstCommands : Prop :=
  ∀ (s : State) (h : Hdr),
    let d := s.dev.accepted h
    (∀ (side : Side) id f, Admits s h 0x50 true true (decide (side = .e)) → (d.half side).locked = false →
      d.diverges (.face side) = false → (d.half side).reset = 0 → d.cellarRefusal side = none →
      (d.half side).file id = some f → f.isOpen = false → d.retired f = false →
      Yields (.planLoad h side.code id) s (fun e => e.bare = (d.mod side fun x => { x with
        face := { x.face with loading := x.face.loading ++ [(id, s.dev.replyTo 0x50 h)] } }).bare))
    ∧ (∀ halves, 1 ≤ halves → halves ≤ 3 → Admits s h 0x51 true true (farHalves halves) →
      (∀ side ∈ namedHalves halves, (if side = .e ∧ halves = 3 then d.mod .w fun x => { x with face := { x.face with
        arming := true } } else d).armRefusal side = none) →
      (∀ u ∈ (namedHalves halves).flatMap armUnits, d.diverges u = false) →
      s.dev.mild .w blkHst 2 → s.dev.mild .w blkClk 4 →
      Yields (.arm h halves) s (fun e => ∀ side,
        if side ∈ namedHalves halves then
          (e.half side).face.arming = true ∧ (e.half side).face.plan = (d.half side).face.plan
          ∧ (e.half side).tch.cause = 0 ∧ (e.half side).face.blocked = false ∧ e.slice side = none
        else (e.half side).face = (d.half side).face))
    ∧ (∀ halves, 1 ≤ halves → halves ≤ 3 → Admits s h 0x52 true false false →
      s.dev.mild .w blkHst 2 → (namedHalves halves).length ≤ d.slotsFree →
      (∀ side ∈ namedHalves halves, d.unavailable side 2 = none ∧ (d.half side).face.state = .armed
        ∧ (d.half side).permits 3 = true ∧ d.calValid side = true ∧ (d.half side).face.burst.unwritten = false
        ∧ s.dev.mild side blkFab 0) →
      Yields (.fire h halves) s (fun e => e.tells (s.dev.replyTo 0x52 h) stOk [] ∧ ∀ side ∈ namedHalves halves,
        (e.half side).face.state = .running ∧ (e.half side).face.fires = (d.half side).face.fires + 1
        ∧ (e.half side).face.lastFire = 3 ∧ (e.half side).face.burst.fireTime = d.aon.count))
    ∧ (∀ halves, 1 ≤ halves → halves ≤ 3 → Admits s h 0x53 true false false →
      s.dev.meek → (∀ side ∈ namedHalves halves, d.unavailable side 2 = none ∧ d.diverges (.face side) = false) →
      (∀ side ∈ namedHalves halves, (d.half side).face.arming = false → (d.half side).face.state ≠ .idle) →
      Yields (.abort h halves) s (fun e => e.tells (s.dev.replyTo 0x53 h) stOk [] ∧ ∀ side ∈ namedHalves halves,
        (e.half side).face.arming = false
        ∧ if (d.half side).face.arming = false ∧ (d.half side).face.active = true then
            (e.half side).face.state = .aborted ∧ (e.half side).face.cause = 1 ∧ (e.half side).face.plan = (d.half side).face.plan
            ∧ ((d.half side).face.bursting = true → (e.half side).qry.state = .flushing)
          else (e.half side).face.state = .idle ∧ (e.half side).face.plan = none))

/-- RESULT_GET answers with the record of the burst and keeps it; RESULT_RELEASE lets it go (R137, R362). -/
def Obligations.Results : Prop :=
  ∀ (s : State) (h : Hdr) (side : Side) (r : Record),
    let d := s.dev.accepted h
    let f := (d.half side).face
    d.unavailable side 2 = none → r.burst ≤ f.fires → r.burst ≠ 0xFFFFFFFF →
    f.records.find? (fun x => decide (x.burst = r.burst)) = some r →
    (Admits s h 0x54 true false false → Answers (.resultGet h side.code r.burst) s h 0x54 stOk r.bytes
      (d.mod side fun h => { h with face := { h.face with
        records := h.face.records.map fun y => if y.burst = r.burst then { y with got := true } else y } }))
    ∧ (Admits s h 0x55 true false false → Yields (.resultRelease h side.code r.burst) s (fun e =>
        e.tells (s.dev.replyTo 0x55 h) stOk [] ∧ (∀ x, x ∈ (e.half side).face.records ↔ x ∈ f.records ∧ x.burst ≠ r.burst)
        ∧ (e.half side).face.plan = f.plan ∧ (e.half side).files = (d.half side).files))

/-- Modes and calibration commands: MODE_SET changes its function in the named halves alone; CAL_RUN waits for the sweeps it asks
for, and a BIST slice that runs in a named half is abandoned; CAL_TABLE_SET writes the blocks it holds and no others; changed
tables are journaled. exec answers a next state for modeSet, calRun, calTableSet and calTableJournal (R37, R192 to R194, R201,
R425, R479). -/
def Obligations.ModeAndTables : Prop :=
  ∀ (s : State) (h : Hdr),
    let d := s.dev.accepted h
    (∀ f halves mode, f < 8 → f ≠ 1 → 1 ≤ halves → halves ≤ 3 → mode ≤ 1 → Admits s h 0x80 true true (farHalves halves) →
      (∀ side ∈ namedHalves halves, d.modeIdle f side = true ∧ d.diverges (.mode side) = false
        ∧ (f = 5 → mode = 0 → (d.half side).fab.quarantined = false)) → (Side.e ∈ namedHalves halves → d.stwDown = false) →
      Answers (.modeSet h f halves mode) s h 0x80 stOk []
        ((namedHalves halves).foldl (fun d side => d.mod side fun h => h.setMode f mode) d))
    ∧ (∀ halves mode, mode ≤ 1 →
      (Admits s h 0x80 true true false → d.ldr.compacting = false → Answers (.modeSet h 8 halves mode) s h 0x80 stOk []
        { d with ldr := { d.ldr with hostMode := decide (mode = 1) } })
      ∧ (Admits s h 0x80 true true false → d.west.locked = false → d.east.locked = false →
        Answers (.modeSet h 9 halves mode) s h 0x80 stOk [] { d with clk := { d.clk with hostMode := decide (mode = 1) } })
      ∧ (1 ≤ halves → halves ≤ 3 → Admits s h 0x80 true true (farHalves halves) →
        (Side.e ∈ namedHalves halves → d.stwDown = false) → (∀ side, (d.half side).face.bursting = false) →
        (∀ side ∈ namedHalves halves, d.modeIdle 1 side = true ∧ d.diverges (.mode side) = false) →
        Yields (.modeSet h 1 halves mode) s (fun e => e.tells (s.dev.replyTo 0x80 h) stOk [] ∧ ∀ side,
          (e.half side).cal.anchored = 0 ∧ (e.half side).modes
            = if side ∈ namedHalves halves then ((d.half side).setMode 1 mode).modes else (d.half side).modes)))
    ∧ (∀ halves, 1 ≤ halves → halves ≤ 3 → Admits s h 0x60 true true (farHalves halves) →
      (∀ side ∈ namedHalves halves, d.unavailable side 5 = none ∧ (d.half side).canSweep = true
        ∧ d.diverges (.cal side) = false) →
      let x := (namedHalves halves).foldl Dev.abandon d
      Yields (.calRun h halves) s (fun e => e.bare = ({ x with hst := { x.hst with cals := d.hst.cals
        ++ [{ reply := s.dev.replyTo 0x60 h, w := (namedHalves halves).contains .w, e := (namedHalves halves).contains .e }] } } : Dev).bare))
    ∧ (∀ img : List Byte,
      let side := tableSide img
      let first := rdLE (fun i => img.getD i 0) 6 2
      let count := rdLE (fun i => img.getD i 0) 8 2
      let parts := rdLE (fun i => img.getD i 0) 10 2
      Admits s h 0x62 true true (decide (side = .e)) → d.unavailable side 5 = none → img.length = 16 + 256 * count →
      (d.half side).locked = false → (parts % 2 = 1 → (d.half side).assisted 1 = true) → (d.half side).tableCheck img = none →
      d.diverges (.cal side) = false → s.dev.meek →
      Yields (.calTableSet h img) s (fun e => e.tells (s.dev.replyTo 0x62 h) stOk []
        ∧ (∀ k < count, tget {} (e.half side).cal.blocks (first + k) = (tget {} (d.half side).cal.blocks (first + k)).write
            (fun i => img.getD (16 + 256 * k + i) 0) (decide (parts % 2 = 1)) (decide (2 ≤ parts)) (d.half side).cal.phi)
        ∧ (∀ c, c < first ∨ first + count ≤ c → tget {} (e.half side).cal.blocks c = tget {} (d.half side).cal.blocks c)
        ∧ (e.half side).files = (d.half side).files))
    ∧ (∀ side : Side, s.dev.powered = true → s.dev.calm → (s.dev.half side).cal.changed = true → s.dev.ldr.hold = false →
      s.dev.ldr.sector < 357 → Yields (.calTableJournal side) s (fun e =>
        (e.half side).cal = { (s.dev.half side).cal with changed := false }
        ∧ (∃ b c, e.ldr.find 1 (2 * side.code) = some (.table b) ∧ e.ldr.find 1 (2 * side.code + 1) = some (.table c)
          ∧ ∀ n : Fin 256, tget {} (b ++ c) n = tget {} (s.dev.half side).cal.blocks n)))

/-! ## Haul (chapter 14) -/

/-- Training of a Haul quad: a new MODE starts it afresh, the clock locks or is missed, adaptation moves on when every lane reaches
FOM_MIN, alignment gives the slips and block lock, a full link is UP with its latency; a lost lock or RETRAIN keeps credits and
the replay buffer; and the host's settings, slips, injected errors and COMMIT (R372 to R374, R377, R378). -/
def Obligations.HaulTraining : Prop :=
  ∀ (s : State) (side : Side) (q : Fin 4), s.dev.powered = true → s.dev.calm →
    let x := s.dev.quad side q
    let status (d : Dev) (l hi lo : Nat) : Nat := d.rf side.code .haulLaneStatus (laneIx q l) hi lo
    let align (r : Bool) : Quad := { x with st := .align, hostAlign := (s.dev.half side).assisted 3, retrain := r }
    (∀ w (v : Word), s.dev.openTo w →
      ((s.dev.half side).locked = false → v.getLsbD 9 = false →
        (fld v 2 0 ≤ 4 → fld v 2 0 ≠ s.dev.quadMode side q → s.dev.mild side blkHaul 1 →
          Yields (.haulModeWrite w side q v) s (fun d => Out.wrote stOk ∈ d.out ∧ d.quadMode side q = fld v 2 0
            ∧ d.quadRole side q = fld v 4 4 ∧ d.quad side q = { st := if fld v 2 0 = 0 then .down else .clock }
            ∧ ∀ l < 4, d.rg side.code .haulLaneEq (laneIx q l) = 0))
        ∧ (fld v 2 0 = s.dev.quadMode side q → v.getLsbD 8 = true → x.st = .up →
          Yields (.haulRetrain w side q v) s (fun d => Out.wrote stOk ∈ d.out ∧ d.quad side q = align true)))
      ∧ ((s.dev.half side).locked = false → v.getLsbD 9 = true → fld v 2 0 = s.dev.quadMode side q →
        (x.st = .adapt → x.hostAdapt = true → Yields (.haulCommit w side q v) s (fun d => Out.wrote stOk ∈ d.out
          ∧ d.quad side q = if s.dev.quadMode side q = 4 then { x with st := .up } else align x.retrain))
        ∧ (x.st = .align → x.hostAlign = true → s.dev.lanesLocked side q = true →
          Yields (.haulCommit w side q v) s (fun d => Out.wrote stOk ∈ d.out ∧ (d.quad side q).st = .link
            ∧ (d.quad side q).credits = 64)))
      ∧ (∀ lane : Fin 4,
        (v.getLsbD 0 = true → v.getLsbD 1 = false → x.st = .align → x.hostAlign = true →
          Yields (.haulSlip w side q lane v) s (fun d => Out.wrote stOk ∈ d.out
            ∧ status d lane 22 16 = (status s.dev lane 22 16 + 1) % 66 ∧ status d lane 8 8 = 0 ∧ d.quad side q = x))
        ∧ (v.getLsbD 0 = false → v.getLsbD 1 = true → Yields (.inject w side q lane v) s (fun d => Out.wrote stOk ∈ d.out
          ∧ if s.dev.quadMode side q = 4 then Out.haul side q 512 [lane.val] [] ∈ d.out ∧ d.quad side q = x
            else d.quad side q = { x with inject := true }))
        ∧ (w = .fw ∨ (x.st = .adapt ∧ x.hostAdapt = true) →
          Writes (.haulLaneEqWrite w side q lane v) s (s.dev.setRg side.code .haulLaneEq (laneIx q lane) (v &&& 0x01FFF0FF)))))
    ∧ (x.st = .clock →
      Yields (.haulClockLock side q) s (fun d => d.bare = (s.dev.modQuad side q fun x =>
        { x with st := .adapt, clkLock := true, hostAdapt := (s.dev.half side).assisted 2 }).bare)
      ∧ (s.dev.mild side blkHaul 1 → (s.dev.page side blkHaul).enable.getLsbD 1 = true →
        Yields (.haulClockTimeout side q) s (fun d => d.bare = s.dev.bare ∧ (d.page side blkHaul).src.getLsbD 1 = true)))
    ∧ (∀ (fom : List Nat) (eq : List Word), x.st = .adapt → x.hostAdapt = false →
      (∀ l < 4, s.dev.rf side.code .haulQCtrl q 23 16 ≤ fom.getD l 0 ∧ fom.getD l 0 ≤ 255) → s.dev.quadMode side q ≠ 4 →
      Yields (.haulAdaptDone side q fom eq) s (fun d => d.quad side q = align x.retrain
        ∧ ∀ l < 4, d.rg side.code .haulLaneEq (laneIx q l) = eq.getD l 0 &&& 0x01FFF0FF))
    ∧ (∀ slips : List Nat, x.st = .align → x.hostAlign = false → Yields (.haulAlignDone side q slips) s (fun d =>
        (d.quad side q).st = .link ∧ (d.quad side q).credits = 64
        ∧ ∀ l < 4, status d l 22 16 = slips.getD l 0 % 66 ∧ status d l 8 8 = 1))
    ∧ (∀ n, x.st = .link → s.dev.mild .w blkHaul 4 → Yields (.haulLinkDone side q n) s (fun d => (d.quad side q).st = .up
        ∧ (d.quad side q).keyed = false ∧ d.rf side.code .haulRxLat q 11 0 = min ((n - 64) / 2) 4095))
    ∧ (x.st = .up → Yields (.haulLockLoss side q) s (fun d => d.quad side q = align true))
    ∧ (x.st ≠ .down → Yields (.haulClockAbsent side q) s (fun d => d.quad side q = { x with
        st := .clock, clkLock := false, retrain := x.retrain || decide (x.st = .up) }))

/-- Sequenced frames that a quad takes, good and in order, are acknowledged and used: relayed symbols are decrypted and kept by
issue under an agreed key, a relay tag that is not the GMAC of what came before it ends the burst as the late alarm, a spoil line
is stored with its tag and metadata at the end of the receive file, the last key message agrees the key. exec answers a next
state for relay, relayTag, spoil and key (R376, R387 to R390). -/
def Obligations.HaulFrames : Prop :=
  ∀ (s : State) (side : Side) (rx : HaulRx), s.dev.powered = true → s.dev.calm →
    let q := rx.quad.val
    let x := s.dev.quad side q
    rx.bad = none → rx.seq = x.rx → s.dev.receiving side q = true → x.inject = false →
    let got (d : Dev) : Prop := (d.quad side q).rx = (x.rx + 1) % 256
      ∧ ∃ wire, Out.haul side q ftAck [((x.rx + 1) % 256 + 255) % 256, 1, 0] wire ∈ d.out
    (∀ first (issues : List (List Nat)), s.dev.quadMode side q = 2 → s.dev.relayed side = true → x.keyed = true →
      Yields (.relay side rx first issues) s (fun d => got d ∧ ∀ k < issues.length, ∃ n,
        tget none (d.quad side q).relayed (first + k) = some n
        ∧ ∀ c < 64, (n ^^^ relayStream x.key (first + k)) / 16 ^ c % 16 = (issues.getD k []).getD c 0 % 16))
    ∧ (∀ first (tag : BitVec 128), s.dev.quadMode side q = 2 → s.dev.mild side blkXts 0 → s.dev.meek →
        Yields (.relayTag side rx first tag) s (fun d => got d ∧ (d.quad side q).heard = []
          ∧ if tag.toNat = relayMac x.key first x.heard ∨ s.dev.relayed side = false then
              d.bare = (s.dev.modQuad side q fun x => { x with rx := (x.rx + 1) % 256, heard := [] }).bare
            else (s.dev.half side).face.bursting = true → (d.half side).face.state = .aborted ∧ (d.half side).face.cause = 5))
    ∧ (∀ line : List Byte, s.dev.quadMode side q = 3 → s.dev.quadRole side q = 1 → line.length = 77 →
      64 ≤ s.dev.reserveFree side → (s.dev.half side).files.length < 2 ^ 20 →
      (∀ id, (s.dev.half side).haul.spoilRx = some id → ∃ f, (s.dev.half side).file id = some f ∧ f.received % 64 = 0
        ∧ f.received + 64 ≤ f.length ∧ f.received + 64 ≤ 2 ^ 40) →
      Yields (.spoil side rx line) s (fun d => got d ∧ ∃ id f, (d.half side).haul.spoilRx = some id
        ∧ (d.half side).file id = some f ∧ 64 ≤ f.received ∧ memRead f.data (f.received - 64) 64 = line.take 64
        ∧ memRead f.data (tagBase + 16 * (f.received / 64 - 1)) 13 = line.drop 64
        ∧ (d.half side).face = (s.dev.half side).face))
    ∧ (s.dev.quadMode side q = 2 →
      (∀ ok, Yields (.key side rx true ok) s (fun d => got d ∧ (d.quad side q).keyed = ok))
      ∧ (s.dev.canSend side q = true → Yields (.key side rx false true) s (fun d => got d
        ∧ (d.quad side q).tx = (x.tx + 1) % 256 ∧ (d.quad side q).credits = x.credits - 1
        ∧ ∃ l wire, 1 ≤ l.length ∧ l.length ≤ 64 ∧ Out.haul side q ftKey (x.tx :: l) wire ∈ d.out)))

/-- Control frames and relay frames of a quad: ACK frees the frames it names and gives its credits back, CREDIT_RESET gives all 64
back, ECHO is answered in order and its reply measures the link, and a relay frame that closes leaves with its run of issues or
is counted as dropped (R375, R376, R378, R387, R391). -/
def Obligations.HaulControl : Prop :=
  ∀ (s : State) (side : Side) (q : Fin 4), s.dev.powered = true → s.dev.calm →
    let x := s.dev.quad side q
    (s.dev.receiving side q = true →
      let again (d : Dev) (f : HFrame) : Prop := s.dev.safe.asserted = false →
        ∃ wire, Out.haul side q f.2.1 (f.1 :: f.2.2) wire ∈ d.out
      (∀ n credits nak, x.hold = [] → x.inject = false → Yields (.ack side q n credits nak) s (fun d =>
          d.bare = (s.dev.modQuad side q fun x =>
            { x with replay := afterAck n x.replay, credits := min 64 (x.credits + credits) }).bare
          ∧ (nak = true → ∀ f ∈ afterAck n x.replay, again d f)))
      ∧ (x.hold = [] → x.inject = false → Yields (.creditReset side q) s (fun d =>
          d.bare = (s.dev.modQuad side q fun x => { x with credits := 64 }).bare ∧ ∀ f ∈ x.replay, again d f))
      ∧ (∀ cookie, Yields (.echo side q cookie) s (fun d =>
          d.bare = (s.dev.modQuad side q fun x => { x with echoes := x.echoes ++ [cookie] }).bare))
      ∧ (∀ c rest, x.echoes = c :: rest → x.inject = false → Yields (.echoReplySend side q) s (fun d =>
          d.bare = (s.dev.modQuad side q fun x => { x with echoes := rest }).bare
          ∧ ∃ wire, Out.haul side q ftEchoReply [c.toNat] wire ∈ d.out))
      ∧ (∀ cookie n, s.dev.mild .w blkHaul 4 → Yields (.echoReply side q cookie n) s (fun d =>
          d.rf side.code .haulRxLat q 11 0 = min ((n - 64) / 2) 4095 ∧ d.quad side q = x)))
    ∧ (∀ issue rest, s.dev.relays side = true → x.pack = issue :: rest →
      (x.keyed = false → Yields (.relayFrameClose side q) s (fun d => (d.quad side q).pack = []
        ∧ (d.quad side q).first = x.first + x.pack.length ∧ (d.quad side q).tx = x.tx
        ∧ d.rf side.code .haulRelay 0 31 28 = min (s.dev.rf side.code .haulRelay 0 31 28 + 1) 15))
      ∧ (x.keyed = true → s.dev.canSend side q = true → x.tagged < 63 → x.inject = false →
        Yields (.relayFrameClose side q) s (fun d => (d.quad side q).pack = []
          ∧ (d.quad side q).first = x.first + x.pack.length ∧ (d.quad side q).tx = (x.tx + 1) % 256
          ∧ (d.quad side q).credits = x.credits - 1 ∧ (d.quad side q).tagged = x.tagged + 1
          ∧ ∃ wire, Out.haul side q ftRelay (x.tx :: x.first :: x.pack.length
              :: x.pack.zipIdx.map fun v => v.1 ^^^ relayStream x.key (x.first + v.2)) wire ∈ d.out)))

/-- Cascade time, fires and flags: the master's TIME_SYNC and FIRE_TX, FIRE and TIME received on the upstream side, a cascade fire
whose time comes, and flags that wait for their cycle and apply then (R378 to R383). -/
def Obligations.CascadeRows : Prop :=
  ∀ s : State, s.dev.powered = true → s.dev.calm →
    (∀ w, s.dev.openTo w → s.dev.isMaster = true →
      Yields (.timeSync w) s (fun d => Out.wrote stOk ∈ d.out ∧ d.casc = s.dev.casc
        ∧ ∀ q ∈ s.dev.downQuads, s.dev.canSend .w q = true → (s.dev.quad .w q).hold = [] → (s.dev.quad .w q).inject = false →
          ∃ wire, Out.haul .w q ftTime [(s.dev.quad .w q).tx, s.dev.casc.ctime.toNat] wire ∈ d.out)
      ∧ Yields (.fireTx w) s (fun d => Out.wrote stOk ∈ d.out ∧ d.casc = { s.dev.casc with
          fires := s.dev.casc.fires ++ [(s.dev.casc.ctime + BitVec.ofNat 64 (s.dev.rf 0 .haulFireLead 0 15 0), 3)] }))
    ∧ (∀ (rx : HaulRx) (t : BitVec 64), rx.bad = none → rx.seq = (s.dev.quad .w rx.quad).rx →
      s.dev.receiving .w rx.quad = true → 1 ≤ s.dev.quadMode .w rx.quad → s.dev.quadMode .w rx.quad ≤ 3 →
      (s.dev.casc.ctime.toNat + 64 ≤ t.toNat → Yields (.haulFire .w rx t) s (fun d =>
          d.casc = { s.dev.casc with fires := s.dev.casc.fires ++ [(t, 3)] }))
      ∧ (s.dev.isMaster = false → s.dev.rf 0 .haulCascade 0 1 0 = rx.quad → Yields (.time .w rx t) s (fun d =>
          d.casc = { s.dev.casc with ctime := BitVec.ofInt 64 ((t.toNat : Int) + s.dev.latency .w rx.quad) })))
    ∧ (∀ t, s.dev.casc.fires = [(t, 3)] → s.dev.mild .w blkHst 2 → 2 ≤ s.dev.slotsFree →
      (∀ side, s.dev.relayed side = false ∧ (s.dev.half side).face.state = .armed ∧ (s.dev.half side).permits 2 = true
        ∧ s.dev.calValid side = true ∧ (s.dev.half side).face.burst.unwritten = false ∧ s.dev.mild side blkFab 0) →
      Yields .haulFireTime s (fun d => d.casc.fires = [] ∧ ∀ side, (d.half side).face.state = .running
        ∧ (d.half side).face.fires = (s.dev.half side).face.fires + 1 ∧ (d.half side).face.lastFire = 2))
    ∧ (∀ (side : Side) (rx : HaulRx) a (mask values : BitVec 8), rx.bad = none → rx.seq = (s.dev.quad side rx.quad).rx →
      s.dev.receiving side rx.quad = true → 1 ≤ s.dev.quadMode side rx.quad → s.dev.quadMode side rx.quad ≤ 3 →
      (s.dev.half side).face.active = true → (s.dev.half side).face.burst.cycle ≤ a + 48 →
      Yields (.flag side rx a mask values) s (fun d =>
        (d.half side).haul.flags = (s.dev.half side).haul.flags ++ [(a, mask, values)] ∧ d.regs = s.dev.regs))
    ∧ (∀ (side : Side) a (mask values : BitVec 8), (s.dev.half side).face.bursting = true →
      (s.dev.half side).haul.flags = [(a, mask, values)] → Yields (.flagApply side) s (fun d =>
        (d.half side).haul.flags = [] ∧ ∀ i < 8, (d.rf side.code .haulFlagIn 0 7 0).testBit i
          = if mask.getLsbD i then values.getLsbD i else (s.dev.rf side.code .haulFlagIn 0 7 0).testBit i))

/-- The registers of cascade and cross-module alignment: a new PHASE starts its move, ALIGNED stores FACE_FIRE_OFFSET, and a new
PHASE, ADJ or cascade setting loses the alignment (R378, R379, R384, R385). -/
def Obligations.AlignmentWrites : Prop :=
  ∀ (s : State) (w : Writer) (v : Word), s.dev.powered = true → s.dev.calm → s.dev.openTo w → s.dev.mild .w blkHaul 4 →
    let lost (d : Dev) : Prop := Out.wrote stOk ∈ d.out ∧ d.rf 0 .haulXmod 0 16 16 = 0
    (s.dev.west.locked = false → s.dev.east.locked = false →
      (fld v 13 0 ≤ 9999 → fld v 13 0 ≠ s.dev.rf 0 .haulXmod 0 13 0 → Yields (.xmodPhaseWrite w v) s (fun d =>
        lost d ∧ d.rf 0 .haulXmod 0 13 0 = fld v 13 0 ∧ d.clk = { s.dev.clk with phaseBusy := true }))
      ∧ (fld v 13 0 = s.dev.rf 0 .haulXmod 0 13 0 → v.getLsbD 16 = true → Yields (.xmodAlignedWrite w v) s (fun d =>
          Out.wrote stOk ∈ d.out ∧ d.rf 0 .haulXmod 0 16 16 = 1 ∧ d.clk = s.dev.clk
          ∧ d.rf 0 .haulXmodRef 0 15 0 = s.dev.rf 0 .faceFireOffset 0 15 0)))
    ∧ (∀ (side : Side) (q : Fin 4), Yields (.haulAdjWrite w side q v) s (fun d =>
        lost d ∧ d.rf side.code .haulRxLat q 23 16 = fld v 23 16
        ∧ d.rf side.code .haulRxLat q 11 0 = s.dev.rf side.code .haulRxLat q 11 0))
    ∧ (s.dev.west.locked = false → Yields (.haulCascadeWrite w v) s (fun d =>
        lost d ∧ d.rf 0 .haulCascade 0 8 8 = fld v 8 8 ∧ d.rf 0 .haulCascade 0 7 4 = fld v 7 4
        ∧ d.rf 0 .haulCascade 0 2 2 = fld v 2 2 ∧ d.rf 0 .haulCascade 0 1 0 = fld v 1 0))

/-! ## The Stairwell (chapter 15) -/

/-- Training at an end: the partner's pattern, a lost active lane, another epoch or a write of TARGET or RETRAIN forces a retrain of
an end that is UP, with ATTEMPTS at 0; DOWN goes back to TRAINING; agreement brings both ends UP with a new epoch, the common
width and group, and the link key; a failed attempt counts, the third enters DOWN; a lane that fails continuity is kept and the
state stays (R22, R396, R397, R400). -/
def Obligations.StairwellTraining : Prop :=
  ∀ s : State, s.dev.powered = true → s.dev.calm →
    let stw (d : Dev) (side : Side) : StwSt := (d.half side).stw
    let train (side : Side) (n : Nat) (fresh : Bool) : StwSt :=
      { stw s.dev side with state := n, attempts := 0, fresh := fresh, stop := s.dev.west.assisted 3 }
    (∀ side,
      (stw s.dev side).state = 2 →
        Yields (.stwTrainingPattern side) s (fun d => stw d side = train side 3 false ∧ Out.stw side false [] [] ∈ d.out)
        ∧ (∀ lane : Fin 16, (s.dev.rg side.code .stwLanes).getLsbD (16 + lane.val) = true →
          Yields (.stwLockLoss side lane) s (fun d => stw d side = train side 3 false))
        ∧ (∀ f : StwRx, f.crcOk = true → f.epoch ≠ (stw s.dev side).epoch →
          Yields (.stwFrame side f) s (fun d => stw d side = train side 3 false))
        ∧ (∀ w (v : Word), s.dev.openTo w → v.getLsbD 3 = false →
          (fld v 1 0 ≠ 3 → s.dev.mild side blkStw 0 → Yields (.stwTargetWrite w side v) s (fun d => Out.wrote stOk ∈ d.out
            ∧ stw d side = train side 3 false ∧ d.rf side.code .stwCtrl 0 1 0 = fld v 1 0))
          ∧ (fld v 1 0 = 3 → v.getLsbD 2 = true → Yields (.stwRetrainWrite w side v) s (fun d => Out.wrote stOk ∈ d.out
            ∧ stw d side = train side 3 false))))
    ∧ (∀ side, (stw s.dev side).state = 4 → s.dev.held.getLsbD side.code = false → Yields (.stwDownRetry side) s (fun d => stw d side = train side 1 false)
        ∧ Yields (.stwTrainingPattern side) s (fun d => stw d side = train side 1 false))
    ∧ (∀ side, (stw s.dev side).training = true →
      ((stw s.dev side).attempts < 2 → Yields (.stwAttemptTimeout side) s (fun d => stw d side =
        { stw s.dev side with attempts := (stw s.dev side).attempts + 1, stop := s.dev.west.assisted 3 }))
      ∧ (2 ≤ (stw s.dev side).attempts → Yields (.stwAttemptTimeout side) s (fun d => (stw d side).state = 4
        ∧ d.sec.linkKey = false ∧ (stw d side).pend.length = (stw s.dev side).pend.length
        ∧ ∀ (i : Nat) (p : NocPend), (stw s.dev side).pend[i]? = some p → p.held = true →
            (stw d side).pend[i]? = some { p with held := false, ready := some (stDegraded, []) })))
    ∧ (∀ (passW passE : BitVec 16) width (group : BitVec 16), s.dev.west.stw.training = true → s.dev.east.stw.training = true →
      s.dev.west.stw.stop = false → s.dev.east.stw.stop = false →
      agreement passW passE (s.dev.rf 0 .stwCtrl 0 1 0) (s.dev.rf 1 .stwCtrl 0 1 0) = some (width, group) →
      (∀ side, (stw s.dev side).pend = [] ∧ (stw s.dev side).wait = []) → Yields (.stwTrainAgree passW passE) s (fun d =>
        d.sec.linkKey = true ∧ ∀ side, (stw d side).state = 2 ∧ (stw d side).width = width ∧ (stw d side).attempts = 0
          ∧ (stw d side).epoch = (max s.dev.west.stw.epoch s.dev.east.stw.epoch + 1) % 256
          ∧ d.rf side.code .stwLanes 0 31 16 = group.toNat))
    ∧ (∀ side (lane : Fin 16), (s.dev.page side blkStw).enable.getLsbD 2 = true → Yields (.stwWireFault side lane) s (fun d =>
        stw d side = { stw s.dev side with broken := bitSet (stw s.dev side).broken lane }
        ∧ (d.page side blkStw).src.getLsbD 2 = true ∧ d.safe.asserted = true))

/-- The receiving side of an end that is UP, and the host's stop point: a frame that fails its CRC is counted and answered with NAK,
a flit in order is taken, its acknowledgement and credits take effect; at the stop point COMMIT ends it and SLIP moves a lane by
one UI, elsewhere both are WRONG_STATE (R394, R395, R401). -/
def Obligations.StairwellFrames : Prop :=
  ∀ (s : State) (side : Side), s.dev.powered = true → s.dev.calm →
    let x := (s.dev.half side).stw
    (∀ f : StwRx, x.state = 2 →
      (f.crcOk = false → f.fourth = false → Yields (.stwFrame side f) s (fun d =>
        d.bare = (s.dev.bump side.code .stwCrcCnt).bare
        ∧ ∃ wire, Out.stw side true [x.epoch, x.width, 0, 0, 0, (x.rx + 255) % 256, 0, 0] wire ∈ d.out))
      ∧ (f.crcOk = true → f.epoch = x.epoch → f.width = x.width → f.nak = false → x.wait = [] → f.flit = true → f.seq = x.rx →
        Yields (.stwFrame side f) s (fun d => (d.half side).stw = { x with
            replay := ackFrames f.ackSeq x.replay
            credits := x.credits.set f.cvn.val (min 32 (x.credits.getD f.cvn.val 0 + f.credits))
            rx := (x.rx + 1) % 256 }
          ∧ ∃ wire, Out.stw side false [x.epoch, x.width, 0, 0, 0, ((x.rx + 1) % 256 + 255) % 256, f.vn.val, 1] wire ∈ d.out)))
    ∧ (∀ w (v : Word), s.dev.openTo w →
      (v.getLsbD 3 = true → x.training = true →
        (x.stop = true → Yields (.stwCommit w side v) s (fun d => Out.wrote stOk ∈ d.out
          ∧ (d.half side).stw = { x with stop := false }))
        ∧ (x.stop = false → Yields (.stwCommit w side v) s (fun d => d.bare = s.dev.bare ∧ Out.wrote stWrong ∈ d.out)))
      ∧ (∀ lane : Fin 16, v.getLsbD 16 = true →
        (x.stop = true → Writes (.stwSlip w side lane v) s
          (s.dev.setRf side.code .stwLane lane 5 0 ((s.dev.rf side.code .stwLane lane 5 0 + 1) % 48)))
        ∧ (x.stop = false → Yields (.stwSlip w side lane v) s (fun d => d.bare = s.dev.bare ∧ Out.wrote stWrong ∈ d.out))))

/-- Request packets of fabric ports: one to the half's own free Attic space reads the bytes there or stores its data, byte for
byte; one whose zero fields are not 0 is BAD_ARG; one across a link that is DOWN is answered DEGRADED; a response packet reaches
its port; a timer that ends synthesises TIMEOUT, the late response is discarded and counted; a flit that a parity error drops
leaves its request without a response. exec answers a next state for nocPortRequest, nocResponse, nocTimeout, nocLate and
flitError (R236, R283, R400, R405 to R408). -/
def Obligations.NocRows : Prop :=
  ∀ s : State, s.dev.powered = true → s.dev.calm →
    (∀ (die : Fin 4) (port : Fin 32) (packet : List Byte) (line : LineOutcome) (r : NocReq),
      s.dev.portLive die port = true → NocReq.parse packet = some r →
      let side := dieSide die
      let here : NocPend := { die := die, port := port, req := r, line := line }
      let joins (ready : Nat × List Byte) (d : Dev) : Prop :=
        (d.half side).stw.pend = (s.dev.half side).stw.pend ++ [{ here with ready := some ready }]
      (r.addr / 2 ^ 40 = side.code → r.lawful = false → Yields (.nocPortRequest die port packet line) s (fun d =>
        joins (stBadArg, []) d ∧ (d.half side).attic = (s.dev.half side).attic))
      ∧ (∀ a, r.addr = side.code * 2 ^ 40 + 0x100000000 + a → r.lawful = true → 0 < r.len → r.addr % 64 + r.len ≤ 64 →
        s.dev.stageSize side ≤ a → a + r.len ≤ 0x680000 → r.keyed = false →
        (r.write = false → line = .pass → (s.dev.half side).att.poison (a / 64) = false →
          Yields (.nocPortRequest die port packet line) s (fun d =>
            joins (stOk, memRead (s.dev.half side).attic a r.len) d ∧ (d.half side).attic = (s.dev.half side).attic))
        ∧ (r.write = true → r.data.length = r.len → Yields (.nocPortRequest die port packet line) s (fun d =>
            joins (stOk, []) d ∧ ∀ k, tget 0 (d.half side).attic k
              = if a ≤ k ∧ k < a + r.len then r.data.getD (k - a) 0 else tget 0 (s.dev.half side).attic k)))
      ∧ (r.addr / 2 ^ 40 = side.other.code → (s.dev.half side).stw.state = 4 → s.dev.nocHit side here = false →
        Yields (.nocPortRequest die port packet line) s (joins (stDegraded, []))))
    ∧ (∀ side (p : NocPend) rest, (s.dev.half side).stw.pend = p :: rest → p.cross = false →
      ((s.dev.half side).reset = 0 → (∀ st data, p.ready = some (st, data) → p.dropped = false → s.dev.writeWaits p = false →
        Yields (.nocResponse side p.req.txn) s (fun d => (d.half side).stw.pend = rest
          ∧ Out.noc p.die p.port (p.packet st data) ∈ d.out))
        ∧ (p.held = false → s.dev.mild side blkStw 3 → Yields (.nocTimeout side p.req.txn) s (fun d =>
          (d.half side).stw.pend = rest ∧ Out.noc p.die p.port (p.packet stTimeout []) ∈ d.out
          ∧ d.rg side.code .nocTimeoutCnt = (s.dev.bump side.code .nocTimeoutCnt).rg side.code .nocTimeoutCnt
          ∧ (p.ready.isSome = true → p.dropped = false →
            (d.half side).stw.late = (s.dev.half side).stw.late ++ [p.req.txn]))))
      ∧ Yields (.flitError side p.req.txn) s (fun d => (d.half side).stw.pend = { p with dropped := true } :: rest))
    ∧ (∀ side txn, (s.dev.half side).stw.late.contains txn = true → s.dev.mild side blkStw 4 →
      Yields (.nocLate side txn) s (fun d => (d.half side).stw.late = (s.dev.half side).stw.late.erase txn
        ∧ d.rg side.code .nocLateCnt = (s.dev.bump side.code .nocLateCnt).rg side.code .nocLateCnt))

/-! ## Control cores (chapter 16) -/

/-- The boot ROM of TW takes the valid slot with the higher version, A when they are equal, copies its image, applies the patch
set of the flash, or none when it does not verify, and starts the cores with their watchdogs at MAX; with no valid slot it raises
BOOT_FAIL and nothing starts. TE's boot ROM takes what TW sent. Firmware that reloads stops its cores and starts them again with
its region loaded. exec answers a next state for firmwareStart, teFirmwareStart, firmwareReload and firmwareReloadComplete (R412,
R413, R415, R423, R442). -/
def Obligations.FirmwareStarts : Prop :=
  ∀ s : State, s.dev.powered = true →
    let w := s.dev.west.tsk
    let patches (d : Dev) (side : Side) (slot : Nat) : Prop := ∀ u < 16,
      match s.dev.patchSet s.fuse.firmwareKey ({ image := s.dev.slotImage slot } : TskSt).imageBytes with
      | none => d.rg side.code .tskPatchAddr u = 0 ∧ ((s.dev.page side blkTsk).enable.getLsbD 4 = true →
          (d.page side blkTsk).src.getLsbD 4 = true)
      | some l => match l[u]? with
        | none => d.rg side.code .tskPatchAddr u = 0
        | some p => (d.rg side.code .tskPatchAddr u).getLsbD 31 = true ∧ d.rf side.code .tskPatchAddr u 19 3 = p.1 / 8 % 2 ^ 17
          ∧ d.rg side.code .tskPatchHi u ++ d.rg side.code .tskPatchLo u = p.2
    let runs (d : Dev) (side : Side) (slot : Nat) : Prop := (d.half side).tsk.started = true ∧ (d.half side).tsk.slot = slot
      ∧ (d.half side).tsk.reload = (s.dev.half side).tsk.reload ∧ patches d side slot
      ∧ ∀ c : Fin 4, ((d.half side).tsk.core c).on = true ∧ ((d.half side).tsk.core c).halted = false
        ∧ ((d.half side).tsk.core c).wdog = s.dev.wdogMax side c
    let loaded (d : Dev) (side : Side) (slot : Nat) : Prop :=
      (d.half side).tsk.version = s.dev.slotVersion slot ∧ (d.half side).tsk.image = s.dev.slotImage slot
    (w.started = false → s.dev.west.stuck.getLsbD blkTsk = false →
      (∀ a b : Bool, (a || b) = true →
        Yields (.firmwareStart a b) s (fun d =>
          let slot := if b = true ∧ (a = true → s.dev.slotVersion 0 < s.dev.slotVersion 1) then 1 else 0
          runs d .w slot ∧ loaded d .w slot ∧ d.safe.aliveEn = true ∧ d.clk.power = .run ∧ d.west.cel.chans = [1, 1, 1, 1]))
      ∧ ((s.dev.page .w blkTsk).enable.getLsbD 2 = true →
        Yields (.firmwareStart false false) s (fun d =>
          d.deep = s.dev.deep ∧ d.west.tsk.bare = w.bare ∧ (d.page .w blkTsk).src.getLsbD 2 = true)))
    ∧ (w.started = true → s.dev.east.tsk.started = false → s.dev.stwCarries = true → s.dev.east.stuck.getLsbD blkTsk = false →
      Yields (.teFirmwareStart true) s (fun d => runs d .e w.slot ∧ d.east.tsk.version = w.version ∧ d.east.tsk.image = w.image
        ∧ d.east.cel.chans = [1, 1, 1, 1])
      ∧ ((s.dev.page .e blkTsk).enable.getLsbD 2 = true → Yields (.teFirmwareStart false) s (fun d =>
        d.deep = s.dev.deep ∧ d.east.tsk.started = false ∧ (d.page .e blkTsk).src.getLsbD 2 = true)))
    ∧ (∀ side, (s.dev.half side).tsk.started = true → (s.dev.half side).tsk.reload = false →
      Yields (.firmwareReload side) s (fun d => (d.half side).tsk.bare = { (s.dev.half side).tsk with
          core0 := {}
          core1 := {}
          core2 := {}
          core3 := {}
          reload := true
          fired := [] }.bare))
    ∧ (∀ side, (s.dev.half side).tsk.started = true → (s.dev.half side).tsk.reload = true →
      Yields (.firmwareReloadComplete side) s (fun d =>
        let slot := (s.dev.half side).tsk.slot
        (d.half side).tsk.started = true ∧ (d.half side).tsk.reload = false ∧ (d.half side).tsk.slot = slot ∧ loaded d side slot
        ∧ patches d side slot ∧ ∀ c : Fin 4, ((d.half side).tsk.core c).on = true
          ∧ ((d.half side).tsk.core c).wdog = s.dev.wdogMax side c))

/-- The patch units: the Trapdoor alone writes them, a unit whose EN is 1 keeps address and word, and a change of EN starts the hash
over the image, whose end leaves nothing else changed (R422, R424, R427, R492). -/
def Obligations.PatchUnits : Prop :=
  ∀ (s : State) (side : Side) (u : Fin 16) (v : Word), s.dev.powered = true → s.dev.calm →
    let t := s.dev.half side |>.tsk
    let old := s.dev.rg side.code .tskPatchAddr u
    let left (part : Fin 3) (w : Writer) (status : Nat) : Prop := Yields (.tskPatchWrite w side u part v) s (fun d =>
      d.bare = s.dev.bare ∧ (d.half side).tsk.bare = t.bare ∧ Out.wrote status ∈ d.out)
    (∀ (part : Fin 3) w, s.dev.openTo w → w ≠ .poke → left part w stDenied)
    ∧ (s.dev.openTo .poke →
      (old.getLsbD 31 = false ∨ fld v 19 3 = fld old 19 3 → Yields (.tskPatchWrite .poke side u 0 v) s (fun d =>
        d.bare = (s.dev.setRg side.code .tskPatchAddr u (v &&& 0x800FFFF8)).bare ∧ Out.wrote stOk ∈ d.out
        ∧ (d.half side).tsk.bare = { t with hashing := t.hashing || (v.getLsbD 31 != old.getLsbD 31) }.bare))
      ∧ (old.getLsbD 31 = true → fld v 19 3 ≠ fld old 19 3 → left 0 .poke stWrong)
      ∧ (old.getLsbD 31 = true → left 1 .poke stWrong ∧ left 2 .poke stWrong)
      ∧ (old.getLsbD 31 = false → Writes (.tskPatchWrite .poke side u 1 v) s (s.dev.setRg side.code .tskPatchLo u v)
        ∧ Writes (.tskPatchWrite .poke side u 2 v) s (s.dev.setRg side.code .tskPatchHi u v)))
    ∧ (t.hashing = true → Yields (.fwHashRecompute side) s (fun d => d.bare = s.dev.bare
        ∧ (d.half side).tsk.bare = { t with hash := Config.sha384 (s.dev.patchedImage side), hashing := false }.bare))

/-- A core's watchdog: a kick at or below MAX - MIN reloads the count to MAX and changes nothing else; an earlier kick, and a count
that reaches 0, reset that core alone, which goes on from MAX, mark its task DORMANT and raise WDOG_EXPIRE; with the other three
fired within 100 ms the die reloads. Firmware alone sets MIN below MAX, any other writer is DENIED, and after reset MIN is 1 ms
and MAX 100 ms (R420, R421). -/
def Obligations.Watchdogs : Prop :=
  ∀ (s : State) (side : Side) (c : Fin 4), s.dev.powered = true → s.dev.calm →
    let t := (s.dev.half side).tsk
    let top := s.dev.wdogMax side c
    let fires (i : Instr) : Prop :=
      (s.dev.mild side blkTsk 0 → (s.dev.page side blkTsk).enable.getLsbD 0 = true → t.fired = [] →
        (∀ q, t.waiter q = none) → t.ready = [] → Yields i s (fun d =>
          d.bare = s.dev.bare ∧ (d.page side blkTsk).src.getLsbD 0 = true
          ∧ (d.half side).tsk.bare = { t.setCore c { on := true, wdog := top } with fired := [(c.val, t.tick)] }.bare
          ∧ ∀ n, (t.core c).task = some n → ((d.half side).tsk.task n).st = .dormant))
      ∧ ((∀ k < 4, k ≠ c.val → ∃ at_, (k, at_) ∈ t.fired ∧ t.tick < at_ + 10000) → Yields i s (fun d =>
          (d.half side).tsk.reload = true ∧ ∀ k : Fin 4, ((d.half side).tsk.core k).on = false))
    ((t.core c).on = true → t.halted = false →
      ((t.core c).wdog ≤ top - s.dev.wdogMin side c → Yields (.watchdogKick side c) s (fun d => d.bare = s.dev.bare
          ∧ (d.half side).tsk.bare = (t.setCore c { (t.core c) with wdog := top }).bare))
      ∧ (top - s.dev.wdogMin side c < (t.core c).wdog → fires (.watchdogKick side c))
      ∧ fires (.wdogExpire side c))
    ∧ (∀ v : Word, (fld v 15 0 < fld v 31 16 →
        Writes (.tskWdogCfgWrite .fw side c v) s (s.dev.setRg side.code .tskWdogCfg c v))
      ∧ (fld v 31 16 ≤ fld v 15 0 → Writes (.tskWdogCfgWrite .fw side c v) s s.dev)
      ∧ ∀ w, w ≠ .fw → s.dev.openTo w → Yields (.tskWdogCfgWrite w side c v) s (fun d =>
        d.bare = s.dev.bare ∧ Out.wrote stDenied ∈ d.out))
    ∧ State.reset.dev.wdogMin side c = 100 ∧ State.reset.dev.wdogMax side c = 10000

/-- The task unit of a die that is not halted: the tick moves the watchdogs and readies every task whose delay is over; an entry
posted to a queue with room joins its end, a full queue pushes it back and counts it; a task that yields waits or is DORMANT,
and the core takes the first allowed task (R416 to R418, R420). -/
def Obligations.TaskUnit : Prop :=
  ∀ (s : State) (side : Side), s.dev.powered = true → s.dev.calm →
    let t := (s.dev.half side).tsk
    t.halted = false →
    (∀ tick, Yields (.taskDelayExpire side tick) s (fun d => d.bare = s.dev.bare ∧ (d.half side).tsk.tick = max t.tick tick
      ∧ (∀ c : Fin 4, ((d.half side).tsk.core c).wdog
          = if (t.core c).on then (t.core c).wdog - (tick - t.tick) else (t.core c).wdog)
      ∧ ∀ n at_, (t.task n).st = .waiting → (t.task n).wake = some at_ → at_ ≤ max t.tick tick →
          ((d.half side).tsk.task n).st = .ready ∨ ((d.half side).tsk.task n).st = .running))
    ∧ (∀ (q : Fin 64) (e : BitVec 64), t.waiter q = none →
      ((tget {} t.queues q.val).entries.length < queueCap side q → Yields (.eventQueuePost side q e) s (fun d =>
        d.bare = s.dev.bare
        ∧ ∃ more, (tget {} (d.half side).tsk.queues q.val).entries = (tget {} t.queues q.val).entries ++ e :: more))
      ∧ (queueCap side q ≤ (tget {} t.queues q.val).entries.length → (s.dev.page side blkTsk).src.getLsbD 5 = true →
        Yields (.eventQueuePost side q e) s (fun d => d.bare = s.dev.bare
          ∧ (tget {} (d.half side).tsk.queues q.val).entries = (tget {} t.queues q.val).entries
          ∧ (tget {} (d.half side).tsk.queues q.val).push = min ((tget {} t.queues q.val).push + 1) (2 ^ 32 - 1))))
    ∧ (∀ (core : Fin 4) n arg, (t.core core).task = some n → (∀ q, t.waiter q = none) →
      (t.ready = [] →
        Yields (.taskYield side core 0 arg) s (fun d => ((d.half side).tsk.core core).task = none
          ∧ (d.half side).tsk.task n
            = { t.task n with st := .waiting, wake := some (t.tick + max 1 (arg % 2 ^ 24)), queue := none })
        ∧ ∀ e rest, (tget {} t.queues (arg % 64)).entries = e :: rest → Yields (.taskYield side core 1 arg) s (fun d =>
          ((d.half side).tsk.task n).got = e ∧ ((d.half side).tsk.task n).st ≠ .waiting))
      ∧ ((∀ k : Fin 4, k ≠ core → (t.core k).on = false ∨ (t.core k).task.isSome = true) → (t.core core).on = true →
        (∀ kv ∈ t.ready, n ∉ kv.2) → ∀ m, t.pick core = some m → ∀ how, 2 ≤ how →
          Yields (.taskYield side core how arg) s (fun d => d.bare = s.dev.bare
            ∧ ((d.half side).tsk.core core).task = some m ∧ ((d.half side).tsk.task m).st = .running
            ∧ ((d.half side).tsk.task n).st = .dormant)))

/-! ## Partial reset and sleep (chapter 17) -/

/-- RESET_PART of a half whose reset is not under way takes the named blocks and those that go with them, and is answered when they
have recovered; a reset of the Attic leaves it empty, one of FACE leaves no plan and the count of fires; the other half's reset
stays. RESET_PART_COMPLETE ends it with OK, with the Cellar out of training. SLEEP with no half locked and no load is answered,
then the always-on domain alone goes on: no sessions, an empty Attic, the counter as it was, and an alarm time sets AON_ALARM and
its enable. exec answers a next state for resetPart, resetPartComplete and sleep (R446 to R448, R450, R453). -/
def Obligations.PartialReset : Prop :=
  (
    ∀ s : State,
      (∀ (h : Hdr) half blocks, Admits s h 0xA0 true true false → half < 2 → 0 < blocks → blocks < 4096 →
        let side : Side := if half = 0 then .w else .e
        let b := resetBlocks (BitVec.ofNat 12 blocks)
        (s.dev.half side).reset = 0 → (half = 1 → s.dev.stwDown = false ∧ s.dev.east.tsk.halted = false) →
        Yields (.resetPart h half blocks) s (fun d =>
          (d.half side).reset = b ∧ (d.half side).resetReply = some (s.dev.replyTo 0xA0 h)
          ∧ (d.half side.other).reset = (s.dev.half side.other).reset ∧ d.slice side = none
          ∧ (b.getLsbD 2 = true → (d.half side).face = { fires := (s.dev.half side).face.fires })
          ∧ (b.getLsbD 7 = true → (d.half side).attic = [] ∧ (d.half side).tags = [])
          ∧ (b.getLsbD 8 = true → (d.half side).xts = {})
          ∧ (b.getLsbD 9 = true → (d.half side).haul = {})))
      ∧ (∀ (side : Side) (r : Reply) (checkFail : List Nat), s.dev.powered = true → s.dev.hst.linkUp = true →
        (s.dev.half side).reset ≠ 0 → ((s.dev.half side).reset.getLsbD 6 = true → (s.dev.half side).cel.state ≠ 1) →
        (s.dev.half side).resetReply = some r →
        (r.session = 0 ∨ (s.dev.session r.session).isSome = true) →
        Yields (.resetPartComplete side checkFail) s (fun d =>
          (d.half side).reset = 0 ∧ (d.half side).resetReply = none ∧ d.tells r stOk [])))
  ∧ (
    ∀ (s : State) (h : Hdr) (wakeAt : BitVec 64), Admits s h 0xB0 true true false → s.dev.west.locked = false →
      s.dev.east.locked = false → s.dev.cfg.load = none → (wakeAt = 0 ∨ s.dev.aon.count.toNat < wakeAt.toNat) →
      Yields (.sleep h wakeAt) s (fun d =>
        d.tells (s.dev.replyTo 0xB0 h) stOk [] ∧ d.clk.power = .sleep ∧ d.aon = { s.dev.aon with sleeping := true }
        ∧ d.hst.sessions = [] ∧ d.west.attic = [] ∧ d.east.attic = [] ∧ d.sec.idKey = s.dev.sec.idKey
        ∧ d.rf 0 .aonCfg 0 9 9 = (if wakeAt = 0 then 0 else 1) ∧ (wakeAt ≠ 0 → d.alarmAt = wakeAt.toNat)))

/-! ## Power, clocks, the always-on domain (chapter 17) -/

/-- WAKE_N, ALARM and, while LID_EN is 0, LID_OPEN of a module that is not asleep latch their bit of AON_EVENT. The lasting
conditions of the always-on page in a running module set their status bit, their page's ACTIVE bit and, when enabled, its SRC
bit; their ends clear status and ACTIVE; memories, links, keys and clocks stay (R451, R453, R454, R456, R459). -/
def Obligations.AlwaysOnEvents : Prop :=
  (
    ∀ s : State, s.dev.calm → s.dev.aon.sleeping = false →
      Yields .wakeN s (fun d => d.bare = (s.dev.setRf 0 .aonEvent 0 1 1 1).bare)
      ∧ (s.dev.aon.count.toNat = s.dev.alarmAt → s.dev.rf 0 .aonCfg 0 9 9 = 1 →
          Yields .alarm s (fun d => d.bare = (s.dev.setRf 0 .aonEvent 0 0 0 1).bare))
      ∧ (s.dev.rf 0 .aonCfg 0 8 8 = 0 → Yields .lidOpen s (fun d =>
          d.bare = ({ s.dev with aon := { s.dev.aon with lidOpen := true } }.setRf 0 .aonEvent 0 4 4 1).bare)))
  ∧ (
    ∀ s : State, s.dev.powered = true → s.dev.aon.sleeping = false →
      let begins (c : Instr) (i : Nat) (a : AonSt) : Prop := Yields c s (fun d =>
        d.deep = { s.dev with aon := a }.deep ∧ (d.page .w blkAon).active.getLsbD i = true
          ∧ ((s.dev.page .w blkAon).enable.getLsbD i = true → (d.page .w blkAon).src.getLsbD i = true))
      let ends (c : Instr) (i : Nat) (a : AonSt) : Prop := Yields c s (fun d =>
        d.deep = { s.dev with aon := a }.deep ∧ (d.page .w blkAon).active.getLsbD i = false)
      begins .vbakLow 1 { s.dev.aon with vbakLow := true }
      ∧ begins .overTemp 2 { s.dev.aon with overTemp := true }
      ∧ (s.dev.rf 0 .aonCfg 0 8 8 = 1 → begins .lidOpen 3 { s.dev.aon with lidOpen := true })
      ∧ ends .vbakRestore 1 { s.dev.aon with vbakLow := false }
      ∧ ends .overTempClear 2 { s.dev.aon with overTemp := false }
      ∧ ends .lidClosed 3 { s.dev.aon with lidOpen := false })

/-- A wake source of a sleeping module with VIN high clears SLEEPING, records its cause and starts the module: ALARM 1, WAKE_N 2,
the conditions 3. The counter and TIME_VALID go on as they were (R451, R452). -/
def Obligations.WakeStarts : Prop :=
  ∀ s : State, s.dev.clk.power = .sleep → s.dev.aon.sleeping = true → s.dev.aon.vinWarn = false →
    let wakes (c : Instr) (cause : Fin 4) : Prop := Yields c s (fun d =>
      d.clk.power = .starting ∧ d.aon.sleeping = false ∧ d.aon.wake = cause ∧ d.aon.count = s.dev.aon.count
        ∧ d.aon.timeValid = s.dev.aon.timeValid)
    wakes .wakeN 2
    ∧ (s.dev.aon.count.toNat = s.dev.alarmAt → s.dev.rf 0 .aonCfg 0 9 9 = 1 → wakes .alarm 1)
    ∧ wakes .vbakLow 3 ∧ wakes .overTemp 3
    ∧ (s.dev.rf 0 .aonCfg 0 8 8 = 1 → wakes .lidOpen 3)

/-- The supply and TRAP_N: VIN_WARN holds the Larder's writer and releases every halt, and VIN_WARN_CLEAR lets the writer go on;
VIN_CUT leaves the module off,
POWER_ON starts it with every wake cause 0, a module reset holds it and its end starts it; the always-on counter goes on as it
was. GOVERNOR_EVAL without host-assisted admission takes VINmin and the current, and a greatest admitted k below the present one
is in force at once (R307, R437, R438, R442 to R445). -/
def Obligations.SupplyRows : Prop :=
  (
    ∀ s : State,
      (s.dev.powered = true →
        Yields .vinWarn s (fun d => d.aon = { s.dev.aon with vinWarn := true } ∧ d.ldr.hold = true
          ∧ (∀ side, (d.half side).tsk.halted = false) ∧ (d.page .w blkAon).active.getLsbD 0 = true)
        ∧ Yields .vinWarnClear s (fun d => d.aon = { s.dev.aon with vinWarn := false } ∧ d.ldr.hold = false
          ∧ (d.page .w blkAon).active.getLsbD 0 = false)
        ∧ Yields .vinCut s (fun d => d.clk.power = .off ∧ d.aon = s.dev.aon ∧ d.pages = [] ∧ d.west.files = []
          ∧ (s.dev.ldr.burning = [] → d.dbg.flash = s.dev.dbg.flash ∧ d.ldr.records = s.dev.ldr.records))
        ∧ Yields .moduleReset s (fun d => d.clk.power = .reset ∧ d.aon = s.dev.aon ∧ d.west.files = []
          ∧ (s.dev.ldr.burning = [] → d.dbg.flash = s.dev.dbg.flash ∧ d.ldr.records = s.dev.ldr.records)))
      ∧ (∀ seamOk checkFail, s.dev.clk.power = .off → s.dev.aon.sleeping = false →
        Yields (.powerOn true seamOk checkFail) s (fun d =>
          d.clk.power = .starting ∧ d.aon = { s.dev.aon with vinWarn := false, wake := 0 }))
      ∧ (∀ seamOk checkFail, s.dev.clk.power = .reset →
        Yields (.moduleResetRelease seamOk checkFail) s (fun d => d.clk.power = .starting ∧ d.aon = s.dev.aon)))
  ∧ (
    ∀ (s : State) (mv ma k : Nat), s.dev.powered = true → s.dev.clk.hostMode = false → s.dev.clk.short = false →
      1 ≤ k → k < s.dev.clk.k → s.dev.clk.k ≤ 64 →
      s.dev.demandAt none (s.dev.freqAt none k) ≤ min 26000000 (2700 * mv) →
      (∀ j, k < j → j ≤ 64 → min 26000000 (2700 * mv) < s.dev.demandAt none (s.dev.freqAt none j)) →
      Yields (.governorEval mv ma) s (fun d => d.clk.k = k ∧ d.clk.vinMv = mv ∧ d.clk.ma = ma ∧ d.aon = s.dev.aon))

/-- With the power stages off or the module asleep, the crystal's rows change the always-on domain alone. Of a running module: the
fourth good window in a row qualifies REF; REF and ETHCLK lost are unqualified at once, and with ETHCLK the Ethernet link is
down; PLL-C unlocked puts the cores on the backup clock and relocked takes them off it; a phase move ends; the supply's rows set
and clear their conditions (R429 to R432, R434, R436, R452, R469). -/
def Obligations.CrystalRows : Prop :=
  (
    ∀ s : State, s.dev.clk.power = .off ∨ s.dev.clk.power = .sleep →
      let onlyAon (c : Instr) (a : AonSt) : Prop := Yields c s (fun d => d = { s.dev with out := [], aon := a })
      (s.dev.clk.power = .off → onlyAon .crystalDelayExpire { s.dev.aon with xoOk := true })
      ∧ onlyAon .xo32Stop { s.dev.aon with stopped := true, timeValid := false }
      ∧ onlyAon .xo32Resume { s.dev.aon with stopped := false })
  ∧ (
    ∀ s : State, s.dev.powered = true →
      (s.dev.clk.ref.ok = false → s.dev.clk.ref.good = 3 → Yields (.qualWindow .ref true) s (fun d =>
        d.deep = { s.dev with clk := { s.dev.clk with ref := { ok := true, good := 4 } } }.deep))
      ∧ (s.dev.clk.eth.ok = true → Yields (.clockEdgeLoss .eth) s (fun d =>
        d.clk.eth.ok = false ∧ d.hst.linkUp = false))
      ∧ (s.dev.clk.ref.ok = true → Yields (.clockEdgeLoss .ref) s (fun d =>
        d.clk.ref.ok = false ∧ d.clk.backup = true ∧ (d.page .w blkClk).active.getLsbD 0 = true
          ∧ d.west.cal.anchored = 0 ∧ d.east.cal.anchored = 0 ∧ d.west.cel.selfRef = true))
      ∧ (s.dev.clk.lock.getLsbD 3 = true → Yields (.pllUnlock .c) s (fun d =>
        d.deep = { s.dev with clk := { s.dev.clk with lock := bitClear s.dev.clk.lock 3, backup := true } }.deep))
      ∧ (s.dev.clk.ref.ok = true → s.dev.clk.lock.getLsbD 3 = false → s.dev.clk.lock.getLsbD 0 = false →
        Yields (.pllLock .c) s (fun d =>
        d.deep = { s.dev with clk := { s.dev.clk with lock := bitSet s.dev.clk.lock 3, backup := false } }.deep))
      ∧ Yields .phaseMoveComplete s (fun d => d.deep =
        { s.dev with clk := { s.dev.clk with phaseBusy := false, phase := s.dev.rf 0 .haulXmod 0 13 0 } }.deep)
      ∧ Yields .ilimit s (fun d => d.deep = s.dev.deep
        ∧ ((s.dev.page .w blkClk).enable.getLsbD 6 = true → (d.page .w blkClk).src.getLsbD 6 = true))
      ∧ Yields .railUv s (fun d => d.deep = s.dev.deep ∧ (d.page .w blkClk).active.getLsbD 5 = true)
      ∧ Yields .railInRegulation s (fun d => d.deep = s.dev.deep ∧ (d.page .w blkClk).active.getLsbD 5 = false))

/-! ## Faults, the SAFE net and self-test (chapter 18) -/

/-- The writes of a fault page: a 1 clears its SRC bit unless the source is a reset-only one or its condition holds; adjustable
severities and enables take their fields and fixed ones keep theirs; a page that does not exist is BAD_ARG (R17, R29, R456,
R458, R463, R469). -/
def Obligations.FaultPageWrites : Prop :=
  ∀ (s : State) (w : Writer) (side : Side) (blk : Nat) (v : Word), s.dev.powered = true → s.dev.calm → s.dev.openTo w →
    let p := s.dev.page side blk
    (pageOk side blk = true →
      Yields (.fltStatusClear w side blk v) s (fun d => d.bare = s.dev.bare ∧ Out.wrote stOk ∈ d.out
        ∧ (d.page side blk).severity = p.severity ∧ (d.page side blk).enable = p.enable
        ∧ ∀ i < 16, (d.page side blk).src.getLsbD i
            = (p.src.getLsbD i && !(v.getLsbD i && !resetOnly blk i && !p.active.getLsbD i)))
      ∧ Yields (.fltSeverityWrite w side blk v) s (fun d => d.bare = s.dev.bare ∧ Out.wrote stOk ∈ d.out
        ∧ (d.page side blk).src = p.src ∧ (d.page side blk).enable = p.enable
        ∧ ∀ i < 16, (srcClass blk i = some (.sev 3 true) → (d.page side blk).sev blk i = 3)
          ∧ ∀ n, srcClass blk i = some (.sev n false) → (d.page side blk).sev blk i = fld v (2 * i + 1) (2 * i))
      ∧ Yields (.fltEnableWrite w side blk v) s (fun d => d.bare = s.dev.bare ∧ Out.wrote stOk ∈ d.out
        ∧ (d.page side blk).src = p.src ∧ (d.page side blk).severity = p.severity
        ∧ ∀ i < 16, (d.page side blk).enable.getLsbD i = (srcFixed blk i || v.getLsbD i)))
    ∧ (pageOk side blk = false →
      let rejects (c : Instr) : Prop := Yields c s (fun d => d.bare = s.dev.bare ∧ Out.wrote stBadArg ∈ d.out)
      rejects (.fltStatusClear w side blk v) ∧ rejects (.fltSeverityWrite w side blk v) ∧ rejects (.fltEnableWrite w side blk v))

/-- What a page counts: a bucket leaks one, a window that ends below N clears its count, a minority copy is rewritten and counted,
and a word without majority asserts the SAFE net. A shadow that differs is overwritten with the data path's state, kept with it
in the record, and raised on its unit's page; a command that touches the unit then ends with WRONG_STATE and the unit's state
code, with no other effect. exec answers a next state for bucketLeak, countWindowEnd, revote and reconcile (R34, R35, R296, R297,
R325, R460, R461). -/
def Obligations.FaultCounts : Prop :=
  ∀ s : State, s.dev.powered = true → s.dev.calm →
    let rest (d : Dev) : Prop := d.bare = s.dev.bare
    (∀ side blk, pageOk side blk = true →
      (∀ idx : Fin 16, srcClass blk idx = some .bucket → Yields (.bucketLeak side blk idx) s (fun d => rest d
        ∧ tget 0 (d.page side blk).levels idx.val = tget 0 (s.dev.page side blk).levels idx.val - 1))
      ∧ ∀ unit, Yields (.countWindowEnd side blk unit) s (fun d => rest d ∧ tget 0 (d.page side blk).counts unit = 0
        ∧ ∀ other, other ≠ unit → tget 0 (d.page side blk).counts other = tget 0 (s.dev.page side blk).counts other))
    ∧ (∀ word,
      Yields (.revote word .agree) s (fun d => rest d ∧ d.safe.asserted = s.dev.safe.asserted)
      ∧ (pageOk (votedOwner word).1 (votedOwner word).2 = true → Yields (.revote word .minority) s (fun d => rest d
        ∧ (d.page (votedOwner word).1 (votedOwner word).2).voteCount
          = min ((s.dev.page (votedOwner word).1 (votedOwner word).2).voteCount + 1) 0xFFFF)))
    ∧ (∀ word, word = .life ∨ word = .clkSrc ∨ (∃ side blk, word = .page side blk ∧ pageOk side blk = true) →
      Yields (.revote word .none) s (fun d => d.safe.asserted = true
        ∧ (d.page (votedOwner word).1 (votedOwner word).2).noMaj = true ∧ d.deep = s.dev.deep))
    ∧ ((s.dev.page .w blkXts).enable.getLsbD 6 = true → Yields (.revote .keyCtl .none) s (fun d => d.safe.asserted = true
        ∧ d.sec.slots = [] ∧ d.sec.reinstall = true ∧ (d.page .w blkXts).src.getLsbD 6 = true))
    ∧ (∀ u : Unit34,
      let (side, blk, idx) := unitSource u
      let known (d : Dev) : Dev := Dev.bare { d with shadow := [], diverged := none }
      s.dev.mild side blk idx →
      (∀ upset : Option Nat, Yields (.reconcile u upset) s (fun d => known d = known s.dev
        ∧ d.shadowOf u = upset.getD (s.dev.unitCode u) ∧ (∀ v, unitKey v ≠ unitKey u → d.shadowOf v = s.dev.shadowOf v)
        ∧ if s.dev.diverges u then d.diverged = some (unitKey u, s.dev.shadowOf u, s.dev.unitCode u)
            ∧ ((s.dev.page side blk).enable.getLsbD idx = true → (d.page side blk).src.getLsbD idx = true)
          else d.diverged = s.dev.diverged))
      ∧ (∀ (h : Hdr) (c : Instr) (op : Nat) (far : Bool),
        ((u = .cfg ∧ ∃ target length, c = .configBegin h target length ∧ op = 0x20 ∧ far = decide (target = 0))
          ∨ (∃ slot body, u = .keySlot slot ∧ c = .keyInstall h slot body ∧ op = 0x40 ∧ far = false)
          ∨ (∃ id, u = .face side ∧ c = .planLoad h side.code id ∧ op = 0x50 ∧ far = decide (side = .e))) →
        Admits s h op true true far → s.dev.reconciles [side] = true → s.dev.diverges u = true → s.dev.mild .w blkHst 2 →
        Yields c s (fun d => known d = known (s.dev.accepted h) ∧ d.diverges u = false
          ∧ ∃ block, block.length = 32 ∧ d.tells (s.dev.replyTo op h) stWrong (block ++ beBytes 1 (s.dev.unitCode u)))))

/-- The SAFE net: SAFE_N low asserts it, every half that was ARMED, RUNNING or DRAINING is ABORTED and no ARM goes on; SAFE_N high
withdraws its request and the net stays asserted; the release comes when nothing requests the net, ALIVE then starts with a high
level and toggles at its edges while enabled; firmware alone enables it (R464 to R466, R468 to R470, R493). -/
def Obligations.SafeNet : Prop :=
  ∀ s : State, s.dev.powered = true → s.dev.calm →
    (s.dev.safe.asserted = false → Yields .safeN s (fun d => d.safe.safeNLow = true ∧ d.safe.asserted = true
      ∧ d.safe.releasing = false ∧ d.safe.slices = [] ∧ d.dbg.pins = false ∧ d.deep = Dev.deep { s.dev with
        safe := { s.dev.safe with safeNLow := true } }
      ∧ ∀ side, (d.half side).face.arming = false ∧ (d.half side).face.active = false
        ∧ ((s.dev.half side).face.active = true → (s.dev.half side).face.arming = false → (d.half side).face.state = .aborted)))
    ∧ Yields .safeNHigh s (fun d => d.bare = Dev.bare { s.dev with safe := { s.dev.safe with safeNLow := false } }
        ∧ d.safe.asserted = s.dev.safe.asserted ∧ (d.page .w blkSafe).active.getLsbD 0 = false
        ∧ (d.page .w blkSafe).req.getLsbD 0 = false ∧ (d.page .w blkSafe).src = (s.dev.page .w blkSafe).src)
    ∧ (s.dev.safe.releasing = true → s.dev.safeWanted = false → Yields .safeRelease s (fun d => d.safe = { s.dev.safe with
        asserted := false
        releasing := false
        alive := s.dev.safe.aliveEn }))
    ∧ (s.dev.safeWanted = true → Yields .safeRelease s (fun d => d.bare = s.dev.bare ∧ d.safe.asserted = true))
    ∧ Yields .aliveEdge s (fun d => d.bare = Dev.bare { s.dev with safe := { s.dev.safe with
        alive := s.dev.safe.aliveEn && !s.dev.safe.asserted && !s.dev.safe.alive } })
    ∧ (∀ v : Word, Writes (.safeCtrlWrite .fw v) s { s.dev with safe := { s.dev.safe with aliveEn := v.getLsbD 0 } })
    ∧ (∀ w (v : Word), w ≠ .fw → s.dev.openTo w → Yields (.safeCtrlWrite w v) s (fun d =>
        d.bare = s.dev.bare ∧ Out.wrote stDenied ∈ d.out))

/-- Self-test: BIST_RUN of every test of the table, in the state that the test needs, answers its outcome and its signature and
writes them to SAFE_BIST_LAST and the signature registers; a test that leaves nothing behind, and whose signature agrees, changes
nothing else. A slice of firmware's own starts in an idle half of a deployed module and shows while it runs; it ends with its
outcome in the same registers, and one whose signature differs is counted and raised. exec answers a next state for bistRun and
bistSlice (R473 to R478, R480). -/
def Obligations.SelfTest : Prop :=
  ∀ (s : State) (signature : BitVec 64),
    let logs (d : Dev) (side : Side) (kind unit pass : Nat) : Dev :=
      Dev.setRg (Dev.setRg (d.setRg 0 .safeBistLast 0 (pack [(31, 1), (30, pass), (29, side.code), (25, kind), (0, unit)]))
        0 .safeBistSigLo 0 (signature.truncate 32)) 0 .safeBistSigHi 0 (BitVec.ofNat 32 (signature.toNat / 2 ^ 32))
    (∀ (h : Hdr) (test arg : Nat), Admits s h 0x90 true true (decide (bistSide test arg = .e)) → s.fuse.life.open = true →
      bistArgOk test arg = true → s.dev.west.locked = false → s.dev.east.locked = false →
      s.dev.west.reset = 0 → s.dev.east.reset = 0 → (test = 3 ∨ test = 4 → s.dev.cfg.state = 0) →
      (test = 5 → s.dev.released = false) →
      (test = 7 → if arg = 8 then s.dev.west.stw.state ≠ 2 else s.dev.quadMode (bistSide test arg) (arg % 4) = 0) →
      (∀ agrees : Bool, Yields (.bistRun h test arg signature agrees) s (fun d =>
        let pass := b1 (agrees && (decide (test ≠ 10) || s.dev.safe.repair.faulty.isEmpty))
        d.tells (s.dev.replyTo 0x90 h) stOk (beBytes 1 pass ++ List.replicate 7 0#8 ++ beBytes 8 signature.toNat)
        ∧ ∀ r ∈ [Rg.safeBistLast, .safeBistSigLo, .safeBistSigHi],
            d.rg 0 r = (logs s.dev (bistSide test arg) 0 test pass).rg 0 r))
      ∧ (test ∈ [1, 2, 5, 6, 8, 9] →
        Answers (.bistRun h test arg signature true) s h 0x90 stOk (1#8 :: List.replicate 7 0#8 ++ beBytes 8 signature.toNat)
          (logs (s.dev.accepted h) (bistSide test arg) 0 test 1)))
    ∧ (∀ side kind unit, s.dev.powered = true → s.dev.calm →
      let slice : Slice := { side := side, kind := kind, unit := unit }
      let without : Dev := s.dev.abandon side
      (s.fuse.life = .deployed → (s.dev.half side).tsk.started = true → (s.dev.half side).tsk.halted = false →
        (s.dev.half side).quiet = true → (s.dev.half side).face.flushing = false → (s.dev.half side).cal.sweeping = false →
        (∀ c ∈ s.dev.hst.cals, c.waits side = false) → (s.dev.half side).reset = 0 → s.dev.safe.asserted = false →
        s.dev.slice side = none → sliceUnit kind unit side = true → Yields (.bistSlice side kind unit none) s (fun d =>
          d.bare = Dev.bare { s.dev with safe := { s.dev.safe with slices := slice :: s.dev.safe.slices } }))
      ∧ (s.dev.slice side = some slice → unit < 65536 →
        Yields (.bistSlice side kind unit (some { signature := signature })) s (fun d =>
          d.bare = (logs without side kind unit 1).bare)
        ∧ (kind ≠ 5 → s.dev.mild .w blkSafe 2 → (s.dev.page .w blkSafe).enable.getLsbD 2 = true →
          Yields (.bistSlice side kind unit (some { signature := signature, agrees := false })) s (fun d =>
            d.bare = ((logs without side kind unit 0).bump 0 .safeBistStatus 0 31 16).bare
            ∧ (d.page .w blkSafe).src.getLsbD 2 = true))))

/-! ## The Trapdoor (chapter 19) -/

/-- IDCODE answers the part and the life cycle in every state; CHALLENGE sets a fresh nonce, which the next TOKEN uses up: one whose
signature by the service key verifies grants its scope until it expires, any other is DENIED and raised; BLANK and RETIRED deny
both; a request whose CRC does not fit is MALFORMED with no effect; an idle line changes nothing, and a broken frame nothing but
the log of long lows. exec answers a next state for idcode, challenge, token, tokenExpire, trapLineIdle and framingError (R444,
R482 to R485). -/
def Obligations.TrapdoorAccess : Prop :=
  ∀ (s : State) (crc : Byte), s.dev.powered = true → s.dev.calm →
    let shut := s.fuse.life = .blank ∨ s.fuse.life = .retired
    let kept (c : Instr) (o : Out) : Prop := Yields c s (fun d => d.bare = s.dev.bare ∧ o ∈ d.out)
    let dbg (x : DbgSt) : Dev := Dev.bare { s.dev with dbg := x }
    (s.dev.trapTakes [0x01] crc →
      kept (.idcode crc) (trapReply stOk (beBytes 4 (s.dev.rg 0 .identPart).toNat ++ beBytes 1 s.fuse.life.code)))
    ∧ (s.dev.trapTakes [0x02] crc → (shut → kept (.challenge crc) (trapReply stDenied []))
      ∧ (¬shut → Yields (.challenge crc) s (fun d => ∃ n < 2 ^ 256, trapReply stOk (beBytes 32 n) ∈ d.out
        ∧ d.bare = dbg { s.dev.dbg with nonce := some n })))
    ∧ (∀ (scope reserved : Word) (sig : List Byte),
      s.dev.trapTakes (0x03 :: beBytes 4 scope.toNat ++ beBytes 4 reserved.toNat ++ sig) crc →
      (shut → kept (.token scope reserved sig crc) (trapReply stDenied []))
      ∧ (¬shut → s.dev.mild .w blkDbg 0 → (s.dev.page .w blkDbg).enable.getLsbD 0 = true →
        let good : Bool := s.dev.dbg.nonce.any fun n => decide (reserved = 0) && decide (scope.toNat < 32)
          && verifies s.fuse.serviceKey (beBytes 32 n ++ beBytes 48 s.dev.idKeyHash ++ beBytes 4 scope.toNat) sig
        Yields (.token scope reserved sig crc) s (fun d =>
          if good then trapReply stOk [] ∈ d.out ∧ d.bare = dbg { s.dev.dbg with nonce := none, scope := some scope }
          else trapReply stDenied [] ∈ d.out ∧ d.bare = dbg { s.dev.dbg with nonce := none }
            ∧ (d.page .w blkDbg).src.getLsbD 0 = true)))
    ∧ (s.dev.west.stuck.getLsbD blkDbg = false →
      (crc8 [0x01] ≠ crc.toNat → kept (.idcode crc) (trapReply stMalformed []))
      ∧ (crc8 [0x02] ≠ crc.toNat → kept (.challenge crc) (trapReply stMalformed []))
      ∧ ∀ (scope reserved : Word) (sig : List Byte),
        crc8 (0x03 :: beBytes 4 scope.toNat ++ beBytes 4 reserved.toNat ++ sig) ≠ crc.toNat →
        kept (.token scope reserved sig crc) (trapReply stMalformed []))
    ∧ Yields .tokenExpire s (fun d => d.bare = dbg { s.dev.dbg with scope := none })
    ∧ Yields .trapLineIdle s (fun d => d.bare = s.dev.bare)
    ∧ (∀ wide, Yields (.framingError wide) s (fun d => d.bare = dbg { s.dev.dbg with
        lows := s.dev.dbg.lows + b1 (wide && s.dev.west.tsk.started && !s.dev.west.tsk.halted) }))

/-- Halts: HALT and a breakpoint stop every core of a T-die with their cause, STEP runs a halted die and halts it again, RESUME lets
it go on with its watchdogs at 1 ms or more; STEP of a running die is WRONG_STATE; without the grant each is DENIED. exec answers
a next state for halt, step, resume and breakpoint (R484, R487 to R490, R492). -/
def Obligations.Halts : Prop :=
  ∀ (s : State) (side : Side) (core : Fin 4) (crc : Byte), s.dev.powered = true → s.dev.calm →
    let t := (s.dev.half side).tsk
    let stopped (d : Dev) (cause : Nat) : Prop := (d.half side).tsk.bare = (t.setHalt true).bare
      ∧ (s.dev.mild .w blkDbg 1 → d.rf 0 .dbgStatus 0 5 4 = cause)
    let ask (op : Byte) (c : Fin 4) : Prop := s.dev.trapTakes (op :: beBytes 1 (16 * side.code + c)) crc
    (s.dev.granted s.fuse.life scHalt = true →
      (ask 0x20 core → Yields (.halt side core crc) s (fun d => stopped d 1 ∧ trapReply stOk [] ∈ d.out
        ∧ d.dbg.halter = some (side, core.val)))
      ∧ (t.halted = true →
        (ask 0x21 core → Yields (.step side core crc) s (fun d => stopped d 1 ∧ ∃ pc, trapReply stOk (beBytes 8 pc) ∈ d.out))
        ∧ (ask 0x22 0 → Yields (.resume side crc) s (fun d => trapReply stOk [] ∈ d.out ∧ (d.half side).tsk.halted = false
          ∧ ∀ c : Fin 4, ((d.half side).tsk.core c).wdog = max 100 (t.core c).wdog
            ∧ ((d.half side).tsk.core c).on = (t.core c).on)))
      ∧ (t.halted = false →
        (ask 0x21 core → Yields (.step side core crc) s (fun d =>
          d.bare = s.dev.bare ∧ (d.half side).tsk.bare = t.bare ∧ trapReply stWrong [] ∈ d.out))
        ∧ (ask 0x22 0 → Yields (.resume side crc) s (fun d =>
          d.bare = s.dev.bare ∧ (d.half side).tsk.bare = t.bare ∧ trapReply stOk [] ∈ d.out))))
    ∧ (s.dev.granted s.fuse.life scHalt = false →
      let denied (c : Instr) : Prop := Yields c s (fun d =>
        d.bare = s.dev.bare ∧ (d.half side).tsk.bare = t.bare ∧ trapReply stDenied [] ∈ d.out)
      (ask 0x20 core → denied (.halt side core crc)) ∧ (ask 0x21 core → denied (.step side core crc))
        ∧ (ask 0x22 0 → denied (.resume side crc)))
    ∧ ((t.core core).on = true → t.halted = false →
      ((∃ u : Fin 16, (s.dev.rg side.code .tskPatchAddr u).getLsbD 31 = true) →
        Yields (.breakpoint side core) s (fun d => stopped d 2))
      ∧ ((∀ u : Fin 16, (s.dev.rg side.code .tskPatchAddr u).getLsbD 31 = false) →
        Yields (.breakpoint side core) s (fun d => d.bare = s.dev.bare ∧ (d.half side).tsk.bare = t.bare)))

/-- Pin access under its grant: it begins only UNCONFIGURED with no half locked; a pin that is set keeps OE and OUT, any other pin
as before, and comparator pins cannot be set; a GPIO or OSPI pin reads OUT while set drives it and the board's level otherwise, a
drive pair what was set or what its channel drives; the end of the mode drops what was set. FLASH writes 256 bytes below the end
of the patch set region and nothing else. Without the grant each is DENIED. exec answers a next state for pinsEnter, pinsExit,
pinsSet, pinsGet and flash (R411, R486, R493). -/
def Obligations.PinsAndFlash : Prop :=
  ∀ (s : State) (crc : Byte), s.dev.powered = true → s.dev.calm →
    let dbg (x : DbgSt) : Dev := Dev.bare { s.dev with dbg := x }
    let kept (c : Instr) (status : Nat) (l : List Byte) : Prop :=
      Yields c s (fun d => d.bare = s.dev.bare ∧ trapReply status l ∈ d.out)
    let asks (sub : Byte) (l : List Byte) : Prop := s.dev.trapTakes (0x30 :: sub :: l) crc
    let mode (rest : BitVec 24) (sub : Byte) (p : Prop) : Prop := asks sub (beBytes 3 rest.toNat) → p
    let pinned (pin : Nat) : Option (Nat × Nat × Nat) := s.dev.dbg.drive.find? fun x => decide (x.1 = pin)
    (s.dev.granted s.fuse.life scPins = true →
      (∀ rest, mode rest 0 (
        (s.dev.cfg.state = 0 → s.dev.west.locked = false → s.dev.east.locked = false → Yields (.pinsEnter rest crc) s (fun d =>
          d.bare = dbg { s.dev.dbg with pins := !s.dev.safe.asserted } ∧ trapReply stOk [0] ∈ d.out))
        ∧ (s.dev.cfg.state ≠ 0 ∨ s.dev.west.locked = true ∨ s.dev.east.locked = true → kept (.pinsEnter rest crc) stWrong [])))
      ∧ (∀ rest, mode rest 1 (Yields (.pinsExit rest crc) s (fun d =>
          d.bare = dbg { s.dev.dbg with pins := false, drive := [] } ∧ trapReply stOk [0] ∈ d.out)))
      ∧ (∀ pin (value : Byte), asks 2 (beBytes 2 pin ++ [value]) →
        (s.dev.dbg.pins = false → kept (.pinsSet pin value crc) stWrong [])
        ∧ (s.dev.dbg.pins = true →
          (pinKind pin = none → kept (.pinsSet pin value crc) stBadArg [])
          ∧ ∀ k n, pinKind pin = some (k, n) →
            (k = 3 ∨ k = 4 → kept (.pinsSet pin value crc) stBadArg [])
            ∧ (k ≠ 3 → k ≠ 4 → Yields (.pinsSet pin value crc) s (fun d => trapReply stOk [0] ∈ d.out
              ∧ d.dbg.drive.find? (fun x => decide (x.1 = pin)) = some (pin, b1 (value.getLsbD 1), b1 (value.getLsbD 0))
              ∧ ∀ other, other ≠ pin → d.dbg.drive.find? (fun x => decide (x.1 = other)) = pinned other))))
      ∧ (∀ pin (value : Byte) (level : Bool), asks 3 (beBytes 2 pin ++ [value]) →
        (s.dev.dbg.pins = false → kept (.pinsGet pin value level crc) stWrong [])
        ∧ (s.dev.dbg.pins = true →
          (pinKind pin = none → kept (.pinsGet pin value level crc) stBadArg [])
          ∧ ∀ k n, pinKind pin = some (k, n) →
            let reads (b : Nat) : Prop := kept (.pinsGet pin value level crc) stOk (beBytes 1 b)
            ((k = 1 ∨ k = 2) → (∀ oe out, pinned pin = some (pin, oe, out) → out < 2 → reads out)
              ∧ (pinned pin = none →
                let p := s.dev.pins (chanSide n) (n % 256)
                reads (b1 (if k = 1 then p.1 != (s.dev.rg (chanSide n).code .tchCfg (n % 256)).getLsbD 1 else p.2))))
            ∧ (k ≠ 1 → k ≠ 2 → (∀ out, pinned pin = some (pin, 1, out) → out < 2 → reads out)
              ∧ ((pinned pin = none ∨ ∃ out, pinned pin = some (pin, 0, out)) → reads (b1 level))))))
    ∧ (s.dev.granted s.fuse.life scPins = false →
      (∀ rest, mode rest 0 (kept (.pinsEnter rest crc) stDenied []) ∧ mode rest 1 (kept (.pinsExit rest crc) stDenied []))
      ∧ ∀ pin (value : Byte), (asks 2 (beBytes 2 pin ++ [value]) → kept (.pinsSet pin value crc) stDenied [])
        ∧ ∀ level, asks 3 (beBytes 2 pin ++ [value]) → kept (.pinsGet pin value level crc) stDenied [])
    ∧ (∀ addr (data : List Byte), s.dev.trapTakes (0x40 :: beBytes 4 addr ++ data) crc →
      (s.dev.granted s.fuse.life scFlash = true → (data.length ≠ 256 → kept (.flash addr data crc) stMalformed [])
        ∧ (data.length = 256 → s.dev.storing = false →
          (addr + 256 ≤ 0x2100000 → Yields (.flash addr data crc) s (fun d => trapReply stOk [] ∈ d.out
            ∧ d.dbg.scope = s.dev.dbg.scope ∧ ∀ k, tget 0xFF d.dbg.flash k
              = if addr ≤ k ∧ k < addr + 256 then data.getD (k - addr) 0 else tget 0xFF s.dev.dbg.flash k))
          ∧ (0x2100000 < addr + 256 → kept (.flash addr data crc) stDenied [])))
      ∧ (s.dev.granted s.fuse.life scFlash = false → kept (.flash addr data crc) stDenied []))
end

