-- ==== Sys2Proof/Laws/Table.lean ====
section
/-! SUPPORT. What the table and byte memory operations do: reads after writes, and the canonical form they keep. -/
namespace Sys2Proof.Machine

variable {α : Type}

theorem tgetF_tput_same (d : Nat → α) (t : Tbl α) (k : Nat) (v : α) : tgetF d (tput t k v) k = v := by
  induction t with
  | nil => simp [tput, tgetF]
  | cons x t ih =>
    obtain ⟨a, w⟩ := x
    simp only [tput]
    split
    · simp [tgetF]
    · split
      · simp [tgetF]
      · rename_i h1 h2
        simp only [tgetF]
        rw [if_neg (fun h => h2 h.symm)]
        exact ih

theorem tgetF_tput_ne (d : Nat → α) (t : Tbl α) {k j : Nat} (v : α) (h : j ≠ k) :
    tgetF d (tput t k v) j = tgetF d t j := by
  induction t with
  | nil => simp [tput, tgetF, Ne.symm h]
  | cons x t ih =>
    obtain ⟨a, w⟩ := x
    simp only [tput]
    split
    · simp [tgetF, Ne.symm h]
    · split
      · rename_i h2
        subst h2
        simp [tgetF, Ne.symm h]
      · simp only [tgetF, ih]

theorem tgetF_filter (d : Nat → α) (t : Tbl α) (p : Nat → Bool) (j : Nat) :
    tgetF d (t.filter fun kv => p kv.1) j = if p j then tgetF d t j else d j := by
  induction t with
  | nil => simp [tgetF]
  | cons x t ih =>
    obtain ⟨a, w⟩ := x
    by_cases hp : p a
    · rw [List.filter_cons_of_pos (by simpa using hp)]
      simp only [tgetF]
      split
      · rename_i h; subst h; simp [hp]
      · exact ih
    · rw [List.filter_cons_of_neg (by simpa using hp), ih]
      simp only [tgetF]
      by_cases h : a = j
      · subst h; simp [hp]
      · simp [h]

variable [DecidableEq α]

/-- A write is read back. -/
@[simp] theorem tgetF_tsetF_same (d : Nat → α) (t : Tbl α) (k : Nat) (v : α) : tgetF d (tsetF d t k v) k = v := by
  unfold tsetF
  split
  · rename_i h
    rw [tgetF_filter d t (fun a => decide (a ≠ k))]
    simp [h]
  · exact tgetF_tput_same d t k v

/-- A write leaves every other key. -/
theorem tgetF_tsetF_ne (d : Nat → α) (t : Tbl α) {k j : Nat} (v : α) (h : j ≠ k) :
    tgetF d (tsetF d t k v) j = tgetF d t j := by
  unfold tsetF
  split
  · rw [tgetF_filter d t (fun a => decide (a ≠ k))]
    simp [h]
  · exact tgetF_tput_ne d t v h

@[simp] theorem tget_tset_same (d : α) (t : Tbl α) (k : Nat) (v : α) : tget d (tset d t k v) k = v :=
  tgetF_tsetF_same _ t k v

theorem tget_tset_ne (d : α) (t : Tbl α) {k j : Nat} (v : α) (h : j ≠ k) : tget d (tset d t k v) j = tget d t j :=
  tgetF_tsetF_ne _ t v h

omit [DecidableEq α] in
theorem tget_nil (d : α) (k : Nat) : tget d [] k = d := rfl

/-! ## The canonical form -/

/-- The canonical form, said of the entries: keys rise, and no entry is its default. -/
theorem twf_iff (d : Nat → α) (t : Tbl α) :
    twf d t = true ↔ t.Pairwise (fun x y => x.1 < y.1) ∧ ∀ x ∈ t, x.2 ≠ d x.1 := by
  induction t with
  | nil => simp [twf]
  | cons x t ih =>
    obtain ⟨a, v⟩ := x
    cases t with
    | nil => simp [twf]
    | cons y t =>
      obtain ⟨b, w⟩ := y
      simp only [twf, Bool.and_eq_true, decide_eq_true_eq, ih]
      constructor
      · rintro ⟨⟨h1, h2⟩, h3, h4⟩
        refine ⟨List.pairwise_cons.mpr ⟨?_, h3⟩, ?_⟩
        · intro z hz
          rcases List.mem_cons.mp hz with rfl | hz
          · exact h2
          · exact Nat.lt_trans h2 ((List.pairwise_cons.mp h3).1 z hz)
        · intro z hz
          rcases List.mem_cons.mp hz with rfl | hz
          · exact h1
          · exact h4 z hz
      · rintro ⟨h1, h2⟩
        have h3 := List.pairwise_cons.mp h1
        exact ⟨⟨h2 (a, v) (by simp), h3.1 (b, w) (by simp)⟩, h3.2, fun z hz => h2 z (by simp [hz])⟩

theorem twf_filter (d : Nat → α) (t : Tbl α) (p : Nat × α → Bool) (h : twf d t = true) : twf d (t.filter p) = true := by
  rw [twf_iff] at h ⊢
  exact ⟨h.1.filter p, fun x hx => h.2 x ((List.mem_filter.mp hx).1)⟩

omit [DecidableEq α] in
theorem mem_tput {t : Tbl α} {k : Nat} {v : α} {x : Nat × α} (h : x ∈ tput t k v) : x = (k, v) ∨ x ∈ t := by
  induction t with
  | nil => simpa [tput] using h
  | cons y t ih =>
    obtain ⟨a, w⟩ := y
    simp only [tput] at h
    split at h
    · simpa using h
    · split at h
      · rcases List.mem_cons.mp h with h | h
        · exact .inl h
        · exact .inr (List.mem_cons_of_mem _ h)
      · rcases List.mem_cons.mp h with h | h
        · exact .inr (h ▸ List.mem_cons_self)
        · exact (ih h).imp id (List.mem_cons_of_mem _)

omit [DecidableEq α] in
theorem pairwise_tput {t : Tbl α} (k : Nat) (v : α) (h : t.Pairwise fun x y => x.1 < y.1) :
    (tput t k v).Pairwise fun x y => x.1 < y.1 := by
  induction t with
  | nil => simp [tput]
  | cons y t ih =>
    obtain ⟨a, w⟩ := y
    have h' := List.pairwise_cons.mp h
    simp only [tput]
    split
    · rename_i hk
      refine List.pairwise_cons.mpr ⟨?_, h⟩
      intro z hz
      rcases List.mem_cons.mp hz with rfl | hz
      · exact hk
      · exact Nat.lt_trans hk (h'.1 z hz)
    · split
      · rename_i hk
        subst hk
        exact List.pairwise_cons.mpr ⟨h'.1, h'.2⟩
      · rename_i h1 h2
        refine List.pairwise_cons.mpr ⟨?_, ih h'.2⟩
        intro z hz
        rcases mem_tput hz with rfl | hz
        · exact Nat.lt_of_le_of_ne (Nat.le_of_not_lt h1) (fun e => h2 e.symm)
        · exact h'.1 z hz

/-- A write keeps the canonical form. -/
theorem twf_tsetF (d : Nat → α) (t : Tbl α) (k : Nat) (v : α) (h : twf d t = true) : twf d (tsetF d t k v) = true := by
  unfold tsetF
  split
  · exact twf_filter d t _ h
  · rename_i hv
    rw [twf_iff] at h ⊢
    refine ⟨pairwise_tput k v h.1, fun x hx => ?_⟩
    rcases mem_tput hx with rfl | hx
    · exact hv
    · exact h.2 x hx

theorem twf_tdropRange (d : Nat → α) (t : Tbl α) (lo hi : Nat) (h : twf d t = true) :
    twf d (tdropRange t lo hi) = true := twf_filter d t _ h

theorem mem_zipIdx_blit {d : α} {base n : Nat} {vals : List α} {x : Nat × α}
    (h : x ∈ (vals.zipIdx n).filterMap fun vi => if vi.1 = d then none else some (base + vi.2, vi.1)) :
    base + n ≤ x.1 ∧ x.1 < base + n + vals.length ∧ x.2 ≠ d := by
  rw [List.mem_filterMap] at h
  obtain ⟨⟨v, i⟩, hm, hf⟩ := h
  have hi := List.mem_zipIdx hm
  simp only at hf
  split at hf
  · cases hf
  · cases hf
    refine ⟨by simp; omega, by simp; omega, ?_⟩
    assumption

theorem pairwise_blit (d : α) (base n : Nat) (vals : List α) :
    ((vals.zipIdx n).filterMap fun vi => if vi.1 = d then none else some (base + vi.2, vi.1)).Pairwise
      fun x y => x.1 < y.1 := by
  induction vals generalizing n with
  | nil => simp
  | cons v vals ih =>
    simp only [List.zipIdx_cons, List.filterMap_cons]
    split
    · exact ih (n + 1)
    · rename_i b hb
      split at hb
      · cases hb
      · cases hb
        refine List.pairwise_cons.mpr ⟨fun z hz => ?_, ih (n + 1)⟩
        have := (mem_zipIdx_blit hz).1
        simp; omega

/-- A run of writes keeps the canonical form. -/
theorem twf_tblit (d : α) (t : Tbl α) (base : Nat) (vals : List α) (h : twf (fun _ => d) t = true) :
    twf (fun _ => d) (tblit d t base vals) = true := by
  rw [twf_iff] at h ⊢
  unfold tblit
  have hm (x) (hx : x ∈ vals.zipIdx.filterMap fun vi => if vi.1 = d then none else some (base + vi.2, vi.1)) :=
    mem_zipIdx_blit hx
  constructor
  · rw [List.pairwise_append, List.pairwise_append]
    refine ⟨⟨h.1.filter _, pairwise_blit d base 0 vals, ?_⟩, h.1.filter _, ?_⟩
    · intro a ha b hb
      have := (List.mem_filter.mp ha).2
      simp only [decide_eq_true_eq] at this
      have := (hm b hb).1
      omega
    · intro a ha b hb
      have hb' := (List.mem_filter.mp hb).2
      simp only [decide_eq_true_eq] at hb'
      rcases List.mem_append.mp ha with ha | ha
      · have ha' := (List.mem_filter.mp ha).2
        simp only [decide_eq_true_eq] at ha'
        omega
      · have := (hm a ha).2.1
        omega
  · intro x hx
    rcases List.mem_append.mp hx with hx | hx
    · rcases List.mem_append.mp hx with hx | hx
      · exact h.2 x ((List.mem_filter.mp hx).1)
      · exact (hm x hx).2.2
    · exact h.2 x ((List.mem_filter.mp hx).1)

/-- A write of bytes keeps the canonical form of a memory. -/
theorem memWrite_wf (m : Tbl Byte) (a : Nat) (bs : List Byte) (h : Memory.wf m = true) :
    Memory.wf (memWrite m a bs) = true := twf_tblit 0 m a bs h

theorem tset_wf (m : Tbl Byte) (a : Nat) (b : Byte) (h : Memory.wf m = true) : Memory.wf (tset 0 m a b) = true :=
  twf_tsetF _ m a b h

/-! ## Reads after a run of writes -/

omit [DecidableEq α] in
theorem tgetF_append (d : Nat → α) (t u : Tbl α) (k : Nat) (h : ∀ x ∈ t, x.1 ≠ k) :
    tgetF d (t ++ u) k = tgetF d u k := by
  induction t with
  | nil => rfl
  | cons x t ih =>
    obtain ⟨a, w⟩ := x
    have ha : a ≠ k := h (a, w) (by simp)
    simp only [List.cons_append, tgetF, if_neg ha]
    exact ih fun x hx => h x (by simp [hx])

omit [DecidableEq α] in
theorem tgetF_append_left (d : Nat → α) (t u : Tbl α) (k : Nat) (h : ∀ x ∈ u, x.1 ≠ k) :
    tgetF d (t ++ u) k = tgetF d t k := by
  induction t with
  | nil =>
    simp only [List.nil_append, tgetF]
    induction u with
    | nil => rfl
    | cons x u ih =>
      obtain ⟨a, w⟩ := x
      have ha : a ≠ k := h (a, w) (by simp)
      simp only [tgetF, if_neg ha]
      exact ih fun x hx => h x (by simp [hx])
  | cons x t ih =>
    obtain ⟨a, w⟩ := x
    simp only [List.cons_append, tgetF, ih]

theorem tget_blit (d : α) (base n : Nat) (vals : List α) (i : Nat) (h : i < vals.length) :
    tgetF (fun _ => d) ((vals.zipIdx n).filterMap fun vi => if vi.1 = d then none else some (base + vi.2, vi.1))
      (base + n + i) = vals[i] := by
  induction vals generalizing n i with
  | nil => simp at h
  | cons v vals ih =>
    simp only [List.zipIdx_cons, List.filterMap_cons]
    cases i with
    | zero =>
      by_cases hv : v = d
      · subst hv
        simp only [↓reduceIte, Nat.add_zero, List.getElem_cons_zero]
        have hno : ∀ x ∈ (vals.zipIdx (n + 1)).filterMap fun vi => if vi.1 = v then none else some (base + vi.2, vi.1),
            x.1 ≠ base + n := fun x hx => by
          have := (mem_zipIdx_blit hx).1
          omega
        have := tgetF_append_left (fun _ => v) [] _ _ hno
        simpa [tgetF] using this
      · simp [hv, tgetF]
    | succ i =>
      have hi : i < vals.length := by simpa using h
      have e : base + n + (i + 1) = base + (n + 1) + i := by omega
      split
      · rw [e, ih (n + 1) i hi]; simp
      · rename_i b hb
        split at hb
        · cases hb
        · cases hb
          simp only [tgetF]
          rw [if_neg (by omega), e, ih (n + 1) i hi]
          simp

/-- A byte written is read back. -/
theorem tget_tblit_in (d : α) (t : Tbl α) (base : Nat) (vals : List α) (i : Nat) (h : i < vals.length) :
    tget d (tblit d t base vals) (base + i) = vals[i] := by
  unfold tget tblit
  rw [tgetF_append_left, tgetF_append]
  · simpa using tget_blit d base 0 vals i h
  · intro x hx
    have := (List.mem_filter.mp hx).2
    simp only [decide_eq_true_eq] at this
    omega
  · intro x hx
    have := (List.mem_filter.mp hx).2
    simp only [decide_eq_true_eq] at this
    omega

/-- Bytes outside those written read as before. -/
theorem tget_tblit_out (d : α) (t : Tbl α) (base : Nat) (vals : List α) (k : Nat)
    (h : k < base ∨ base + vals.length ≤ k) : tget d (tblit d t base vals) k = tget d t k := by
  unfold tget tblit
  rcases h with h | h
  · rw [tgetF_append_left, tgetF_append_left, tgetF_filter _ t (fun a => decide (a < base))]
    · simp [h]
    · intro x hx
      have := (mem_zipIdx_blit hx).1
      omega
    · intro x hx
      have := (List.mem_filter.mp hx).2
      simp only [decide_eq_true_eq] at this
      omega
  · rw [tgetF_append, tgetF_filter _ t (fun a => decide (base + vals.length ≤ a))]
    · simp [h]
    · intro x hx
      rcases List.mem_append.mp hx with hx | hx
      · have := (List.mem_filter.mp hx).2
        simp only [decide_eq_true_eq] at this
        omega
      · have := (mem_zipIdx_blit hx).2.1
        omega

end Sys2Proof.Machine
end

