-- ==== Sys2Proof/Laws/Bare.lean ====
section
/-! SUPPORT. The shared operations of bookkeeping, a lemma each: they leave the bare module. -/
namespace Sys2Proof.Machine

@[simp] theorem bare_setPage (d : Dev) (s : Side) (b : Nat) (p : Page) : (d.setPage s b p).bare = d.bare := rfl
@[simp] theorem bare_event (d : Dev) (c s a : Nat) : (d.event c s a).bare = d.bare := by
  simp only [Dev.event, Dev.bare]
@[simp] theorem bare_emit (d : Dev) (o : Out) : (d.emit o).bare = d.bare := rfl
@[simp] theorem bare_draw (d : Dev) : d.draw.bare = d.bare := rfl
@[simp] theorem bare_modSession (d : Dev) (i : Nat) (f : Session → Session) : (d.modSession i f).bare = d.bare := rfl

@[simp] theorem bare_raiseQuiet (d : Dev) (s : Side) (b i : Nat) : (d.raiseQuiet s b i).bare = d.bare := by
  unfold Dev.raiseQuiet
  split
  · rfl
  · dsimp only
    split
    · rfl
    · split <;> simp

theorem bare_modTsk (d : Dev) (s : Side) (f : TskSt → TskSt) (hf : ∀ t, (f t).started = t.started) :
    (d.mod s fun h => h.modTsk f).bare = d.bare := by
  cases s <;> simp [Dev.mod, Dev.setHalf, Dev.half, Dev.bare, Half.modTsk, hf]

theorem bare_setTsk (d : Dev) (s : Side) (f : TskSt → TskSt) (hf : ∀ t, (f t).started = t.started) :
    (d.mod s fun h => { h with tsk := f h.tsk }).bare = d.bare := bare_modTsk d s f hf

/-! Scheduling leaves whether firmware runs -/

theorem TskSt.started_foldl {α : Type} (l : List α) (f : TskSt → α → TskSt) (h : ∀ t x, (f t x).started = t.started)
    (t : TskSt) : (l.foldl f t).started = t.started := by
  induction l generalizing t with
  | nil => rfl
  | cons x l ih => rw [List.foldl_cons, ih, h]

@[simp] theorem TskSt.started_setCore (t : TskSt) (c : Nat) (x : Core4) : (t.setCore c x).started = t.started := by
  unfold TskSt.setCore
  split <;> rfl

@[simp] theorem TskSt.started_setTask (t : TskSt) (n : Nat) (x : Task) : (t.setTask n x).started = t.started := rfl

@[simp] theorem TskSt.started_enqueue (t : TskSt) (n : Nat) : (t.enqueue n).started = t.started := rfl

@[simp] theorem TskSt.started_dispatch (t : TskSt) : t.dispatch.started = t.started :=
  started_foldl _ _ (fun t c => by
    unfold TskSt.serve
    dsimp only
    split
    · rfl
    · split
      · rfl
      · rw [started_setCore]; rfl) t

@[simp] theorem TskSt.started_wakeUp (t : TskSt) (n : Nat) : (t.wakeUp n).started = t.started := by
  unfold TskSt.wakeUp
  dsimp only
  split
  · simp
  · split
    · simp
    · split <;> simp

@[simp] theorem TskSt.started_deliverQ (t : TskSt) (q n : Nat) : (t.deliverQ q n).started = t.started := by
  induction n generalizing t with
  | zero => rfl
  | succ n ih =>
    unfold TskSt.deliverQ
    dsimp only
    split
    · rw [ih, started_wakeUp]; rfl
    · rfl

@[simp] theorem TskSt.started_deliver (t : TskSt) : t.deliver.started = t.started := by
  unfold TskSt.deliver
  split
  · rfl
  · exact started_foldl _ _ (fun t q => started_deliverQ ..) t

@[simp] theorem bare_post (d : Dev) (s : Side) (q : Nat) (e : BitVec 64) : (d.post s q e).1.bare = d.bare := by
  unfold Dev.post
  dsimp only
  split
  · cases s <;> rfl
  · dsimp only
    split
    · cases s <;> rfl
    · rw [bare_raiseQuiet]; cases s <;> rfl

@[simp] theorem bare_raise (d : Dev) (s : Side) (b i : Nat) : (d.raise s b i).bare = d.bare := by
  unfold Dev.raise
  split
  · rfl
  · dsimp only
    split
    · rfl
    · split
      · simp
      · split <;> simp

@[simp] theorem bare_condOn (d : Dev) (s : Side) (b i : Nat) : (d.condOn s b i).bare = d.bare := by simp [Dev.condOn]
@[simp] theorem bare_condOff (d : Dev) (s : Side) (b i : Nat) : (d.condOff s b i).bare = d.bare := by simp [Dev.condOff]

@[simp] theorem bare_countEvent (d : Dev) (s : Side) (b i n : Nat) : (d.countEvent s b i n).1.bare = d.bare := by
  unfold Dev.countEvent
  dsimp only
  split <;> simp

@[simp] theorem bare_correction (d : Dev) (s : Side) (b i : Nat) : (d.correction s b i).bare = d.bare := by
  unfold Dev.correction
  dsimp only
  split <;> simp

@[simp] theorem bare_transmit (d : Dev) (f : Frame) : (d.transmit f).bare = d.bare := by
  unfold Dev.transmit
  extract_lets keys
  split <;> simp

@[simp] theorem bare_send (d : Dev) (f : Frame) : (d.send f).bare = d.bare := by
  unfold Dev.send; split
  · simp
  · split <;> simp

@[simp] theorem bare_closeSession (d : Dev) (i r : Nat) (f : Bool) : (d.closeSession i r f).bare = d.bare := by
  unfold Dev.closeSession
  split
  · rfl
  · dsimp only
    rw [bare_event]
    split
    · exact bare_send d _
    · rfl

theorem bare_foldl {α : Type} (l : List α) (f : Dev → α → Dev) (h : ∀ d x, (f d x).bare = d.bare) (d : Dev) :
    (l.foldl f d).bare = d.bare := by
  induction l generalizing d with
  | nil => rfl
  | cons x l ih => rw [List.foldl_cons, ih, h]

@[simp] theorem bare_closeAll (d : Dev) (r : Nat) : (d.closeAll r).bare = d.bare :=
  bare_foldl _ _ (fun _ _ => bare_closeSession _ _ _ _) d

/-- A final response other than WRONG_STATE is bookkeeping. -/
theorem bare_finish (d : Dev) (life : Life) (r : Reply) (st : Nat) (pl : List Byte) (h : st ≠ stWrong) :
    (d.finish life r st pl).bare = d.bare := by
  simp [Dev.finish, Dev.finishWith, h]

@[simp] theorem bare_finish_ok (d : Dev) (life : Life) (r : Reply) (pl : List Byte) :
    (d.finish life r stOk pl).bare = d.bare := bare_finish d life r _ pl (by decide)

@[simp] theorem bare_retryHeld (d : Dev) (s : Side) : (d.retryHeld s).bare = d.bare := by
  unfold Dev.retryHeld
  refine bare_foldl _ _ (fun d kv => ?_) d
  split
  · rfl
  · refine bare_foldl _ _ (fun d i => ?_) d
    split
    · rfl
    · split <;> simp

@[simp] theorem bare_spentSessions (d : Dev) : d.spentSessions.bare = d.bare := by
  unfold Dev.spentSessions
  refine bare_foldl _ _ (fun d x => ?_) d
  split <;> simp

@[simp] theorem bare_reportStates (d : Dev) : d.reportStates.bare = d.bare := by
  unfold Dev.reportStates
  dsimp only
  split <;> split <;> split <;> simp only [Dev.event, Dev.bare]

/-- With the net following its requests, its step is bookkeeping. -/
theorem bare_safeNet (d : Dev) (life : Life) (h : d.calm) : (d.safeNet life).bare = d.bare := by
  unfold Dev.safeNet
  split
  · rename_i h1 h2
    exact absurd (h.1 h1) (by simp [h2])
  all_goals rfl

theorem pathLost_eq (d : Dev) (life : Life) (h : d.calm) : d.pathLost life = d := by
  have k := h.2.1
  unfold Dev.pathLost
  unfold Dev.pathCut at k
  split
  · rfl
  · rename_i l hl
    rw [hl] at k
    rw [if_neg (by simpa using k)]

theorem journalEnd_eq (d : Dev) (h : d.calm) : (d.journalEnd .w).journalEnd .e = d := by
  have e (s : Side) (k : d.justEnded s = false) : d.journalEnd s = d := by simp [Dev.journalEnd, k]
  rw [e .w h.2.2.1, e .e h.2.2.2]

theorem bare_powered (d : Dev) : d.bare.powered = d.powered := rfl

/-- What every command leaves in order is bookkeeping, when the net follows its requests. -/
theorem bare_settle (d : Dev) (life : Life) (h : d.calm) : (d.settle life).bare = d.bare := by
  unfold Dev.settle
  split
  · rfl
  · dsimp only
    rw [bare_reportStates, bare_modTsk _ _ _ TskSt.started_deliver, bare_modTsk _ _ _ TskSt.started_deliver, bare_retryHeld, bare_retryHeld, bare_spentSessions,
      pathLost_eq d life h, journalEnd_eq d h, bare_safeNet d life h]

end Sys2Proof.Machine
end

