-- ==== Sys2Proof/Laws/Deep.lean ====
section
/-! SUPPORT. What every command leaves in order, the assertion of the SAFE net included: it leaves the deep module. -/
namespace Sys2Proof.Machine

/-- The deep module is part of the bare one. -/
theorem deep_bare (d : Dev) : d.bare.deep = d.deep := rfl

theorem deep_of_bare {d e : Dev} (h : d.bare = e.bare) : d.deep = e.deep := by
  rw [← deep_bare d, ← deep_bare e, h]

@[simp] theorem deep_setPage (d : Dev) (s : Side) (b : Nat) (p : Page) : (d.setPage s b p).deep = d.deep := rfl
@[simp] theorem deep_setRg (d : Dev) (n : Nat) (r : Rg) (i : Nat) (v : Word) : (d.setRg n r i v).deep = d.deep := rfl
@[simp] theorem deep_setRf (d : Dev) (n : Nat) (r : Rg) (i hi lo v : Nat) : (d.setRf n r i hi lo v).deep = d.deep := rfl
@[simp] theorem deep_bump (d : Dev) (n : Nat) (r : Rg) (i hi lo k : Nat) : (d.bump n r i hi lo k).deep = d.deep := rfl
@[simp] theorem deep_resetRg (d : Dev) (n : Nat) (r : Rg) : (d.resetRg n r).deep = d.deep := rfl
@[simp] theorem deep_event (d : Dev) (c s a : Nat) : (d.event c s a).deep = d.deep := deep_of_bare (bare_event d c s a)
@[simp] theorem deep_raise (d : Dev) (s : Side) (b i : Nat) : (d.raise s b i).deep = d.deep :=
  deep_of_bare (bare_raise d s b i)
@[simp] theorem deep_send (d : Dev) (f : Frame) : (d.send f).deep = d.deep := deep_of_bare (bare_send d f)
@[simp] theorem deep_modSession (d : Dev) (i : Nat) (f : Session → Session) : (d.modSession i f).deep = d.deep := rfl

theorem deep_foldl {α : Type} (l : List α) (f : Dev → α → Dev) (h : ∀ d x, (f d x).deep = d.deep) (d : Dev) :
    (l.foldl f d).deep = d.deep := by
  induction l generalizing d with
  | nil => rfl
  | cons x l ih => rw [List.foldl_cons, ih, h]

@[simp] theorem deep_finish (d : Dev) (life : Life) (r : Reply) (st : Nat) (pl : List Byte) :
    (d.finish life r st pl).deep = d.deep := by
  unfold Dev.finish Dev.finishWith
  dsimp only
  rw [deep_modSession, deep_send]
  split
  · unfold Dev.rejected
    rw [deep_raise, deep_event, deep_bump]
  · rfl

@[simp] theorem deep_armPart (d : Dev) (life : Life) (s : Side) (st : Nat) : (d.armPart life s st).deep = d.deep := by
  unfold Dev.armPart
  dsimp only
  rw [deep_foldl _ _ (fun d a => deep_finish d life _ _ _)]
  rfl

theorem deep_modHalf (d : Dev) (s : Side) (f : Half → Half) (h : ∀ x, (f x).deep = x.deep) :
    (d.mod s f).deep = d.deep := by
  cases s <;> simp [Dev.mod, Dev.setHalf, Dev.half, Dev.deep, h]

theorem Half.deep_abort (h : Half) (c : Nat) : (h.abort c).deep = h.deep := by
  unfold Half.abort
  dsimp only
  split
  · rfl
  · split
    · rfl
    · split <;> rfl

@[simp] theorem deep_abort (d : Dev) (s : Side) (c : Nat) : (d.abort s c).deep = d.deep :=
  deep_modHalf d s _ fun x => x.deep_abort c

@[simp] theorem deep_clearArray (d : Dev) : d.clearArray.deep = d.deep := rfl

@[simp] theorem deep_setCfg (d : Dev) (c : CfgSt) : ({ d with cfg := c } : Dev).deep = d.deep := rfl

@[simp] theorem deep_endReplies (d : Dev) (life : Life) (l : Load) (r a : Nat) (who : List (Nat × Reply)) :
    (d.endReplies life l r a who).deep = d.deep := by
  induction who generalizing d with
  | nil => rfl
  | cons x who ih =>
    unfold Dev.endReplies
    split
    · rw [ih, deep_finish]
    · split
      · rw [ih, deep_finish]
      · rw [deep_foldl _ _ (fun d x => deep_finish d life _ _ _), deep_finish]

@[simp] theorem deep_recordEnd (d : Dev) (life : Life) (l : Load) (r a : Nat) :
    (d.recordEnd life l r a).deep = d.deep := by
  unfold Dev.recordEnd
  extract_lets d1 d2 d3 d4 d5
  have e1 : d1.deep = d.deep := deep_setRg ..
  have e2 : d2.deep = d.deep := by
    rw [← e1]; simp only [d2]; clear_value d1; split
    · rfl
    · exact deep_setRg ..
  have e3 : d3.deep = d.deep := by
    rw [← e2]; simp only [d3]; clear_value d2; split
    · exact deep_setCfg ..
    · rfl
  have e4 : d4.deep = d.deep := by rw [← e3]; exact deep_event ..
  clear_value d4
  have e5 : d5.deep = d.deep := by rw [← e4]; simp only [d5]; split <;> simp
  split
  · exact e5
  · rw [deep_endReplies, e5]

@[simp] theorem deep_autoNext (d : Dev) : d.autoNext.deep = d.deep := by
  unfold Dev.autoNext
  split
  · rfl
  · dsimp only
    split
    · rfl
    · split
      · split
        · rfl
        · rw [deep_raise]; rfl
      · rw [deep_raise]; rfl

@[simp] theorem deep_autoAfter (d : Dev) (l : Load) : (d.autoAfter l).deep = d.deep := by
  unfold Dev.autoAfter
  split
  · rfl
  · split <;> simp

@[simp] theorem deep_checkFail (d : Dev) (life : Life) (l : Load) (r a : Nat) :
    (d.checkFail life l r a).deep = d.deep := by
  unfold Dev.checkFail
  simp

@[simp] theorem deep_loadFail (d : Dev) (life : Life) (l : Load) (r a : Nat) :
    (d.loadFail life l r a).deep = d.deep := by
  unfold Dev.loadFail
  dsimp only
  split <;> simp

@[simp] theorem deep_truncateLoad (d : Dev) (life : Life) : (d.truncateLoad life).deep = d.deep := by
  unfold Dev.truncateLoad Dev.failHere
  split
  · rfl
  · split
    · rfl
    · dsimp only
      rw [deep_setCfg]
      split <;> simp

@[simp] theorem deep_pathLost (d : Dev) (life : Life) : (d.pathLost life).deep = d.deep := by
  unfold Dev.pathLost
  split
  · rfl
  · split
    · exact deep_loadFail ..
    · rfl

@[simp] theorem deep_ldrAppend (d : Dev) (type key : Nat) (x : LdrData) : (d.ldrAppend type key x).deep = d.deep := by
  unfold Dev.ldrAppend
  extract_lets l cw fits sector used r fill now rest b d1 d2
  split
  · rfl
  · split
    · rw [deep_raise]; exact deep_bump ..
    · split
      · rw [deep_raise]; rfl
      · rfl

@[simp] theorem deep_journalEnd (d : Dev) (s : Side) : (d.journalEnd s).deep = d.deep := by
  unfold Dev.journalEnd Dev.journalCal
  split
  · dsimp only
    split
    · rfl
    · rw [deep_modHalf _ _ _ (by intro x; rfl), deep_ldrAppend, deep_ldrAppend]
  · rfl

@[simp] theorem deep_abandon (d : Dev) (s : Side) : (d.abandon s).deep = d.deep := rfl

theorem Half.deep_stopArming (h : Half) (plan : Bool) : (h.stopArming plan).deep = h.deep := by
  unfold Half.stopArming
  extract_lets k
  have e : k.deep = h.deep := by
    simp only [k]; split <;> rfl
  rw [← e]; rfl

@[simp] theorem deep_safeHalf (d : Dev) (life : Life) (s : Side) : (d.safeHalf life s).deep = d.deep := by
  unfold Dev.safeHalf
  dsimp only
  split
  · rw [deep_armPart]; rw [deep_modHalf _ _ _ (fun x => Half.deep_stopArming x true)]; split <;> simp
  · split <;> simp

/-- The net's step leaves the deep module. -/
theorem deep_safeNet (d : Dev) (life : Life) : (d.safeNet life).deep = d.deep := by
  have h (d : Dev) : d.pinsOff.deep = d.deep := rfl
  unfold Dev.safeNet Dev.safeAssert
  split
  · dsimp only
    rw [deep_journalEnd, deep_journalEnd, h, deep_truncateLoad, deep_safeHalf, deep_safeHalf]
    rfl
  all_goals rfl

/-- What every command leaves in order leaves the deep module. -/
theorem deep_settle (d : Dev) (life : Life) : (d.settle life).deep = d.deep := by
  unfold Dev.settle
  split
  · rfl
  · dsimp only
    have h (e : Dev) (s : Side) : (e.mod s fun h => h.modTsk TskSt.deliver).deep = e.deep :=
      deep_of_bare (bare_modTsk e s _ TskSt.started_deliver)
    rw [deep_of_bare (bare_reportStates _), h, h, deep_of_bare (bare_retryHeld _ _), deep_of_bare (bare_retryHeld _ _),
      deep_of_bare (bare_spentSessions _), deep_safeNet,
      deep_journalEnd, deep_journalEnd, deep_pathLost]

end Sys2Proof.Machine
end

