-- ==== Sys2Proof/Laws/Grows.lean ====
section
/-! SUPPORT. Fault pages and the log of what was sent only grow through the shared operations. -/
namespace Sys2Proof.Machine

theorem page_setPage_key (d : Dev) (s s' : Side) (b b' : Nat) (p : Page) (h : pageKey s' b' = pageKey s b) :
    (d.setPage s b p).page s' b' = p := by
  simp [Dev.page, Dev.setPage, h]

theorem page_setPage_ne (d : Dev) (s s' : Side) (b b' : Nat) (p : Page) (h : pageKey s' b' ≠ pageKey s b) :
    (d.setPage s b p).page s' b' = d.page s' b' := by
  simp only [Dev.page, Dev.setPage]
  exact tgetF_tsetF_ne _ _ _ h

@[simp] theorem page_setPage_same (d : Dev) (s : Side) (b : Nat) (p : Page) : (d.setPage s b p).page s b = p :=
  page_setPage_key d s s b b p rfl

theorem page_congr (d : Dev) {s s' : Side} {b b' : Nat} (h : pageKey s' b' = pageKey s b) :
    d.page s' b' = d.page s b := by
  simp [Dev.page, h]

theorem page_of_pages {d e : Dev} (h : e.pages = d.pages) (s : Side) (b : Nat) : e.page s b = d.page s b := by
  simp [Dev.page, h]

theorem Dev.grows.refl (d : Dev) : d.grows d := ⟨fun _ _ => ⟨rfl, rfl, fun _ h => h⟩, fun _ h => h⟩

theorem Dev.grows.trans {d e f : Dev} (h : d.grows e) (k : e.grows f) : d.grows f :=
  ⟨fun s b => ⟨(k.1 s b).1.trans (h.1 s b).1, (k.1 s b).2.1.trans (h.1 s b).2.1,
    fun i x => (k.1 s b).2.2 i ((h.1 s b).2.2 i x)⟩, fun o x => k.2 o (h.2 o x)⟩

/-- What touches neither pages nor the log. -/
theorem grows_of_eq {d e : Dev} (h : e.pages = d.pages) (k : e.out = d.out) : d.grows e :=
  ⟨fun s b => by rw [page_of_pages h]; exact ⟨rfl, rfl, fun _ x => x⟩, fun o x => k ▸ x⟩

theorem grows_setPage (d : Dev) (s : Side) (b : Nat) (p : Page) (ha : p.active = (d.page s b).active)
    (he : p.enable = (d.page s b).enable)
    (hs : ∀ i, (d.page s b).src.getLsbD i = true → p.src.getLsbD i = true) : d.grows (d.setPage s b p) := by
  refine ⟨fun s' b' => ?_, fun _ h => h⟩
  by_cases h : pageKey s' b' = pageKey s b
  · rw [page_setPage_key _ _ _ _ _ _ h, page_congr d h]
    exact ⟨ha, he, hs⟩
  · rw [page_setPage_ne _ _ _ _ _ _ h]
    exact ⟨rfl, rfl, fun _ x => x⟩

theorem grows_mod (d : Dev) (s : Side) (f : Half → Half) : d.grows (d.mod s f) := by
  cases s <;> exact grows_of_eq rfl rfl

theorem grows_event (d : Dev) (c s a : Nat) : d.grows (d.event c s a) := by
  refine grows_of_eq ?_ ?_ <;> simp only [Dev.event]

theorem grows_emit (d : Dev) (o : Out) : d.grows (d.emit o) :=
  ⟨fun _ _ => ⟨rfl, rfl, fun _ x => x⟩, fun _ h => List.mem_append_left _ h⟩

theorem grows_modSession (d : Dev) (i : Nat) (f : Session → Session) : d.grows (d.modSession i f) := grows_of_eq rfl rfl

theorem getLsbD_bitSet {n : Nat} (x : BitVec n) (i j : Nat) : (bitSet x i).getLsbD j = (x.getLsbD j || (decide (j = i) && decide (i < n))) := by
  unfold bitSet
  rw [BitVec.getLsbD_or]
  congr 1
  by_cases h : j < n
  · simp only [BitVec.getLsbD_shiftLeft, BitVec.getLsbD_ofNat, h, decide_true, Bool.true_and]
    rcases Nat.lt_trichotomy j i with k | k | k
    · have : j ≠ i := by omega
      simp [k, this]
    · subst k
      simp [h]; omega
    · have h1 : ¬ j < i := by omega
      have h2 : j ≠ i := by omega
      have h3 : j - i ≠ 0 := by omega
      have h4 : Nat.testBit 1 (j - i) = false := by
        obtain ⟨m, hm⟩ := Nat.exists_eq_succ_of_ne_zero h3
        rw [hm, Nat.testBit_succ]; simp
      simp [h1, h2, h4]
  · rw [BitVec.getLsbD_of_ge _ _ (by omega)]
    by_cases e : j = i
    · subst e; simp [h]
    · simp [e]

theorem grows_raiseQuiet (d : Dev) (s : Side) (b i : Nat) : d.grows (d.raiseQuiet s b i) := by
  have hs (x : BitVec 16) (k : Nat) (h : x.getLsbD k = true) : (bitSet x i).getLsbD k = true := by
    rw [getLsbD_bitSet, h]; rfl
  have hc (p : Page) (t : Nat) : (p.capture i t).active = p.active ∧ (p.capture i t).enable = p.enable
      ∧ (p.capture i t).src = p.src := by
    unfold Page.capture; split <;> exact ⟨rfl, rfl, rfl⟩
  unfold Dev.raiseQuiet
  split
  · exact .refl d
  · extract_lets p p1 q
    split
    · exact .refl d
    · have ha : q.active = p.active := (hc _ _).1
      have he : q.enable = p.enable := (hc _ _).2.1
      have hq (k : Nat) (h : p.src.getLsbD k = true) : q.src.getLsbD k = true := hs _ _ h
      split
      · exact grows_setPage d s b _ ha he hq
      · exact Dev.grows.trans (grows_setPage d s b { q with req := bitSet q.req i } ha he hq) (grows_event ..)
      · exact Dev.grows.trans (grows_setPage d s b _ ha he hq) (grows_event ..)

theorem grows_post (d : Dev) (s : Side) (q : Nat) (e : BitVec 64) : d.grows (d.post s q e).1 := by
  unfold Dev.post
  extract_lets t eq eq1 eq2 d2
  split
  · exact grows_mod ..
  · split
    · exact grows_mod ..
    · exact (grows_mod ..).trans (grows_raiseQuiet ..)

theorem grows_raise (d : Dev) (s : Side) (b i : Nat) : d.grows (d.raise s b i) := by
  unfold Dev.raise
  split
  · exact .refl d
  · dsimp only
    split
    · exact .refl d
    · split
      · exact grows_raiseQuiet ..
      · have h : d.grows ((d.raiseQuiet s b i).post s b (Config.faultEntry s.code b i)).1 :=
          (grows_raiseQuiet ..).trans (grows_post ..)
        split
        · exact h
        · exact h.trans (grows_setPage _ _ _ _ rfl rfl fun _ x => x)

theorem grows_transmit (d : Dev) (f : Frame) : d.grows (d.transmit f) := by
  unfold Dev.transmit
  extract_lets keys
  split
  · exact grows_emit ..
  · exact .refl d

theorem grows_send (d : Dev) (f : Frame) : d.grows (d.send f) := by
  unfold Dev.send
  split
  · exact grows_transmit ..
  · split
    · exact .refl d
    · exact (grows_transmit ..).trans (grows_modSession ..)

theorem grows_setHst (d : Dev) (h : HstSt) : d.grows { d with hst := h } := grows_of_eq rfl rfl

theorem grows_closeSession (d : Dev) (i r : Nat) (f : Bool) : d.grows (d.closeSession i r f) := by
  unfold Dev.closeSession
  split
  · exact .refl d
  · extract_lets d1 l
    have h1 : d.grows d1 := by
      simp only [d1]; split
      · exact grows_send ..
      · exact .refl d
    exact h1.trans ((grows_setHst ..).trans (grows_event ..))

theorem grows_foldl {α : Type} (l : List α) (f : Dev → α → Dev) (h : ∀ (d : Dev) x, d.grows (f d x)) (d : Dev) :
    d.grows (l.foldl f d) := by
  induction l generalizing d with
  | nil => exact .refl d
  | cons x l ih => exact (h d x).trans (ih _)

theorem grows_finishWith (d : Dev) (life : Life) (r : Reply) (st : Nat) (pl : List Byte) (dup : Bool) :
    d.grows (d.finishWith life r st pl dup) := by
  unfold Dev.finishWith
  extract_lets pl2 d1 f
  have h1 : d.grows d1 := by
    simp only [d1]; split
    · exact (grows_of_eq (e := d.bump 0 .hstRejectCnt) rfl rfl).trans ((grows_event ..).trans (grows_raise ..))
    · exact .refl d
  exact h1.trans ((grows_send ..).trans (grows_modSession ..))

theorem grows_finish (d : Dev) (life : Life) (r : Reply) (st : Nat) (pl : List Byte) :
    d.grows (d.finish life r st pl) := grows_finishWith ..

theorem grows_armPart (d : Dev) (life : Life) (s : Side) (st : Nat) : d.grows (d.armPart life s st) := by
  unfold Dev.armPart
  extract_lets l ended
  exact (grows_setHst ..).trans (grows_foldl _ _ (fun d a => grows_finish ..) _)

theorem grows_setRg (d : Dev) (n : Nat) (r : Rg) (i : Nat) (v : Word) : d.grows (d.setRg n r i v) := grows_of_eq rfl rfl

theorem grows_setCfg (d : Dev) (c : CfgSt) : d.grows { d with cfg := c } := grows_of_eq rfl rfl

theorem grows_endReplies (d : Dev) (life : Life) (l : Load) (r a : Nat) (who : List (Nat × Reply)) :
    d.grows (d.endReplies life l r a who) := by
  induction who generalizing d with
  | nil => exact .refl d
  | cons x who ih =>
    unfold Dev.endReplies
    split
    · exact (grows_finish ..).trans (ih _)
    · split
      · exact (grows_finish ..).trans (ih _)
      · exact (grows_finish ..).trans (grows_foldl _ _ (fun d x => grows_finish ..) _)

theorem grows_recordEnd (d : Dev) (life : Life) (l : Load) (r a : Nat) : d.grows (d.recordEnd life l r a) := by
  unfold Dev.recordEnd
  extract_lets d1 d2 d3 d4 d5
  have e1 : d.grows d1 := grows_setRg ..
  have e2 : d1.grows d2 := by
    simp only [d2]; clear_value d1; split
    · exact .refl _
    · exact grows_setRg ..
  have e3 : d2.grows d3 := by
    simp only [d3]; clear_value d2; split
    · exact grows_setCfg ..
    · exact .refl _
  have e4 : d3.grows d4 := grows_event ..
  have e5 : d4.grows d5 := by
    simp only [d5]; clear_value d4; split
    · exact .refl _
    · exact grows_raise ..
  refine (((e1.trans e2).trans e3).trans e4).trans (e5.trans ?_)
  clear_value d5
  split
  · exact grows_setCfg ..
  · exact grows_endReplies ..

theorem grows_tryAuto (d : Dev) (n : Nat) (r : List Nat) : d.grows (d.tryAuto n r) := grows_setCfg ..

theorem grows_autoNext (d : Dev) : d.grows d.autoNext := by
  unfold Dev.autoNext
  split
  · exact .refl d
  · dsimp only
    split
    · exact grows_tryAuto ..
    · split
      · split
        · exact grows_tryAuto ..
        · exact (grows_setCfg ..).trans (grows_raise ..)
      · exact (grows_setCfg ..).trans (grows_raise ..)

theorem grows_autoAfter (d : Dev) (l : Load) : d.grows (d.autoAfter l) := by
  unfold Dev.autoAfter
  split
  · exact .refl d
  · split
    · exact grows_raise ..
    · exact grows_autoNext ..

theorem grows_checkFail (d : Dev) (life : Life) (l : Load) (r a : Nat) : d.grows (d.checkFail life l r a) := by
  unfold Dev.checkFail
  exact (grows_setCfg ..).trans ((grows_recordEnd ..).trans (grows_autoAfter ..))

theorem grows_clearArray (d : Dev) : d.grows d.clearArray := grows_of_eq rfl rfl

theorem grows_loadFail (d : Dev) (life : Life) (l : Load) (r a : Nat) : d.grows (d.loadFail life l r a) := by
  unfold Dev.loadFail
  split
  · exact (grows_setCfg ..).trans (grows_recordEnd ..)
  · exact (grows_clearArray d).trans ((grows_setCfg ..).trans (grows_recordEnd ..))

theorem grows_truncateLoad (d : Dev) (life : Life) : d.grows (d.truncateLoad life) := by
  unfold Dev.truncateLoad Dev.failHere
  split
  · exact .refl d
  · split
    · exact .refl d
    · split
      · exact grows_loadFail ..
      · exact grows_checkFail ..

theorem grows_pathLost (d : Dev) (life : Life) : d.grows (d.pathLost life) := by
  unfold Dev.pathLost
  split
  · exact .refl d
  · split
    · exact grows_loadFail ..
    · exact .refl d

theorem grows_ldrAppend (d : Dev) (type key : Nat) (x : LdrData) : d.grows (d.ldrAppend type key x) := by
  unfold Dev.ldrAppend
  extract_lets l cw fits sector used r fill now rest b d1 d2
  split
  · exact grows_of_eq rfl rfl
  · split
    · exact (grows_of_eq (e := d.bump 0 .ldrLost) rfl rfl).trans (grows_raise ..)
    · split
      · exact Dev.grows.trans (grows_of_eq rfl rfl) (grows_raise ..)
      · exact grows_of_eq rfl rfl

theorem grows_journalEnd (d : Dev) (s : Side) : d.grows (d.journalEnd s) := by
  unfold Dev.journalEnd Dev.journalCal
  split
  · dsimp only
    split
    · exact .refl d
    · exact ((grows_ldrAppend ..).trans (grows_ldrAppend ..)).trans (grows_mod ..)
  · exact .refl d

theorem grows_safeHalf (d : Dev) (life : Life) (s : Side) : d.grows (d.safeHalf life s) := by
  unfold Dev.safeHalf
  extract_lets f e
  have h : d.grows e := by
    simp only [e]; split
    · exact grows_mod ..
    · exact .refl d
  refine h.trans ?_
  clear_value e
  split
  · exact (grows_mod ..).trans (grows_armPart ..)
  · exact .refl e

theorem grows_pinsOff (d : Dev) : d.grows d.pinsOff := grows_of_eq rfl rfl

theorem grows_abandon (d : Dev) (s : Side) : d.grows (d.abandon s) := grows_of_eq rfl rfl

theorem grows_safeNet (d : Dev) (life : Life) : d.grows (d.safeNet life) := by
  unfold Dev.safeNet Dev.safeAssert
  split
  · dsimp only
    refine Dev.grows.trans (e := { d with safe := { d.safe with asserted := true, releasing := false } })
      (grows_of_eq rfl rfl) ?_
    refine Dev.grows.trans ?_ ((grows_journalEnd ..).trans (grows_journalEnd ..))
    exact (((grows_abandon ..).trans (grows_abandon ..)).trans ((grows_safeHalf ..).trans (grows_safeHalf ..))).trans
      ((grows_truncateLoad ..).trans (grows_pinsOff _))
  · exact grows_of_eq rfl rfl
  · exact grows_of_eq rfl rfl
  · exact .refl d

theorem grows_retryHeld (d : Dev) (s : Side) : d.grows (d.retryHeld s) := by
  unfold Dev.retryHeld
  refine grows_foldl _ _ (fun d kv => ?_) d
  split
  · exact .refl d
  · refine grows_foldl _ _ (fun d i => ?_) d
    split
    · exact .refl d
    · split
      · exact (grows_post ..).trans (grows_setPage _ _ _ _ rfl rfl fun _ x => x)
      · exact .refl d

theorem grows_reportStates (d : Dev) : d.grows d.reportStates := by
  refine grows_of_eq ?_ ?_ <;>
  · unfold Dev.reportStates
    dsimp only
    split <;> split <;> split <;> simp only [Dev.event]

/-- What every command leaves in order lets pages and the log only grow. -/
theorem grows_settle (d : Dev) (life : Life) : d.grows (d.settle life) := by
  unfold Dev.settle
  split
  · exact .refl d
  · extract_lets d1 d2 d3
    have h1 : d.grows d1 := (((grows_pathLost ..).trans ((grows_journalEnd ..).trans (grows_journalEnd ..))).trans
      (grows_safeNet ..)).trans (by
      simp only [d1, Dev.spentSessions]
      refine grows_foldl _ _ (fun d x => ?_) _
      split
      · exact grows_closeSession ..
      · exact .refl d)
    exact h1.trans (((grows_retryHeld ..).trans (grows_retryHeld ..)).trans
      (((grows_mod ..).trans (grows_mod ..)).trans (grows_reportStates ..)))

/-- A raise of an enabled source that its page lists sets its SRC bit (R459). -/
theorem raise_src (d : Dev) (s : Side) (b i : Nat) (hs : ¬(s = .e ∧ twOnly b = true)) (hc : srcClass b i ≠ none)
    (hi : i < 16) (he : (d.page s b).enable.getLsbD i = true) : ((d.raise s b i).page s b).src.getLsbD i = true := by
  have hq : ((d.raiseQuiet s b i).page s b).src.getLsbD i = true := by
    unfold Dev.raiseQuiet
    rw [if_neg (fun h => h.elim hs hc)]
    extract_lets p p1 q
    rw [if_neg (by simp [p, he])]
    have hb : q.src.getLsbD i = true := by simp [q, getLsbD_bitSet, hi]
    have hev (d : Dev) (c x a : Nat) : (d.event c x a).page s b = d.page s b := by
      apply page_of_pages; simp only [Dev.event]
    split
    · simp [hb]
    · rw [hev]; simp [hb]
    · rw [hev]; simp [hb]
  unfold Dev.raise
  rw [if_neg (fun h => h.elim hs hc)]
  dsimp only
  rw [if_neg (by simp [he])]
  split
  · exact hq
  · have h := (grows_post (d.raiseQuiet s b i) s b (Config.faultEntry s.code b i)).1 s b
    split
    · exact h.2.2 i hq
    · simpa using h.2.2 i hq

end Sys2Proof.Machine
end

