-- ==== Sys2Proof/Laws/Calm.lean ====
section
/-! SUPPORT. What every command leaves in order (`Dev.calm`): which operations leave it so, and that every command does: the SAFE
net is asserted when something requests it, no load is cut off, and ended halves have journaled (R192, R256, R464, R465). -/
namespace Sys2Proof.Machine

/-- From one state to a later one no request, cut load or ended half comes up, and the net stays as it is. -/
def Dev.quiet (d e : Dev) : Prop :=
  (e.safeWanted = true → d.safeWanted = true) ∧ e.safe.asserted = d.safe.asserted
  ∧ (e.pathCut = true → d.pathCut = true) ∧ ∀ s, e.justEnded s = true → d.justEnded s = true

theorem Dev.quiet.refl (d : Dev) : d.quiet d := ⟨id, rfl, id, fun _ => id⟩

theorem Dev.quiet.trans {d e f : Dev} (h : d.quiet e) (k : e.quiet f) : d.quiet f :=
  ⟨fun x => h.1 (k.1 x), k.2.1.trans h.2.1, fun x => h.2.2.1 (k.2.2.1 x), fun s x => h.2.2.2 s (k.2.2.2 s x)⟩

theorem Dev.calm.quiet {d e : Dev} (h : d.calm) (k : d.quiet e) : e.calm :=
  ⟨fun x => k.2.1 ▸ h.1 (k.1 x), Bool.eq_false_iff.mpr fun x => by simpa [h.2.1] using k.2.2.1 x,
    Bool.eq_false_iff.mpr fun x => by simpa [h.2.2.1] using k.2.2.2 .w x,
    Bool.eq_false_iff.mpr fun x => by simpa [h.2.2.2] using k.2.2.2 .e x⟩

/-- Whether a load is cut off is no bookkeeping. -/
theorem pathCut_of_bare {d e : Dev} (h : e.bare = d.bare) : e.pathCut = d.pathCut := by
  have k : e.bare.pathCut = d.bare.pathCut := by rw [h]
  exact k

/-- The halves' states as event 3 last told them. -/
def Dev.told (d : Dev) : FaceState × FaceState := (d.hst.faceW, d.hst.faceE)

/-- Whether a half ended is no bookkeeping, but for what event 3 last told. -/
theorem justEnded_of_bare {d e : Dev} (h : e.bare = d.bare) (k : e.told = d.told) (s : Side) :
    e.justEnded s = d.justEnded s := by
  have hf : (e.bare.half s).face = (d.bare.half s).face := by rw [h]
  have hc : (e.bare.half s).cal = (d.bare.half s).cal := by rw [h]
  have hw : e.hst.faceW = d.hst.faceW := congrArg Prod.fst k
  have he : e.hst.faceE = d.hst.faceE := congrArg Prod.snd k
  let f (st was : FaceState) (changed : Bool) : Bool := decide (st ≠ was) && (decide (st = .done) || decide (st = .aborted)) && changed
  have key (s : Side) (x : Dev) : x.justEnded s = f (x.half s).face.state (x.hst.face s) (x.half s).cal.changed := rfl
  have hh : e.hst.face s = d.hst.face s := by cases s <;> assumption
  have hs : (e.half s).face = (d.half s).face := by cases s <;> exact hf
  have ht : (e.half s).cal = (d.half s).cal := by cases s <;> exact hc
  rw [key, key, hh, hs, ht]

theorem asserted_of_bare {d e : Dev} (h : e.bare = d.bare) : e.safe.asserted = d.safe.asserted := by
  have k : e.bare.safe.asserted = d.bare.safe.asserted := by rw [h]
  exact k

/-- Bookkeeping that makes no request and tells no state. -/
theorem quiet_of_bare {d e : Dev} (h : e.bare = d.bare) (k : e.told = d.told)
    (w : e.safeWanted = true → d.safeWanted = true) : d.quiet e :=
  ⟨w, asserted_of_bare h, fun x => pathCut_of_bare h ▸ x, fun s x => justEnded_of_bare h k s ▸ x⟩

theorem wanted_of_eq {d e : Dev} (h : e.pages = d.pages) (k : e.safe = d.safe) : e.safeWanted = d.safeWanted := by
  rw [Dev.safeWanted, h, k]; rfl

/-- Bookkeeping that touches neither pages nor the net. -/
theorem quiet_of_eq {d e : Dev} (h : e.bare = d.bare) (k : e.told = d.told) (p : e.pages = d.pages)
    (n : e.safe = d.safe) : d.quiet e := quiet_of_bare h k fun x => wanted_of_eq p n ▸ x

theorem page_requests (d : Dev) (s : Side) (b : Nat) (h : (d.page s b).requests = true) :
    d.pages.any (fun kv => kv.2.requests) = true := by
  have key (t : Tbl Page) (k : Nat) (h : (tgetF (fun k => pageDefault (k % 32)) t k).requests = true) :
      t.any (fun kv => kv.2.requests) = true := by
    induction t with
    | nil => exact absurd h (by simp [tgetF, Page.requests, pageDefault])
    | cons x t ih =>
      obtain ⟨a, p⟩ := x
      simp only [tgetF] at h
      split at h
      · simp [h]
      · simp [ih h]
  exact key _ _ h

theorem quiet_setPage (d : Dev) (s : Side) (b : Nat) (p : Page)
    (h : p.requests = true → (d.page s b).requests = true) : d.quiet (d.setPage s b p) := by
  refine quiet_of_bare rfl rfl fun x => ?_
  simp only [Dev.safeWanted, Bool.or_eq_true] at x ⊢
  rcases x with x | x
  · exact .inl x
  · right
    simp only [Dev.setPage, List.any_eq_true] at x
    obtain ⟨y, hy, hr⟩ := x
    unfold tsetF at hy
    split at hy
    · exact List.any_eq_true.mpr ⟨y, (List.mem_filter.mp hy).1, hr⟩
    · rcases mem_tput hy with rfl | hy
      · exact page_requests d s b (h hr)
      · exact List.any_eq_true.mpr ⟨y, hy, hr⟩

theorem quiet_modTsk (d : Dev) (s : Side) (f : TskSt → TskSt) (hf : ∀ t, (f t).started = t.started) :
    d.quiet (d.mod s fun h => h.modTsk f) := by
  refine quiet_of_eq (bare_modTsk d s f hf) ?_ ?_ ?_ <;> cases s <;> rfl

theorem told_event (d : Dev) (c s a : Nat) : (d.event c s a).told = d.told := by
  simp only [Dev.event, Dev.told]

theorem quiet_event (d : Dev) (c s a : Nat) : d.quiet (d.event c s a) := by
  refine quiet_of_eq (bare_event d c s a) (told_event d c s a) ?_ ?_ <;> simp only [Dev.event]

theorem quiet_raiseQuiet (d : Dev) (s : Side) (b i : Nat) (h : (d.page s b).sev b i ≠ 3) :
    d.quiet (d.raiseQuiet s b i) := by
  have hc (p : Page) (t : Nat) : (p.capture i t).req = p.req ∧ (p.capture i t).noMaj = p.noMaj
      ∧ (p.capture i t).severity = p.severity := by
    unfold Page.capture; split <;> exact ⟨rfl, rfl, rfl⟩
  unfold Dev.raiseQuiet
  split
  · exact .refl d
  · extract_lets p p1 q
    have hr : q.requests = true → p.requests = true := by
      simp only [Page.requests, q, p1, (hc p _).1, (hc p _).2.1]; exact id
    have hsev : q.sev b i = p.sev b i := by
      simp only [Page.sev, q, p1, (hc p _).2.2]
    split
    · exact .refl d
    · split
      · exact quiet_setPage d s b _ hr
      · rename_i h3
        exact absurd (hsev ▸ h3) h
      · exact Dev.quiet.trans (quiet_setPage d s b _ hr) (quiet_event ..)

theorem sev_of_severity {p q : Page} (h : q.severity = p.severity) (b i : Nat) : q.sev b i = p.sev b i := by
  simp only [Page.sev, h]

/-- A raise changes no severity. -/
theorem severity_raiseQuiet (d : Dev) (s s' : Side) (b b' i : Nat) :
    ((d.raiseQuiet s b i).page s' b').severity = (d.page s' b').severity := by
  have hc (p : Page) (t : Nat) : (p.capture i t).severity = p.severity := by
    unfold Page.capture; split <;> rfl
  have hset (p : Page) (h : p.severity = (d.page s b).severity) :
      ((d.setPage s b p).page s' b').severity = (d.page s' b').severity := by
    by_cases k : pageKey s' b' = pageKey s b
    · rw [page_setPage_key _ _ _ _ _ _ k, page_congr d k, h]
    · rw [page_setPage_ne _ _ _ _ _ _ k]
  have hev (d : Dev) (c x a : Nat) : (d.event c x a).page s' b' = d.page s' b' := by
    apply page_of_pages; simp only [Dev.event]
  unfold Dev.raiseQuiet
  split
  · rfl
  · extract_lets p p1 q
    have hq : q.severity = (d.page s b).severity := hc p _
    split
    · rfl
    · split
      · exact hset _ hq
      · rw [hev]; exact hset _ hq
      · rw [hev]; exact hset _ hq

theorem quiet_setQueue (d : Dev) (s : Side) (q : Nat) (x : EvQueue) :
    d.quiet (d.mod s fun h => { h with tsk := { h.tsk with queues := tset {} h.tsk.queues q x } }) :=
  quiet_modTsk d s (fun t => { t with queues := tset {} t.queues q x }) fun _ => rfl

theorem quiet_post (d : Dev) (s : Side) (q : Nat) (e : BitVec 64) (h : (d.page s blkTsk).sev blkTsk 5 ≠ 3) :
    d.quiet (d.post s q e).1 := by
  unfold Dev.post
  extract_lets t eq eq1 eq2 d2
  split
  · exact quiet_setQueue ..
  · split
    · exact quiet_setQueue ..
    · refine (quiet_setQueue ..).trans (quiet_raiseQuiet _ _ _ _ ?_)
      have : d2.page s blkTsk = d.page s blkTsk := by
        simp only [d2]; cases s <;> rfl
      rw [this]; exact h

/-- A raise of a source whose severity is below 3 makes no request, when a full event queue's source is below 3 too. -/
theorem quiet_raise (d : Dev) (s : Side) (b i : Nat) (h : (d.page s b).sev b i ≠ 3)
    (h' : (d.page s blkTsk).sev blkTsk 5 ≠ 3) : d.quiet (d.raise s b i) := by
  unfold Dev.raise
  split
  · exact .refl d
  · dsimp only
    split
    · exact .refl d
    · split
      · exact quiet_raiseQuiet d s b i h
      · have k : d.quiet ((d.raiseQuiet s b i).post s b (Config.faultEntry s.code b i)).1 :=
          (quiet_raiseQuiet d s b i h).trans (quiet_post _ _ _ _ (by
            rw [sev_of_severity (severity_raiseQuiet d s s b blkTsk i)]; exact h'))
        split
        · exact k
        · exact k.trans (quiet_setPage _ _ _ _ fun x => x)

/-! ## The net after every command -/

theorem quiet_emit (d : Dev) (o : Out) : d.quiet (d.emit o) := quiet_of_eq rfl rfl rfl rfl

theorem quiet_transmit (d : Dev) (f : Frame) : d.quiet (d.transmit f) := by
  unfold Dev.transmit
  extract_lets keys
  split
  · exact quiet_emit ..
  · exact .refl d

theorem quiet_send (d : Dev) (f : Frame) : d.quiet (d.send f) := by
  unfold Dev.send
  split
  · exact quiet_transmit ..
  · split
    · exact .refl d
    · exact (quiet_transmit ..).trans (quiet_of_eq rfl rfl rfl rfl)

theorem quiet_closeSession (d : Dev) (i r : Nat) (f : Bool) : d.quiet (d.closeSession i r f) := by
  unfold Dev.closeSession
  split
  · exact .refl d
  · extract_lets d1 l
    have h1 : d.quiet d1 := by
      simp only [d1]; split
      · exact quiet_send ..
      · exact .refl d
    exact h1.trans ((quiet_of_eq (d := d1) (e := { d1 with hst := { d1.hst with sessions := l } }) rfl rfl rfl rfl).trans
      (quiet_event ..))

theorem quiet_foldl {α : Type} (l : List α) (f : Dev → α → Dev) (h : ∀ (d : Dev) x, d.quiet (f d x)) (d : Dev) :
    d.quiet (l.foldl f d) := by
  induction l generalizing d with
  | nil => exact .refl d
  | cons x l ih => exact (h d x).trans (ih _)

theorem quiet_retryHeld (d : Dev) (s : Side) : d.quiet (d.retryHeld s) := by
  unfold Dev.retryHeld
  refine quiet_foldl _ _ (fun d kv => ?_) d
  split
  · exact .refl d
  · refine quiet_foldl _ _ (fun d i => ?_) d
    split
    · exact .refl d
    · split
      · rename_i h
        refine Dev.quiet.trans ?_ (quiet_setPage _ _ _ _ fun x => x)
        unfold Dev.post
        dsimp only
        rw [if_pos h]
        exact quiet_setQueue ..
      · exact .refl d

/-! What the net's step leaves -/

theorem safe_event (d : Dev) (c s a : Nat) : (d.event c s a).safe = d.safe := by simp only [Dev.event]

theorem safe_setRg (d : Dev) (n : Nat) (r : Rg) (i : Nat) (v : Word) : (d.setRg n r i v).safe = d.safe := rfl

theorem asserted_raise (d : Dev) (s : Side) (b i : Nat) : (d.raise s b i).safe.asserted = d.safe.asserted :=
  asserted_of_bare (bare_raise d s b i)

theorem asserted_finish (d : Dev) (life : Life) (r : Reply) (st : Nat) (pl : List Byte) :
    (d.finish life r st pl).safe.asserted = d.safe.asserted := by
  unfold Dev.finish Dev.finishWith
  extract_lets pl2 d1 f
  have h1 : d1.safe.asserted = d.safe.asserted := by
    simp only [d1]; split
    · unfold Dev.rejected
      rw [asserted_raise, safe_event]; rfl
    · rfl
  rw [← h1]
  exact asserted_of_bare (bare_send d1 f)

theorem asserted_foldl {α : Type} (l : List α) (f : Dev → α → Dev) (h : ∀ (d : Dev) x, (f d x).safe.asserted = d.safe.asserted)
    (d : Dev) : (l.foldl f d).safe.asserted = d.safe.asserted := by
  induction l generalizing d with
  | nil => rfl
  | cons x l ih => rw [List.foldl_cons, ih, h]

theorem asserted_armPart (d : Dev) (life : Life) (s : Side) (st : Nat) :
    (d.armPart life s st).safe.asserted = d.safe.asserted := by
  unfold Dev.armPart
  extract_lets l ended
  exact asserted_foldl _ _ (fun d a => asserted_finish ..) _

theorem asserted_mod (d : Dev) (s : Side) (f : Half → Half) : (d.mod s f).safe.asserted = d.safe.asserted := by
  cases s <;> rfl

theorem asserted_safeHalf (d : Dev) (life : Life) (s : Side) : (d.safeHalf life s).safe.asserted = d.safe.asserted := by
  unfold Dev.safeHalf
  extract_lets f e
  have h : e.safe.asserted = d.safe.asserted := by
    simp only [e]; split
    · exact asserted_mod ..
    · rfl
  rw [← h]
  clear_value e
  split
  · rw [asserted_armPart, asserted_mod]
  · rfl

theorem asserted_endReplies (d : Dev) (life : Life) (l : Load) (r a : Nat) (who : List (Nat × Reply)) :
    (d.endReplies life l r a who).safe.asserted = d.safe.asserted := by
  induction who generalizing d with
  | nil => rfl
  | cons x who ih =>
    unfold Dev.endReplies
    split
    · rw [ih, asserted_finish]
    · split
      · rw [ih, asserted_finish]
      · rw [asserted_foldl _ _ (fun d x => asserted_finish ..), asserted_finish]

theorem asserted_recordEnd (d : Dev) (life : Life) (l : Load) (r a : Nat) :
    (d.recordEnd life l r a).safe.asserted = d.safe.asserted := by
  unfold Dev.recordEnd
  extract_lets d1 d2 d3 d4 d5
  have e1 : d1.safe = d.safe := safe_setRg ..
  have e2 : d2.safe = d1.safe := by
    simp only [d2]; clear_value d1; split
    · rfl
    · exact safe_setRg ..
  have e3 : d3.safe = d2.safe := by simp only [d3]; clear_value d2; split <;> rfl
  have e4 : d4.safe = d3.safe := safe_event ..
  have e5 : d5.safe.asserted = d.safe.asserted := by
    rw [← e1, ← e2, ← e3, ← e4]; simp only [d5]; clear_value d4; split
    · rfl
    · exact asserted_raise ..
  rw [← e5]
  clear_value d5
  split
  · rfl
  · exact asserted_endReplies ..

theorem asserted_autoNext (d : Dev) : d.autoNext.safe.asserted = d.safe.asserted := by
  unfold Dev.autoNext
  split
  · rfl
  · dsimp only
    split
    · rfl
    · split
      · split
        · rfl
        · exact asserted_raise ..
      · exact asserted_raise ..

theorem asserted_truncateLoad (d : Dev) (life : Life) : (d.truncateLoad life).safe.asserted = d.safe.asserted := by
  unfold Dev.truncateLoad Dev.failHere
  split
  · rfl
  · split
    · rfl
    · dsimp only
      split
      · unfold Dev.loadFail
        split <;> exact asserted_recordEnd ..
      · unfold Dev.checkFail Dev.autoAfter
        dsimp only
        split
        · exact asserted_recordEnd ..
        · split
          · rw [asserted_raise]; exact asserted_recordEnd ..
          · rw [asserted_autoNext]; exact asserted_recordEnd ..

theorem asserted_ldrAppend (d : Dev) (type key : Nat) (x : LdrData) :
    (d.ldrAppend type key x).safe.asserted = d.safe.asserted := by
  unfold Dev.ldrAppend
  extract_lets l cw fits sector used r fill now rest b d1 d2
  split
  · rfl
  · split
    · exact asserted_raise ..
    · split
      · exact asserted_raise ..
      · rfl

theorem asserted_journalEnd (d : Dev) (s : Side) : (d.journalEnd s).safe.asserted = d.safe.asserted := by
  unfold Dev.journalEnd Dev.journalCal
  split
  · dsimp only
    split
    · rfl
    · rw [asserted_mod, asserted_ldrAppend, asserted_ldrAppend]
  · rfl

/-- The net's step leaves it following its requests. -/
theorem net_safeNet (d : Dev) (life : Life) : (d.safeNet life).safeWanted = true → (d.safeNet life).safe.asserted = true := by
  unfold Dev.safeNet
  split
  · intro _
    unfold Dev.safeAssert
    dsimp only
    rw [asserted_journalEnd, asserted_journalEnd]
    show (Dev.truncateLoad _ life).safe.asserted = true
    rw [asserted_truncateLoad, asserted_safeHalf, asserted_safeHalf]
    rfl
  · rename_i h1 h2
    exact fun _ => h2
  · rename_i h1 h2
    exact fun _ => h2
  · rename_i h1 h2
    intro x
    exact absurd x (by simp [h1])

/-! No load stays cut off -/

theorem pathCut_mod (d : Dev) (s : Side) (f : Half → Half) (hs : ∀ h, (f h).stw = h.stw) (ht : ∀ h, (f h).tsk.started = h.tsk.started) :
    (d.mod s f).pathCut = d.pathCut := by
  let g (n : Nat) (b : Bool) : Bool := d.cfg.load.any fun l => l.cutOff (decide (n = 4) || !b)
  have key (w e : Half) : Dev.pathCut { d with west := w, east := e } = g w.stw.state e.tsk.started := rfl
  cases s
  · exact (key (f d.west) d.east).trans (by rw [hs]; rfl)
  · exact (key d.west (f d.east)).trans (by rw [ht]; rfl)

theorem pathCut_ldrAppend (d : Dev) (type key : Nat) (x : LdrData) : (d.ldrAppend type key x).pathCut = d.pathCut := by
  unfold Dev.ldrAppend
  extract_lets l cw fits sector used r fill now rest b d1 d2
  split
  · rfl
  · split
    · exact (pathCut_of_bare (bare_raise ..)).trans rfl
    · split
      · exact (pathCut_of_bare (bare_raise ..)).trans rfl
      · rfl

theorem pathCut_journalEnd (d : Dev) (s : Side) : (d.journalEnd s).pathCut = d.pathCut := by
  unfold Dev.journalEnd Dev.journalCal
  split
  · dsimp only
    split
    · rfl
    · rw [pathCut_mod _ _ _ (by intro h; rfl) (by intro h; rfl), pathCut_ldrAppend, pathCut_ldrAppend]
  · rfl

/-- No load is in progress past CHECKING. -/
def Dev.atRest (d : Dev) : Prop := ∀ l, d.cfg.load = some l → l.store.isSome = true ∨ l.passed = false

theorem Dev.atRest.uncut {d : Dev} (h : d.atRest) : d.pathCut = false := by
  unfold Dev.pathCut
  cases k : d.cfg.load with
  | none => rfl
  | some l =>
    rcases h l k with x | x
    · simp [Load.cutOff, Option.isNone_iff_eq_none, Option.isSome_iff_ne_none.mp x]
    · simp [Load.cutOff, x]

theorem load_finish (d : Dev) (life : Life) (r : Reply) (st : Nat) (pl : List Byte) : (d.finish life r st pl).cfg = d.cfg := by
  have key {d e : Dev} (h : e.bare = d.bare) : e.cfg = d.cfg := by
    have k : e.bare.cfg = d.bare.cfg := by rw [h]
    exact k
  unfold Dev.finish Dev.finishWith
  extract_lets pl2 d1 f
  have h1 : d1.cfg = d.cfg := by
    simp only [d1]; split
    · unfold Dev.rejected
      rw [key (bare_raise ..), key (bare_event ..)]; rfl
    · rfl
  rw [← h1]
  exact key (bare_send d1 f)

theorem load_foldl {α : Type} (l : List α) (f : Dev → α → Dev) (h : ∀ (d : Dev) x, (f d x).cfg = d.cfg) (d : Dev) :
    (l.foldl f d).cfg = d.cfg := by
  induction l generalizing d with
  | nil => rfl
  | cons x l ih => rw [List.foldl_cons, ih, h]

theorem load_endReplies (d : Dev) (life : Life) (l : Load) (r a : Nat) (who : List (Nat × Reply)) :
    (d.endReplies life l r a who).cfg = d.cfg := by
  induction who generalizing d with
  | nil => rfl
  | cons x who ih =>
    unfold Dev.endReplies
    split
    · rw [ih, load_finish]
    · split
      · rw [ih, load_finish]
      · rw [load_foldl _ _ (fun d x => load_finish ..), load_finish]

theorem load_setSlot (c : CfgSt) (n : Nat) (x : CfgSlot) : (c.setSlot n x).load = c.load := by
  unfold CfgSt.setSlot; split <;> rfl

theorem cfg_setRg (d : Dev) (n : Nat) (r : Rg) (i : Nat) (v : Word) : (d.setRg n r i v).cfg = d.cfg := rfl

theorem load_recordEnd (d : Dev) (life : Life) (l : Load) (r a : Nat) : (d.recordEnd life l r a).cfg.load = d.cfg.load := by
  have key {d e : Dev} (h : e.bare = d.bare) : e.cfg = d.cfg := by
    have k : e.bare.cfg = d.bare.cfg := by rw [h]
    exact k
  unfold Dev.recordEnd
  extract_lets d1 d2 d3 d4 d5
  have e1 : d1.cfg = d.cfg := cfg_setRg ..
  have e2 : d2.cfg = d1.cfg := by
    simp only [d2]; clear_value d1; split
    · rfl
    · exact cfg_setRg ..
  have e3 : d3.cfg.load = d2.cfg.load := by
    simp only [d3]; clear_value d2; split
    · exact load_setSlot ..
    · rfl
  have e4 : d4.cfg = d3.cfg := key (bare_event ..)
  have e5 : d5.cfg = d4.cfg := by
    simp only [d5]; clear_value d4; split
    · rfl
    · exact key (bare_raise ..)
  rw [← e1, ← e2, ← e3, ← e4, ← e5]
  clear_value d5
  split
  · rfl
  · rw [load_endReplies]

theorem atRest_none {d : Dev} (h : d.cfg.load = none) : d.atRest := fun l k => by rw [h] at k; cases k

theorem atRest_raise {d : Dev} (s : Side) (b i : Nat) (h : d.atRest) : (d.raise s b i).atRest := by
  have k : (d.raise s b i).bare.cfg = d.bare.cfg := by rw [bare_raise]
  exact fun l x => h l (by rw [← x]; exact congrArg CfgSt.load k.symm)

theorem atRest_tryAuto (d : Dev) (n : Nat) (r : List Nat) : (d.tryAuto n r).atRest := fun _ h => by
  cases h
  exact .inr rfl

theorem atRest_autoNext (d : Dev) (h : d.atRest) : d.autoNext.atRest := by
  unfold Dev.autoNext
  split
  · exact h
  · dsimp only
    split
    · exact atRest_tryAuto _ _ _
    · split
      · split
        · exact atRest_tryAuto _ _ _
        · exact atRest_raise _ _ _ h
      · exact atRest_raise _ _ _ h

theorem atRest_loadFail (d : Dev) (life : Life) (l : Load) (r a : Nat) : (d.loadFail life l r a).atRest := by
  refine atRest_none ?_
  unfold Dev.loadFail
  dsimp only
  split
  · rw [load_recordEnd]; exact load_setSlot ..
  · rw [load_recordEnd]

theorem atRest_failHere (d : Dev) (life : Life) (l : Load) (r : Nat) : (d.failHere life l r).atRest := by
  unfold Dev.failHere
  split
  · exact atRest_loadFail _ _ _ _ _
  · unfold Dev.checkFail Dev.autoAfter
    dsimp only
    generalize hx : Dev.recordEnd _ life l r l.taken = e
    have h : e.atRest := by
      refine atRest_none ?_
      rw [← hx, load_recordEnd]
    split
    · exact h
    · split
      · exact atRest_raise _ _ _ h
      · exact atRest_autoNext _ h

theorem pathCut_truncateLoad (d : Dev) (life : Life) : (d.truncateLoad life).pathCut = false := by
  refine Dev.atRest.uncut ?_
  unfold Dev.truncateLoad
  split
  · exact atRest_none ‹_›
  · split
    · rename_i l hl hs
      intro x hx
      rw [hl] at hx; cases hx
      exact .inl hs
    · exact atRest_failHere _ _ _ _

theorem pathCut_pathLost (d : Dev) (life : Life) : (d.pathLost life).pathCut = false := by
  unfold Dev.pathLost
  split
  · rename_i h; simp [Dev.pathCut, h]
  · rename_i l hl
    split
    · exact Dev.atRest.uncut (atRest_loadFail _ _ _ _ _)
    · rename_i h; simpa [Dev.pathCut, hl] using h

theorem pathCut_safeNet (d : Dev) (life : Life) (h : d.pathCut = false) : (d.safeNet life).pathCut = false := by
  unfold Dev.safeNet Dev.safeAssert
  split
  · dsimp only
    rw [pathCut_journalEnd, pathCut_journalEnd]
    exact pathCut_truncateLoad ..
  all_goals exact h

/-! After every command -/

theorem told_reportStates (d : Dev) : d.reportStates.told = (d.west.face.state, d.east.face.state) := by
  unfold Dev.reportStates
  dsimp only
  split <;> split <;> split <;> simp_all [Dev.event, Dev.told]

theorem ended_of_told {d : Dev} (h : d.told = (d.west.face.state, d.east.face.state)) (s : Side) : d.justEnded s = false := by
  have hw : d.hst.faceW = d.west.face.state := congrArg Prod.fst h
  have he : d.hst.faceE = d.east.face.state := congrArg Prod.snd h
  cases s <;> simp [Dev.justEnded, Dev.half, HstSt.face, hw, he]

/-- The last part of what every command leaves in order keeps the rest of it. -/
theorem calm_reportStates (d : Dev) (h : d.safeWanted = true → d.safe.asserted = true) (k : d.pathCut = false) :
    d.reportStates.calm := by
  have hb := bare_reportStates d
  have hf (s : Side) : d.reportStates.justEnded s = false := by
    refine ended_of_told ?_ s
    rw [told_reportStates]
    have hw : d.reportStates.bare.west.face = d.bare.west.face := by rw [hb]
    have he : d.reportStates.bare.east.face = d.bare.east.face := by rw [hb]
    rw [show d.reportStates.west.face = d.west.face from hw, show d.reportStates.east.face = d.east.face from he]
  refine ⟨fun x => ?_, (pathCut_of_bare hb).trans k, hf .w, hf .e⟩
  rw [asserted_of_bare hb]
  refine h ?_
  rw [← x, eq_comm]
  apply wanted_of_eq <;>
  · unfold Dev.reportStates
    dsimp only
    split <;> split <;> split <;> simp only [Dev.event]

/-- Every command leaves a running module in order. -/
theorem calm_settle (d : Dev) (life : Life) (h : d.powered = true) : (d.settle life).calm := by
  unfold Dev.settle
  rw [if_neg (by simp [h])]
  extract_lets d1 d2 d3
  have hq : (((d.pathLost life).journalEnd .w).journalEnd .e).safeNet life |>.quiet d1 := by
    simp only [d1, Dev.spentSessions]
    refine quiet_foldl _ _ (fun d x => ?_) _
    split
    · exact quiet_closeSession ..
    · exact .refl d
  have hn := net_safeNet (((d.pathLost life).journalEnd .w).journalEnd .e) life
  have hp := pathCut_safeNet (((d.pathLost life).journalEnd .w).journalEnd .e) life
    (by rw [pathCut_journalEnd, pathCut_journalEnd, pathCut_pathLost])
  have h2 : d1.quiet d2 := (quiet_retryHeld ..).trans (quiet_retryHeld ..)
  have h3 : d2.quiet d3 :=
    (quiet_modTsk _ _ _ TskSt.started_deliver).trans (quiet_modTsk _ _ _ TskSt.started_deliver)
  have k := hq.trans (h2.trans h3)
  refine calm_reportStates _ (fun x => k.2.1 ▸ hn (k.1 x)) (Bool.eq_false_iff.mpr fun x => ?_)
  have := k.2.2.1 x
  simp [hp] at this

end Sys2Proof.Machine
end

