-- ==== Sys2Proof/Laws/Rows.lean ====
section
/-! SUPPORT. How the answer of a row follows from its effect. -/
namespace Sys2Proof.Machine

open Sys2Proof.Safety

/-- The bare, the deep and the growing parts of what a row leaves, from its effect e. -/
structure Leaves (e : Dev) (t : Dev) : Prop where
  bare : e.calm → t.bare = e.bare
  deep : t.deep = e.deep
  grows : e.grows t
  calm : e.powered = true → t.calm

theorem settle_leaves (e : Dev) (life : Life) : Leaves e (e.settle life) :=
  ⟨bare_settle e life, deep_settle e life, grows_settle e life, calm_settle e life⟩

/-- A row that commits answers what its effect leaves. -/
theorem yields_commit {c : Instr} {s : State} {f : Life → Dev → Dev} {p : Dev → Prop} (hc : exec c s = commit f s)
    (hp : ∀ t, Leaves (f s.fuse.life { s.dev with out := [] }) t → p t) : Yields c s p :=
  ⟨_, hc, rfl, rfl, hp _ (settle_leaves _ _)⟩

/-- A row of a running module answers what its effect leaves. -/
theorem yields_running {c : Instr} {s : State} {f : Life → Dev → Dev} {p : Dev → Prop} (hc : exec c s = running f s)
    (h : s.dev.powered = true) (hp : ∀ t, Leaves (f s.fuse.life { s.dev with out := [] }) t → p t) : Yields c s p :=
  yields_commit (hc.trans (by simp [running, h])) hp

end Sys2Proof.Machine
end

