-- ==== Sys2Proof/Laws/Hoist.lean ====
section
/-! SUPPORT. The front end admits a request that is in order, and what its row then answers. -/
namespace Sys2Proof.Machine

open Sys2Proof.Safety

theorem session_id {d : Dev} {n : Nat} {x : Session} (h : d.session n = some x) : x.id = n := by
  have := List.find?_some h
  simpa using this

theorem session_modSession (d : Dev) (n : Nat) (f : Session → Session) (hf : ∀ x, (f x).id = x.id) :
    (d.modSession n f).session n = (d.session n).map f := by
  simp only [Dev.session, Dev.modSession, List.find?_map]
  have : ((fun x : Session => decide (x.id = n)) ∘ fun x => if x.id = n then f x else x) = fun x => decide (x.id = n) := by
    funext x
    simp only [Function.comp]
    split <;> simp_all
  rw [this]
  cases h : d.hst.sessions.find? fun x => decide (x.id = n) with
  | none => rfl
  | some x =>
    have hx := List.find?_some h
    simp only [decide_eq_true_eq] at hx
    simp [hx]

theorem modSession_modSession (d : Dev) (n : Nat) (f g : Session → Session) (hf : ∀ x, (f x).id = x.id) :
    (d.modSession n f).modSession n g = d.modSession n fun x => g (f x) := by
  simp only [Dev.modSession, List.map_map]
  congr 2
  apply List.map_congr_left
  intro x _
  simp only [Function.comp]
  by_cases h : x.id = n <;> simp [h, hf]

@[simp] theorem state_modSession (d : Dev) (n : Nat) (f : Session → Session) : (d.modSession n f).state = d.state := rfl

@[simp] theorem fwRefusal_modSession (d : Dev) (n : Nat) (f : Session → Session) (a b c : Bool) :
    (d.modSession n f).fwRefusal a b c = d.fwRefusal a b c := rfl

/-- A frame that is in order is received: the number is its session's, and nothing else changes. -/
theorem receive_of_takes {d : Dev} {h : Hdr} (op : Nat) (k : d.takes h) :
    d.receive op h = .ok (if h.sealed then d.modSession h.session (fun x => x.accept h.seq h.src) else d) := by
  obtain ⟨hear, hb, hv, hr, hz, -, -, k⟩ := k
  unfold Dev.receive
  simp only [hear, hv, hr, hz, Nat.not_lt.mpr hb, Bool.not_true, Bool.false_eq_true, if_false, ne_eq, not_true_eq_false, decide_false,
    Bool.or_self]
  rcases k with ⟨h0, hs, hn⟩ | ⟨h0, hs, hg, x, hx, hst, hse, hlo, -⟩
  · simp [h0, hs, hn]
  · have hid := session_id hx
    have hk : (d.modSession h.session fun x => x.accept h.seq h.src).session h.session = some (x.accept h.seq h.src) := by
      rw [session_modSession d _ (fun x => x.accept h.seq h.src) fun _ => rfl, hx]; rfl
    simp only [List.contains_eq_mem, decide_eq_false_iff_not] at hse
    simp [hx, hs, hg, hst, hse, hlo, hid, Dev.gaps, hk]

/-- A request that the front end takes starts (R346 to R354). -/
theorem enter_of_takes {d : Dev} {h : Hdr} (o : OpRow) (target : Nat) (halt away : Bool) (life : Life) (k : d.takes h)
    (hl : lifeRefuses life o.code target h = false) (hr : o.required = true → life ≠ .blank → h.sealed = true)
    (hs : stateRefuses d.state o.code = false) (hf : d.fwRefusal o.fw halt away = none) (ho : d.out = []) :
    d.enter o target halt away h life = .ok (d.accepted h) := by
  unfold Dev.enter
  rw [receive_of_takes o.code k]
  have hd : ({ d with out := [] } : Dev) = d := by cases d; simp_all
  obtain ⟨-, -, -, -, -, hop, hla, k⟩ := k
  rcases k with ⟨h0, hse, hn⟩ | ⟨h0, hse, hg, x, hx, hst, hsn, hlo, hb⟩
  · have hreq : (o.required && decide ((d.replyTo o.code h).session = 0) && decide (life ≠ .blank)) = false := by
      cases hq : o.required with
      | false => simp
      | true =>
        by_cases hb : life = .blank
        · simp [hb]
        · rw [hr hq hb] at hse; cases hse
    have hre : (d.replyTo o.code h).session = 0 := by simp [Dev.replyTo, hse]
    have hfu : d.full (d.replyTo o.code h) = false := by unfold Dev.full; rw [hre, hn]
    have hbe : d.begin (d.replyTo o.code h) = d := by
      unfold Dev.begin
      rw [hre]
      have : ∀ (l : List Session) (f : Session → Session), l.find? (fun x => decide (x.id = 0)) = none →
          l.map (fun x => if x.id = 0 then f x else x) = l := by
        intro l f hl
        rw [List.map_congr_left (g := id), List.map_id]
        intro y hy
        have := List.find?_eq_none.mp hl y hy
        simp only [decide_eq_true_eq] at this
        simp [this]
      simp only [Dev.modSession, this _ _ hn]
    dsimp only
    simp [hse, Dev.admitted, hop, hla, hl, hs, hf, hfu, hbe, Dev.accepted, hd]
    intro a b
    simpa [a, b] using hreq
  · have hk : (d.modSession h.session fun x => x.accept h.seq h.src).session h.session = some (x.accept h.seq h.src) := by
      rw [session_modSession d _ (fun x => x.accept h.seq h.src) fun _ => rfl, hx]; rfl
    have hrt : ((d.modSession h.session fun x => x.accept h.seq h.src).replyTo o.code h).session = h.session := by
      simp [Dev.replyTo, hse, hk]
    have hfu : (d.modSession h.session fun x => x.accept h.seq h.src).full
        ((d.modSession h.session fun x => x.accept h.seq h.src).replyTo o.code h) = false := by
      unfold Dev.full
      rw [hrt, hk]
      have : (x.accept h.seq h.src).busy = x.busy := rfl
      simp [this]; omega
    simp only [hse, if_true, Dev.admitted, hop, hla, hl, state_modSession, fwRefusal_modSession, hs, hf, hfu, hrt, h0,
      Bool.not_true, Bool.false_eq_true, if_false, decide_false, Bool.and_false, Bool.false_and, Dev.begin]
    simp [Dev.accepted, hse, Dev.replyTo, hd]

/-- The hypotheses of an admitted request (Safety.Admits) start its body. -/
theorem enter_of_admits {s : State} {h : Hdr} {o : OpRow} {far : Bool} (target : Nat)
    (k : Admits s h o.code o.required o.fw far) :
    Dev.enter { s.dev with out := [] } o target far far h s.fuse.life = .ok (s.dev.accepted h) := by
  refine enter_of_takes (d := { s.dev with out := [] }) o target far far _ k.takes ?_ (fun a _ => k.session a) k.state
    k.firmware rfl
  have := k.life
  cases h : s.fuse.life <;> simp_all [lifeRefuses]

theorem accepted_bare (d : Dev) (h : Hdr) : (d.accepted h).bare = d.bare := by
  unfold Dev.accepted; cases h.sealed <;> rfl

/-- What goes to a request's source, whatever its session has become. -/
theorem replyTo_accepted {d : Dev} {h : Hdr} (op : Nat) (k : d.takes h) : (d.accepted h).replyTo op h = d.replyTo op h := by
  obtain ⟨-, -, -, -, -, -, -, k⟩ := k
  rcases k with ⟨h0, hse, hn⟩ | ⟨h0, hse, hg, x, hx, -⟩
  · simp [Dev.replyTo, hse]
  · have : ((d.accepted h).session h.session).isSome = (d.session h.session).isSome := by
      simp only [Dev.accepted, hse, if_true]
      rw [session_modSession (Dev.modSession { d with out := [] } h.session fun x => x.accept h.seq h.src) h.session
        (fun x => { x with busy := x.busy ++ [h.seq] }) fun _ => rfl,
        session_modSession { d with out := [] } h.session (fun x => x.accept h.seq h.src) fun _ => rfl]
      simp only [Option.isSome_map]; rfl
    simp [Dev.replyTo, this]

/-- A row of the front end answers what its body does with the accepted request, and then what every command leaves. -/
theorem yields_hoist {c : Instr} {s : State} {h : Hdr} {o : OpRow} {far : Bool} {body : Body} {p : Dev → Prop}
    (hc : exec c s = running (fun life d => hoist o far h body life d) s) (k : Admits s h o.code o.required o.fw far)
    (hp : ∀ t, Leaves (body s.fuse.life (s.dev.replyTo o.code h) (s.dev.accepted h)) t → p t) : Yields c s p := by
  refine yields_running hc k.powered fun t ht => hp t ?_
  have e : hoist o far h body s.fuse.life { s.dev with out := [] }
      = body s.fuse.life (s.dev.replyTo o.code h) (s.dev.accepted h) := by
    unfold hoist
    rw [enter_of_admits 0 k]
    simp only [replyTo_accepted _ k.takes]
  rwa [e] at ht

/-! ## Answers -/

/-- What has been told stays told. -/
theorem tells_grows {d e : Dev} {r : Reply} {st : Nat} {pl : List Byte} (g : d.grows e) (k : d.tells r st pl) : e.tells r st pl := by
  obtain ⟨f, hf, rest⟩ := k
  exact ⟨f, hf, g.2 _ rest.1, rest.2⟩

/-- The front end can answer: the link is up, and the session, if there is one, is open. -/
def Dev.reaches (d : Dev) (r : Reply) : Prop := d.hst.linkUp = true ∧ (r.session = 0 ∨ (d.session r.session).isSome = true)

theorem out_send {d : Dev} {f : Frame} (hl : d.hst.linkUp = true) (hs : f.session = 0 ∨ (d.session f.session).isSome = true) :
    ∃ n w, Out.hoist { f with seq := n } w ∈ (d.send f).out := by
  unfold Dev.send
  by_cases h0 : f.session = 0
  · exact ⟨f.seq, _, by rw [if_pos h0]; simp only [Dev.transmit, hl, Dev.emit, if_true]; exact List.mem_append_right _ (List.mem_singleton_self _)⟩
  · have hs' := hs.resolve_left h0
    obtain ⟨x, hx⟩ := Option.isSome_iff_exists.mp hs'
    exact ⟨x.devSeq + 1, _, by
      simp only [h0, hx, Dev.transmit, hl, Dev.emit, Dev.modSession, if_true, if_false]
      exact List.mem_append_right _ (List.mem_singleton_self _)⟩

/-- A final response is sent. -/
theorem tells_finish {d : Dev} (life : Life) (r : Reply) {st : Nat} (pl : List Byte) (h : d.reaches r) (hs : st ≠ stWrong) :
    (d.finish life r st pl).tells r st pl := by
  obtain ⟨n, w, hn⟩ := out_send (d := d)
    (f := { session := r.session, dst := r.src, tag := r.tag, op := r.op, status := st, sealed := decide (r.session ≠ 0),
            payload := pl }) h.1 h.2
  exact ⟨_, w, by simpa only [Dev.finish, Dev.finishWith, hs, if_false, Dev.modSession] using hn, rfl, rfl, rfl, rfl, rfl, rfl⟩

/-- A refusal with a status other than BUSY and WRONG_STATE carries nothing. -/
theorem refuse_eq (d : Dev) (life : Life) (r : Reply) {st : Nat} (h : st ≠ stBusy) : d.refuse life r st = d.finish life r st [] := by
  simp [Dev.refuse, h]

/-- The request that was taken can be answered. -/
theorem reaches_accepted {d : Dev} {h : Hdr} (op : Nat) (k : d.takes h) : (d.accepted h).reaches (d.replyTo op h) := by
  have hl : d.hst.linkUp = true := by
    have := k.1
    simp only [Dev.hears, Bool.and_eq_true] at this
    exact this.1.1.1
  refine ⟨by unfold Dev.accepted; cases h.sealed <;> exact hl, ?_⟩
  obtain ⟨-, -, -, -, -, -, -, k⟩ := k
  rcases k with ⟨h0, hse, hn⟩ | ⟨h0, hse, hg, x, hx, -⟩
  · left; simp [Dev.replyTo, hse]
  · right
    have e : (d.replyTo op h).session = h.session := by simp [Dev.replyTo, hse, hx]
    rw [e]
    simp only [Dev.accepted, hse, if_true]
    rw [session_modSession (Dev.modSession { d with out := [] } h.session fun x => x.accept h.seq h.src) h.session
      (fun x => { x with busy := x.busy ++ [h.seq] }) fun _ => rfl,
      session_modSession { d with out := [] } h.session (fun x => x.accept h.seq h.src) fun _ => rfl]
    have hx' : Dev.session { d with out := [] } h.session = some x := hx
    rw [hx']; rfl

/-- A row whose body ends in a final response gives that answer, and its effect before the response is the whole effect. -/
theorem answers_of_finish {c : Instr} {s : State} {h : Hdr} {o : OpRow} {far : Bool} {body : Body} {st : Nat} {pl : List Byte}
    {e f : Dev} (hc : exec c s = running (fun life d => hoist o far h body life d) s)
    (k : Admits s h o.code o.required o.fw far)
    (hb : body s.fuse.life (s.dev.replyTo o.code h) (s.dev.accepted h) = e.finish s.fuse.life (s.dev.replyTo o.code h) st pl)
    (he : e.bare = f.bare) (hcalm : e.calm) (hr : e.reaches (s.dev.replyTo o.code h)) (hs : st ≠ stWrong) :
    Answers c s h o.code st pl f :=
  yields_hoist hc k fun t ht => by
    rw [hb] at ht
    have hq : (e.finish s.fuse.life (s.dev.replyTo o.code h) st pl).calm := by
      refine hcalm.quiet ?_
      simp only [Dev.finish, Dev.finishWith, hs, if_false]
      exact (quiet_send ..).trans (quiet_of_eq rfl rfl rfl rfl)
    exact ⟨by rw [ht.bare hq, bare_finish _ _ _ _ _ hs, he], tells_grows ht.grows (tells_finish _ _ _ hr hs)⟩

end Sys2Proof.Machine
end

