-- ==== Sys2Proof/Laws/State.lean ====
section
/-! SUPPORT. What each update of the state writes and what it leaves, a lemma per field: no later proof unfolds an update. -/
namespace Sys2Proof.Machine

/-! ### Dev.setRg writes `regs` alone -/
@[simp] theorem Dev.setRg_pages (d : Dev) (n : Nat) (r : Rg) (i : Nat) (v : Word) : (d.setRg n r i v).pages = d.pages := rfl
@[simp] theorem Dev.setRg_west (d : Dev) (n : Nat) (r : Rg) (i : Nat) (v : Word) : (d.setRg n r i v).west = d.west := rfl
@[simp] theorem Dev.setRg_east (d : Dev) (n : Nat) (r : Rg) (i : Nat) (v : Word) : (d.setRg n r i v).east = d.east := rfl
@[simp] theorem Dev.setRg_hst (d : Dev) (n : Nat) (r : Rg) (i : Nat) (v : Word) : (d.setRg n r i v).hst = d.hst := rfl
@[simp] theorem Dev.setRg_sec (d : Dev) (n : Nat) (r : Rg) (i : Nat) (v : Word) : (d.setRg n r i v).sec = d.sec := rfl
@[simp] theorem Dev.setRg_cfg (d : Dev) (n : Nat) (r : Rg) (i : Nat) (v : Word) : (d.setRg n r i v).cfg = d.cfg := rfl
@[simp] theorem Dev.setRg_array (d : Dev) (n : Nat) (r : Rg) (i : Nat) (v : Word) : (d.setRg n r i v).array = d.array := rfl
@[simp] theorem Dev.setRg_ldr (d : Dev) (n : Nat) (r : Rg) (i : Nat) (v : Word) : (d.setRg n r i v).ldr = d.ldr := rfl
@[simp] theorem Dev.setRg_casc (d : Dev) (n : Nat) (r : Rg) (i : Nat) (v : Word) : (d.setRg n r i v).casc = d.casc := rfl
@[simp] theorem Dev.setRg_dbg (d : Dev) (n : Nat) (r : Rg) (i : Nat) (v : Word) : (d.setRg n r i v).dbg = d.dbg := rfl
@[simp] theorem Dev.setRg_latch (d : Dev) (n : Nat) (r : Rg) (i : Nat) (v : Word) : (d.setRg n r i v).latch = d.latch := rfl
@[simp] theorem Dev.setRg_safe (d : Dev) (n : Nat) (r : Rg) (i : Nat) (v : Word) : (d.setRg n r i v).safe = d.safe := rfl
@[simp] theorem Dev.setRg_held (d : Dev) (n : Nat) (r : Rg) (i : Nat) (v : Word) : (d.setRg n r i v).held = d.held := rfl
@[simp] theorem Dev.setRg_clk (d : Dev) (n : Nat) (r : Rg) (i : Nat) (v : Word) : (d.setRg n r i v).clk = d.clk := rfl
@[simp] theorem Dev.setRg_aon (d : Dev) (n : Nat) (r : Rg) (i : Nat) (v : Word) : (d.setRg n r i v).aon = d.aon := rfl
@[simp] theorem Dev.setRg_shadow (d : Dev) (n : Nat) (r : Rg) (i : Nat) (v : Word) : (d.setRg n r i v).shadow = d.shadow := rfl
@[simp] theorem Dev.setRg_diverged (d : Dev) (n : Nat) (r : Rg) (i : Nat) (v : Word) : (d.setRg n r i v).diverged = d.diverged := rfl
@[simp] theorem Dev.setRg_free (d : Dev) (n : Nat) (r : Rg) (i : Nat) (v : Word) : (d.setRg n r i v).free = d.free := rfl
@[simp] theorem Dev.setRg_out (d : Dev) (n : Nat) (r : Rg) (i : Nat) (v : Word) : (d.setRg n r i v).out = d.out := rfl

/-! ### Dev.setRf writes `regs` alone -/
@[simp] theorem Dev.setRf_pages (d : Dev) (n : Nat) (r : Rg) (i hi lo v : Nat) : (d.setRf n r i hi lo v).pages = d.pages := rfl
@[simp] theorem Dev.setRf_west (d : Dev) (n : Nat) (r : Rg) (i hi lo v : Nat) : (d.setRf n r i hi lo v).west = d.west := rfl
@[simp] theorem Dev.setRf_east (d : Dev) (n : Nat) (r : Rg) (i hi lo v : Nat) : (d.setRf n r i hi lo v).east = d.east := rfl
@[simp] theorem Dev.setRf_hst (d : Dev) (n : Nat) (r : Rg) (i hi lo v : Nat) : (d.setRf n r i hi lo v).hst = d.hst := rfl
@[simp] theorem Dev.setRf_sec (d : Dev) (n : Nat) (r : Rg) (i hi lo v : Nat) : (d.setRf n r i hi lo v).sec = d.sec := rfl
@[simp] theorem Dev.setRf_cfg (d : Dev) (n : Nat) (r : Rg) (i hi lo v : Nat) : (d.setRf n r i hi lo v).cfg = d.cfg := rfl
@[simp] theorem Dev.setRf_array (d : Dev) (n : Nat) (r : Rg) (i hi lo v : Nat) : (d.setRf n r i hi lo v).array = d.array := rfl
@[simp] theorem Dev.setRf_ldr (d : Dev) (n : Nat) (r : Rg) (i hi lo v : Nat) : (d.setRf n r i hi lo v).ldr = d.ldr := rfl
@[simp] theorem Dev.setRf_casc (d : Dev) (n : Nat) (r : Rg) (i hi lo v : Nat) : (d.setRf n r i hi lo v).casc = d.casc := rfl
@[simp] theorem Dev.setRf_dbg (d : Dev) (n : Nat) (r : Rg) (i hi lo v : Nat) : (d.setRf n r i hi lo v).dbg = d.dbg := rfl
@[simp] theorem Dev.setRf_latch (d : Dev) (n : Nat) (r : Rg) (i hi lo v : Nat) : (d.setRf n r i hi lo v).latch = d.latch := rfl
@[simp] theorem Dev.setRf_safe (d : Dev) (n : Nat) (r : Rg) (i hi lo v : Nat) : (d.setRf n r i hi lo v).safe = d.safe := rfl
@[simp] theorem Dev.setRf_held (d : Dev) (n : Nat) (r : Rg) (i hi lo v : Nat) : (d.setRf n r i hi lo v).held = d.held := rfl
@[simp] theorem Dev.setRf_clk (d : Dev) (n : Nat) (r : Rg) (i hi lo v : Nat) : (d.setRf n r i hi lo v).clk = d.clk := rfl
@[simp] theorem Dev.setRf_aon (d : Dev) (n : Nat) (r : Rg) (i hi lo v : Nat) : (d.setRf n r i hi lo v).aon = d.aon := rfl
@[simp] theorem Dev.setRf_shadow (d : Dev) (n : Nat) (r : Rg) (i hi lo v : Nat) : (d.setRf n r i hi lo v).shadow = d.shadow := rfl
@[simp] theorem Dev.setRf_diverged (d : Dev) (n : Nat) (r : Rg) (i hi lo v : Nat) : (d.setRf n r i hi lo v).diverged = d.diverged := rfl
@[simp] theorem Dev.setRf_free (d : Dev) (n : Nat) (r : Rg) (i hi lo v : Nat) : (d.setRf n r i hi lo v).free = d.free := rfl
@[simp] theorem Dev.setRf_out (d : Dev) (n : Nat) (r : Rg) (i hi lo v : Nat) : (d.setRf n r i hi lo v).out = d.out := rfl

/-! ### Dev.bump writes `regs` alone -/
@[simp] theorem Dev.bump_pages (d : Dev) (n : Nat) (r : Rg) (i hi lo k : Nat) : (d.bump n r i hi lo k).pages = d.pages := rfl
@[simp] theorem Dev.bump_west (d : Dev) (n : Nat) (r : Rg) (i hi lo k : Nat) : (d.bump n r i hi lo k).west = d.west := rfl
@[simp] theorem Dev.bump_east (d : Dev) (n : Nat) (r : Rg) (i hi lo k : Nat) : (d.bump n r i hi lo k).east = d.east := rfl
@[simp] theorem Dev.bump_hst (d : Dev) (n : Nat) (r : Rg) (i hi lo k : Nat) : (d.bump n r i hi lo k).hst = d.hst := rfl
@[simp] theorem Dev.bump_sec (d : Dev) (n : Nat) (r : Rg) (i hi lo k : Nat) : (d.bump n r i hi lo k).sec = d.sec := rfl
@[simp] theorem Dev.bump_cfg (d : Dev) (n : Nat) (r : Rg) (i hi lo k : Nat) : (d.bump n r i hi lo k).cfg = d.cfg := rfl
@[simp] theorem Dev.bump_array (d : Dev) (n : Nat) (r : Rg) (i hi lo k : Nat) : (d.bump n r i hi lo k).array = d.array := rfl
@[simp] theorem Dev.bump_ldr (d : Dev) (n : Nat) (r : Rg) (i hi lo k : Nat) : (d.bump n r i hi lo k).ldr = d.ldr := rfl
@[simp] theorem Dev.bump_casc (d : Dev) (n : Nat) (r : Rg) (i hi lo k : Nat) : (d.bump n r i hi lo k).casc = d.casc := rfl
@[simp] theorem Dev.bump_dbg (d : Dev) (n : Nat) (r : Rg) (i hi lo k : Nat) : (d.bump n r i hi lo k).dbg = d.dbg := rfl
@[simp] theorem Dev.bump_latch (d : Dev) (n : Nat) (r : Rg) (i hi lo k : Nat) : (d.bump n r i hi lo k).latch = d.latch := rfl
@[simp] theorem Dev.bump_safe (d : Dev) (n : Nat) (r : Rg) (i hi lo k : Nat) : (d.bump n r i hi lo k).safe = d.safe := rfl
@[simp] theorem Dev.bump_held (d : Dev) (n : Nat) (r : Rg) (i hi lo k : Nat) : (d.bump n r i hi lo k).held = d.held := rfl
@[simp] theorem Dev.bump_clk (d : Dev) (n : Nat) (r : Rg) (i hi lo k : Nat) : (d.bump n r i hi lo k).clk = d.clk := rfl
@[simp] theorem Dev.bump_aon (d : Dev) (n : Nat) (r : Rg) (i hi lo k : Nat) : (d.bump n r i hi lo k).aon = d.aon := rfl
@[simp] theorem Dev.bump_shadow (d : Dev) (n : Nat) (r : Rg) (i hi lo k : Nat) : (d.bump n r i hi lo k).shadow = d.shadow := rfl
@[simp] theorem Dev.bump_diverged (d : Dev) (n : Nat) (r : Rg) (i hi lo k : Nat) : (d.bump n r i hi lo k).diverged = d.diverged := rfl
@[simp] theorem Dev.bump_free (d : Dev) (n : Nat) (r : Rg) (i hi lo k : Nat) : (d.bump n r i hi lo k).free = d.free := rfl
@[simp] theorem Dev.bump_out (d : Dev) (n : Nat) (r : Rg) (i hi lo k : Nat) : (d.bump n r i hi lo k).out = d.out := rfl

/-! ### Dev.resetRg writes `regs` alone -/
@[simp] theorem Dev.resetRg_pages (d : Dev) (n : Nat) (r : Rg) : (d.resetRg n r).pages = d.pages := rfl
@[simp] theorem Dev.resetRg_west (d : Dev) (n : Nat) (r : Rg) : (d.resetRg n r).west = d.west := rfl
@[simp] theorem Dev.resetRg_east (d : Dev) (n : Nat) (r : Rg) : (d.resetRg n r).east = d.east := rfl
@[simp] theorem Dev.resetRg_hst (d : Dev) (n : Nat) (r : Rg) : (d.resetRg n r).hst = d.hst := rfl
@[simp] theorem Dev.resetRg_sec (d : Dev) (n : Nat) (r : Rg) : (d.resetRg n r).sec = d.sec := rfl
@[simp] theorem Dev.resetRg_cfg (d : Dev) (n : Nat) (r : Rg) : (d.resetRg n r).cfg = d.cfg := rfl
@[simp] theorem Dev.resetRg_array (d : Dev) (n : Nat) (r : Rg) : (d.resetRg n r).array = d.array := rfl
@[simp] theorem Dev.resetRg_ldr (d : Dev) (n : Nat) (r : Rg) : (d.resetRg n r).ldr = d.ldr := rfl
@[simp] theorem Dev.resetRg_casc (d : Dev) (n : Nat) (r : Rg) : (d.resetRg n r).casc = d.casc := rfl
@[simp] theorem Dev.resetRg_dbg (d : Dev) (n : Nat) (r : Rg) : (d.resetRg n r).dbg = d.dbg := rfl
@[simp] theorem Dev.resetRg_latch (d : Dev) (n : Nat) (r : Rg) : (d.resetRg n r).latch = d.latch := rfl
@[simp] theorem Dev.resetRg_safe (d : Dev) (n : Nat) (r : Rg) : (d.resetRg n r).safe = d.safe := rfl
@[simp] theorem Dev.resetRg_held (d : Dev) (n : Nat) (r : Rg) : (d.resetRg n r).held = d.held := rfl
@[simp] theorem Dev.resetRg_clk (d : Dev) (n : Nat) (r : Rg) : (d.resetRg n r).clk = d.clk := rfl
@[simp] theorem Dev.resetRg_aon (d : Dev) (n : Nat) (r : Rg) : (d.resetRg n r).aon = d.aon := rfl
@[simp] theorem Dev.resetRg_shadow (d : Dev) (n : Nat) (r : Rg) : (d.resetRg n r).shadow = d.shadow := rfl
@[simp] theorem Dev.resetRg_diverged (d : Dev) (n : Nat) (r : Rg) : (d.resetRg n r).diverged = d.diverged := rfl
@[simp] theorem Dev.resetRg_free (d : Dev) (n : Nat) (r : Rg) : (d.resetRg n r).free = d.free := rfl
@[simp] theorem Dev.resetRg_out (d : Dev) (n : Nat) (r : Rg) : (d.resetRg n r).out = d.out := rfl

/-! ### Dev.setPage writes `pages` alone -/
@[simp] theorem Dev.setPage_regs (d : Dev) (s : Side) (b : Nat) (p : Page) : (d.setPage s b p).regs = d.regs := rfl
@[simp] theorem Dev.setPage_west (d : Dev) (s : Side) (b : Nat) (p : Page) : (d.setPage s b p).west = d.west := rfl
@[simp] theorem Dev.setPage_east (d : Dev) (s : Side) (b : Nat) (p : Page) : (d.setPage s b p).east = d.east := rfl
@[simp] theorem Dev.setPage_hst (d : Dev) (s : Side) (b : Nat) (p : Page) : (d.setPage s b p).hst = d.hst := rfl
@[simp] theorem Dev.setPage_sec (d : Dev) (s : Side) (b : Nat) (p : Page) : (d.setPage s b p).sec = d.sec := rfl
@[simp] theorem Dev.setPage_cfg (d : Dev) (s : Side) (b : Nat) (p : Page) : (d.setPage s b p).cfg = d.cfg := rfl
@[simp] theorem Dev.setPage_array (d : Dev) (s : Side) (b : Nat) (p : Page) : (d.setPage s b p).array = d.array := rfl
@[simp] theorem Dev.setPage_ldr (d : Dev) (s : Side) (b : Nat) (p : Page) : (d.setPage s b p).ldr = d.ldr := rfl
@[simp] theorem Dev.setPage_casc (d : Dev) (s : Side) (b : Nat) (p : Page) : (d.setPage s b p).casc = d.casc := rfl
@[simp] theorem Dev.setPage_dbg (d : Dev) (s : Side) (b : Nat) (p : Page) : (d.setPage s b p).dbg = d.dbg := rfl
@[simp] theorem Dev.setPage_latch (d : Dev) (s : Side) (b : Nat) (p : Page) : (d.setPage s b p).latch = d.latch := rfl
@[simp] theorem Dev.setPage_safe (d : Dev) (s : Side) (b : Nat) (p : Page) : (d.setPage s b p).safe = d.safe := rfl
@[simp] theorem Dev.setPage_held (d : Dev) (s : Side) (b : Nat) (p : Page) : (d.setPage s b p).held = d.held := rfl
@[simp] theorem Dev.setPage_clk (d : Dev) (s : Side) (b : Nat) (p : Page) : (d.setPage s b p).clk = d.clk := rfl
@[simp] theorem Dev.setPage_aon (d : Dev) (s : Side) (b : Nat) (p : Page) : (d.setPage s b p).aon = d.aon := rfl
@[simp] theorem Dev.setPage_shadow (d : Dev) (s : Side) (b : Nat) (p : Page) : (d.setPage s b p).shadow = d.shadow := rfl
@[simp] theorem Dev.setPage_diverged (d : Dev) (s : Side) (b : Nat) (p : Page) : (d.setPage s b p).diverged = d.diverged := rfl
@[simp] theorem Dev.setPage_free (d : Dev) (s : Side) (b : Nat) (p : Page) : (d.setPage s b p).free = d.free := rfl
@[simp] theorem Dev.setPage_out (d : Dev) (s : Side) (b : Nat) (p : Page) : (d.setPage s b p).out = d.out := rfl

/-! ### Dev.emit writes `out` alone -/
@[simp] theorem Dev.emit_regs (d : Dev) (o : Out) : (d.emit o).regs = d.regs := rfl
@[simp] theorem Dev.emit_pages (d : Dev) (o : Out) : (d.emit o).pages = d.pages := rfl
@[simp] theorem Dev.emit_west (d : Dev) (o : Out) : (d.emit o).west = d.west := rfl
@[simp] theorem Dev.emit_east (d : Dev) (o : Out) : (d.emit o).east = d.east := rfl
@[simp] theorem Dev.emit_hst (d : Dev) (o : Out) : (d.emit o).hst = d.hst := rfl
@[simp] theorem Dev.emit_sec (d : Dev) (o : Out) : (d.emit o).sec = d.sec := rfl
@[simp] theorem Dev.emit_cfg (d : Dev) (o : Out) : (d.emit o).cfg = d.cfg := rfl
@[simp] theorem Dev.emit_array (d : Dev) (o : Out) : (d.emit o).array = d.array := rfl
@[simp] theorem Dev.emit_ldr (d : Dev) (o : Out) : (d.emit o).ldr = d.ldr := rfl
@[simp] theorem Dev.emit_casc (d : Dev) (o : Out) : (d.emit o).casc = d.casc := rfl
@[simp] theorem Dev.emit_dbg (d : Dev) (o : Out) : (d.emit o).dbg = d.dbg := rfl
@[simp] theorem Dev.emit_latch (d : Dev) (o : Out) : (d.emit o).latch = d.latch := rfl
@[simp] theorem Dev.emit_safe (d : Dev) (o : Out) : (d.emit o).safe = d.safe := rfl
@[simp] theorem Dev.emit_held (d : Dev) (o : Out) : (d.emit o).held = d.held := rfl
@[simp] theorem Dev.emit_clk (d : Dev) (o : Out) : (d.emit o).clk = d.clk := rfl
@[simp] theorem Dev.emit_aon (d : Dev) (o : Out) : (d.emit o).aon = d.aon := rfl
@[simp] theorem Dev.emit_shadow (d : Dev) (o : Out) : (d.emit o).shadow = d.shadow := rfl
@[simp] theorem Dev.emit_diverged (d : Dev) (o : Out) : (d.emit o).diverged = d.diverged := rfl
@[simp] theorem Dev.emit_free (d : Dev) (o : Out) : (d.emit o).free = d.free := rfl

/-! ### Dev.draw writes `free` alone -/
@[simp] theorem Dev.draw_regs (d : Dev) : (d.draw).regs = d.regs := rfl
@[simp] theorem Dev.draw_pages (d : Dev) : (d.draw).pages = d.pages := rfl
@[simp] theorem Dev.draw_west (d : Dev) : (d.draw).west = d.west := rfl
@[simp] theorem Dev.draw_east (d : Dev) : (d.draw).east = d.east := rfl
@[simp] theorem Dev.draw_hst (d : Dev) : (d.draw).hst = d.hst := rfl
@[simp] theorem Dev.draw_sec (d : Dev) : (d.draw).sec = d.sec := rfl
@[simp] theorem Dev.draw_cfg (d : Dev) : (d.draw).cfg = d.cfg := rfl
@[simp] theorem Dev.draw_array (d : Dev) : (d.draw).array = d.array := rfl
@[simp] theorem Dev.draw_ldr (d : Dev) : (d.draw).ldr = d.ldr := rfl
@[simp] theorem Dev.draw_casc (d : Dev) : (d.draw).casc = d.casc := rfl
@[simp] theorem Dev.draw_dbg (d : Dev) : (d.draw).dbg = d.dbg := rfl
@[simp] theorem Dev.draw_latch (d : Dev) : (d.draw).latch = d.latch := rfl
@[simp] theorem Dev.draw_safe (d : Dev) : (d.draw).safe = d.safe := rfl
@[simp] theorem Dev.draw_held (d : Dev) : (d.draw).held = d.held := rfl
@[simp] theorem Dev.draw_clk (d : Dev) : (d.draw).clk = d.clk := rfl
@[simp] theorem Dev.draw_aon (d : Dev) : (d.draw).aon = d.aon := rfl
@[simp] theorem Dev.draw_shadow (d : Dev) : (d.draw).shadow = d.shadow := rfl
@[simp] theorem Dev.draw_diverged (d : Dev) : (d.draw).diverged = d.diverged := rfl
@[simp] theorem Dev.draw_out (d : Dev) : (d.draw).out = d.out := rfl

/-! ### Dev.modSession writes `hst` alone -/
@[simp] theorem Dev.modSession_regs (d : Dev) (n : Nat) (f : Session → Session) : (d.modSession n f).regs = d.regs := rfl
@[simp] theorem Dev.modSession_pages (d : Dev) (n : Nat) (f : Session → Session) : (d.modSession n f).pages = d.pages := rfl
@[simp] theorem Dev.modSession_west (d : Dev) (n : Nat) (f : Session → Session) : (d.modSession n f).west = d.west := rfl
@[simp] theorem Dev.modSession_east (d : Dev) (n : Nat) (f : Session → Session) : (d.modSession n f).east = d.east := rfl
@[simp] theorem Dev.modSession_sec (d : Dev) (n : Nat) (f : Session → Session) : (d.modSession n f).sec = d.sec := rfl
@[simp] theorem Dev.modSession_cfg (d : Dev) (n : Nat) (f : Session → Session) : (d.modSession n f).cfg = d.cfg := rfl
@[simp] theorem Dev.modSession_array (d : Dev) (n : Nat) (f : Session → Session) : (d.modSession n f).array = d.array := rfl
@[simp] theorem Dev.modSession_ldr (d : Dev) (n : Nat) (f : Session → Session) : (d.modSession n f).ldr = d.ldr := rfl
@[simp] theorem Dev.modSession_casc (d : Dev) (n : Nat) (f : Session → Session) : (d.modSession n f).casc = d.casc := rfl
@[simp] theorem Dev.modSession_dbg (d : Dev) (n : Nat) (f : Session → Session) : (d.modSession n f).dbg = d.dbg := rfl
@[simp] theorem Dev.modSession_latch (d : Dev) (n : Nat) (f : Session → Session) : (d.modSession n f).latch = d.latch := rfl
@[simp] theorem Dev.modSession_safe (d : Dev) (n : Nat) (f : Session → Session) : (d.modSession n f).safe = d.safe := rfl
@[simp] theorem Dev.modSession_held (d : Dev) (n : Nat) (f : Session → Session) : (d.modSession n f).held = d.held := rfl
@[simp] theorem Dev.modSession_clk (d : Dev) (n : Nat) (f : Session → Session) : (d.modSession n f).clk = d.clk := rfl
@[simp] theorem Dev.modSession_aon (d : Dev) (n : Nat) (f : Session → Session) : (d.modSession n f).aon = d.aon := rfl
@[simp] theorem Dev.modSession_shadow (d : Dev) (n : Nat) (f : Session → Session) : (d.modSession n f).shadow = d.shadow := rfl
@[simp] theorem Dev.modSession_diverged (d : Dev) (n : Nat) (f : Session → Session) : (d.modSession n f).diverged = d.diverged := rfl
@[simp] theorem Dev.modSession_free (d : Dev) (n : Nat) (f : Session → Session) : (d.modSession n f).free = d.free := rfl
@[simp] theorem Dev.modSession_out (d : Dev) (n : Nat) (f : Session → Session) : (d.modSession n f).out = d.out := rfl

/-! ### Dev.setSlot writes `sec` alone -/
@[simp] theorem Dev.setSlot_regs (d : Dev) (n : Nat) (k : KeySlot) : (d.setSlot n k).regs = d.regs := rfl
@[simp] theorem Dev.setSlot_pages (d : Dev) (n : Nat) (k : KeySlot) : (d.setSlot n k).pages = d.pages := rfl
@[simp] theorem Dev.setSlot_west (d : Dev) (n : Nat) (k : KeySlot) : (d.setSlot n k).west = d.west := rfl
@[simp] theorem Dev.setSlot_east (d : Dev) (n : Nat) (k : KeySlot) : (d.setSlot n k).east = d.east := rfl
@[simp] theorem Dev.setSlot_hst (d : Dev) (n : Nat) (k : KeySlot) : (d.setSlot n k).hst = d.hst := rfl
@[simp] theorem Dev.setSlot_cfg (d : Dev) (n : Nat) (k : KeySlot) : (d.setSlot n k).cfg = d.cfg := rfl
@[simp] theorem Dev.setSlot_array (d : Dev) (n : Nat) (k : KeySlot) : (d.setSlot n k).array = d.array := rfl
@[simp] theorem Dev.setSlot_ldr (d : Dev) (n : Nat) (k : KeySlot) : (d.setSlot n k).ldr = d.ldr := rfl
@[simp] theorem Dev.setSlot_casc (d : Dev) (n : Nat) (k : KeySlot) : (d.setSlot n k).casc = d.casc := rfl
@[simp] theorem Dev.setSlot_dbg (d : Dev) (n : Nat) (k : KeySlot) : (d.setSlot n k).dbg = d.dbg := rfl
@[simp] theorem Dev.setSlot_latch (d : Dev) (n : Nat) (k : KeySlot) : (d.setSlot n k).latch = d.latch := rfl
@[simp] theorem Dev.setSlot_safe (d : Dev) (n : Nat) (k : KeySlot) : (d.setSlot n k).safe = d.safe := rfl
@[simp] theorem Dev.setSlot_held (d : Dev) (n : Nat) (k : KeySlot) : (d.setSlot n k).held = d.held := rfl
@[simp] theorem Dev.setSlot_clk (d : Dev) (n : Nat) (k : KeySlot) : (d.setSlot n k).clk = d.clk := rfl
@[simp] theorem Dev.setSlot_aon (d : Dev) (n : Nat) (k : KeySlot) : (d.setSlot n k).aon = d.aon := rfl
@[simp] theorem Dev.setSlot_shadow (d : Dev) (n : Nat) (k : KeySlot) : (d.setSlot n k).shadow = d.shadow := rfl
@[simp] theorem Dev.setSlot_diverged (d : Dev) (n : Nat) (k : KeySlot) : (d.setSlot n k).diverged = d.diverged := rfl
@[simp] theorem Dev.setSlot_free (d : Dev) (n : Nat) (k : KeySlot) : (d.setSlot n k).free = d.free := rfl
@[simp] theorem Dev.setSlot_out (d : Dev) (n : Nat) (k : KeySlot) : (d.setSlot n k).out = d.out := rfl

/-! ### Dev.setClk writes `clk` alone -/
@[simp] theorem Dev.setClk_regs (d : Dev) (f : ClkSt → ClkSt) : (d.setClk f).regs = d.regs := rfl
@[simp] theorem Dev.setClk_pages (d : Dev) (f : ClkSt → ClkSt) : (d.setClk f).pages = d.pages := rfl
@[simp] theorem Dev.setClk_west (d : Dev) (f : ClkSt → ClkSt) : (d.setClk f).west = d.west := rfl
@[simp] theorem Dev.setClk_east (d : Dev) (f : ClkSt → ClkSt) : (d.setClk f).east = d.east := rfl
@[simp] theorem Dev.setClk_hst (d : Dev) (f : ClkSt → ClkSt) : (d.setClk f).hst = d.hst := rfl
@[simp] theorem Dev.setClk_sec (d : Dev) (f : ClkSt → ClkSt) : (d.setClk f).sec = d.sec := rfl
@[simp] theorem Dev.setClk_cfg (d : Dev) (f : ClkSt → ClkSt) : (d.setClk f).cfg = d.cfg := rfl
@[simp] theorem Dev.setClk_array (d : Dev) (f : ClkSt → ClkSt) : (d.setClk f).array = d.array := rfl
@[simp] theorem Dev.setClk_ldr (d : Dev) (f : ClkSt → ClkSt) : (d.setClk f).ldr = d.ldr := rfl
@[simp] theorem Dev.setClk_casc (d : Dev) (f : ClkSt → ClkSt) : (d.setClk f).casc = d.casc := rfl
@[simp] theorem Dev.setClk_dbg (d : Dev) (f : ClkSt → ClkSt) : (d.setClk f).dbg = d.dbg := rfl
@[simp] theorem Dev.setClk_latch (d : Dev) (f : ClkSt → ClkSt) : (d.setClk f).latch = d.latch := rfl
@[simp] theorem Dev.setClk_safe (d : Dev) (f : ClkSt → ClkSt) : (d.setClk f).safe = d.safe := rfl
@[simp] theorem Dev.setClk_held (d : Dev) (f : ClkSt → ClkSt) : (d.setClk f).held = d.held := rfl
@[simp] theorem Dev.setClk_aon (d : Dev) (f : ClkSt → ClkSt) : (d.setClk f).aon = d.aon := rfl
@[simp] theorem Dev.setClk_shadow (d : Dev) (f : ClkSt → ClkSt) : (d.setClk f).shadow = d.shadow := rfl
@[simp] theorem Dev.setClk_diverged (d : Dev) (f : ClkSt → ClkSt) : (d.setClk f).diverged = d.diverged := rfl
@[simp] theorem Dev.setClk_free (d : Dev) (f : ClkSt → ClkSt) : (d.setClk f).free = d.free := rfl
@[simp] theorem Dev.setClk_out (d : Dev) (f : ClkSt → ClkSt) : (d.setClk f).out = d.out := rfl

/-! ### Dev.setAon writes `aon` alone -/
@[simp] theorem Dev.setAon_regs (d : Dev) (f : AonSt → AonSt) : (d.setAon f).regs = d.regs := rfl
@[simp] theorem Dev.setAon_pages (d : Dev) (f : AonSt → AonSt) : (d.setAon f).pages = d.pages := rfl
@[simp] theorem Dev.setAon_west (d : Dev) (f : AonSt → AonSt) : (d.setAon f).west = d.west := rfl
@[simp] theorem Dev.setAon_east (d : Dev) (f : AonSt → AonSt) : (d.setAon f).east = d.east := rfl
@[simp] theorem Dev.setAon_hst (d : Dev) (f : AonSt → AonSt) : (d.setAon f).hst = d.hst := rfl
@[simp] theorem Dev.setAon_sec (d : Dev) (f : AonSt → AonSt) : (d.setAon f).sec = d.sec := rfl
@[simp] theorem Dev.setAon_cfg (d : Dev) (f : AonSt → AonSt) : (d.setAon f).cfg = d.cfg := rfl
@[simp] theorem Dev.setAon_array (d : Dev) (f : AonSt → AonSt) : (d.setAon f).array = d.array := rfl
@[simp] theorem Dev.setAon_ldr (d : Dev) (f : AonSt → AonSt) : (d.setAon f).ldr = d.ldr := rfl
@[simp] theorem Dev.setAon_casc (d : Dev) (f : AonSt → AonSt) : (d.setAon f).casc = d.casc := rfl
@[simp] theorem Dev.setAon_dbg (d : Dev) (f : AonSt → AonSt) : (d.setAon f).dbg = d.dbg := rfl
@[simp] theorem Dev.setAon_latch (d : Dev) (f : AonSt → AonSt) : (d.setAon f).latch = d.latch := rfl
@[simp] theorem Dev.setAon_safe (d : Dev) (f : AonSt → AonSt) : (d.setAon f).safe = d.safe := rfl
@[simp] theorem Dev.setAon_held (d : Dev) (f : AonSt → AonSt) : (d.setAon f).held = d.held := rfl
@[simp] theorem Dev.setAon_clk (d : Dev) (f : AonSt → AonSt) : (d.setAon f).clk = d.clk := rfl
@[simp] theorem Dev.setAon_shadow (d : Dev) (f : AonSt → AonSt) : (d.setAon f).shadow = d.shadow := rfl
@[simp] theorem Dev.setAon_diverged (d : Dev) (f : AonSt → AonSt) : (d.setAon f).diverged = d.diverged := rfl
@[simp] theorem Dev.setAon_free (d : Dev) (f : AonSt → AonSt) : (d.setAon f).free = d.free := rfl
@[simp] theorem Dev.setAon_out (d : Dev) (f : AonSt → AonSt) : (d.setAon f).out = d.out := rfl

/-! ### Dev.mod writes its half alone -/
@[simp] theorem Dev.mod_regs (d : Dev) (s : Side) (f : Half → Half) : (d.mod s f).regs = d.regs := by cases s <;> rfl
@[simp] theorem Dev.mod_pages (d : Dev) (s : Side) (f : Half → Half) : (d.mod s f).pages = d.pages := by cases s <;> rfl
@[simp] theorem Dev.mod_hst (d : Dev) (s : Side) (f : Half → Half) : (d.mod s f).hst = d.hst := by cases s <;> rfl
@[simp] theorem Dev.mod_sec (d : Dev) (s : Side) (f : Half → Half) : (d.mod s f).sec = d.sec := by cases s <;> rfl
@[simp] theorem Dev.mod_cfg (d : Dev) (s : Side) (f : Half → Half) : (d.mod s f).cfg = d.cfg := by cases s <;> rfl
@[simp] theorem Dev.mod_array (d : Dev) (s : Side) (f : Half → Half) : (d.mod s f).array = d.array := by cases s <;> rfl
@[simp] theorem Dev.mod_ldr (d : Dev) (s : Side) (f : Half → Half) : (d.mod s f).ldr = d.ldr := by cases s <;> rfl
@[simp] theorem Dev.mod_casc (d : Dev) (s : Side) (f : Half → Half) : (d.mod s f).casc = d.casc := by cases s <;> rfl
@[simp] theorem Dev.mod_dbg (d : Dev) (s : Side) (f : Half → Half) : (d.mod s f).dbg = d.dbg := by cases s <;> rfl
@[simp] theorem Dev.mod_latch (d : Dev) (s : Side) (f : Half → Half) : (d.mod s f).latch = d.latch := by cases s <;> rfl
@[simp] theorem Dev.mod_safe (d : Dev) (s : Side) (f : Half → Half) : (d.mod s f).safe = d.safe := by cases s <;> rfl
@[simp] theorem Dev.mod_held (d : Dev) (s : Side) (f : Half → Half) : (d.mod s f).held = d.held := by cases s <;> rfl
@[simp] theorem Dev.mod_clk (d : Dev) (s : Side) (f : Half → Half) : (d.mod s f).clk = d.clk := by cases s <;> rfl
@[simp] theorem Dev.mod_aon (d : Dev) (s : Side) (f : Half → Half) : (d.mod s f).aon = d.aon := by cases s <;> rfl
@[simp] theorem Dev.mod_shadow (d : Dev) (s : Side) (f : Half → Half) : (d.mod s f).shadow = d.shadow := by cases s <;> rfl
@[simp] theorem Dev.mod_diverged (d : Dev) (s : Side) (f : Half → Half) : (d.mod s f).diverged = d.diverged := by cases s <;> rfl
@[simp] theorem Dev.mod_free (d : Dev) (s : Side) (f : Half → Half) : (d.mod s f).free = d.free := by cases s <;> rfl
@[simp] theorem Dev.mod_out (d : Dev) (s : Side) (f : Half → Half) : (d.mod s f).out = d.out := by cases s <;> rfl
@[simp] theorem Dev.mod_half_same (d : Dev) (s : Side) (f : Half → Half) : (d.mod s f).half s = f (d.half s) := by cases s <;> rfl
@[simp] theorem Dev.mod_half_other (d : Dev) (s : Side) (f : Half → Half) : (d.mod s f).half s.other = d.half s.other := by
  cases s <;> rfl
@[simp] theorem Dev.mod_other_half (d : Dev) (s : Side) (f : Half → Half) : (d.mod s.other f).half s = d.half s := by
  cases s <;> rfl
@[simp] theorem Dev.mod_w_east (d : Dev) (f : Half → Half) : (d.mod .w f).east = d.east := rfl
@[simp] theorem Dev.mod_w_west (d : Dev) (f : Half → Half) : (d.mod .w f).west = f d.west := rfl
@[simp] theorem Dev.mod_e_west (d : Dev) (f : Half → Half) : (d.mod .e f).west = d.west := rfl
@[simp] theorem Dev.mod_e_east (d : Dev) (f : Half → Half) : (d.mod .e f).east = f d.east := rfl
@[simp] theorem Dev.half_w (d : Dev) : d.half .w = d.west := rfl
@[simp] theorem Dev.half_e (d : Dev) : d.half .e = d.east := rfl
@[simp] theorem Side.other_other (s : Side) : s.other.other = s := by cases s <;> rfl
theorem Side.ne_iff_other {s t : Side} : t ≠ s ↔ t = s.other := by cases s <;> cases t <;> decide

@[simp] theorem Dev.setRg_half (d : Dev) (n : Nat) (r : Rg) (i : Nat) (v : Word) (t : Side) : (d.setRg n r i v).half t = d.half t := by cases t <;> rfl
@[simp] theorem Dev.setRf_half (d : Dev) (n : Nat) (r : Rg) (i hi lo v : Nat) (t : Side) : (d.setRf n r i hi lo v).half t = d.half t := by cases t <;> rfl
@[simp] theorem Dev.bump_half (d : Dev) (n : Nat) (r : Rg) (i hi lo k : Nat) (t : Side) : (d.bump n r i hi lo k).half t = d.half t := by cases t <;> rfl
@[simp] theorem Dev.resetRg_half (d : Dev) (n : Nat) (r : Rg) (t : Side) : (d.resetRg n r).half t = d.half t := by cases t <;> rfl
@[simp] theorem Dev.setPage_half (d : Dev) (s : Side) (b : Nat) (p : Page) (t : Side) : (d.setPage s b p).half t = d.half t := by cases t <;> rfl
@[simp] theorem Dev.emit_half (d : Dev) (o : Out) (t : Side) : (d.emit o).half t = d.half t := by cases t <;> rfl
@[simp] theorem Dev.draw_half (d : Dev) (t : Side) : (d.draw).half t = d.half t := by cases t <;> rfl
@[simp] theorem Dev.modSession_half (d : Dev) (n : Nat) (f : Session → Session) (t : Side) : (d.modSession n f).half t = d.half t := by cases t <;> rfl
@[simp] theorem Dev.setSlot_half (d : Dev) (n : Nat) (k : KeySlot) (t : Side) : (d.setSlot n k).half t = d.half t := by cases t <;> rfl
@[simp] theorem Dev.setClk_half (d : Dev) (f : ClkSt → ClkSt) (t : Side) : (d.setClk f).half t = d.half t := by cases t <;> rfl
@[simp] theorem Dev.setAon_half (d : Dev) (f : AonSt → AonSt) (t : Side) : (d.setAon f).half t = d.half t := by cases t <;> rfl

/-! ### Half.modCel writes `cel` alone -/
@[simp] theorem Half.modCel_tch (h : Half) (f : CelSt → CelSt) : (h.modCel f).tch = h.tch := rfl
@[simp] theorem Half.modCel_shelf (h : Half) (f : CelSt → CelSt) : (h.modCel f).shelf = h.shelf := rfl
@[simp] theorem Half.modCel_face (h : Half) (f : CelSt → CelSt) : (h.modCel f).face = h.face := rfl
@[simp] theorem Half.modCel_drl0 (h : Half) (f : CelSt → CelSt) : (h.modCel f).drl0 = h.drl0 := rfl
@[simp] theorem Half.modCel_drl1 (h : Half) (f : CelSt → CelSt) : (h.modCel f).drl1 = h.drl1 := rfl
@[simp] theorem Half.modCel_qry (h : Half) (f : CelSt → CelSt) : (h.modCel f).qry = h.qry := rfl
@[simp] theorem Half.modCel_cal (h : Half) (f : CelSt → CelSt) : (h.modCel f).cal = h.cal := rfl
@[simp] theorem Half.modCel_fab (h : Half) (f : CelSt → CelSt) : (h.modCel f).fab = h.fab := rfl
@[simp] theorem Half.modCel_att (h : Half) (f : CelSt → CelSt) : (h.modCel f).att = h.att := rfl
@[simp] theorem Half.modCel_haul (h : Half) (f : CelSt → CelSt) : (h.modCel f).haul = h.haul := rfl
@[simp] theorem Half.modCel_stw (h : Half) (f : CelSt → CelSt) : (h.modCel f).stw = h.stw := rfl
@[simp] theorem Half.modCel_files (h : Half) (f : CelSt → CelSt) : (h.modCel f).files = h.files := rfl
@[simp] theorem Half.modCel_xts (h : Half) (f : CelSt → CelSt) : (h.modCel f).xts = h.xts := rfl
@[simp] theorem Half.modCel_tsk (h : Half) (f : CelSt → CelSt) : (h.modCel f).tsk = h.tsk := rfl
@[simp] theorem Half.modCel_attic (h : Half) (f : CelSt → CelSt) : (h.modCel f).attic = h.attic := rfl
@[simp] theorem Half.modCel_upper (h : Half) (f : CelSt → CelSt) : (h.modCel f).upper = h.upper := rfl
@[simp] theorem Half.modCel_tags (h : Half) (f : CelSt → CelSt) : (h.modCel f).tags = h.tags := rfl
@[simp] theorem Half.modCel_reset (h : Half) (f : CelSt → CelSt) : (h.modCel f).reset = h.reset := rfl
@[simp] theorem Half.modCel_stuck (h : Half) (f : CelSt → CelSt) : (h.modCel f).stuck = h.stuck := rfl
@[simp] theorem Half.modCel_resetReply (h : Half) (f : CelSt → CelSt) : (h.modCel f).resetReply = h.resetReply := rfl
@[simp] theorem Half.modCel_modes (h : Half) (f : CelSt → CelSt) : (h.modCel f).modes = h.modes := rfl

/-! ### Half.modAtt writes `att` alone -/
@[simp] theorem Half.modAtt_tch (h : Half) (f : AttSt → AttSt) : (h.modAtt f).tch = h.tch := rfl
@[simp] theorem Half.modAtt_shelf (h : Half) (f : AttSt → AttSt) : (h.modAtt f).shelf = h.shelf := rfl
@[simp] theorem Half.modAtt_face (h : Half) (f : AttSt → AttSt) : (h.modAtt f).face = h.face := rfl
@[simp] theorem Half.modAtt_drl0 (h : Half) (f : AttSt → AttSt) : (h.modAtt f).drl0 = h.drl0 := rfl
@[simp] theorem Half.modAtt_drl1 (h : Half) (f : AttSt → AttSt) : (h.modAtt f).drl1 = h.drl1 := rfl
@[simp] theorem Half.modAtt_qry (h : Half) (f : AttSt → AttSt) : (h.modAtt f).qry = h.qry := rfl
@[simp] theorem Half.modAtt_cal (h : Half) (f : AttSt → AttSt) : (h.modAtt f).cal = h.cal := rfl
@[simp] theorem Half.modAtt_fab (h : Half) (f : AttSt → AttSt) : (h.modAtt f).fab = h.fab := rfl
@[simp] theorem Half.modAtt_cel (h : Half) (f : AttSt → AttSt) : (h.modAtt f).cel = h.cel := rfl
@[simp] theorem Half.modAtt_haul (h : Half) (f : AttSt → AttSt) : (h.modAtt f).haul = h.haul := rfl
@[simp] theorem Half.modAtt_stw (h : Half) (f : AttSt → AttSt) : (h.modAtt f).stw = h.stw := rfl
@[simp] theorem Half.modAtt_files (h : Half) (f : AttSt → AttSt) : (h.modAtt f).files = h.files := rfl
@[simp] theorem Half.modAtt_xts (h : Half) (f : AttSt → AttSt) : (h.modAtt f).xts = h.xts := rfl
@[simp] theorem Half.modAtt_tsk (h : Half) (f : AttSt → AttSt) : (h.modAtt f).tsk = h.tsk := rfl
@[simp] theorem Half.modAtt_attic (h : Half) (f : AttSt → AttSt) : (h.modAtt f).attic = h.attic := rfl
@[simp] theorem Half.modAtt_upper (h : Half) (f : AttSt → AttSt) : (h.modAtt f).upper = h.upper := rfl
@[simp] theorem Half.modAtt_tags (h : Half) (f : AttSt → AttSt) : (h.modAtt f).tags = h.tags := rfl
@[simp] theorem Half.modAtt_reset (h : Half) (f : AttSt → AttSt) : (h.modAtt f).reset = h.reset := rfl
@[simp] theorem Half.modAtt_stuck (h : Half) (f : AttSt → AttSt) : (h.modAtt f).stuck = h.stuck := rfl
@[simp] theorem Half.modAtt_resetReply (h : Half) (f : AttSt → AttSt) : (h.modAtt f).resetReply = h.resetReply := rfl
@[simp] theorem Half.modAtt_modes (h : Half) (f : AttSt → AttSt) : (h.modAtt f).modes = h.modes := rfl

/-! ### Half.modStw writes `stw` alone -/
@[simp] theorem Half.modStw_tch (h : Half) (f : StwSt → StwSt) : (h.modStw f).tch = h.tch := rfl
@[simp] theorem Half.modStw_shelf (h : Half) (f : StwSt → StwSt) : (h.modStw f).shelf = h.shelf := rfl
@[simp] theorem Half.modStw_face (h : Half) (f : StwSt → StwSt) : (h.modStw f).face = h.face := rfl
@[simp] theorem Half.modStw_drl0 (h : Half) (f : StwSt → StwSt) : (h.modStw f).drl0 = h.drl0 := rfl
@[simp] theorem Half.modStw_drl1 (h : Half) (f : StwSt → StwSt) : (h.modStw f).drl1 = h.drl1 := rfl
@[simp] theorem Half.modStw_qry (h : Half) (f : StwSt → StwSt) : (h.modStw f).qry = h.qry := rfl
@[simp] theorem Half.modStw_cal (h : Half) (f : StwSt → StwSt) : (h.modStw f).cal = h.cal := rfl
@[simp] theorem Half.modStw_fab (h : Half) (f : StwSt → StwSt) : (h.modStw f).fab = h.fab := rfl
@[simp] theorem Half.modStw_cel (h : Half) (f : StwSt → StwSt) : (h.modStw f).cel = h.cel := rfl
@[simp] theorem Half.modStw_att (h : Half) (f : StwSt → StwSt) : (h.modStw f).att = h.att := rfl
@[simp] theorem Half.modStw_haul (h : Half) (f : StwSt → StwSt) : (h.modStw f).haul = h.haul := rfl
@[simp] theorem Half.modStw_files (h : Half) (f : StwSt → StwSt) : (h.modStw f).files = h.files := rfl
@[simp] theorem Half.modStw_xts (h : Half) (f : StwSt → StwSt) : (h.modStw f).xts = h.xts := rfl
@[simp] theorem Half.modStw_tsk (h : Half) (f : StwSt → StwSt) : (h.modStw f).tsk = h.tsk := rfl
@[simp] theorem Half.modStw_attic (h : Half) (f : StwSt → StwSt) : (h.modStw f).attic = h.attic := rfl
@[simp] theorem Half.modStw_upper (h : Half) (f : StwSt → StwSt) : (h.modStw f).upper = h.upper := rfl
@[simp] theorem Half.modStw_tags (h : Half) (f : StwSt → StwSt) : (h.modStw f).tags = h.tags := rfl
@[simp] theorem Half.modStw_reset (h : Half) (f : StwSt → StwSt) : (h.modStw f).reset = h.reset := rfl
@[simp] theorem Half.modStw_stuck (h : Half) (f : StwSt → StwSt) : (h.modStw f).stuck = h.stuck := rfl
@[simp] theorem Half.modStw_resetReply (h : Half) (f : StwSt → StwSt) : (h.modStw f).resetReply = h.resetReply := rfl
@[simp] theorem Half.modStw_modes (h : Half) (f : StwSt → StwSt) : (h.modStw f).modes = h.modes := rfl

/-! ### Half.modTsk writes `tsk` alone -/
@[simp] theorem Half.modTsk_tch (h : Half) (f : TskSt → TskSt) : (h.modTsk f).tch = h.tch := rfl
@[simp] theorem Half.modTsk_shelf (h : Half) (f : TskSt → TskSt) : (h.modTsk f).shelf = h.shelf := rfl
@[simp] theorem Half.modTsk_face (h : Half) (f : TskSt → TskSt) : (h.modTsk f).face = h.face := rfl
@[simp] theorem Half.modTsk_drl0 (h : Half) (f : TskSt → TskSt) : (h.modTsk f).drl0 = h.drl0 := rfl
@[simp] theorem Half.modTsk_drl1 (h : Half) (f : TskSt → TskSt) : (h.modTsk f).drl1 = h.drl1 := rfl
@[simp] theorem Half.modTsk_qry (h : Half) (f : TskSt → TskSt) : (h.modTsk f).qry = h.qry := rfl
@[simp] theorem Half.modTsk_cal (h : Half) (f : TskSt → TskSt) : (h.modTsk f).cal = h.cal := rfl
@[simp] theorem Half.modTsk_fab (h : Half) (f : TskSt → TskSt) : (h.modTsk f).fab = h.fab := rfl
@[simp] theorem Half.modTsk_cel (h : Half) (f : TskSt → TskSt) : (h.modTsk f).cel = h.cel := rfl
@[simp] theorem Half.modTsk_att (h : Half) (f : TskSt → TskSt) : (h.modTsk f).att = h.att := rfl
@[simp] theorem Half.modTsk_haul (h : Half) (f : TskSt → TskSt) : (h.modTsk f).haul = h.haul := rfl
@[simp] theorem Half.modTsk_stw (h : Half) (f : TskSt → TskSt) : (h.modTsk f).stw = h.stw := rfl
@[simp] theorem Half.modTsk_files (h : Half) (f : TskSt → TskSt) : (h.modTsk f).files = h.files := rfl
@[simp] theorem Half.modTsk_xts (h : Half) (f : TskSt → TskSt) : (h.modTsk f).xts = h.xts := rfl
@[simp] theorem Half.modTsk_attic (h : Half) (f : TskSt → TskSt) : (h.modTsk f).attic = h.attic := rfl
@[simp] theorem Half.modTsk_upper (h : Half) (f : TskSt → TskSt) : (h.modTsk f).upper = h.upper := rfl
@[simp] theorem Half.modTsk_tags (h : Half) (f : TskSt → TskSt) : (h.modTsk f).tags = h.tags := rfl
@[simp] theorem Half.modTsk_reset (h : Half) (f : TskSt → TskSt) : (h.modTsk f).reset = h.reset := rfl
@[simp] theorem Half.modTsk_stuck (h : Half) (f : TskSt → TskSt) : (h.modTsk f).stuck = h.stuck := rfl
@[simp] theorem Half.modTsk_resetReply (h : Half) (f : TskSt → TskSt) : (h.modTsk f).resetReply = h.resetReply := rfl
@[simp] theorem Half.modTsk_modes (h : Half) (f : TskSt → TskSt) : (h.modTsk f).modes = h.modes := rfl

/-! ### Half.modFile writes `files` alone -/
@[simp] theorem Half.modFile_tch (h : Half) (n : Nat) (f : FileRec → FileRec) : (h.modFile n f).tch = h.tch := rfl
@[simp] theorem Half.modFile_shelf (h : Half) (n : Nat) (f : FileRec → FileRec) : (h.modFile n f).shelf = h.shelf := rfl
@[simp] theorem Half.modFile_face (h : Half) (n : Nat) (f : FileRec → FileRec) : (h.modFile n f).face = h.face := rfl
@[simp] theorem Half.modFile_drl0 (h : Half) (n : Nat) (f : FileRec → FileRec) : (h.modFile n f).drl0 = h.drl0 := rfl
@[simp] theorem Half.modFile_drl1 (h : Half) (n : Nat) (f : FileRec → FileRec) : (h.modFile n f).drl1 = h.drl1 := rfl
@[simp] theorem Half.modFile_qry (h : Half) (n : Nat) (f : FileRec → FileRec) : (h.modFile n f).qry = h.qry := rfl
@[simp] theorem Half.modFile_cal (h : Half) (n : Nat) (f : FileRec → FileRec) : (h.modFile n f).cal = h.cal := rfl
@[simp] theorem Half.modFile_fab (h : Half) (n : Nat) (f : FileRec → FileRec) : (h.modFile n f).fab = h.fab := rfl
@[simp] theorem Half.modFile_cel (h : Half) (n : Nat) (f : FileRec → FileRec) : (h.modFile n f).cel = h.cel := rfl
@[simp] theorem Half.modFile_att (h : Half) (n : Nat) (f : FileRec → FileRec) : (h.modFile n f).att = h.att := rfl
@[simp] theorem Half.modFile_haul (h : Half) (n : Nat) (f : FileRec → FileRec) : (h.modFile n f).haul = h.haul := rfl
@[simp] theorem Half.modFile_stw (h : Half) (n : Nat) (f : FileRec → FileRec) : (h.modFile n f).stw = h.stw := rfl
@[simp] theorem Half.modFile_xts (h : Half) (n : Nat) (f : FileRec → FileRec) : (h.modFile n f).xts = h.xts := rfl
@[simp] theorem Half.modFile_tsk (h : Half) (n : Nat) (f : FileRec → FileRec) : (h.modFile n f).tsk = h.tsk := rfl
@[simp] theorem Half.modFile_attic (h : Half) (n : Nat) (f : FileRec → FileRec) : (h.modFile n f).attic = h.attic := rfl
@[simp] theorem Half.modFile_upper (h : Half) (n : Nat) (f : FileRec → FileRec) : (h.modFile n f).upper = h.upper := rfl
@[simp] theorem Half.modFile_tags (h : Half) (n : Nat) (f : FileRec → FileRec) : (h.modFile n f).tags = h.tags := rfl
@[simp] theorem Half.modFile_reset (h : Half) (n : Nat) (f : FileRec → FileRec) : (h.modFile n f).reset = h.reset := rfl
@[simp] theorem Half.modFile_stuck (h : Half) (n : Nat) (f : FileRec → FileRec) : (h.modFile n f).stuck = h.stuck := rfl
@[simp] theorem Half.modFile_resetReply (h : Half) (n : Nat) (f : FileRec → FileRec) : (h.modFile n f).resetReply = h.resetReply := rfl
@[simp] theorem Half.modFile_modes (h : Half) (n : Nat) (f : FileRec → FileRec) : (h.modFile n f).modes = h.modes := rfl

/-! ### Half.modIssue writes `face` alone -/
@[simp] theorem Half.modIssue_tch (h : Half) (n : Nat) (f : Issue → Issue) : (h.modIssue n f).tch = h.tch := rfl
@[simp] theorem Half.modIssue_shelf (h : Half) (n : Nat) (f : Issue → Issue) : (h.modIssue n f).shelf = h.shelf := rfl
@[simp] theorem Half.modIssue_drl0 (h : Half) (n : Nat) (f : Issue → Issue) : (h.modIssue n f).drl0 = h.drl0 := rfl
@[simp] theorem Half.modIssue_drl1 (h : Half) (n : Nat) (f : Issue → Issue) : (h.modIssue n f).drl1 = h.drl1 := rfl
@[simp] theorem Half.modIssue_qry (h : Half) (n : Nat) (f : Issue → Issue) : (h.modIssue n f).qry = h.qry := rfl
@[simp] theorem Half.modIssue_cal (h : Half) (n : Nat) (f : Issue → Issue) : (h.modIssue n f).cal = h.cal := rfl
@[simp] theorem Half.modIssue_fab (h : Half) (n : Nat) (f : Issue → Issue) : (h.modIssue n f).fab = h.fab := rfl
@[simp] theorem Half.modIssue_cel (h : Half) (n : Nat) (f : Issue → Issue) : (h.modIssue n f).cel = h.cel := rfl
@[simp] theorem Half.modIssue_att (h : Half) (n : Nat) (f : Issue → Issue) : (h.modIssue n f).att = h.att := rfl
@[simp] theorem Half.modIssue_haul (h : Half) (n : Nat) (f : Issue → Issue) : (h.modIssue n f).haul = h.haul := rfl
@[simp] theorem Half.modIssue_stw (h : Half) (n : Nat) (f : Issue → Issue) : (h.modIssue n f).stw = h.stw := rfl
@[simp] theorem Half.modIssue_files (h : Half) (n : Nat) (f : Issue → Issue) : (h.modIssue n f).files = h.files := rfl
@[simp] theorem Half.modIssue_xts (h : Half) (n : Nat) (f : Issue → Issue) : (h.modIssue n f).xts = h.xts := rfl
@[simp] theorem Half.modIssue_tsk (h : Half) (n : Nat) (f : Issue → Issue) : (h.modIssue n f).tsk = h.tsk := rfl
@[simp] theorem Half.modIssue_attic (h : Half) (n : Nat) (f : Issue → Issue) : (h.modIssue n f).attic = h.attic := rfl
@[simp] theorem Half.modIssue_upper (h : Half) (n : Nat) (f : Issue → Issue) : (h.modIssue n f).upper = h.upper := rfl
@[simp] theorem Half.modIssue_tags (h : Half) (n : Nat) (f : Issue → Issue) : (h.modIssue n f).tags = h.tags := rfl
@[simp] theorem Half.modIssue_reset (h : Half) (n : Nat) (f : Issue → Issue) : (h.modIssue n f).reset = h.reset := rfl
@[simp] theorem Half.modIssue_stuck (h : Half) (n : Nat) (f : Issue → Issue) : (h.modIssue n f).stuck = h.stuck := rfl
@[simp] theorem Half.modIssue_resetReply (h : Half) (n : Nat) (f : Issue → Issue) : (h.modIssue n f).resetReply = h.resetReply := rfl
@[simp] theorem Half.modIssue_modes (h : Half) (n : Nat) (f : Issue → Issue) : (h.modIssue n f).modes = h.modes := rfl

/-! ### Half.modChan writes `tch` alone -/
@[simp] theorem Half.modChan_shelf (h : Half) (n : Nat) (f : Chan → Chan) : (h.modChan n f).shelf = h.shelf := rfl
@[simp] theorem Half.modChan_face (h : Half) (n : Nat) (f : Chan → Chan) : (h.modChan n f).face = h.face := rfl
@[simp] theorem Half.modChan_drl0 (h : Half) (n : Nat) (f : Chan → Chan) : (h.modChan n f).drl0 = h.drl0 := rfl
@[simp] theorem Half.modChan_drl1 (h : Half) (n : Nat) (f : Chan → Chan) : (h.modChan n f).drl1 = h.drl1 := rfl
@[simp] theorem Half.modChan_qry (h : Half) (n : Nat) (f : Chan → Chan) : (h.modChan n f).qry = h.qry := rfl
@[simp] theorem Half.modChan_cal (h : Half) (n : Nat) (f : Chan → Chan) : (h.modChan n f).cal = h.cal := rfl
@[simp] theorem Half.modChan_fab (h : Half) (n : Nat) (f : Chan → Chan) : (h.modChan n f).fab = h.fab := rfl
@[simp] theorem Half.modChan_cel (h : Half) (n : Nat) (f : Chan → Chan) : (h.modChan n f).cel = h.cel := rfl
@[simp] theorem Half.modChan_att (h : Half) (n : Nat) (f : Chan → Chan) : (h.modChan n f).att = h.att := rfl
@[simp] theorem Half.modChan_haul (h : Half) (n : Nat) (f : Chan → Chan) : (h.modChan n f).haul = h.haul := rfl
@[simp] theorem Half.modChan_stw (h : Half) (n : Nat) (f : Chan → Chan) : (h.modChan n f).stw = h.stw := rfl
@[simp] theorem Half.modChan_files (h : Half) (n : Nat) (f : Chan → Chan) : (h.modChan n f).files = h.files := rfl
@[simp] theorem Half.modChan_xts (h : Half) (n : Nat) (f : Chan → Chan) : (h.modChan n f).xts = h.xts := rfl
@[simp] theorem Half.modChan_tsk (h : Half) (n : Nat) (f : Chan → Chan) : (h.modChan n f).tsk = h.tsk := rfl
@[simp] theorem Half.modChan_attic (h : Half) (n : Nat) (f : Chan → Chan) : (h.modChan n f).attic = h.attic := rfl
@[simp] theorem Half.modChan_upper (h : Half) (n : Nat) (f : Chan → Chan) : (h.modChan n f).upper = h.upper := rfl
@[simp] theorem Half.modChan_tags (h : Half) (n : Nat) (f : Chan → Chan) : (h.modChan n f).tags = h.tags := rfl
@[simp] theorem Half.modChan_reset (h : Half) (n : Nat) (f : Chan → Chan) : (h.modChan n f).reset = h.reset := rfl
@[simp] theorem Half.modChan_stuck (h : Half) (n : Nat) (f : Chan → Chan) : (h.modChan n f).stuck = h.stuck := rfl
@[simp] theorem Half.modChan_resetReply (h : Half) (n : Nat) (f : Chan → Chan) : (h.modChan n f).resetReply = h.resetReply := rfl
@[simp] theorem Half.modChan_modes (h : Half) (n : Nat) (f : Chan → Chan) : (h.modChan n f).modes = h.modes := rfl

/-! ### Half.setHook writes `fab` alone -/
@[simp] theorem Half.setHook_tch (h : Half) (n : Nat) (k : Hook) : (h.setHook n k).tch = h.tch := rfl
@[simp] theorem Half.setHook_shelf (h : Half) (n : Nat) (k : Hook) : (h.setHook n k).shelf = h.shelf := rfl
@[simp] theorem Half.setHook_face (h : Half) (n : Nat) (k : Hook) : (h.setHook n k).face = h.face := rfl
@[simp] theorem Half.setHook_drl0 (h : Half) (n : Nat) (k : Hook) : (h.setHook n k).drl0 = h.drl0 := rfl
@[simp] theorem Half.setHook_drl1 (h : Half) (n : Nat) (k : Hook) : (h.setHook n k).drl1 = h.drl1 := rfl
@[simp] theorem Half.setHook_qry (h : Half) (n : Nat) (k : Hook) : (h.setHook n k).qry = h.qry := rfl
@[simp] theorem Half.setHook_cal (h : Half) (n : Nat) (k : Hook) : (h.setHook n k).cal = h.cal := rfl
@[simp] theorem Half.setHook_cel (h : Half) (n : Nat) (k : Hook) : (h.setHook n k).cel = h.cel := rfl
@[simp] theorem Half.setHook_att (h : Half) (n : Nat) (k : Hook) : (h.setHook n k).att = h.att := rfl
@[simp] theorem Half.setHook_haul (h : Half) (n : Nat) (k : Hook) : (h.setHook n k).haul = h.haul := rfl
@[simp] theorem Half.setHook_stw (h : Half) (n : Nat) (k : Hook) : (h.setHook n k).stw = h.stw := rfl
@[simp] theorem Half.setHook_files (h : Half) (n : Nat) (k : Hook) : (h.setHook n k).files = h.files := rfl
@[simp] theorem Half.setHook_xts (h : Half) (n : Nat) (k : Hook) : (h.setHook n k).xts = h.xts := rfl
@[simp] theorem Half.setHook_tsk (h : Half) (n : Nat) (k : Hook) : (h.setHook n k).tsk = h.tsk := rfl
@[simp] theorem Half.setHook_attic (h : Half) (n : Nat) (k : Hook) : (h.setHook n k).attic = h.attic := rfl
@[simp] theorem Half.setHook_upper (h : Half) (n : Nat) (k : Hook) : (h.setHook n k).upper = h.upper := rfl
@[simp] theorem Half.setHook_tags (h : Half) (n : Nat) (k : Hook) : (h.setHook n k).tags = h.tags := rfl
@[simp] theorem Half.setHook_reset (h : Half) (n : Nat) (k : Hook) : (h.setHook n k).reset = h.reset := rfl
@[simp] theorem Half.setHook_stuck (h : Half) (n : Nat) (k : Hook) : (h.setHook n k).stuck = h.stuck := rfl
@[simp] theorem Half.setHook_resetReply (h : Half) (n : Nat) (k : Hook) : (h.setHook n k).resetReply = h.resetReply := rfl
@[simp] theorem Half.setHook_modes (h : Half) (n : Nat) (k : Hook) : (h.setHook n k).modes = h.modes := rfl

@[simp] theorem Half.modCel_cel (h : Half) (f : CelSt → CelSt) : (h.modCel f).cel = f h.cel := rfl
@[simp] theorem Half.modAtt_att (h : Half) (f : AttSt → AttSt) : (h.modAtt f).att = f h.att := rfl
@[simp] theorem Half.modStw_stw (h : Half) (f : StwSt → StwSt) : (h.modStw f).stw = f h.stw := rfl
@[simp] theorem Half.modTsk_tsk (h : Half) (f : TskSt → TskSt) : (h.modTsk f).tsk = f h.tsk := rfl
@[simp] theorem Dev.setClk_clk (d : Dev) (f : ClkSt → ClkSt) : (d.setClk f).clk = f d.clk := rfl
@[simp] theorem Dev.setAon_aon (d : Dev) (f : AonSt → AonSt) : (d.setAon f).aon = f d.aon := rfl
@[simp] theorem Dev.emit_out (d : Dev) (o : Out) : (d.emit o).out = d.out ++ [o] := rfl

end Sys2Proof.Machine
end

