-- ==== Sys2Proof/Laws/Regs.lean ====
section
/-! SUPPORT. The register file and the bit fields: what a write reads back as, and what it leaves. -/
namespace Sys2Proof.Machine

/-! ## The register file -/

/-- The register a write went to reads as written. -/
@[simp] theorem rg_setRg_same (d : Dev) (n : Nat) (r : Rg) (i : Nat) (v : Word) : (d.setRg n r i v).rg n r i = v := by
  simp [Dev.rg, Dev.setRg]

/-- Every other register reads as before. -/
theorem rg_setRg_ne (d : Dev) {n m : Nat} {r q : Rg} {i j : Nat} (v : Word) (h : regKey m q j ≠ regKey n r i) :
    (d.setRg n r i v).rg m q j = d.rg m q j := by
  simp only [Dev.rg, Dev.setRg]
  exact tgetF_tsetF_ne _ _ _ h

theorem ctorIdx_inj {r q : Rg} (h : r.ctorIdx = q.ctorIdx) : r = q := by
  rw [← Rg.ofNat_ctorIdx r, h, Rg.ofNat_ctorIdx]

theorem ctorIdx_lt (r : Rg) : r.ctorIdx < 512 := by cases r <;> simp [Rg.ctorIdx]

/-- The key of a register tells its die, its name and its index. -/
theorem regKey_inj {n m : Nat} {r q : Rg} {i j : Nat} (hi : i < 8192) (hj : j < 8192) :
    regKey n r i = regKey m q j ↔ n = m ∧ r = q ∧ i = j := by
  have hr := ctorIdx_lt r
  have hq := ctorIdx_lt q
  constructor
  · intro h
    unfold regKey at h
    exact ⟨by omega, ctorIdx_inj (by omega), by omega⟩
  · rintro ⟨rfl, rfl, rfl⟩; rfl

/-! ## Fields of a register -/

theorem setFld_toNat (w : Word) (hi lo v : Nat) (hl : lo ≤ hi) (hh : hi < 32) :
    (setFld w hi lo v).toNat = w.toNat % 2 ^ lo + v % 2 ^ (hi + 1 - lo) * 2 ^ lo + w.toNat / 2 ^ (hi + 1) * 2 ^ (hi + 1) := by
  have hm : 2 ^ (hi + 1) = 2 ^ lo * 2 ^ (hi + 1 - lo) := by rw [← Nat.pow_add]; congr 1; omega
  have hv : v % 2 ^ (hi + 1 - lo) < 2 ^ (hi + 1 - lo) := Nat.mod_lt _ (Nat.two_pow_pos _)
  have hw := w.isLt
  simp only [setFld, fld, BitVec.toNat_ofNat]
  generalize 2 ^ (hi + 1 - lo) = m at *
  have hsplit : w.toNat = w.toNat % 2 ^ lo + w.toNat / 2 ^ lo % m * 2 ^ lo + w.toNat / 2 ^ (hi + 1) * 2 ^ (hi + 1) := by
    have a := Nat.div_add_mod w.toNat (2 ^ lo)
    have b := Nat.div_add_mod (w.toNat / 2 ^ lo) m
    have c : w.toNat / 2 ^ lo / m = w.toNat / 2 ^ (hi + 1) := by rw [Nat.div_div_eq_div_mul, hm]
    rw [c] at b
    calc w.toNat = 2 ^ lo * (w.toNat / 2 ^ lo) + w.toNat % 2 ^ lo := a.symm
      _ = 2 ^ lo * (m * (w.toNat / 2 ^ (hi + 1)) + w.toNat / 2 ^ lo % m) + w.toNat % 2 ^ lo := by rw [b]
      _ = _ := by rw [hm]; ring
  have hlt : w.toNat % 2 ^ lo + v % m * 2 ^ lo + w.toNat / 2 ^ (hi + 1) * 2 ^ (hi + 1) < 2 ^ 32 := by
    have h1 : w.toNat % 2 ^ lo < 2 ^ lo := Nat.mod_lt _ (Nat.two_pow_pos _)
    have h2 : w.toNat % 2 ^ lo + v % m * 2 ^ lo < 2 ^ (hi + 1) := by
      rw [hm]
      calc w.toNat % 2 ^ lo + v % m * 2 ^ lo < 2 ^ lo + v % m * 2 ^ lo := by omega
        _ = (v % m + 1) * 2 ^ lo := by ring
        _ ≤ m * 2 ^ lo := Nat.mul_le_mul_right _ hv
        _ = 2 ^ lo * m := Nat.mul_comm _ _
    have h3 : 2 ^ 32 = 2 ^ (hi + 1) * 2 ^ (31 - hi) := by rw [← Nat.pow_add]; congr 1; omega
    have h4 : w.toNat / 2 ^ (hi + 1) < 2 ^ (31 - hi) := by
      rw [Nat.div_lt_iff_lt_mul (Nat.two_pow_pos _), Nat.mul_comm, ← h3]; exact hw
    calc _ < 2 ^ (hi + 1) + w.toNat / 2 ^ (hi + 1) * 2 ^ (hi + 1) := by omega
      _ = (w.toNat / 2 ^ (hi + 1) + 1) * 2 ^ (hi + 1) := by ring
      _ ≤ 2 ^ (31 - hi) * 2 ^ (hi + 1) := Nat.mul_le_mul_right _ h4
      _ = 2 ^ 32 := by rw [h3, Nat.mul_comm]
  have heq : w.toNat - w.toNat / 2 ^ lo % m * 2 ^ lo + v % m * 2 ^ lo
      = w.toNat % 2 ^ lo + v % m * 2 ^ lo + w.toNat / 2 ^ (hi + 1) * 2 ^ (hi + 1) := by omega
  rw [heq, Nat.mod_eq_of_lt hlt]

/-- A field reads as written. -/
theorem fld_setFld (w : Word) (hi lo v : Nat) (hl : lo ≤ hi) (hh : hi < 32) :
    fld (setFld w hi lo v) hi lo = v % 2 ^ (hi + 1 - lo) := by
  have hm : 2 ^ (hi + 1) = 2 ^ lo * 2 ^ (hi + 1 - lo) := by rw [← Nat.pow_add]; congr 1; omega
  rw [fld, setFld_toNat w hi lo v hl hh, hm]
  generalize 2 ^ (hi + 1 - lo) = m at *
  have h1 : w.toNat % 2 ^ lo < 2 ^ lo := Nat.mod_lt _ (Nat.two_pow_pos _)
  have e : w.toNat % 2 ^ lo + v % m * 2 ^ lo + w.toNat / (2 ^ lo * m) * (2 ^ lo * m)
      = w.toNat % 2 ^ lo + 2 ^ lo * (v % m + m * (w.toNat / (2 ^ lo * m))) := by ring
  rw [e, Nat.add_mul_div_left _ _ (Nat.two_pow_pos lo), Nat.div_eq_of_lt h1, Nat.zero_add, Nat.add_mul_mod_self_left, Nat.mod_mod]

/-- A field below the one written reads as before. -/
theorem fld_setFld_below (w : Word) (hi lo v a b : Nat) (hl : lo ≤ hi) (hh : hi < 32) (hab : b ≤ a) (h : a < lo) :
    fld (setFld w hi lo v) a b = fld w a b := by
  have hm : 2 ^ (hi + 1) = 2 ^ lo * 2 ^ (hi + 1 - lo) := by rw [← Nat.pow_add]; congr 1; omega
  have key : ∀ x : Nat, x / 2 ^ b % 2 ^ (a + 1 - b) = x % 2 ^ lo / 2 ^ b % 2 ^ (a + 1 - b) := by
    intro x
    have e : 2 ^ lo = 2 ^ b * 2 ^ (lo - b) := by rw [← Nat.pow_add]; congr 1; omega
    have f : 2 ^ (lo - b) = 2 ^ (a + 1 - b) * 2 ^ (lo - 1 - a) := by rw [← Nat.pow_add]; congr 1; omega
    rw [e, Nat.mod_mul_right_div_self, f, Nat.mod_mul_right_mod]
  rw [fld, fld, key, key w.toNat, setFld_toNat w hi lo v hl hh, hm]
  congr 2
  generalize 2 ^ (hi + 1 - lo) = m
  have e : w.toNat % 2 ^ lo + v % m * 2 ^ lo + w.toNat / (2 ^ lo * m) * (2 ^ lo * m)
      = w.toNat % 2 ^ lo + 2 ^ lo * (v % m + m * (w.toNat / (2 ^ lo * m))) := by ring
  rw [e, Nat.add_mul_mod_self_left, Nat.mod_mod]

/-- A field above the one written reads as before. -/
theorem fld_setFld_above (w : Word) (hi lo v a b : Nat) (hl : lo ≤ hi) (hh : hi < 32) (h : hi < b) :
    fld (setFld w hi lo v) a b = fld w a b := by
  have hm : 2 ^ (hi + 1) = 2 ^ lo * 2 ^ (hi + 1 - lo) := by rw [← Nat.pow_add]; congr 1; omega
  have hv : v % 2 ^ (hi + 1 - lo) < 2 ^ (hi + 1 - lo) := Nat.mod_lt _ (Nat.two_pow_pos _)
  rw [fld, fld, setFld_toNat w hi lo v hl hh]
  congr 1
  have e : 2 ^ b = 2 ^ (hi + 1) * 2 ^ (b - (hi + 1)) := by rw [← Nat.pow_add]; congr 1; omega
  rw [e, ← Nat.div_div_eq_div_mul, ← Nat.div_div_eq_div_mul]
  congr 1
  have h1 : w.toNat % 2 ^ lo < 2 ^ lo := Nat.mod_lt _ (Nat.two_pow_pos _)
  have h2 : w.toNat % 2 ^ lo + v % 2 ^ (hi + 1 - lo) * 2 ^ lo < 2 ^ (hi + 1) := by
    rw [hm]
    generalize 2 ^ (hi + 1 - lo) = m at *
    calc w.toNat % 2 ^ lo + v % m * 2 ^ lo < 2 ^ lo + v % m * 2 ^ lo := by omega
      _ = (v % m + 1) * 2 ^ lo := by ring
      _ ≤ m * 2 ^ lo := Nat.mul_le_mul_right _ hv
      _ = 2 ^ lo * m := Nat.mul_comm _ _
  rw [Nat.add_mul_div_right _ _ (Nat.two_pow_pos _), Nat.div_eq_of_lt h2, Nat.zero_add]

/-- A field that was written reads as written. -/
theorem rf_setRf_same (d : Dev) (n : Nat) (r : Rg) (i hi lo v : Nat) (hl : lo ≤ hi) (hh : hi < 32) :
    (d.setRf n r i hi lo v).rf n r i hi lo = v % 2 ^ (hi + 1 - lo) := by
  simp [Dev.setRf, Dev.rf, fld_setFld _ _ _ _ hl hh]

/-- The registers that a write names no more read as before. -/
theorem rg_setRf_ne (d : Dev) {n m : Nat} {r q : Rg} {i j : Nat} (hi lo v : Nat) (h : regKey m q j ≠ regKey n r i) :
    (d.setRf n r i hi lo v).rg m q j = d.rg m q j := rg_setRg_ne d _ h

/-- The register file decides what registers read as. -/
theorem rg_of_regs {d e : Dev} (h : e.regs = d.regs) (n : Nat) (r : Rg) (i : Nat) : e.rg n r i = d.rg n r i := by
  simp only [Dev.rg, h]

@[simp] theorem rg_mod (d : Dev) (s : Side) (f : Half → Half) (n : Nat) (r : Rg) (i : Nat) : (d.mod s f).rg n r i = d.rg n r i :=
  rg_of_regs (by simp) n r i

end Sys2Proof.Machine
end

