-- ==== Sys2Proof/Laws/Writes.lean ====
section
/-! SUPPORT. What a row that writes one register answers. -/
namespace Sys2Proof.Machine

open Sys2Proof.Safety

/-- A row that writes a register shows the status of the write, and leaves what the write and then every command leave. -/
theorem yields_reg {c : Instr} {s : State} {w : Writer} {die i : Nat} {r : Rg} {v : Word} {x : RegDesc} {st : Nat} {e : Dev}
    {p : Dev → Prop} (hc : exec c s = running (regCommand w die r i v) s) (hx : descOf r = some x)
    (h : s.dev.powered = true)
    (hw : Dev.writeTo { s.dev with out := [] } s.fuse.life w (.reg die x i) (decide (sideOf die = .e)) v = (st, e))
    (hp : ∀ t, Leaves (e.emit (.wrote st)) t → p t) : Yields c s p := by
  refine yields_running hc h fun t ht => hp t ?_
  have : regCommand w die r i v s.fuse.life { s.dev with out := [] } = e.emit (.wrote st) := by
    simp only [regCommand]
    simp only [descOf] at hx
    rw [hx]
    simp only [hw]
  rwa [this] at ht

/-- A write that is reported OK and whose effect is calm writes. -/
theorem writes_reg {c : Instr} {s : State} {w : Writer} {die i : Nat} {r : Rg} {v : Word} {x : RegDesc} {e f : Dev}
    (hc : exec c s = running (regCommand w die r i v) s) (hx : descOf r = some x) (h : s.dev.powered = true)
    (hw : Dev.writeTo { s.dev with out := [] } s.fuse.life w (.reg die x i) (decide (sideOf die = .e)) v = (stOk, e))
    (hcalm : e.calm) (he : e.bare = f.bare) : Writes c s f :=
  yields_reg hc hx h hw fun t ht => ⟨by rw [ht.bare (hcalm.quiet (quiet_emit ..)), bare_emit, he],
    ht.grows.2 _ (by simp [Dev.emit])⟩

end Sys2Proof.Machine
end

