-- ==== Sys2Proof/Tests/Slice0.lean ====
section
/-! SUPPORT. Tests: worked examples of the spec, ill-formed commands, and for the hypotheses of each statement a state and
operands that meet them (a witness takes the statement and gives the completion of one command from that state). -/

open Sys2Proof Sys2Proof.Machine Sys2Proof.Safety

namespace Sys2Proof.Tests
set_option maxRecDepth 8000
set_option Elab.async false

/-! ## Helpers -/

theorem Yields.completes {c : Instr} {s : State} {p : Dev → Prop} (h : Yields c s p) : Completes (exec c s) :=
  let ⟨t, k, _⟩ := h; ⟨t, k⟩

theorem Gives.completes {o : Answer} {p : State → Prop} (h : Gives o p) : Completes o := let ⟨t, k, _⟩ := h; ⟨t, k⟩

theorem completes_of_ex {o : Answer} {p : State → Prop} (h : ∃ t, o = .next t ∧ p t) : Completes o :=
  let ⟨t, k, _⟩ := h; ⟨t, k⟩

/-- A frame in order, sealed in the session x. -/
theorem takesS {d : Dev} {h : Hdr} (x : Session)
    (k : d.hears h = true ∧ frameBytes h ≤ 9000 ∧ h.version = 1 ∧ h.rsp = false ∧ h.resv = false ∧ h.opKnown = true ∧ h.layoutOk = true
      ∧ h.session ≠ 0 ∧ h.sealed = true ∧ h.gcmOk = true ∧ d.session h.session = some x ∧ x.stale h.seq = false
      ∧ x.seen.contains h.seq = false ∧ x.lost h.seq = 0 ∧ x.busy.length < 16) : d.takes h := by
  obtain ⟨a, n, b, c, e, f, g, r⟩ := k
  obtain ⟨r1, r2, r3, r4, r5⟩ := r
  exact ⟨a, n, b, c, e, f, g, .inr ⟨r1, r2, r3, x, r4, r5⟩⟩

/-- A frame in order without a session. -/
theorem takes0 {d : Dev} {h : Hdr}
    (k : d.hears h = true ∧ frameBytes h ≤ 9000 ∧ h.version = 1 ∧ h.rsp = false ∧ h.resv = false ∧ h.opKnown = true ∧ h.layoutOk = true
      ∧ h.session = 0 ∧ h.sealed = false ∧ d.session 0 = none) : d.takes h := by
  obtain ⟨a, n, b, c, e, f, g, r⟩ := k
  exact ⟨a, n, b, c, e, f, g, .inl r⟩

/-- What keeps firmware able to take a command, with the queue's capacity a free value of at least 16. -/
theorem fwOpen {d : Dev} {fw halt away : Bool}
    (k : d.fwHalted halt = false ∧ d.west.tsk.started = true ∧ d.west.away = false
      ∧ (away && d.east.away) = false ∧ (tget {} d.west.tsk.queues blkHst).entries.length < 16) :
    d.fwRefusal fw halt away = none := by
  obtain ⟨a, b, c, e, f⟩ := k
  have hq : ¬queueCap .w blkHst ≤ (tget {} d.west.tsk.queues blkHst).entries.length := by
    have : 16 ≤ queueCap .w blkHst := Nat.le_add_right _ _
    omega
  simp [Dev.fwRefusal, Dev.fwBusy, a, b, c, e, hq]

/-- A request sealed in the session x that a running module takes. -/
theorem admitsS {s : State} {h : Hdr} {op : Nat} {r f a : Bool} (x : Session)
    (k : (s.dev.powered = true ∧ s.dev.calm) ∧ (s.dev.hears h = true ∧ frameBytes h ≤ 9000 ∧ h.version = 1 ∧ h.rsp = false ∧ h.resv = false
      ∧ h.opKnown = true ∧ h.layoutOk = true ∧ h.session ≠ 0 ∧ h.sealed = true ∧ h.gcmOk = true
      ∧ s.dev.session h.session = some x ∧ x.stale h.seq = false ∧ x.seen.contains h.seq = false ∧ x.lost h.seq = 0
      ∧ x.busy.length < 16) ∧ (s.fuse.life ≠ .blank ∧ s.fuse.life ≠ .retired) ∧ stateRefuses s.dev.state op = false
      ∧ s.dev.fwHalted a = false ∧ s.dev.west.tsk.started = true ∧ s.dev.west.away = false
      ∧ (a && s.dev.east.away) = false
      ∧ (tget {} s.dev.west.tsk.queues blkHst).entries.length < 16) : Admits s h op r f a :=
  ⟨k.1.1, k.1.2, takesS x k.2.1, k.2.2.1, fun _ => k.2.1.2.2.2.2.2.2.2.2.1, k.2.2.2.1, fwOpen k.2.2.2.2⟩

/-- A request without a session that a running module takes. -/
theorem admits0 {s : State} {h : Hdr} {op : Nat} {f a : Bool}
    (k : (s.dev.powered = true ∧ s.dev.calm) ∧ (s.dev.hears h = true ∧ frameBytes h ≤ 9000 ∧ h.version = 1 ∧ h.rsp = false ∧ h.resv = false
      ∧ h.opKnown = true ∧ h.layoutOk = true ∧ h.session = 0 ∧ h.sealed = false ∧ s.dev.session 0 = none)
      ∧ (s.fuse.life ≠ .blank ∧ s.fuse.life ≠ .retired) ∧ stateRefuses s.dev.state op = false
      ∧ s.dev.fwHalted a = false ∧ s.dev.west.tsk.started = true ∧ s.dev.west.away = false
      ∧ (a && s.dev.east.away) = false
      ∧ (tget {} s.dev.west.tsk.queues blkHst).entries.length < 16) : Admits s h op false f a :=
  ⟨k.1.1, k.1.2, takes0 k.2.1, k.2.2.1, fun h => (Bool.noConfusion h), k.2.2.2.1, fwOpen k.2.2.2.2⟩

theorem foldl_keeps {α β : Type} (f : β → α → β) (l : List α) (h : ∀ b, ∀ x ∈ l, f b x = b) (a : β) : l.foldl f a = a := by
  induction l generalizing a with
  | nil => rfl
  | cons x l ih =>
    rw [List.foldl_cons, h a x List.mem_cons_self]
    exact ih (fun b y hy => h b y (List.mem_cons_of_mem _ hy)) a

/-- No task of a unit waits for a queue when none is WAITING. -/
theorem nw (t : TskSt) (h : ∀ kv ∈ t.tasks, kv.2.st ≠ .waiting) : ∀ q, t.waiter q = none := by
  intro q
  unfold TskSt.waiter
  rw [foldl_keeps]
  · rfl
  · intro b x hx
    rw [if_pos (Or.inl (h x hx))]

theorem waveCheck_zero (p : Nat) (l : List Word) (h : ∀ w ∈ l, w = 0) (slot dr sb : Nat) (hd : dr ≤ 4) (hs : sb ≤ 2) :
    waveCheck p l slot dr sb = none := by
  induction l generalizing slot dr sb with
  | nil => rfl
  | cons w l ih =>
    have hw := h w List.mem_cons_self
    subst hw
    have a : fld (0 : Word) 31 28 = 0 := by decide
    have b : fld (0 : Word) 27 0 = 0 := by decide
    simp only [waveCheck, a, b]
    rw [if_neg (by decide), if_neg (by decide), if_neg (by simp)]
    rw [if_neg (by simp [b1]; omega), if_neg (by simp [b1]; omega)]
    exact ih (fun w hw => h w (List.mem_cons_of_mem _ hw)) _ _ _ (by simp [b1]; omega) (by simp [b1]; omega)

theorem rdLE_zero (rd : Nat → Byte) (a n : Nat) (h : ∀ k, a ≤ k → rd k = 0) : rdLE rd a n = 0 := by
  induction n generalizing a with
  | zero => rfl
  | succ n ih =>
    simp only [rdLE]
    rw [h a (Nat.le_refl _), ih (a + 1) fun k hk => h k (by omega)]
    rfl

theorem firstSome_none {α : Type} (n : Nat) (f : Nat → Option α) (h : ∀ i, f i = none) : firstSome n f = none := by
  unfold firstSome
  rw [List.findSome?_eq_none_iff]
  exact fun x _ => h x

/-- A shelf page image whose slots are all empty passes when its head does. -/
theorem shelfCheck_empty (rd : Nat → Byte) (len : Nat) (initial : Bool) (h0 : headCheck rd len initial = none)
    (hz : ∀ k, 80 ≤ k → rd k = 0) : shelfCheck rd len initial = none := by
  unfold shelfCheck
  rw [h0]
  refine firstSome_none _ _ fun c => firstSome_none _ _ fun t => firstSome_none _ _ fun w => ?_
  dsimp only
  rw [waveCheck_zero]
  · rfl
  · intro x hx
    obtain ⟨k, -, rfl⟩ := List.mem_map.mp hx
    rw [rdLE_zero _ _ _ fun j hj => hz j (by omega)]
    rfl
  · omega
  · omega

/-- Reads above every listed key. -/
theorem tget_above (l : Tbl Byte) (n : Nat) (h : ∀ x ∈ l, x.1 < n) : ∀ k, n ≤ k → tget 0 l k = 0 := by
  intro k hk
  show tgetF (fun _ => (0 : Byte)) l k = 0
  induction l with
  | nil => rfl
  | cons x l ih =>
    have hx := h x List.mem_cons_self
    rw [tgetF, if_neg (by omega)]
    exact ih fun y hy => h y (List.mem_cons_of_mem _ hy)

/-- A read ahead that finds its half-vector, every line of it good. -/
theorem readAhead_ok {h : Half} {b : Bool} {e : Ecc} (k : (match h.readAhead b e with | .ok _ none => true | _ => false) = true) :
    ∃ x, h.readAhead b e = .ok x none := by
  revert k
  cases h.readAhead b e with
  | ok x o => cases o with
    | none => exact fun _ => ⟨x, rfl⟩
    | some _ => intro k; cases k
  | underflow => intro k; cases k
  | poisoned _ => intro k; cases k

/-- a running module whose firmware has started -/
def tskOn : TskSt := { started := true, core0 := { on := true, task := some 0 }, core1 := { on := true, task := some 1 }, core2 := { on := true, task := some 2 }, core3 := { on := true, task := some 3 }, tasks := [(0, { st := .running }), (1, { st := .running }), (2, { st := .running }), (3, { st := .running })] }
def stwUp : StwSt := { state := 2, credits := [32, 32, 32, 32] }
def dev0 : Dev := { State.reset.dev with clk := { power := .run }, west := { State.reset.dev.west with tsk := tskOn, stw := stwUp }, east := { State.reset.dev.east with tsk := tskOn, stw := stwUp }, hst := { State.reset.dev.hst with linkUp := true, devState := 2 }, sec := { State.reset.dev.sec with linkKey := true } }
def st0 (l : Life := .deployed) (d : Dev := dev0) : State := { dev := d, fuse := { life := l }, pending := [.idcode 7] }
def ses : Session := { id := 5, maxFrame := 9000, high := 10 }
def devS : Dev := { dev0 with hst := { dev0.hst with sessions := [ses] } }
def hd : Hdr := { session := 5, seq := 11, tag := 7, src := 3 }
def hd0 : Hdr := { sealed := false, src := 3 }

def planImg (l : List (Nat × Nat × Nat)) : Tbl Byte :=
  l.foldl (fun m x => memWrite m x.1 (leBytes x.2.1 x.2.2)) []
def secs : List (Nat × Nat × Nat) := (List.range 10).map fun n => (0x30 + 4 * n, 4, 0x200 + 0x100 * n)
/-- one step at pc 2: op, flags, a, b, c -/
def stepAt (op fl a b c : Nat) : List (Nat × Nat × Nat) := [(0x220, 1, op), (0x221, 1, fl), (0x222, 2, a), (0x224, 4, b), (0x228, 8, c)]
def runH (pl : List (Nat × Nat × Nat)) (f : FaceSt → FaceSt := id) (h : Half := dev0.east) : Half :=
  { h with attic := planImg (secs ++ [(0x10, 4, 8), (0x18, 4, 3)] ++ pl), face := f { h.face with state := .running, plan := some { fileId := 7, hash := 0, cls := false }, fires := 1, cur := { pc := 2 }, burst := { h.face.burst with unwritten := true } } }
def runS (pl : List (Nat × Nat × Nat)) (f : FaceSt → FaceSt := id) (h : Half := dev0.east) : State := st0 .deployed { dev0 with east := runH pl f h, hst := { dev0.hst with devState := 6, faceE := .running } }

/-! ## Worked examples of the spec -/

/-- The example of R483's chapter: command 0x20, argument 0x00, CRC-8 0xAE. -/
theorem test_crc8_halt_core0 : crc8 [0x20, 0x00] = 0xAE := by decide

/-- The example of chapter 7: local channel 37, drive rise at 937.5 ps, is corrected by -24 units before the update of the CAL
slot and by -27 units after it. -/
theorem test_correction_channel37 :
    clampedCorrection (correctionSum { tref := 656 } { offset := -29, tcoef := 31, pcurve := [750, 250] } 720 7500) = (-24, false)
    ∧ clampedCorrection (correctionSum { tref := 720 } { offset := -31, tcoef := 31, pcurve := [750, 250] } 720 7500)
      = (-27, false) := by
  decide

/-- The example of chapter 10: the place of the line at 0x0_0ABC_D5C0 of a half with two-rank DIMMs. -/
theorem test_line_place : celPlace true 0xABCD5C0 = { ch := 3, sub := 1, burst := 50, group := 5, bank := 1, rank := 1, row := 85 }
    ∧ (celPlace true 0xABCD5C0).column = 800 := by decide

/-- The example of chapter 2: a placed instant of 39 078 units has tick 31, code 328, and lies in SC cycle 3. -/
theorem test_placed_instant : tickOf 39078 = (31, 328) ∧ scOf 39078 = 3 := by decide

/-- A codeword of the Attic with one faulty symbol is corrected, with three faulty symbols it is not taken for a clean one
(R292, R294). -/
theorem test_codeword : atticClass [] = .clean ∧ atticClass [(7, 0x5A)] = .corr ∧ atticClass [(0, 1), (1, 2), (2, 3)] ≠ .clean := by
  decide +kernel

/-- The drill of the March example of chapter 5, its image holding instruction 2 only. -/
def march (y : Nat) : Drill :=
  let head := (memWrite [] 0x14 (leBytes 4 255)) 
  { st := 2, pc := 2, x := 255, y := y
    img := (List.range 0x9A0).map (fun i => tget 0 (memWrite head 0x1C (leBytes 4 63)) i)
      ++ [0x01, 0x60, 0x00, 0x31, 0x11, 0x03, 0, 0, 0, 0, 0, 0, 0, 0, 0, 0] }

/-- Instruction 2 at (255, 63) falls through with X and Y wrapped to 0 (R145, R147). -/
theorem test_march_falls_through :
    ((march 63).execute 0).1.x = 0 ∧ ((march 63).execute 0).1.y = 0 ∧ ((march 63).execute 0).1.pc = 3 := by decide +kernel

/-- Instruction 2 at (255, 62) goes on at instruction 1 in the next row, with CTL 0x0003. -/
theorem test_march_next_row :
    ((march 62).execute 0).1.x = 0 ∧ ((march 62).execute 0).1.y = 63 ∧ ((march 62).execute 0).1.pc = 1 ∧ ((march 62).execute 0).2.ctl = 3 := by
  decide +kernel

/-- No row of the opcode table has bits. -/
theorem test_no_word_spells_a_command : decodeTableWord 32 0 = none ∧ decodeTableWord 0 0 = none := ⟨rfl, rfl⟩

/-! ## Ill-formed commands -/

/-- Commands that WellFormed refuses, one operand out of its width or range each. -/
theorem test_ill_formed_1 : ([
    .hello {} (2 ^ 16) 0,
    .hello {} 0 (2 ^ 16),
    .sessionOpen {} (2 ^ 16) 0 0 [] (List.replicate 96 0),
    .sessionOpen {} 0 0 (2 ^ 776) [] (List.replicate 96 0),
    .readReg {} (2 ^ 44) 0,
    .readReg {} 0 (2 ^ 16),
    .writeReg {} (2 ^ 44) [],
    .registerWrite .host (2 ^ 44) 0,
    .readBlock {} (2 ^ 32) 0 0 0,
    .readBlock {} 0 (2 ^ 8) 0 0,
    .readBlock {} 0 0 (2 ^ 64) 0,
    .readBlock {} 0 0 0 (2 ^ 32),
    .writeBlock {} (2 ^ 64) [],
    .replayReq (2 ^ 32) 0,
    .replayReq 0 (2 ^ 32),
    .sessionIdleTimeout (2 ^ 32),
    .configBegin {} (2 ^ 8) 0,
    .configBegin {} 0 (2 ^ 64),
    .configData {} (2 ^ 64) [],
    .fileOpen {} (2 ^ 8) 0 0,
    .fileOpen {} 0 (2 ^ 16) 0,
    .fileOpen {} 0 0 (2 ^ 64),
    .fileWrite {} (2 ^ 32) 0 [],
    .fileWrite {} 0 (2 ^ 64) []] : List Instr).all (fun i => !i.wf) = true := by decide +kernel

/-- Commands that WellFormed refuses, one operand out of its width or range each. -/
theorem test_ill_formed_2 : ([
    .fileClose {} (2 ^ 32),
    .fileDrop {} (2 ^ 32),
    .keyInstall {} (2 ^ 16) (.owner 0),
    .keyRetire {} (2 ^ 16),
    .planLoad {} (2 ^ 8) 0,
    .planLoad {} 0 (2 ^ 32),
    .arm {} (2 ^ 8),
    .fire {} (2 ^ 8),
    .abort {} (2 ^ 8),
    .resultGet {} (2 ^ 8) 0,
    .resultGet {} 0 (2 ^ 32),
    .resultRelease {} (2 ^ 8) 0,
    .resultRelease {} 0 (2 ^ 32),
    .calRun {} (2 ^ 8),
    .calTableGet {} (2 ^ 8) 0 0,
    .calTableGet {} 0 (2 ^ 16) 0,
    .calTableGet {} 0 0 (2 ^ 16),
    .eventPoll {} (2 ^ 32) 0,
    .eventPoll {} 0 (2 ^ 16),
    .logRead {} (2 ^ 32) 0,
    .logRead {} 0 (2 ^ 16),
    .modeSet {} (2 ^ 8) 0 0,
    .modeSet {} 0 (2 ^ 8) 0,
    .modeSet {} 0 0 (2 ^ 8)] : List Instr).all (fun i => !i.wf) = true := by decide +kernel

/-- Commands that WellFormed refuses, one operand out of its width or range each. -/
theorem test_ill_formed_3 : ([
    .bistRun {} (2 ^ 16) 0 0 false,
    .bistRun {} 0 (2 ^ 32) 0 false,
    .resetPart {} (2 ^ 8) 0,
    .resetPart {} 0 (2 ^ 16),
    .lifecycleAdvance {} (2 ^ 8) 0 (List.replicate 96 0),
    .lifecycleAdvance {} 0 (2 ^ 776) (List.replicate 96 0),
    .sessionOpen {} 0 0 0 [] [],
    .sessionOpen {} 0 0 0 (List.replicate 256 []) (List.replicate 96 0),
    .patrolRead .w (2 ^ 30) [],
    .remoteRead .w (2 ^ 30) 0,
    .remoteFill .w (2 ^ 30) 0,
    .snoopInvalidate .w (2 ^ 30),
    .invalidateAck .w (2 ^ 30),
    .evictionReport .w (2 ^ 30),
    .larderAppend (2 ^ 16) 0 0,
    .larderAppend 0 (2 ^ 32) 0,
    .flag .w {} (2 ^ 48) 0 0,
    .peek (2 ^ 44) 0,
    .poke (2 ^ 44) 0 0,
    .pinsSet (2 ^ 16) 0 0,
    .pinsGet (2 ^ 16) 0 false 0,
    .flash (2 ^ 32) (List.replicate 256 0) 0,
    .hello { version := 256 } 0 0,
    .status { session := 2 ^ 32 }] : List Instr).all (fun i => !i.wf) = true := by decide +kernel

/-- Commands that WellFormed refuses, one operand out of its width or range each. -/
theorem test_ill_formed_4 : ([
    .status { seq := 2 ^ 32 },
    .status { tag := 2 ^ 32 },
    .writeBlock {} 0 (List.replicate 9000 0),
    .fileWrite {} 0 0 (List.replicate 9000 0),
    .calTableSet {} (List.replicate 9000 0),
    .configData {} 0 (List.replicate 9000 0),
    .keyInstall {} 0 (.owner (2 ^ 776)),
    .keyInstall {} 0 (.root (2 ^ 776) (List.replicate 96 0)),
    .keyInstall {} 0 (.cert (List.replicate 9000 0)),
    .writeReg {} 0 (List.replicate 65536 0),
    .resetPartComplete .w [12],
    .flash 0 [] 0,
    .bucketLeak .w 20 0,
    .countWindowEnd .w 20 0,
    .fltStatusClear .host .w 20 0,
    .fltSeverityWrite .host .w 20 0,
    .fltEnableWrite .host .w 20 0,
    .powerOn true [] [(.w, 20)],
    .moduleResetRelease [] [(.w, 20)],
    .atticPatrol .w 180224 [],
    .tempSample .w [0],
    .cal .w [] [],
    .sweepStart .w [],
    .celVerifyComplete .w [] [0, 0, 0, 0] [0, 0, 0, 0] false false false] : List Instr).all (fun i => !i.wf) = true := by decide +kernel

/-- Commands that WellFormed refuses, one operand out of its width or range each. -/
theorem test_ill_formed_5 : ([
    .haulAdaptDone .w 0 [] [0, 0, 0, 0],
    .haulAdaptDone .w 0 [0, 0, 0, 0] [],
    .haulAlignDone .w 0 [],
    .bmemAccess 0 2304 none none,
    .caRetry .w 0 0,
    .caRetry .w 0 5,
    .stwFrame .w { epoch := 256 },
    .stwFrame .w { width := 4 },
    .stwFrame .w { credits := 64 },
    .stwFrame .w { seq := 256 },
    .stwFrame .w { ackSeq := 256 },
    .nocPortRequest 0 0 (List.replicate 81 0) .pass,
    .bmemAccess 0 0 (some { addr := 2 ^ 15 }) none,
    .bmemAccess 0 0 none (some { hit := [(10, 1)] }),
    .revote (.page .w 20) .agree,
    .prefetchTrigger .w 65536,
    .taskYield .w 0 3 0,
    .spoil .w {} [],
    .keyInstall {} 0 (.root 0 []),
    .keyInstall {} 0 (.blob []),
    .lifecycleAdvance {} 0 0 [],
    .token 0 0 [] 0,
    .scrubPass .w [] [{ addr := 2 ^ 32 }],
    .scrubCmdComplete .w { hits := [(2177, [])] }] : List Instr).all (fun i => !i.wf) = true := by decide +kernel

/-- Commands that WellFormed refuses, one operand out of its width or range each. -/
theorem test_ill_formed_6 : ([
    .scrubCmdComplete .w { hits := [(0, [(35, 1)])] },
    .vectorIssue .w [(35, 1)],
    .compareResult .w 0 0 [(35, 1)],
    .spoilCacheFill .w 0 [(80, 1)],
    .patrolRead .w 0 [(80, 1)],
    .atticPatrol .w 0 [(35, 1)],
    .lineReadback .w (.attic 0) 0 [(35, 1)],
    .celVerifyComplete .w [true, true, true, true] [] [0, 0, 0, 0] false false false,
    .celVerifyComplete .w [true, true, true, true] [0, 0, 0, 0] [] false false false] : List Instr).all (fun i => !i.wf) = true := by decide +kernel

/-- Well-formed neighbours of the commands above. -/
theorem test_well_formed : ([.hello {} (2 ^ 16 - 1) 0, .readReg {} (2 ^ 44 - 1) 1, .patrolRead .w (2 ^ 30 - 1) [(79, 1)],
    .stwFrame .w { credits := 63 }, .nocPortRequest 0 0 (List.replicate 80 0) .pass, .revote (.page .w 19) .agree, .challenge 0]
    : List Instr).all Instr.wf = true := by decide +kernel

/-! ## The whole block -/

theorem test_reset_memories : Memory.wf State.reset.dev.west.attic = true ∧ Memory.wf State.reset.dev.east.attic = true := by decide

theorem witness_StepRunsFront_idle (h : Obligations.StepRunsFront) : ∃ t, step State.reset = .next t :=
  let ⟨t, k, _⟩ := h.2 State.reset rfl
  ⟨t, k⟩

/-- The block after reset takes POWER_ON. -/
theorem witness_EveryCommandCompletes (h : Obligations.EveryCommandCompletes) :
    Completes (exec (.powerOn true [] []) State.reset) :=
  let ⟨t, k, _⟩ := h (.powerOn true [] []) State.reset
  ⟨t, k⟩

theorem witness_ResetValues_field (h : Obligations.ResetValues) : State.reset.dev.rf 0 .hstUdpPort 0 15 0 = 0xB9F5 :=
  h.2.2.2.2.2.2.2.2.2 0
    ⟨.hstUdpPort, 0xF00010, 0x0, 1, 0x0, 1, [⟨"PORT", 15, 0, .rw, 0xB9F5, false⟩]⟩ ⟨"PORT", 15, 0, .rw, 0xB9F5, false⟩ 0 (by decide +kernel) (by decide) (by decide +kernel) (by decide)

theorem witness_LifeNeverGoesBack (h : Obligations.LifeNeverGoesBack) : 
    ∃ t, step { st0 .returned with pending := [] } = .next t ∧ LifeAtLeast .deployed t :=
  ⟨_, rfl, h .deployed { st0 .returned with pending := [] } _ (by unfold LifeAtLeast; decide) rfl⟩

theorem witness_SafeNetFollows (h : Obligations.SafeNetFollows) : 
    ∃ t, step { st0 with pending := [] } = .next t ∧ (t.dev.powered = true → t.dev.calm) :=
  ⟨_, rfl, h { st0 with pending := [] } _ (by decide +kernel) rfl⟩

/-! ## Witnesses -/

namespace Core

def shV : Half := { dev0.west with shelf := { dev0.west.shelf with st0 := .valid, st1 := .valid } }
theorem witness_OwnRegisterWrites_own1 (h : Obligations.OwnRegisterWrites) :
    Completes (exec (Instr.shelfSwapWrite Writer.host Side.e 1) (st0)) := by
  refine Yields.completes ((h (st0) .host 1 ?_ ?_ ?_).1 .e ?_ |>.1 ?_) <;> decide +kernel
theorem witness_OwnRegisterWrites_own2 (h : Obligations.OwnRegisterWrites) :
    Completes (exec (Instr.shelfSwapWrite Writer.host Side.e 1) (st0 .returned)) := by
  refine Yields.completes ((h (st0 .returned) .host 1 ?_ ?_ ?_).1 .e ?_ |>.2.1 ?_ ?_) <;> decide +kernel
theorem witness_OwnRegisterWrites_own3 (h : Obligations.OwnRegisterWrites) :
    Completes (exec (Instr.shelfSwapWrite Writer.host Side.w 1) (st0 .returned { dev0 with west := shV})) := by
  refine Yields.completes ((h (st0 .returned { dev0 with west := shV}) .host 1 ?_ ?_ ?_).1 .w ?_
      |>.2.2 ?_ ?_ ?_ ?_) <;> decide +kernel
theorem witness_OwnRegisterWrites_own4 (h : Obligations.OwnRegisterWrites) :
    Completes (exec (Instr.aonCountWrite Writer.host true 77) (st0)) := by
  refine Yields.completes (((h (st0) .host 77 ?_ ?_ ?_).2).1) <;> decide +kernel
def devC : Dev := { State.reset.dev with out := [] }
def stC : State := { dev := devC, fuse := { life := .deployed } , pending := [.idcode 7]}
theorem witness_FirmwareStarts_fw1 (h : Obligations.FirmwareStarts) :
    Completes (exec (Instr.firmwareStart false true) stC) := by
  refine Yields.completes (((h stC ?_).1 ?_ ?_).1 false true ?_) <;> decide +kernel
theorem witness_FirmwareStarts_fw2 (h : Obligations.FirmwareStarts) :
    Completes (exec (Instr.firmwareStart false false) stC) := by
  refine Yields.completes (((h stC ?_).1 ?_ ?_).2 ?_) <;> decide +kernel
def devTE : Dev := { dev0 with east := { dev0.east with tsk := {} }, west := { dev0.west with tsk := { tskOn with version := 9 } } }
theorem witness_FirmwareStarts_fw3 (h : Obligations.FirmwareStarts) :
    Completes (exec (Instr.teFirmwareStart true) (st0 .deployed devTE)) := by
  refine Yields.completes ((h (st0 .deployed devTE) ?_).2.1 ?_ ?_ ?_ ?_).1 <;> decide +kernel
theorem witness_FirmwareStarts_fw4 (h : Obligations.FirmwareStarts) :
    Completes (exec (Instr.teFirmwareStart false) (st0 .deployed devTE)) := by
  refine Yields.completes (((h (st0 .deployed devTE) ?_).2.1 ?_ ?_ ?_ ?_).2 ?_) <;> decide +kernel
theorem witness_FirmwareStarts_fw5 (h : Obligations.FirmwareStarts) :
    Completes (exec (Instr.firmwareReload Side.e) (st0)) := by
  refine Yields.completes ((h (st0) ?_).2.2.1 .e ?_ ?_) <;> decide +kernel
def devRe : Dev := { dev0 with east := { dev0.east with tsk := { tskOn.stopCores with reload := true } } }
theorem witness_FirmwareStarts_fw6 (h : Obligations.FirmwareStarts) :
    Completes (exec (Instr.firmwareReloadComplete Side.e) (st0 .deployed devRe)) := by
  refine Yields.completes ((h (st0 .deployed devRe) ?_).2.2.2 .e ?_ ?_) <;> decide +kernel
def enU (v : Word) : Dev := dev0.setRg 1 .tskPatchAddr 3 v
theorem witness_PatchUnits_pu1 (h : Obligations.PatchUnits) :
    Completes (exec (Instr.tskPatchWrite Writer.host Side.e 3 2 2147483672) (st0)) := by
  refine Yields.completes ((h (st0) .e 3 0x80000018 ?_ ?_).1 2 .host ?_ ?_) <;> decide +kernel
theorem witness_PatchUnits_pu2 (h : Obligations.PatchUnits) :
    Completes (exec (Instr.tskPatchWrite Writer.poke Side.e 3 0 2147483672) (st0)) := by
  refine Yields.completes (((h (st0) .e 3 0x80000018 ?_ ?_).2.1 ?_).1 (.inl ?_)) <;> decide +kernel
theorem witness_PatchUnits_pu3 (h : Obligations.PatchUnits) :
    Completes (exec (Instr.tskPatchWrite Writer.poke Side.e 3 0 32) (st0 .deployed (enU 0x80000018))) := by
  refine Yields.completes (((h (st0 .deployed (enU 0x80000018)) .e 3 0x20 ?_ ?_).2.1 ?_).2.1 ?_ ?_) <;> decide +kernel
theorem witness_PatchUnits_pu4 (h : Obligations.PatchUnits) :
    Completes (exec (Instr.tskPatchWrite Writer.poke Side.e 3 1 32) (st0 .deployed (enU 0x80000018))) := by
  refine Yields.completes ((((h (st0 .deployed (enU 0x80000018)) .e 3 0x20 ?_ ?_).2.1 ?_).2.2.1 ?_).1) <;> decide +kernel
theorem witness_PatchUnits_pu5 (h : Obligations.PatchUnits) :
    Completes (exec (Instr.tskPatchWrite Writer.poke Side.e 3 1 32) (st0 .deployed (enU 0x00000018))) := by
  refine Yields.completes ((((h (st0 .deployed (enU 0x00000018)) .e 3 0x20 ?_ ?_).2.1 ?_).2.2.2 ?_).1) <;> decide +kernel
theorem witness_PatchUnits_pu6 (h : Obligations.PatchUnits) :
    Completes (exec (Instr.fwHashRecompute Side.w) (st0 .deployed { dev0 with west := { dev0.west with tsk := { tskOn with hashing := true } } })) := by
  refine Yields.completes ((h (st0 .deployed { dev0 with west := { dev0.west with tsk := { tskOn with hashing := true } } }) .w 3 0x20 ?_ ?_).2.2 ?_) <;> decide +kernel
theorem witness_Watchdogs_wd1 (h : Obligations.Watchdogs) :
    Completes (exec (Instr.wdogExpire Side.w 2) (st0)) := by
  refine Yields.completes ((h (st0) .w 2 ?_ ?_).1 ?_ ?_ |>.2.2.1 ?_ ?_ ?_ (nw _ ?_) ?_) <;> decide +kernel
def wdS (n : Nat) (f : List (Nat × Nat)) : State := st0 .deployed { dev0 with west := { dev0.west with tsk := { tskOn with core2 := { on := true, task := some 2, wdog := n }, fired := f, tick := 20000 } } }
theorem witness_Watchdogs_wd2 (h : Obligations.Watchdogs) :
    Completes (exec (Instr.watchdogKick Side.w 2) (wdS 9900 [])) := by
  refine Yields.completes ((h (wdS 9900 []) .w 2 ?_ ?_).1 ?_ ?_ |>.1 ?_) <;> decide +kernel
theorem witness_Watchdogs_wd3 (h : Obligations.Watchdogs) :
    Completes (exec (Instr.watchdogKick Side.w 2) (wdS 9901 [])) := by
  refine Yields.completes ((h (wdS 9901 []) .w 2 ?_ ?_).1 ?_ ?_ |>.2.1 ?_ |>.1 ?_ ?_ ?_ (nw _ ?_) ?_) <;> decide +kernel
theorem witness_Watchdogs_wd4 (h : Obligations.Watchdogs) :
    Completes (exec (Instr.wdogExpire Side.w 2) (wdS 9901 [(0, 15000), (1, 10001), (3, 19999)])) := by
  refine Yields.completes (((h (wdS 9901 [(0, 15000), (1, 10001), (3, 19999)]) .w 2 ?_ ?_).1 ?_ ?_
      |>.2.2.2 (fun k hk hn => by
  match k, hk, hn with | 0, _, _ => exact ⟨15000, by decide +kernel, by decide +kernel⟩ | 1, _, _ => exact ⟨10001, by decide +kernel, by decide +kernel⟩ | 3, _, _ => exact ⟨19999, by decide +kernel, by decide +kernel⟩ | 2, _, hn => exact absurd rfl hn))) <;> decide +kernel
theorem witness_Watchdogs_wd5 (h : Obligations.Watchdogs) :
    Completes (exec (Instr.tskWdogCfgWrite Writer.fw Side.e 2 65536) (st0)) := by
  refine Yields.completes (((h (st0) .e 2 ?_ ?_).2.1 0x10000).1 ?_) <;> decide +kernel
theorem witness_Watchdogs_wd6 (h : Obligations.Watchdogs) :
    Completes (exec (Instr.tskWdogCfgWrite Writer.fw Side.e 2 65537) (st0)) := by
  refine Yields.completes (((h (st0) .e 2 ?_ ?_).2.1 0x10001).2.1 ?_) <;> decide +kernel
theorem witness_Watchdogs_wd7 (h : Obligations.Watchdogs) :
    Completes (exec (Instr.tskWdogCfgWrite Writer.host Side.e 2 65537) (st0)) := by
  refine Yields.completes (((h (st0) .e 2 ?_ ?_).2.1 0x10001).2.2 .host ?_ ?_) <;> decide +kernel
def tskT : TskSt := { tskOn with tasks := tskOn.tasks ++ [(9, { st := .waiting, wake := some 30, prio := 3 }), (10, { st := .waiting, wake := some 31 })], tick := 5 }
def tS (t : TskSt) : State := st0 .deployed { dev0 with east := { dev0.east with tsk := t } }
theorem witness_TaskUnit_tk1 (h : Obligations.TaskUnit) :
    Completes (exec (Instr.taskDelayExpire Side.e 30) (tS tskT)) := by
  refine Yields.completes ((h (tS tskT) .e ?_ ?_ ?_).1 30) <;> decide +kernel
theorem witness_TaskUnit_tk2 (h : Obligations.TaskUnit) :
    Completes (exec (Instr.eventQueuePost Side.e 20 77) (tS tskT)) := by
  refine Yields.completes (((h (tS tskT) .e ?_ ?_ ?_).2.1 20 77 ?_).1 (Nat.lt_of_lt_of_le (by decide +kernel : _ < 16) (Nat.le_add_right _ _))) <;> decide +kernel
def full : TskSt := { tskOn with queues := [(20, { entries := List.replicate (queueCap .e 20) 1 })] }
theorem witness_TaskUnit_tk3 (h : Obligations.TaskUnit) :
    Completes (exec (Instr.eventQueuePost Side.e 20 77) (st0 .deployed ({ dev0 with east := { dev0.east with tsk := full } }.setPage .e blkTsk { (pageDefault blkTsk) with src := 0x20 }))) := by
  refine Yields.completes (((h (st0 .deployed ({ dev0 with east := { dev0.east with tsk := full } }.setPage .e blkTsk { (pageDefault blkTsk) with src := 0x20 })) .e ?_ ?_ ?_).2.1 20 77 ?_).2 (Nat.le_of_eq List.length_replicate.symm) ?_) <;> decide +kernel
theorem witness_TaskUnit_tk4 (h : Obligations.TaskUnit) :
    Completes (exec (Instr.taskYield Side.e 3 0 9) (tS tskOn)) := by
  refine Yields.completes (((h (tS tskOn) .e ?_ ?_ ?_).2.2 3 3 9 ?_ (nw _ ?_)).1 ?_ |>.1) <;> decide +kernel
def qOn : TskSt := { tskOn with queues := [(20, { entries := [88, 99] })] }
theorem witness_TaskUnit_tk5 (h : Obligations.TaskUnit) :
    Completes (exec (Instr.taskYield Side.e 3 1 84) (tS qOn)) := by
  refine Yields.completes ((((h (tS qOn) .e ?_ ?_ ?_).2.2 3 3 84 ?_ (nw _ ?_)).1 ?_).2 88 [99] ?_) <;> decide +kernel
def rOn : TskSt := { tskOn with ready := [(4, [50, 51])], tasks := tskOn.tasks ++ [(50, { st := .ready, prio := 4, affinity := 1 }), (51, { st := .ready, prio := 4 })] }
theorem witness_TaskUnit_tk6 (h : Obligations.TaskUnit) :
    Completes (exec (Instr.taskYield Side.e 3 2 84) (tS rOn)) := by
  refine Yields.completes ((((h (tS rOn) .e ?_ ?_ ?_).2.2 3 3 84 ?_ (nw _ ?_)).2) ?_ ?_ ?_ 51 ?_ 2 ?_) <;> decide +kernel
end Core

namespace Links

def sS : State := st0 .deployed devS
theorem witness_PartialReset_pr1 (h : Obligations.PartialReset) :
    Completes (exec (Instr.resetPart hd 0 128) sS) := by
  refine Yields.completes ((h.1 sS).1 hd 0 0x80 (admitsS ses ?_) ?_ ?_ ?_ ?_ ?_) <;> decide +kernel
def rw : State := st0 .deployed { devS with east := { devS.east with reset := 0xFFF, resetReply := some { session := 5, seq := 11, tag := 7, op := 0xA0, src := 3 } } }
theorem witness_PartialReset_pr3 (h : Obligations.PartialReset) :
    Completes (exec (Instr.resetPartComplete Side.e [0, 2]) rw) := by
  refine Yields.completes ((h.1 rw).2 .e { session := 5, seq := 11, tag := 7, op := 0xA0, src := 3 } [0, 2] ?_ ?_ ?_ ?_ ?_ ?_) <;> decide +kernel
theorem witness_PartialReset_sl1 (h : Obligations.PartialReset) :
    Completes (exec (Instr.sleep hd 0) sS) := by
  refine Yields.completes (h.2 sS hd 0 (admitsS ses ?_) ?_ ?_ ?_ ?_) <;> decide +kernel
def sU : State := st0
theorem witness_StairwellTraining_st1 (h : Obligations.StairwellTraining) :
    Completes (exec (Instr.stwTrainingPattern Side.e) sU) := by
  refine Yields.completes (((h sU ?_ ?_).1 .e ?_).1) <;> decide +kernel
def lan : State := st0 .deployed (dev0.setRg 1 .stwLanes 0 0xFFFFFFFF)
theorem witness_StairwellTraining_st2 (h : Obligations.StairwellTraining) :
    Completes (exec (Instr.stwLockLoss Side.e 15) lan) := by
  refine Yields.completes (((h lan ?_ ?_).1 .e ?_).2.1 15 ?_) <;> decide +kernel
theorem witness_StairwellTraining_st3 (h : Obligations.StairwellTraining) :
    Completes (exec (Instr.stwFrame Side.e { epoch := 7 }) sU) := by
  refine Yields.completes (((h sU ?_ ?_).1 .e ?_).2.2.1 { epoch := 7 } ?_ ?_) <;> decide +kernel
theorem witness_StairwellTraining_st4 (h : Obligations.StairwellTraining) :
    Completes (exec (Instr.stwTargetWrite Writer.host Side.e 1) sU) := by
  refine Yields.completes ((((h sU ?_ ?_).1 .e ?_).2.2.2 .host 1 ?_ ?_).1 ?_ ?_) <;> decide +kernel
theorem witness_StairwellTraining_st5 (h : Obligations.StairwellTraining) :
    Completes (exec (Instr.stwRetrainWrite Writer.host Side.e 7) sU) := by
  refine Yields.completes ((((h sU ?_ ?_).1 .e ?_).2.2.2 .host 7 ?_ ?_).2 ?_ ?_) <;> decide +kernel
def q0 : NocPend := { die := 2, req := { addr := 0x100000000 }, held := true }
def stwS (x : StwSt) : State := st0 .deployed { dev0 with east := { dev0.east with stw := x }, west := { dev0.west with stw := { x with pend := [] } } }
theorem witness_StairwellTraining_st6 (h : Obligations.StairwellTraining) :
    Completes (exec (Instr.stwDownRetry Side.e) (stwS { state := 4 })) := by
  refine Yields.completes (((h (stwS { state := 4 }) ?_ ?_).2.1 .e ?_ ?_).1) <;> decide +kernel
theorem witness_StairwellTraining_st6b (h : Obligations.StairwellTraining) :
    Completes (exec (Instr.stwTrainingPattern Side.e) (stwS { state := 4 })) := by
  refine Yields.completes (((h (stwS { state := 4 }) ?_ ?_).2.1 .e ?_ ?_).2) <;> decide +kernel
theorem witness_StairwellTraining_st7 (h : Obligations.StairwellTraining) :
    Completes (exec (Instr.stwAttemptTimeout Side.e) (stwS { state := 1, attempts := 1 })) := by
  refine Yields.completes (((h (stwS { state := 1, attempts := 1 }) ?_ ?_).2.2.1 .e ?_).1 ?_) <;> decide +kernel
theorem witness_StairwellTraining_st8 (h : Obligations.StairwellTraining) :
    Completes (exec (Instr.stwAttemptTimeout Side.e) (stwS { state := 3, attempts := 2, pend := [q0] })) := by
  refine Yields.completes (((h (stwS { state := 3, attempts := 2, pend := [q0] }) ?_ ?_).2.2.1 .e ?_).2 ?_) <;> decide +kernel
theorem witness_StairwellTraining_st9 (h : Obligations.StairwellTraining) :
    Completes (exec (Instr.stwTrainAgree 65535 65295) (stwS { state := 3, attempts := 2, epoch := 255 })) := by
  refine Yields.completes ((h (stwS { state := 3, attempts := 2, epoch := 255 }) ?_ ?_).2.2.2.1 0xFFFF 0xFF0F 0 0x000F ?_ ?_ ?_ ?_ ?_ (fun side => by cases side <;> decide +kernel)) <;> decide +kernel
theorem witness_StairwellTraining_st10 (h : Obligations.StairwellTraining) :
    Completes (exec (Instr.stwWireFault Side.e 15) sU) := by
  refine Yields.completes ((h sU ?_ ?_).2.2.2.2 .e 15 ?_) <;> decide +kernel
theorem witness_StairwellFrames_sf1 (h : Obligations.StairwellFrames) :
    Completes (exec (Instr.stwFrame Side.e { crcOk := false }) sU) := by
  refine Yields.completes (((h sU .e ?_ ?_).1 { crcOk := false } ?_).1 ?_ ?_) <;> decide +kernel
def xw : State := stwS { stwUp with replay := [(4, 0, []), (5, 1, [])], rx := 255, credits := [1, 2, 3, 4] }
theorem witness_StairwellFrames_sf2 (h : Obligations.StairwellFrames) :
    Completes (exec (Instr.stwFrame Side.e { vn := 3, flit := true, seq := 255, ackSeq := 4, cvn := 2, credits := 40 }) xw) := by
  refine Yields.completes (((h xw .e ?_ ?_).1 { flit := true, seq := 255, ackSeq := 4, cvn := 2, credits := 40, vn := 3 } ?_).2 ?_ ?_ ?_ ?_ ?_ ?_ ?_) <;> decide +kernel
theorem witness_StairwellFrames_sf3 (h : Obligations.StairwellFrames) :
    Completes (exec (Instr.stwCommit Writer.host Side.e 8) (stwS { state := 1, stop := true })) := by
  refine Yields.completes ((((h (stwS { state := 1, stop := true }) .e ?_ ?_).2 .host 8 ?_).1 ?_ ?_).1 ?_) <;> decide +kernel
theorem witness_StairwellFrames_sf4 (h : Obligations.StairwellFrames) :
    Completes (exec (Instr.stwCommit Writer.host Side.e 8) (stwS { state := 1 })) := by
  refine Yields.completes ((((h (stwS { state := 1 }) .e ?_ ?_).2 .host 8 ?_).1 ?_ ?_).2 ?_) <;> decide +kernel
theorem witness_StairwellFrames_sf5 (h : Obligations.StairwellFrames) :
    Completes (exec (Instr.stwSlip Writer.host Side.e 15 65536) (stwS { state := 1, stop := true })) := by
  refine Yields.completes ((((h (stwS { state := 1, stop := true }) .e ?_ ?_).2 .host 0x10000 ?_).2 15 ?_).1 ?_) <;> decide +kernel
theorem witness_StairwellFrames_sf6 (h : Obligations.StairwellFrames) :
    Completes (exec (Instr.stwSlip Writer.host Side.e 15 65536) (stwS { state := 1 })) := by
  refine Yields.completes ((((h (stwS { state := 1 }) .e ?_ ?_).2 .host 0x10000 ?_).2 15 ?_).2 ?_) <;> decide +kernel
def devF : Dev := { dev0 with cfg := { dev0.cfg with state := 5, wcfg := [(0x1FE, 8)] } }
def sF (d : Dev) : State := st0 .deployed (d.setRg 4 .fabNocPortEn 0 0x80000001)
/-- A request packet: TYPE, TXN, ADDR, LEN and payload. -/
def pkt (type txn addr len : Nat) (data : List Byte) : List Byte :=
  leBytes 1 type ++ leBytes 1 0 ++ leBytes 2 txn ++ leBytes 4 0 ++ leBytes 6 addr ++ leBytes 1 len ++ leBytes 1 0 ++ data
def rq : NocReq := { txn := 5, addr := 0x10000000000 + 0x100000000 + 0x67FFC0, len := 64 }
def rqW : NocReq := { rq with write := true, data := List.replicate 64 7 }
def rqX : NocReq := { rq with addr := 0x100000000 }
def rqB : NocReq := { rq with lawful := false }
def pkR : List Byte := pkt 1 5 rq.addr 64 []
def pkW : List Byte := pkt 2 5 rq.addr 64 (List.replicate 64 7)
def pkX : List Byte := pkt 1 5 rqX.addr 64 []
def pkB : List Byte := (pkt 1 5 rq.addr 64 []).set 1 3
theorem witness_NocRows_no1 (h : Obligations.NocRows) :
    Completes (exec (Instr.nocPortRequest 2 31 pkR LineOutcome.pass) (sF devF)) := by
  refine Yields.completes (((h (sF devF) ?_ ?_).1 2 31 pkR .pass rq ?_ ?_).2.1 0x67FFC0 ?_ ?_ ?_ ?_ ?_ ?_ ?_
      |>.1 ?_ ?_ ?_) <;> decide +kernel
theorem witness_NocRows_no2 (h : Obligations.NocRows) :
    Completes (exec (Instr.nocPortRequest 2 31 pkW LineOutcome.pass) (sF devF)) := by
  refine Yields.completes (((h (sF devF) ?_ ?_).1 2 31 pkW .pass rqW ?_ ?_).2.1 0x67FFC0 ?_ ?_ ?_ ?_ ?_ ?_ ?_
      |>.2 ?_ ?_) <;> decide +kernel
def sD : State := sF { devF with east := { devF.east with stw := { state := 4 } } }
theorem witness_NocRows_no3 (h : Obligations.NocRows) :
    Completes (exec (Instr.nocPortRequest 2 31 pkX LineOutcome.pass) sD) := by
  refine Yields.completes (((h sD ?_ ?_).1 2 31 pkX .pass rqX ?_ ?_).2.2 ?_ ?_ ?_) <;> decide +kernel
theorem witness_NocRows_no3b (h : Obligations.NocRows) :
    Completes (exec (Instr.nocPortRequest 2 31 pkB LineOutcome.pass) (sF devF)) := by
  refine Yields.completes (((h (sF devF) ?_ ?_).1 2 31 pkB .pass rqB ?_ ?_).1 ?_ ?_) <;> decide +kernel
def q1 : NocPend := { die := 2, req := rq, ready := some (0, [1, 2]) }
def sP : State := stwS { stwUp with pend := [q1], late := [9] }
theorem witness_NocRows_no4 (h : Obligations.NocRows) :
    Completes (exec (Instr.nocResponse Side.e q1.req.txn) sP) := by
  refine Yields.completes (((h sP ?_ ?_).2.1 .e q1 [] ?_ ?_).1 ?_ |>.1 0 [1, 2] ?_ ?_ ?_) <;> decide +kernel
theorem witness_NocRows_no5 (h : Obligations.NocRows) :
    Completes (exec (Instr.nocTimeout Side.e q1.req.txn) sP) := by
  refine Yields.completes (((h sP ?_ ?_).2.1 .e q1 [] ?_ ?_).1 ?_ |>.2 ?_ ?_) <;> decide +kernel
theorem witness_NocRows_no6 (h : Obligations.NocRows) :
    Completes (exec (Instr.flitError Side.e q1.req.txn) sP) := by
  refine Yields.completes (((h sP ?_ ?_).2.1 .e q1 [] ?_ ?_).2) <;> decide +kernel
theorem witness_NocRows_no7 (h : Obligations.NocRows) :
    Completes (exec (Instr.nocLate Side.e 9) sP) := by
  refine Yields.completes ((h sP ?_ ?_).2.2 .e 9 ?_ ?_) <;> decide +kernel
def pg : State := st0 .deployed (dev0.setPage .e blkFace { (pageDefault blkFace) with src := 0x803F, active := 2 })
theorem witness_FaultPageWrites_fp1 (h : Obligations.FaultPageWrites) :
    Completes (exec (Instr.fltStatusClear Writer.host Side.e blkFace 65535) pg) := by
  refine Yields.completes (((h pg .host .e blkFace 0xFFFF ?_ ?_ ?_).1 ?_).1) <;> decide +kernel
theorem witness_FaultPageWrites_fp2 (h : Obligations.FaultPageWrites) :
    Completes (exec (Instr.fltStatusClear Writer.host Side.e blkClk 65535) pg) := by
  refine Yields.completes (((h pg .host .e blkClk 0xFFFF ?_ ?_ ?_).2 ?_).1) <;> decide +kernel
theorem witness_FaultCounts_fc1 (h : Obligations.FaultCounts) :
    Completes (exec (Instr.bucketLeak Side.w blkAon 8) pg) := by
  refine Yields.completes (((h pg ?_ ?_).1 .w blkAon ?_).1 8 ?_) <;> decide +kernel
theorem witness_FaultCounts_fc2 (h : Obligations.FaultCounts) :
    Completes (exec (Instr.countWindowEnd Side.e blkHaul 5) (st0 .deployed (dev0.setPage .e blkHaul { (pageDefault blkHaul) with counts := [(3, 4), (5, 6)] }))) := by
  refine Yields.completes (((h (st0 .deployed (dev0.setPage .e blkHaul { (pageDefault blkHaul) with counts := [(3, 4), (5, 6)] })) ?_ ?_).1 .e blkHaul ?_).2 5) <;> decide +kernel
theorem witness_FaultCounts_fc3 (h : Obligations.FaultCounts) :
    Completes (exec (Instr.revote (VotedWord.page Side.e blkFace) Vote.agree) pg) := by
  refine Yields.completes (((h pg ?_ ?_).2.1 (.page .e blkFace)).1) <;> decide +kernel
theorem witness_FaultCounts_fc4 (h : Obligations.FaultCounts) :
    Completes (exec (Instr.revote (VotedWord.treeRoot Side.e 7) Vote.minority) pg) := by
  refine Yields.completes (((h pg ?_ ?_).2.1 (.treeRoot .e 7)).2 ?_) <;> decide +kernel
theorem witness_FaultCounts_fc5 (h : Obligations.FaultCounts) :
    Completes (exec (Instr.revote VotedWord.life Vote.none) pg) := by
  refine Yields.completes (((h pg ?_ ?_).2.2.1 .life (.inl rfl))) <;> decide +kernel
theorem witness_FaultCounts_fc6 (h : Obligations.FaultCounts) :
    Completes (exec (Instr.revote VotedWord.keyCtl Vote.none) pg) := by
  refine Yields.completes ((h pg ?_ ?_).2.2.2.1 ?_) <;> decide +kernel
theorem witness_FaultCounts_fc6b (h : Obligations.FaultCounts) :
    Completes (exec (Instr.revote VotedWord.clkSrc Vote.none) pg) := by
  refine Yields.completes ((h pg ?_ ?_).2.2.1 .clkSrc (.inr (.inl rfl))) <;> decide +kernel
theorem witness_FaultCounts_fc6c (h : Obligations.FaultCounts) :
    Completes (exec (Instr.revote (VotedWord.page Side.e blkFace) Vote.none) pg) := by
  refine Yields.completes ((h pg ?_ ?_).2.2.1 (.page .e blkFace) (.inr (.inr ⟨.e, blkFace, rfl, ?_⟩))) <;> decide +kernel
theorem witness_FaultCounts_fc7 (h : Obligations.FaultCounts) :
    Completes (exec (Instr.reconcile (Unit34.haul Side.e 3) (some 9)) pg) := by
  refine Yields.completes (((h pg ?_ ?_).2.2.2.2 (.haul .e 3) ?_).1 (some 9)) <;> decide +kernel
def shad (k : Nat) : State := { sS with dev := { sS.dev with shadow := [(k, some 9)] } }
theorem witness_FaultCounts_fc7b (h : Obligations.FaultCounts) :
    Completes (exec (Instr.reconcile (Unit34.mode Side.e) none) (shad 25)) := by
  refine Yields.completes (((h (shad 25) ?_ ?_).2.2.2.2 (.mode .e) ?_).1 none) <;> decide +kernel
theorem witness_FaultCounts_fc8 (h : Obligations.FaultCounts) :
    Completes (exec (Instr.configBegin hd 0 256) (shad 26)) := by
  refine Yields.completes (((h (shad 26) ?_ ?_).2.2.2.2 .cfg ?_).2 hd (.configBegin hd 0 256) 0x20 true (.inl ⟨rfl, 0, 256, rfl, rfl, rfl⟩) (admitsS ses ?_) ?_ ?_ ?_) <;> decide +kernel
theorem witness_FaultCounts_fc9 (h : Obligations.FaultCounts) :
    Completes (exec (Instr.keyInstall hd 5 (.blob [])) (shad 33)) := by
  refine Yields.completes (((h (shad 33) ?_ ?_).2.2.2.2 (.keySlot 5) ?_).2 hd (.keyInstall hd 5 (.blob [])) 0x40 false (.inr (.inl ⟨5, .blob [], rfl, rfl, rfl, rfl⟩)) (admitsS ses ?_) ?_ ?_ ?_) <;> decide +kernel
theorem witness_FaultCounts_fc10 (h : Obligations.FaultCounts) :
    Completes (exec (Instr.planLoad hd 1 7) (shad 1)) := by
  refine Yields.completes (((h (shad 1) ?_ ?_).2.2.2.2 (.face .e) ?_).2 hd (.planLoad hd 1 7) 0x50 true (.inr (.inr ⟨7, rfl, rfl, rfl, rfl⟩)) (admitsS ses ?_) ?_ ?_ ?_) <;> decide +kernel
theorem witness_SafeNet_sn1 (h : Obligations.SafeNet) :
    Completes (exec Instr.safeN sU) := by
  refine Yields.completes ((h sU ?_ ?_).1 ?_) <;> decide +kernel
def rund : State := st0 .deployed { dev0 with west := { dev0.west with face := { dev0.west.face with state := .running } }, east := { dev0.east with face := { dev0.east.face with state := .draining } } }
def low : State := { rund with dev := { rund.dev with safe := { rund.dev.safe with asserted := true, safeNLow := true } } }
theorem witness_SafeNet_sn4 (h : Obligations.SafeNet) :
    Completes (exec Instr.safeNHigh low) := by
  refine Yields.completes ((h low ?_ ?_).2.1) <;> decide +kernel
def hi : State := { rund with dev := { rund.dev with safe := { rund.dev.safe with asserted := true, releasing := true } } }
theorem witness_SafeNet_sn5 (h : Obligations.SafeNet) :
    Completes (exec Instr.safeRelease hi) := by
  refine Yields.completes ((h hi ?_ ?_).2.2.1 ?_ ?_) <;> decide +kernel
theorem witness_SafeNet_sn6 (h : Obligations.SafeNet) :
    Completes (exec Instr.safeRelease low) := by
  refine Yields.completes ((h low ?_ ?_).2.2.2.1 ?_) <;> decide +kernel
theorem witness_SafeNet_sn7 (h : Obligations.SafeNet) :
    Completes (exec Instr.aliveEdge low) := by
  refine Yields.completes (((h low ?_ ?_).2.2.2.2).1) <;> decide +kernel
def bS : State := st0 .returned devS
theorem witness_SelfTest_bi1 (h : Obligations.SelfTest) :
    Completes (exec (Instr.bistRun hd 9 0 0x123456789ABCDEF0 true) bS) := by
  refine Yields.completes (((h bS 0x123456789ABCDEF0).1 hd 9 0 (admitsS ses ?_) ?_ ?_ ?_ ?_ ?_ ?_ ?_ ?_ ?_).2 ?_) <;> decide +kernel
theorem witness_SelfTest_bi2 (h : Obligations.SelfTest) :
    Completes (exec (Instr.bistRun hd 10 0 0x123456789ABCDEF0 true) bS) := by
  refine Yields.completes (((h bS 0x123456789ABCDEF0).1 hd 10 0 (admitsS ses ?_) ?_ ?_ ?_ ?_ ?_ ?_ ?_ ?_ ?_).1 true) <;> decide +kernel
theorem witness_SelfTest_bi2b (h : Obligations.SelfTest) :
    Completes (exec (Instr.bistRun hd 4 0 0x123456789ABCDEF0 true) bS) := by
  refine Yields.completes (((h bS 0x123456789ABCDEF0).1 hd 4 0 (admitsS ses ?_) ?_ ?_ ?_ ?_ ?_ ?_ ?_ ?_ ?_).1 true) <;> decide +kernel
def bT : State := st0 .returned { devS with west := { devS.west with stw := {} } }
theorem witness_SelfTest_bi2c (h : Obligations.SelfTest) :
    Completes (exec (Instr.bistRun hd 7 8 0x123456789ABCDEF0 false) bT) := by
  refine Yields.completes (((h bT 0x123456789ABCDEF0).1 hd 7 8 (admitsS ses ?_) ?_ ?_ ?_ ?_ ?_ ?_ ?_ ?_ ?_).1 false) <;> decide +kernel
theorem witness_SelfTest_bi2d (h : Obligations.SelfTest) :
    Completes (exec (Instr.bistRun hd 7 3 0x123456789ABCDEF0 true) bS) := by
  refine Yields.completes (((h bS 0x123456789ABCDEF0).1 hd 7 3 (admitsS ses ?_) ?_ ?_ ?_ ?_ ?_ ?_ ?_ ?_ ?_).1 true) <;> decide +kernel
theorem witness_SelfTest_bi3 (h : Obligations.SelfTest) :
    Completes (exec (Instr.bistSlice Side.e 1 151 none) sU) := by
  refine Yields.completes (((h sU 0x123456789ABCDEF0).2 .e 1 151 ?_ ?_).1 ?_ ?_ ?_ ?_ ?_ ?_ ?_ ?_ ?_ ?_ ?_) <;> decide +kernel
def sSl : State := { sU with dev := { sU.dev with safe := { sU.dev.safe with slices := [{ side := .e, kind := 2, unit := 255 }] } } }
theorem witness_SelfTest_bi4 (h : Obligations.SelfTest) :
    Completes (exec (Instr.bistSlice Side.e 2 255 (some { signature := 0x123456789ABCDEF0 })) sSl) := by
  refine Yields.completes (((h sSl 0x123456789ABCDEF0).2 .e 2 255 ?_ ?_).2 ?_ ?_ |>.1) <;> decide +kernel
theorem witness_SelfTest_bi5 (h : Obligations.SelfTest) :
    Completes (exec (Instr.bistSlice Side.e 2 255 (some { signature := 0x123456789ABCDEF0, agrees := false })) sSl) := by
  refine Yields.completes (((h sSl 0x123456789ABCDEF0).2 .e 2 255 ?_ ?_).2 ?_ ?_ |>.2 ?_ ?_ ?_) <;> decide +kernel
end Links

namespace Supply

def alS (p : PowerState) (sl : Bool) (c : Word) : State := st0 .deployed ({ dev0 with clk := { dev0.clk with power := p }, aon := { dev0.aon with sleeping := sl, count := 0x500000007 } }.setRg 0 .aonAlarmLo 0 7 |>.setRg 0 .aonAlarmHi 0 5 |>.setRg 0 .aonCfg 0 c)
def al1 : State := alS .run false 0x25A
def al2 : State := alS .off false 0x35A
def al3 : State := alS .sleep true 0x35A
theorem witness_AlwaysOnEvents_ae1 (h : Obligations.AlwaysOnEvents) :
    Completes (exec Instr.wakeN al1) := by
  refine Yields.completes ((h.1 al1 ?_ ?_).1) <;> decide +kernel
theorem witness_AlwaysOnEvents_ae2 (h : Obligations.AlwaysOnEvents) :
    Completes (exec Instr.alarm al2) := by
  refine Yields.completes ((h.1 al2 ?_ ?_).2.1 ?_ ?_) <;> decide +kernel
theorem witness_AlwaysOnEvents_ae3 (h : Obligations.AlwaysOnEvents) :
    Completes (exec Instr.lidOpen al1) := by
  refine Yields.completes ((h.1 al1 ?_ ?_).2.2 ?_) <;> decide +kernel
theorem witness_AlwaysOnEvents_pc1 (h : Obligations.AlwaysOnEvents) :
    Completes (exec Instr.vbakLow (alS .run false 0x35A)) := by
  refine Yields.completes (((h.2 (alS .run false 0x35A) ?_ ?_)).1) <;> decide +kernel
theorem witness_AlwaysOnEvents_pc2 (h : Obligations.AlwaysOnEvents) :
    Completes (exec Instr.lidOpen (alS .run false 0x35A)) := by
  refine Yields.completes ((h.2 (alS .run false 0x35A) ?_ ?_).2.2.1 ?_) <;> decide +kernel
theorem witness_WakeStarts_wk (h : Obligations.WakeStarts) :
    Completes (exec Instr.wakeN al3) := by
  refine Yields.completes (((h al3 ?_ ?_ ?_)).1) <;> decide +kernel
theorem witness_WakeStarts_wk2 (h : Obligations.WakeStarts) :
    Completes (exec Instr.alarm al3) := by
  refine Yields.completes ((h al3 ?_ ?_ ?_).2.1 ?_ ?_) <;> decide +kernel
theorem witness_WakeStarts_wk3 (h : Obligations.WakeStarts) :
    Completes (exec Instr.lidOpen al3) := by
  refine Yields.completes ((h al3 ?_ ?_ ?_).2.2.2.2 ?_) <;> decide +kernel
theorem witness_SupplyRows_su1 (h : Obligations.SupplyRows) :
    Completes (exec Instr.vinWarn (st0)) := by
  refine Yields.completes (((h.1 (st0)).1 ?_).1) <;> decide +kernel
theorem witness_SupplyRows_su2 (h : Obligations.SupplyRows) :
    Completes (exec (Instr.powerOn true [false] [(Side.e, blkFace)]) al2) := by
  refine Yields.completes ((h.1 al2).2.1 [false] [(.e, blkFace)] ?_ ?_) <;> decide +kernel
theorem witness_SupplyRows_su3 (h : Obligations.SupplyRows) :
    Completes (exec (Instr.moduleResetRelease [] []) (alS .reset false 0)) := by
  refine Yields.completes ((h.1 (alS .reset false 0)).2.2 [] [] ?_) <;> decide +kernel
theorem witness_CrystalRows_cr1 (h : Obligations.CrystalRows) :
    Completes (exec Instr.xo32Stop al2) := by
  refine Yields.completes (((h.1 al2 (.inl ?_))).2.1) <;> decide +kernel
def ck (c : ClkSt) : State := st0 .deployed { dev0 with clk := c }
theorem witness_CrystalRows_cl1 (h : Obligations.CrystalRows) :
    Completes (exec (Instr.qualWindow ClkIn.ref true) (ck { power := .run, ref := { good := 3 } })) := by
  refine Yields.completes ((h.2 (ck { power := .run, ref := { good := 3 } }) ?_).1 ?_ ?_) <;> decide +kernel
def ck2 : State := ck { power := .run, ref := { ok := true }, eth := { ok := true }, lock := 0x1F }
theorem witness_CrystalRows_cl2 (h : Obligations.CrystalRows) :
    Completes (exec (Instr.clockEdgeLoss ClkIn.eth) ck2) := by
  refine Yields.completes ((h.2 ck2 ?_).2.1 ?_) <;> decide +kernel
theorem witness_CrystalRows_cl3 (h : Obligations.CrystalRows) :
    Completes (exec (Instr.clockEdgeLoss ClkIn.ref) ck2) := by
  refine Yields.completes ((h.2 ck2 ?_).2.2.1 ?_) <;> decide +kernel
theorem witness_CrystalRows_cl4 (h : Obligations.CrystalRows) :
    Completes (exec (Instr.pllUnlock Pll.c) ck2) := by
  refine Yields.completes ((h.2 ck2 ?_).2.2.2.1 ?_) <;> decide +kernel
theorem witness_CrystalRows_cl5 (h : Obligations.CrystalRows) :
    Completes (exec (Instr.pllLock Pll.c) (ck { power := .run, ref := { ok := true }, backup := true })) := by
  refine Yields.completes ((h.2 (ck { power := .run, ref := { ok := true }, backup := true }) ?_).2.2.2.2.1 ?_ ?_ ?_) <;> decide +kernel
theorem witness_CrystalRows_cl6 (h : Obligations.CrystalRows) :
    Completes (exec Instr.phaseMoveComplete ck2) := by
  refine Yields.completes (((h.2 ck2 ?_).2.2.2.2.2).1) <;> decide +kernel
def sS (l : Life := .deployed) : State := st0 l { devS with clk := { devS.clk with vinMv := 5000 }, sec := { devS.sec with cert := some [1, 2, 3], idKey := some 9 } }
theorem witness_HoistQueries_hq1 (h : Obligations.HoistQueries) :
    Completes (exec (Instr.hello hd 1 100) (sS)) := by
  refine Yields.completes ((h (sS) hd).1 1 100 (admitsS ses ?_) ?_) <;> decide +kernel
theorem witness_HoistQueries_hq2 (h : Obligations.HoistQueries) :
    Completes (exec (Instr.attest hd 77) (sS)) := by
  refine Yields.completes ((h (sS) hd).2.1 77 (admitsS ses ?_) ?_) <;> decide +kernel
theorem witness_HoistQueries_hq3 (h : Obligations.HoistQueries) :
    Completes (exec (Instr.status hd) (sS)) := by
  refine Yields.completes ((h (sS) hd).2.2.1 (admitsS ses ?_)) <;> decide +kernel
theorem witness_HoistQueries_hq4 (h : Obligations.HoistQueries) :
    Completes (exec (Instr.calTableGet hd Side.e.code 250 6) (sS)) := by
  refine Yields.completes ((h (sS) hd).2.2.2.1 .e 250 6 (admitsS ses ?_) ?_ ?_ ?_ ?_) <;> decide +kernel
def md : State := st0 .deployed { devS with east := { devS.east with modes := 0xA5 }, west := { devS.west with modes := 0x0F } }
theorem witness_HoistQueries_hq6 (h : Obligations.HoistQueries) :
    Completes (exec (Instr.eventPoll hd 0 9) md) := by
  refine Yields.completes ((h md hd).2.2.2.2.2.1 0 9 (admitsS ses ?_)) <;> decide +kernel
theorem witness_HoistQueries_hq7 (h : Obligations.HoistQueries) :
    Completes (exec (Instr.logRead hd 0 9) md) := by
  refine Yields.completes ((h md hd).2.2.2.2.2.2 0 9 (admitsS ses ?_)) <;> decide +kernel
theorem witness_Sessions_se1 (h : Obligations.Sessions) :
    Completes (exec (Instr.sessionOpen hd0 9000 0 0 [] []) (sS .manufacture)) := by
  refine Yields.completes ((h (sS .manufacture) hd0).1 9000 0 0 [] [] (admits0 ?_) ?_ ?_ ?_ ?_ ?_) <;> decide +kernel
theorem witness_Sessions_se2 (h : Obligations.Sessions) :
    Completes (exec (Instr.sessionClose hd) (sS)) := by
  refine Yields.completes ((h (sS) hd).2.1 (admitsS ses ?_)) <;> decide +kernel
theorem witness_Sessions_se3 (h : Obligations.Sessions) :
    Completes (exec (Instr.sessionIdleTimeout 5) (sS)) := by
  refine Yields.completes (((h (sS) hd).2.2 ?_ ?_).1 5 ses ?_) <;> decide +kernel
theorem witness_Sessions_se4 (h : Obligations.Sessions) :
    Completes (exec (Instr.replayReq 5 9) (sS)) := by
  refine Yields.completes (((h (sS) hd).2.2 ?_ ?_).2.1 5 ses 9 ?_ ?_ ?_ ?_ ?_) <;> decide +kernel
theorem witness_Sessions_se5 (h : Obligations.Sessions) :
    Completes (exec (Instr.sourceIgnoreEnd 4) (sS)) := by
  refine Yields.completes (((h (sS) hd).2.2 ?_ ?_).2.2 4) <;> decide +kernel
def et : State := st0 .deployed ({ dev0 with clk := { dev0.clk with eth := { ok := true } } }.setRg 0 .hstIpv4 0 0x0A000001)
theorem witness_EthernetRows_et1 (h : Obligations.EthernetRows) :
    Completes (exec Instr.nonHoistFrame et) := by
  refine Yields.completes ((h et ?_ ?_).1) <;> decide +kernel
theorem witness_EthernetRows_et2 (h : Obligations.EthernetRows) :
    Completes (exec Instr.badFrame et) := by
  refine Yields.completes ((h et ?_ ?_).2.1 ?_) <;> decide +kernel
theorem witness_EthernetRows_et3 (h : Obligations.EthernetRows) :
    Completes (exec (Instr.arpRequest (et.dev.rg 0 Rg.hstIpv4)) et) := by
  refine Yields.completes ((h et ?_ ?_).2.2.1 ?_ ?_) <;> decide +kernel
theorem witness_EthernetRows_et4 (h : Obligations.EthernetRows) :
    Completes (exec (Instr.neighbourSolicitation (linkLocal et.fuse.mac)) et) := by
  refine Yields.completes ((h et ?_ ?_).2.2.2.1 ?_) <;> decide +kernel
theorem witness_EthernetRows_et5 (h : Obligations.EthernetRows) :
    Completes (exec Instr.ethernetLinkUp et) := by
  refine Yields.completes ((h et ?_ ?_).2.2.2.2.1 ?_) <;> decide +kernel
theorem witness_EthernetRows_et6 (h : Obligations.EthernetRows) :
    Completes (exec Instr.ethernetLinkDown et) := by
  refine Yields.completes ((h et ?_ ?_).2.2.2.2.2 ?_ ?_) <;> decide +kernel
end Supply

namespace Front

def sS (l : Life := .deployed) : State := st0 l { devS with clk := { devS.clk with vinMv := 5000 }, sec := { devS.sec with cert := some [1, 2, 3], idKey := some 9 } }
def rx (a : Nat) : RegDesc := match placeOf a with | .reg _ x _ => x | _ => ⟨.identPart, 0, 0, 0, 0, 0, []⟩
def rd (a : Nat) : Nat := match placeOf a with | .reg d _ _ => d | _ => 0
def ri (a : Nat) : Nat := match placeOf a with | .reg _ _ i => i | _ => 0
def A : Nat := 0x10000000000 + 4196352 + 3 * 4096
theorem witness_Reads_rd1 (h : Obligations.Reads) :
    Completes (exec (Instr.readReg hd A 1) (sS)) := by
  refine Yields.completes (((h (sS) hd).1 A (rd A) (rx A) (ri A) ?_ ?_ ?_).1 (admitsS ses ?_) ?_) <;> decide +kernel
theorem witness_Reads_rd2 (h : Obligations.Reads) :
    Completes (exec (Instr.readBlock hd 0 0 A 4) (sS)) := by
  refine Yields.completes (((h (sS) hd).1 A (rd A) (rx A) (ri A) ?_ ?_ ?_).2.1 (admitsS ses ?_) ?_ ?_) <;> decide +kernel
def B : Nat := 0x300000
/-- The CRC of a Trapdoor request. -/
def crcB (req : List Byte) : Byte := BitVec.ofNat 8 (crc8 req)
theorem witness_Reads_rd3 (h : Obligations.Reads) :
    Completes (exec (Instr.peek B (crcB (0x10 :: beBytes 6 B))) (sS .returned)) := by
  refine Yields.completes (((h (sS .returned) hd).1 B (rd B) (rx B) (ri B) ?_ ?_ ?_).2.2 ?_ ?_ ?_ ?_ (crcB (0x10 :: beBytes 6 B)) ?_) <;> decide +kernel
def f7 : FileRec := { id := 7, slot := 3, length := 4096, received := 4096, data := [(65, 9)], wc := [(0, 1)] }
def celR (d : Half) : Half := { d with cel := { d.cel with chans := [3, 3, 3, 3], rate := 3, chGib := 16 } }
def devR : Dev := { devS with clk := { devS.clk with vinMv := 5000 }, west := { celR devS.west with files := [f7] }, east := celR devS.east, sec := { devS.sec with slots := [(0, { kind := .root, key := 1 }), (3, { kind := .file, owner := 2, length := 4096, used := true }), (4, { kind := .file, owner := 2, length := 8192 })] } }
def sR : State := st0 .deployed devR
theorem witness_Reads_rd4 (h : Obligations.Reads) :
    Completes (exec (Instr.readBlock hd 7 0 64 128) sR) := by
  refine Yields.completes ((h sR hd).2 7 64 128 f7 ?_ (admitsS ses ?_) rfl ?_ ?_ ?_ ?_ ?_ ?_ ?_ ?_) <;> decide +kernel
theorem witness_PlainWrites_pw1 (h : Obligations.PlainWrites) :
    Completes (exec (Instr.registerWrite Writer.host A 305419896) (sS)) := by
  refine Yields.completes (((h (sS) hd A (rd A) (rx A) (ri A) 0x12345678 ?_ ?_ ?_ ?_ ?_).1 .host ?_ ?_)) <;> decide +kernel
theorem witness_PlainWrites_pw2 (h : Obligations.PlainWrites) :
    Completes (exec (Instr.writeReg hd A [305419896]) (sS)) := by
  refine Yields.completes (((h (sS) hd A (rd A) (rx A) (ri A) 0x12345678 ?_ ?_ ?_ ?_ ?_).2.1 (admitsS ses ?_))) <;> decide +kernel
theorem witness_PlainWrites_pw3 (h : Obligations.PlainWrites) :
    Completes (exec (Instr.writeBlock hd A (leBytes 4 (BitVec.toNat (w := 32) 305419896))) (sS)) := by
  refine Yields.completes (((h (sS) hd A (rd A) (rx A) (ri A) 0x12345678 ?_ ?_ ?_ ?_ ?_).2.2.1 (admitsS ses ?_) ?_)) <;> decide +kernel
theorem witness_PlainWrites_pw4 (h : Obligations.PlainWrites) :
    Completes (exec (Instr.poke A 0x12345678 (crcB (0x11 :: beBytes 6 A ++ beBytes 4 0x12345678))) (sS .manufacture)) := by
  refine Yields.completes ((h (sS .manufacture) hd A (rd A) (rx A) (ri A) 0x12345678 ?_ ?_ ?_ ?_ ?_).2.2.2 ?_ ?_ ?_ ?_ ?_ (crcB (0x11 :: beBytes 6 A ++ beBytes 4 0x12345678)) ?_) <;> decide +kernel
theorem witness_Files_fi1 (h : Obligations.Files) :
    Completes (exec (Instr.fileOpen hd Side.e.code 4 8192) sR) := by
  refine Yields.completes ((h.1 sR hd .e).1 4 8192 (admitsS ses ?_) ?_ ?_ ?_ ?_ ?_ ?_) <;> decide +kernel
def fo : FileRec := { id := 7, slot := 3, length := 4096, received := 64, isOpen := true, data := [(3, 9)], wc := [(0, 1)] }
def sO (f : FileRec) : State := st0 .deployed { devR with west := { devR.west with files := [f, { f with id := 8 }] } }
theorem witness_Files_fi2 (h : Obligations.Files) :
    Completes (exec (Instr.fileWrite hd 7 fo.received (List.replicate 64 5)) (sO fo)) := by
  refine Yields.completes (((h.1 (sO fo) hd .w).2 7 fo ?_ rfl).1 (List.replicate 64 5) (admitsS ses ?_) ?_ ?_ ?_ ?_ ?_ ?_ ?_ ?_ ?_ ?_ ?_) <;> decide +kernel
def fc : FileRec := { fo with received := 4096 }
theorem witness_Files_fi3 (h : Obligations.Files) :
    Completes (exec (Instr.fileClose hd 7) (sO fc)) := by
  refine Yields.completes (((h.1 (sO fc) hd .w).2 7 fc ?_ rfl).2.1 (admitsS ses ?_) ?_ ?_ ?_) <;> decide +kernel
theorem witness_Files_fi4 (h : Obligations.Files) :
    Completes (exec (Instr.fileDrop hd 7) (sO fc)) := by
  refine Yields.completes (((h.1 (sO fc) hd .w).2 7 fc ?_ rfl).2.2 (admitsS ses ?_) ?_) <;> decide +kernel
/-- A blob of a FILE key for slot 7, of owner 2, for a file of 4096 bytes. -/
def blb : List Byte := [0, 0, 0, 1, 3, 0, 0, 7, 0, 2] ++ List.replicate 6 0 ++ beBytes 8 4096 ++ List.replicate 408 0
def kS (l : Life := .deployed) : State := st0 l { devS with sec := { devS.sec with idKey := some 8, slots := [(0, { kind := .root, key := 1 }), (2, { kind := .owner }), (3, { kind := .file, owner := 2, length := 4096 }), (4, { kind := .file, owner := 9, length := 8192 })] } }
theorem witness_Files_ks1 (h : Obligations.Files) :
    Completes (exec (Instr.keyInstall hd 0 (KeyBody.root 5 [1])) kS) := by
  refine Yields.completes ((h.2 kS hd 0 ?_ ?_ (admitsS ses ?_)).1 5 [1] ?_ ?_) <;> decide +kernel
theorem witness_Files_ks2 (h : Obligations.Files) :
    Completes (exec (Instr.keyInstall hd 1023 (KeyBody.owner 5)) kS) := by
  refine Yields.completes ((h.2 kS hd 1023 ?_ ?_ (admitsS ses ?_)).2.1 5 ?_ ?_ ?_) <;> decide +kernel
theorem witness_Files_ks3 (h : Obligations.Files) :
    Completes (exec (Instr.keyInstall hd 7 (KeyBody.blob blb)) kS) := by
  refine Yields.completes ((h.2 kS hd 7 ?_ ?_ (admitsS ses ?_)).2.2.1 blb .file ?_ ?_ ?_) <;> decide +kernel
theorem witness_Files_ks4 (h : Obligations.Files) :
    Completes (exec (Instr.keyInstall hd 0 (KeyBody.cert [1, 2])) (kS .manufacture)) := by
  refine Yields.completes ((h.2 (kS .manufacture) hd 0 ?_ ?_ (admitsS ses ?_)).2.2.2.1 [1, 2] ?_ ?_ ?_ ?_ ?_) <;> decide +kernel
theorem witness_Files_ks5 (h : Obligations.Files) :
    Completes (exec (Instr.keyRetire hd 2) kS) := by
  refine Yields.completes ((h.2 kS hd 2 ?_ ?_ (admitsS ses ?_)).2.2.2.2 (admitsS ses ?_) ?_ ?_ ?_ ?_ ?_) <;> decide +kernel
theorem witness_LifeCycleSteps_lc1 (h : Obligations.LifeCycleSteps) :
    Completes (exec (Instr.lifecycleAdvance hd0 Life.manufacture.code 7 []) (st0 .blank)) := by
  refine completes_of_ex ((h (st0 .blank) hd0 7 [] ?_ ?_).1 ?_ ?_ ?_ (takes0 ?_) ?_ ?_ ?_ ?_ (fwOpen ?_)) <;> decide +kernel
theorem witness_LifeCycleSteps_lc2 (h : Obligations.LifeCycleSteps) :
    Completes (exec (Instr.lifecycleAdvance hd Life.deployed.code 7 [4]) (sS .manufacture)) := by
  have k := ((h (sS .manufacture) hd 7 [4] (by decide) (by decide)).2 (admitsS ses (by decide +kernel))
      (by decide +kernel)).1 rfl
  split at k
  · exact completes_of_ex k
  · exact Yields.completes k
theorem witness_LifeCycleSteps_lc3 (h : Obligations.LifeCycleSteps) :
    Completes (exec (Instr.lifecycleAdvance hd Life.returned.code 7 [4]) (sS .deployed)) := by
  have k := ((h (sS .deployed) hd 7 [4] (by decide) (by decide)).2 (admitsS ses (by decide +kernel))
      (by decide +kernel)).2.1 rfl
  split at k
  · exact completes_of_ex k
  · exact Yields.completes k
theorem witness_LifeCycleSteps_lc4 (h : Obligations.LifeCycleSteps) :
    Completes (exec (Instr.lifecycleAdvance hd Life.retired.code 7 [4]) (sS .returned)) := by
  have k := ((h (sS .returned) hd 7 [4] (by decide) (by decide)).2 (admitsS ses (by decide +kernel))
      (by decide +kernel)).2.2 rfl
  split at k
  · exact completes_of_ex k
  · exact Yields.completes k
theorem witness_BurstCommands_bc1 (h : Obligations.BurstCommands) :
    Completes (exec (Instr.planLoad hd Side.w.code 7) sR) := by
  refine Yields.completes ((h sR hd).1 .w 7 f7 (admitsS ses ?_) ?_ ?_ ?_ ?_ ?_ ?_ ?_) <;> decide +kernel
def ld (s : FaceState) (f : Half) : Half := { f with face := { f.face with state := s, plan := some { fileId := 7, hash := 0, cls := false } }, attic := [(6, 7)], cal := { f.cal with loaded := true } }
def both (s : FaceState) : State := st0 .deployed { devR with west := ld s devR.west, east := ld s devR.east }
theorem witness_BurstCommands_bc2 (h : Obligations.BurstCommands) :
    Completes (exec (Instr.arm hd 3) (both .loaded)) := by
  refine Yields.completes ((h (both .loaded) hd).2.1 3 ?_ ?_ (admitsS ses ?_) ?_ ?_ ?_ ?_) <;> decide +kernel
theorem witness_BurstCommands_bc3 (h : Obligations.BurstCommands) :
    Completes (exec (Instr.fire hd 3) (both .armed)) := by
  refine Yields.completes ((h (both .armed) hd).2.2.1 3 ?_ ?_ (admitsS ses ?_) ?_ ?_ (fun side => by cases side <;> decide +kernel)) <;> decide +kernel
theorem witness_BurstCommands_bc4 (h : Obligations.BurstCommands) :
    Completes (exec (Instr.abort hd 3) (both .running)) := by
  refine Yields.completes ((h (both .running) hd).2.2.2 3 ?_ ?_ (admitsS ses ?_) ?_ (fun side => by cases side <;> decide +kernel) (fun side => by cases side <;> decide +kernel)) <;> decide +kernel
theorem witness_BurstCommands_bc5 (h : Obligations.BurstCommands) :
    Completes (exec (Instr.abort hd 3) (both .done)) := by
  refine Yields.completes ((h (both .done) hd).2.2.2 3 ?_ ?_ (admitsS ses ?_) ?_ (fun side => by cases side <;> decide +kernel) (fun side => by cases side <;> decide +kernel)) <;> decide +kernel
def rec1 : Record := { burst := 4, bytes := List.replicate 256 3 }
def rS : State := st0 .deployed { devR with east := { devR.east with face := { devR.east.face with fires := 5, records := [{ burst := 3, bytes := [] }, rec1] } } }
theorem witness_Results_re1 (h : Obligations.Results) :
    Completes (exec (Instr.resultGet hd Side.e.code rec1.burst) rS) := by
  refine Yields.completes ((h rS hd .e rec1 ?_ ?_ ?_ ?_).1 (admitsS ses ?_)) <;> decide +kernel
theorem witness_Results_re2 (h : Obligations.Results) :
    Completes (exec (Instr.resultRelease hd Side.e.code rec1.burst) rS) := by
  refine Yields.completes ((h rS hd .e rec1 ?_ ?_ ?_ ?_).2 (admitsS ses ?_)) <;> decide +kernel
theorem witness_ModeAndTables_ml1 (h : Obligations.ModeAndTables) :
    Completes (exec (Instr.modeSet hd 7 3 1) sR) := by
  refine Yields.completes ((h sR hd).1 7 3 1 ?_ ?_ ?_ ?_ ?_ (admitsS ses ?_) ?_ ?_) <;> decide +kernel
theorem witness_ModeAndTables_ml2 (h : Obligations.ModeAndTables) :
    Completes (exec (Instr.modeSet hd 8 3 1) sR) := by
  refine Yields.completes (((h sR hd).2.1 3 1 ?_).1 (admitsS ses ?_) ?_) <;> decide +kernel
theorem witness_ModeAndTables_ml3 (h : Obligations.ModeAndTables) :
    Completes (exec (Instr.modeSet hd 9 3 1) sR) := by
  refine Yields.completes (((h sR hd).2.1 3 1 ?_).2.1 (admitsS ses ?_) ?_ ?_) <;> decide +kernel
theorem witness_ModeAndTables_ml4 (h : Obligations.ModeAndTables) :
    Completes (exec (Instr.modeSet hd 1 2 1) sR) := by
  refine Yields.completes (((h sR hd).2.1 2 1 ?_).2.2 ?_ ?_ (admitsS ses ?_) ?_ (fun side => by cases side <;> decide +kernel) ?_) <;> decide +kernel
theorem witness_ModeAndTables_ml5 (h : Obligations.ModeAndTables) :
    Completes (exec (Instr.calRun hd 3) sR) := by
  refine Yields.completes ((h sR hd).2.2.1 3 ?_ ?_ (admitsS ses ?_) ?_) <;> decide +kernel
def img : List Byte := [1, 0, 0, 0, 1, 0, 5, 0, 2, 0, 2, 0, 0, 0, 0, 0] ++ List.replicate 512 0
theorem witness_ModeAndTables_ml6 (h : Obligations.ModeAndTables) :
    Completes (exec (Instr.calTableSet hd img) sR) := by
  refine Yields.completes ((h sR hd).2.2.2.1 img (admitsS ses ?_) ?_ ?_ ?_ ?_ ?_ ?_ ?_) <;> decide +kernel
def cj : State := st0 .deployed { devR with east := { devR.east with cal := { devR.east.cal with changed := true, blocks := [(3, { tref := 5 }), (200, { tref := 6 })] } } }
theorem witness_ModeAndTables_ml7 (h : Obligations.ModeAndTables) :
    Completes (exec (Instr.calTableJournal Side.e) cj) := by
  refine Yields.completes ((h cj hd).2.2.2.2 .e ?_ ?_ ?_ ?_ ?_) <;> decide +kernel
def wc : Tbl Nat := (0, 640) :: (List.range 120).map fun b => (0x100 + b, 8)
def gv : State := st0 .deployed { dev0 with cfg := { dev0.cfg with state := 5, wcfg := wc } }
theorem witness_SupplyRows_gov (h : Obligations.SupplyRows) :
    Completes (exec (Instr.governorEval 3991 1000) gv) := by
  refine Yields.completes (h.2 gv 3991 1000 63 ?_ ?_ ?_ ?_ ?_ ?_ ?_ (fun j a b => (by decide +kernel : ∀ j < 65, 63 < j → min 26000000 (2700 * 3991) < gv.dev.demandAt none (gv.dev.freqAt none j)) j (by omega) a)) <;> decide +kernel
end Front

namespace Plan

theorem witness_PlanSteps_run (h : Obligations.PlanSteps) :
    Completes (exec (Instr.run Side.e) (runS (stepAt 1 0 0 5 0x10002))) := by
  refine Yields.completes ((h (runS (stepAt 1 0 0 5 0x10002)) .e ?_ ?_).1 ?_) <;> decide +kernel
theorem witness_PlanSteps_drun (h : Obligations.PlanSteps) :
    Completes (exec (Instr.drun Side.e) (runS (stepAt 2 0 0 5 9))) := by
  refine Yields.completes ((h (runS (stepAt 2 0 0 5 9)) .e ?_ ?_).2.1 ?_) <;> decide +kernel
theorem witness_PlanSteps_lp (h : Obligations.PlanSteps) :
    Completes (exec (Instr.loop Side.e) (runS (stepAt 3 0 0 5 9))) := by
  refine Yields.completes ((h (runS (stepAt 3 0 0 5 9)) .e ?_ ?_).2.2.1 ?_) <;> decide +kernel
theorem witness_PlanSteps_pau (h : Obligations.PlanSteps) :
    Completes (exec (Instr.pause Side.e) (runS (stepAt 7 0 0 5 9))) := by
  refine Yields.completes ((h (runS (stepAt 7 0 0 5 9)) .e ?_ ?_).2.2.2.1 ?_) <;> decide +kernel
theorem witness_PlanSteps_dst (h : Obligations.PlanSteps) :
    Completes (exec (Instr.dstart Side.e) (runS (stepAt 8 0 1 5 9))) := by
  refine Yields.completes ((h (runS (stepAt 8 0 1 5 9)) .e ?_ ?_).2.2.2.2.1 ?_) <;> decide +kernel
theorem witness_PlanSteps_dstp (h : Obligations.PlanSteps) :
    Completes (exec (Instr.dstop Side.e) (runS (stepAt 9 0 1 5 9) id { dev0.east with drl1 := { st := 2 } })) := by
  refine Yields.completes ((h (runS (stepAt 9 0 1 5 9) id { dev0.east with drl1 := { st := 2 } }) .e ?_ ?_).2.2.2.2.2.1 ?_) <;> decide +kernel
theorem witness_PlanSteps_sma (h : Obligations.PlanSteps) :
    Completes (exec (Instr.smask Side.e) (runS (stepAt 12 0 1 5 9))) := by
  refine Yields.completes ((h (runS (stepAt 12 0 1 5 9)) .e ?_ ?_).2.2.2.2.2.2.1 ?_) <;> decide +kernel
theorem witness_PlanSteps_src (h : Obligations.PlanSteps) :
    Completes (exec (Instr.src Side.e) (runS (stepAt 13 0 1 5 9))) := by
  refine Yields.completes ((h (runS (stepAt 13 0 1 5 9)) .e ?_ ?_).2.2.2.2.2.2.2.1 ?_) <;> decide +kernel
theorem witness_PlanSteps_en (h : Obligations.PlanSteps) :
    Completes (exec (Instr.endStep Side.e) (runS (stepAt 15 0 1 5 9))) := by
  refine Yields.completes ((h (runS (stepAt 15 0 1 5 9)) .e ?_ ?_).2.2.2.2.2.2.2.2 ?_ ?_) <;> decide +kernel
def fk (v : Nat) : State := runS (stepAt 5 0 0 0 3 ++ [(0x336, 2, 6)]) fun f => { f with samples := [(3, v)] }
theorem witness_Branches_fk1 (h : Obligations.Branches) :
    Completes (exec (Instr.fork Side.e) (fk 1)) := by
  refine Yields.completes ((h.1 (fk 1) .e ?_ ?_).1 true ?_ ?_) <;> decide +kernel
theorem witness_Branches_fk0 (h : Obligations.Branches) :
    Completes (exec (Instr.fork Side.e) (fk 0)) := by
  refine Yields.completes ((h.1 (fk 0) .e ?_ ?_).1 false ?_ ?_) <;> decide +kernel
def ln (n : Nat) : State := runS (stepAt 4 0 0 0 3) fun f => { f with cur := { f.cur with loops := [(1, n), (0, 4)] } }
theorem witness_Branches_le0 (h : Obligations.Branches) :
    Completes (exec (Instr.lend Side.e) (ln 0)) := by
  refine Yields.completes ((h.1 (ln 0) .e ?_ ?_).2 1 0 [(0, 4)] ?_ ?_ ?_) <;> decide +kernel
theorem witness_Branches_le4 (h : Obligations.Branches) :
    Completes (exec (Instr.lend Side.e) (ln 4)) := by
  refine Yields.completes ((h.1 (ln 4) .e ?_ ?_).2 1 4 [(0, 4)] ?_ ?_ ?_) <;> decide +kernel
theorem witness_Branches_sl (h : Obligations.Branches) :
    Completes (exec (Instr.sload Side.e) (runS (stepAt 10 0 4 0 3))) := by
  refine Yields.completes ((h.2 (runS (stepAt 10 0 4 0 3)) .e ?_ ?_).1 ?_ ?_ ?_) <;> decide +kernel
theorem witness_Branches_sw (h : Obligations.Branches) :
    Completes (exec (Instr.sswap Side.e) (runS (stepAt 11 0 4 0 3) id { dev0.east with shelf := { st1 := .valid } })) := by
  refine Yields.completes ((h.2 (runS (stepAt 11 0 4 0 3) id { dev0.east with shelf := { st1 := .valid } }) .e ?_ ?_).2.1 ?_ ?_ ?_) <;> decide +kernel
theorem witness_Branches_sw2 (h : Obligations.Branches) :
    Completes (exec (Instr.sswap Side.e) (runS (stepAt 11 0 4 0 3))) := by
  refine Yields.completes ((h.2 (runS (stepAt 11 0 4 0 3)) .e ?_ ?_).2.2.1 ?_ ?_ ?_ ?_ ?_ ?_) <;> decide +kernel
/-- a staged image of group 7 with all period words legal: at 0x1000 -/
def shImg : List (Nat × Nat × Nat) := [(0x700, 2, 0), (0x704, 4, 80 + 196608), (0x710, 4, 0x1000 - 0), (0x1000, 4, 1), (0x1004, 4, 0x80)] ++ (List.range 16).map fun t => (0x1010 + 4 * t, 4, 40000)
def shS : State := runS shImg id { dev0.east with shelf := { st1 := .loading, load := some { slot := 1, ref := 0, cycle := 3105 } } }
theorem witness_Branches_slc (h : Obligations.Branches) :
    Completes (exec (Instr.shelfLoadComplete Side.e) shS) := by
  refine Yields.completes ((h.2 shS .e ?_ ?_).2.2.2.1 { slot := 1, ref := 0, cycle := 3105 } ?_ ?_ ?_ ?_ ?_ ?_) <;> decide +kernel
theorem witness_Branches_slf (h : Obligations.Branches) :
    Completes (exec (Instr.loadCheck Side.e 4 0 3 0 0) shS) := by
  refine Yields.completes ((h.2 shS .e ?_ ?_).2.2.2.2 { slot := 1, ref := 0, cycle := 3105 } 4 0 3 0 0 ?_ ?_ ?_) <;> decide +kernel
def pfS (f : FaceSt → FaceSt) : State := runS [(0x420, 2, 2), (0x438, 4, 640)] f
theorem witness_PrefetchRows_pf1 (h : Obligations.PrefetchRows) :
    Completes (exec (Instr.prefetchTrigger Side.e 1) (pfS fun f => { f with starts := [(2, 3)] })) := by
  refine Yields.completes ((h (pfS fun f => { f with starts := [(2, 3)] }) .e 1 ?_ ?_ ?_).1 ?_ ?_) <;> decide +kernel
theorem witness_PrefetchRows_pf2 (h : Obligations.PrefetchRows) :
    Completes (exec (Instr.chuteEntryStart Side.e) (pfS fun f => { f with chuteQ := [(1, 4), (2, 1)] })) := by
  refine Yields.completes ((h (pfS fun f => { f with chuteQ := [(1, 4), (2, 1)] }) .e 1 ?_ ?_ ?_).2.1 4 [(2, 1)] ?_ ?_) <;> decide +kernel
def pfC : State := pfS fun f => { f with chuteQ := [(1, 4), (2, 1)], chuteOn := true, trigs := [(1, 4)], undone := [(1, 4)] }
theorem witness_PrefetchRows_pf3 (h : Obligations.PrefetchRows) :
    Completes (exec (Instr.chuteEntryComplete Side.e false) pfC) := by
  refine Yields.completes (((h pfC .e 1 ?_ ?_ ?_).2.2.1 4 [(2, 1)] ?_ ?_ ?_ ?_).1) <;> decide +kernel
theorem witness_PrefetchRows_pf3b (h : Obligations.PrefetchRows) :
    Completes (exec (Instr.chuteEntryComplete Side.e true) pfC) := by
  refine Yields.completes (((h pfC .e 1 ?_ ?_ ?_).2.2.1 4 [(2, 1)] ?_ ?_ ?_ ?_).2) <;> decide +kernel
theorem witness_PrefetchRows_pf4 (h : Obligations.PrefetchRows) :
    Completes (exec (Instr.chuteLate Side.e 1) pfC) := by
  refine Yields.completes ((h pfC .e 1 ?_ ?_ ?_).2.2.2 ?_ ?_ ?_ ?_) <;> decide +kernel
def vS : State := runS (stepAt 2 0 0 0x35 9 ++ [(0x230, 1, 15)]) (fun f => { f with ahead := { pc := 2, busy := true, left := 9 }, cur := { f.cur with busy := true, left := 9 }, burst := { f.burst with issues := 4, tvs := 100000 } }) { dev0.east with shelf := { period := [(5, 40000)], st0 := .valid } }
def vE : Half := vS.dev.half .e
def vH : Half := { vE with face := { vE.face with
  burst := { vE.face.burst with cycle := max vE.face.burst.cycle (vE.face.burst.tvs / 10000) } } }
theorem vok : ∃ x, vH.readAhead false (atticClass []) = .ok x none := readAhead_ok (by decide +kernel)
theorem witness_VectorIssue_vi (h : Obligations.VectorIssue) : Completes (exec (.vectorIssue .e []) vS) := by
  obtain ⟨x, hx⟩ := vok
  refine Yields.completes (h vS .e [] x ?_ ?_ ?_ ?_ ?_ ?_ ?_ ?_ ?_ hx) <;> decide +kernel
def iss : Issue := { idx := 5, tvs := 800000, period := 40000, header := 0, step := 2, page := 0, epoch := 0, sites := BitVec.allOnes 64, symbols := 0x30 }
def ceS (w : Nat) (c : Chan := {}) : State := let s := runS [] (fun f => { f with issues := [iss] }) { dev0.east with shelf := { ram := [(slotWord 1 0 0 3 2, BitVec.ofNat 32 w)] } , tch := { dev0.east.tch with chans := tset {} [] 1 c } }
  { s with dev := s.dev.setRg 1 .tchCfg 1 1 }
theorem witness_ChannelEvents_de (h : Obligations.ChannelEvents) :
    Completes (exec (Instr.driveEvent Side.e 1 5 2) (ceS 0x10001000)) := by
  refine Yields.completes ((h.1 (ceS 0x10001000) .e 1 5 2 iss ?_ ?_ ?_ ?_ ?_).1 ?_ ?_ ?_ ?_ ?_ ?_ ?_) <;> decide +kernel
theorem witness_ChannelEvents_es (h : Obligations.ChannelEvents) :
    Completes (exec (Instr.edgeStrobe Side.e 1 5 2 true false) (ceS 0x50001000)) := by
  refine Yields.completes (((h.1 (ceS 0x50001000) .e 1 5 2 iss ?_ ?_ ?_ ?_ ?_).2 ?_ ?_ ?_).1 ?_ ?_ ?_ true false ?_) <;> decide +kernel
theorem witness_ChannelEvents_wo (h : Obligations.ChannelEvents) :
    Completes (exec (Instr.windowOpen Side.e 1 5 2) (ceS 0xC0001000)) := by
  refine Yields.completes (((h.1 (ceS 0xC0001000) .e 1 5 2 iss ?_ ?_ ?_ ?_ ?_).2 ?_ ?_ ?_).2 ?_
      |>.1 ?_ ?_ ?_) <;> decide +kernel
theorem witness_ChannelEvents_wc (h : Obligations.ChannelEvents) :
    Completes (exec (Instr.windowClose Side.e 1 5 2 (some .z) false) (ceS 0x90001000 { win := some { expect := .h } })) := by
  refine Yields.completes (((h.1 (ceS 0x90001000 { win := some { expect := .h } }) .e 1 5 2 iss ?_ ?_ ?_ ?_ ?_).2 ?_ ?_ ?_).2 ?_ |>.2 { expect := .h } (some .z) ?_ ?_ ?_) <;> decide +kernel
theorem witness_ChannelEvents_wc2 (h : Obligations.ChannelEvents) :
    Completes (exec (Instr.windowClose Side.e 1 5 2 none false) (ceS 0x90001000 { win := some { expect := .h } })) := by
  refine Yields.completes (((h.1 (ceS 0x90001000 { win := some { expect := .h } }) .e 1 5 2 iss ?_ ?_ ?_ ?_ ?_).2 ?_ ?_ ?_).2 ?_ |>.2 { expect := .h } none ?_ ?_ ?_) <;> decide +kernel
def cpS : State := runS [] fun f => { f with issues := [{ iss with results := [{ ch := 33, slot := 0, instant := 5, sampled := .h, expect := some .h }] }] }
def cpT : State := { cpS with dev := cpS.dev.setRg 1 .tchCfg 33 0x00050001 }
theorem witness_ChannelEvents_cp (h : Obligations.ChannelEvents) :
    Completes (exec (Instr.compareResult Side.e 1 5 []) cpT) := by
  refine Yields.completes ((h.2 cpT .e 1 5 { iss with results := [{ ch := 33, slot := 0, instant := 5, sampled := .h, expect := some .h }] } [] ?_ ?_ ?_ ?_ ?_ ?_ ?_).1 ?_) <;> decide +kernel
theorem witness_ChannelEvents_cp2 (h : Obligations.ChannelEvents) :
    Completes (exec (Instr.compareResult Side.e 1 5 []) cpT) := by
  refine Yields.completes ((h.2 cpT .e 1 5 { iss with results := [{ ch := 33, slot := 0, instant := 5, sampled := .h, expect := some .h }] } [] ?_ ?_ ?_ ?_ ?_ ?_ ?_).2 ?_ ?_ ?_ ?_ ?_) <;> decide +kernel
end Plan

namespace Burst

def drS (f : Half → Half) : State := let h := runH [] (fun f => { f with state := .draining }) { dev0.east with drl0 := { st := 2 }, qry := { dev0.east.qry with state := .flushing } }
  st0 .deployed { dev0 with east := f h, hst := { dev0.hst with devState := 6, faceE := .draining } }
theorem witness_FlushEnds_fl1 (h : Obligations.FlushEnds) :
    Completes (exec (Instr.quarryFlushComplete Side.e) (drS id)) := by
  refine Yields.completes ((h.1 (drS id) .e ?_ ?_ ?_ ?_ ?_ ?_ ?_ ?_ ?_ ?_).1 ?_ ?_ ?_) <;> decide +kernel
def drT : State := drS fun h => { h with qry := { h.qry with queue := [{ issue := 3, step := 1, group := 2 }], updates := [{ site := 1, bit := 5 }] } }
theorem witness_FlushEnds_fl2 (h : Obligations.FlushEnds) :
    Completes (exec (Instr.flushTimeout Side.e) drT) := by
  refine Yields.completes ((h.1 drT .e ?_ ?_ ?_ ?_ ?_ ?_ ?_ ?_ ?_ ?_).2 ?_ ?_ ?_ ?_ ?_) <;> decide +kernel
def lg : FileRec := { id := 0x80000005, slot := 0, length := 4096, spoil := 1, live := true }
def rqS (n : Nat) (o : Bool) : State := drS fun h => { h with files := [lg, { lg with id := 0x80000006, spoil := 2, data := [(70, 3)] }], qry := { h.qry with queue := [{ issue := 3, step := 1, group := 2, mark := true }, { issue := 4, step := 1, group := 2 }], files := [(1, 0x80000005), (2, 0x80000006)], logLen := n, overflow := o, misses := [(1, { site := 0, bit := 515 })] } }
theorem witness_FlushEnds_rq1 (h : Obligations.FlushEnds) :
    Completes (exec (Instr.recordQueueDrain Side.e Ecc.clean) (rqS 64 false)) := by
  refine Yields.completes (((h.2.1 (rqS 64 false) .e { issue := 3, step := 1, group := 2, mark := true } [{ issue := 4, step := 1, group := 2 }] ?_ ?_ ?_ ?_).1 0x80000005 lg ?_ ?_ ?_ ?_)) <;> decide +kernel
theorem witness_FlushEnds_rq2 (h : Obligations.FlushEnds) :
    Completes (exec (Instr.recordQueueDrain Side.e Ecc.uncorr) (rqS 64 true)) := by
  refine Yields.completes (((h.2.1 (rqS 64 true) .e { issue := 3, step := 1, group := 2, mark := true } [{ issue := 4, step := 1, group := 2 }] ?_ ?_ ?_ ?_).2 ?_)) <;> decide +kernel
theorem witness_FlushEnds_scf (h : Obligations.FlushEnds) :
    Completes (exec (Instr.spoilCacheFill Side.e 1 []) (rqS 64 true)) := by
  refine Yields.completes (h.2.2 (rqS 64 true) .e 0x80000006 1 { lg with id := 0x80000006, spoil := 2, data := [(70, 3)] } { site := 0, bit := 515 } ?_ ?_ ?_ ?_ ?_ ?_ ?_ ?_ ?_ ?_ ?_) <;> decide +kernel
def rn (d : Half → Half) : State := runS [] id (d dev0.east)
def rnT : State := { rn id with dev := (rn id).dev.setPage .e blkTch { (pageDefault blkTch) with severity := 1 } }
theorem witness_ParityRows_pa1 (h : Obligations.ParityRows) :
    Completes (exec (Instr.pipeFault Side.e) rnT) := by
  refine Yields.completes (((h rnT .e ?_ ?_ ?_).1 ?_ ?_ ?_)) <;> decide +kernel
theorem witness_ParityRows_pa2 (h : Obligations.ParityRows) :
    Completes (exec (Instr.drillParity Side.e 1) (rn fun h => { h with drl1 := { st := 2 } })) := by
  refine Yields.completes (((h (rn fun h => { h with drl1 := { st := 2 } }) .e ?_ ?_ ?_).2.1 1 ?_ ?_ ?_ ?_)) <;> decide +kernel
theorem witness_ParityRows_pa3 (h : Obligations.ParityRows) :
    Completes (exec (Instr.planParity Side.e) (rn id)) := by
  refine Yields.completes (((h (rn id) .e ?_ ?_ ?_).2.2 ?_ ?_)) <;> decide +kernel
def wcAll : Tbl Nat := (0, 640) :: (List.range 480).map fun b => (0x100 + b, 0x18)
def hkI : Issue := { idx := 5, tvs := 800000, period := 40000, header := 0, step := 2, page := 0, epoch := 0, sites := BitVec.allOnes 64, symbols := 0x30 }
def hkS (k : Nat) (x : Hook) : State := let s := runS [] (fun f => { f with issues := [hkI] }) { dev0.east with fab := { dev0.east.fab with hooks := [(k, x)] } }
  { s with dev := Dev.setRg { s.dev with cfg := { s.dev.cfg with state := 5, wcfg := wcAll } } 1 .fabHookCfg k 1 }
theorem witness_HookRows_hk1 (h : Obligations.HookRows) :
    Completes (exec (Instr.hookSlotPresent Side.e 3) (hkS 3 { queue := [5, 6] })) := by
  refine Yields.completes ((h (hkS 3 { queue := [5, 6] }) .e 3 5 ?_ ?_ ?_).1 [6] hkI ?_ ?_ ?_ ?_) <;> decide +kernel
theorem witness_HookRows_hk1b (h : Obligations.HookRows) :
    Completes (exec (Instr.hookSlotPresent Side.e 9) (hkS 9 { queue := [5, 6], offered := 9 })) := by
  refine Yields.completes ((h (hkS 9 { queue := [5, 6], offered := 9 }) .e 9 5 ?_ ?_ ?_).1 [6] hkI ?_ ?_ ?_ ?_) <;> decide +kernel
theorem witness_HookRows_hk2 (h : Obligations.HookRows) :
    Completes (exec (Instr.hookReturn Side.e 3 {}) (hkS 3 { out := [(5, false), (6, false)] })) := by
  refine Yields.completes ((h (hkS 3 { out := [(5, false), (6, false)] }) .e 3 5 ?_ ?_ ?_).2.1 {} [(6, false)] ?_ ?_ ?_
      |>.1 ?_ ?_) <;> decide +kernel
theorem witness_HookRows_hk2b (h : Obligations.HookRows) :
    Completes (exec (Instr.hookReturn Side.e 3 { keep := false, vals := [1, 2] }) (hkS 3 { out := [(5, false), (6, false)] })) := by
  refine Yields.completes ((h (hkS 3 { out := [(5, false), (6, false)] }) .e 3 5 ?_ ?_ ?_).2.1 { keep := false, vals := [1, 2] } [(6, false)] ?_ ?_ ?_ |>.2 hkI ?_ ?_ ?_) <;> decide +kernel
theorem witness_HookRows_hk2c (h : Obligations.HookRows) :
    Completes (exec (Instr.hookReturn Side.e 15 {}) (hkS 15 { out := [(5, false), (6, false)] })) := by
  refine Yields.completes ((h (hkS 15 { out := [(5, false), (6, false)] }) .e 15 5 ?_ ?_ ?_).2.1 {} [(6, false)] ?_ ?_ ?_
      |>.1 ?_ ?_) <;> decide +kernel
theorem witness_HookRows_hk3 (h : Obligations.HookRows) :
    Completes (exec (Instr.hookLate Side.e 12) (hkS 12 { out := [(5, false), (6, false)] })) := by
  refine Yields.completes ((h (hkS 12 { out := [(5, false), (6, false)] }) .e 12 5 ?_ ?_ ?_).2.2 [(6, false)] ?_ ?_ ?_ ?_) <;> decide +kernel
def ld (s : FaceState) (f : Half) : Half := { f with face := { f.face with state := s, plan := some { fileId := 7, hash := 0, cls := false } }, attic := [(6, 7)], cal := { f.cal with loaded := true } }
def both (s : FaceState) : State := st0 .deployed { dev0 with west := ld s dev0.west, east := ld s dev0.east }
theorem witness_PlanLoaded_fin (h : Obligations.PlanLoaded) :
    Completes (exec Instr.fireIn (both .armed)) := by
  refine Yields.completes ((h.2.2 (both .armed) ?_ ?_ ?_ ?_ ?_ (fun side => by cases side <;> decide +kernel))) <;> decide +kernel
theorem witness_CalibrationRows_ca1 (h : Obligations.CalibrationRows) :
    Completes (exec (Instr.tempSample Side.e [1, 2, 3, 4, 5, 6, 7, -8]) (st0)) := by
  refine Yields.completes ((h.1 (st0) .e ?_ ?_ ?_).1 [1, 2, 3, 4, 5, 6, 7, -8] ?_) <;> decide +kernel
theorem witness_CalibrationRows_ca2 (h : Obligations.CalibrationRows) :
    Completes (exec (Instr.phaseCompare (-5)) (st0)) := by
  refine Yields.completes ((h.1 (st0) .e ?_ ?_ ?_).2.1 (-5) ?_ ?_) <;> decide +kernel
theorem witness_CalibrationRows_ca3 (h : Obligations.CalibrationRows) :
    Completes (exec (Instr.sweepStart Side.e [true, true, true, true]) st0) := by
  refine Yields.completes ((h.1 st0 .e ?_ ?_ ?_).2.2.1 ?_ ?_ ?_ ?_) <;> decide +kernel
theorem witness_CalibrationRows_ca4 (h : Obligations.CalibrationRows) :
    Completes (exec (Instr.calMeasurementAged Side.e 255) (st0)) := by
  refine Yields.completes ((h.1 (st0) .e ?_ ?_ ?_).2.2.2.1 255) <;> decide +kernel
def swS (s : BitVec 256 := 0) : State := st0 .deployed { dev0 with east := { dev0.east with modes := 2, cal := { dev0.east.cal with sweeping := true, witness := List.replicate 4 (some true), swept := s } } }
theorem witness_CalibrationRows_ca5 (h : Obligations.CalibrationRows) :
    Completes (exec (Instr.sweepEnd Side.e 50) (swS (BitVec.allOnes 256))) := by
  refine Yields.completes ((h.1 (swS (BitVec.allOnes 256)) .e ?_ ?_ ?_).2.2.2.2.1 50 ?_ ?_) <;> decide +kernel
theorem witness_CalibrationRows_ca6 (h : Obligations.CalibrationRows) :
    Completes (exec (Instr.sweepChannelCommit Side.e 255 [1, 2, -3] .clean) swS) := by
  refine Yields.completes ((h.1 swS .e ?_ ?_ ?_).2.2.2.2.2 255 [1, 2, -3] ?_ ?_) <;> decide +kernel
theorem witness_CalibrationRows_ca7 (h : Obligations.CalibrationRows) :
    Completes (exec (Instr.cal Side.e [true, true, true, true] [[1, 2], []]) (runS (stepAt 6 0 0 5 9))) := by
  refine Yields.completes (h.2 (runS (stepAt 6 0 0 5 9)) .e [[1, 2], []] ?_ ?_ ?_ ?_ ?_) <;> decide +kernel
end Burst

namespace Load

def cS (c : CfgSt) (l : Life := .deployed) : State := st0 l { devS with cfg := c, clk := { devS.clk with vinMv := 5000 } }
def adL : Load := { source := 3, session := 5, length := 400, image := List.replicate 20 0, taken := 20 }
def celU (h : Half) : Half := { h with cel := { h.cel with chans := [3,3,3,3] } }
def cU : State := let s := cS {}; { s with dev := { s.dev with west := celU s.dev.west, east := celU s.dev.east } }
theorem witness_ConfigCommands_cc1 (h : Obligations.ConfigCommands) :
    Completes (exec (Instr.configBegin hd 0 400) cU) := by
  refine Yields.completes ((h cU hd).1 0 400 (admitsS ses ?_) ?_ ?_) <;> decide +kernel
theorem witness_ConfigCommands_cc1b (h : Obligations.ConfigCommands) :
    Completes (exec (Instr.configBegin hd 2 400) cU) := by
  refine Yields.completes ((h cU hd).1 2 400 (admitsS ses ?_) ?_ ?_) <;> decide +kernel
theorem witness_ConfigCommands_cc2 (h : Obligations.ConfigCommands) :
    Completes (exec (Instr.configData hd adL.received (List.replicate 64 7)) (cS { load := some adL, state := 1 })) := by
  refine Yields.completes (((h (cS { load := some adL, state := 1 }) hd).2.1 adL rfl ?_ ?_ ?_).1 (List.replicate 64 7) (admitsS ses ?_) ?_ ?_ ?_) <;> decide +kernel
def adE : Load := { adL with image := List.replicate 400 0 }
theorem witness_ConfigCommands_cc3 (h : Obligations.ConfigCommands) :
    Completes (exec (Instr.configEnd hd) (cS { load := some adE, state := 1 })) := by
  refine Yields.completes (((h (cS { load := some adE, state := 1 }) hd).2.1 adE rfl ?_ ?_ ?_).2 (admitsS ses ?_) ?_ ?_) <;> decide +kernel
theorem witness_ConfigCommands_cc4 (h : Obligations.ConfigCommands) :
    Completes (exec (Instr.configEnd hd) (cS { ended := some (5, reasonStatus 3, 3, 77) } )) := by
  refine Yields.completes ((h (cS { ended := some (5, reasonStatus 3, 3, 77) } ) hd).2.2 3 77 (admitsS ses ?_) ?_ ?_) <;> decide +kernel
/-- A load of a service image whose stream goes on with the words given. -/
def svc (pos : StreamPos) (words : List Nat) (rest : List Nat := []) : Load :=
  { source := 3, session := 5, service := true, passed := true, pos := pos, wcfg := [(0, 100)], seen := [1]
    length := 300000, image := words.flatMap (leNats 4) ++ rest }
def sv (l : Load) : State := cS { load := some l, state := 2 } .manufacture
def svI : Load := { source := 3, session := 5, length := 300000, image := [serviceWord, (st0.dev.rg 0 .identPart).toNat, st0.fuse.stepping, st0.fuse.dieset, 0].flatMap (leNats 4) }
def stW : State := cS { load := some svI, state := 1 } .manufacture
theorem witness_Stream_st1 (h : Obligations.Stream) :
    Completes (exec Instr.idcheck stW) := by
  refine Yields.completes ((h stW svI ?_ ?_ rfl ?_).1 ?_ ?_ ?_ ?_ ?_ ?_ ?_ ?_ ?_ ?_).2.2.2 <;> decide +kernel
theorem witness_Stream_st2 (h : Obligations.Stream) :
    Completes (exec (Instr.gclr) (sv (svc .checked [0x50000000]))) := by
  refine Yields.completes (((h (sv (svc .checked [0x50000000])) (svc .checked [0x50000000]) ?_ ?_ rfl ?_).2 ?_ .gclr 4 ?_).1 ?_ ?_) <;> decide +kernel
theorem witness_Stream_st3 (h : Obligations.Stream) :
    Completes (exec (Instr.wcfg) (sv (svc .cells [0x10000002, 7, 700]))) := by
  refine Yields.completes (((h (sv (svc .cells [0x10000002, 7, 700])) (svc .cells [0x10000002, 7, 700]) ?_ ?_ rfl ?_).2 ?_ (.wcfg 7 700) 12 ?_).2.1 ?_ |>.1 7 700 ?_ ?_ ?_) <;> decide +kernel
theorem witness_Stream_st4 (h : Obligations.Stream) :
    Completes (exec (Instr.far) (sv (svc .cells [0x20000001, 0]))) := by
  refine Yields.completes (((h (sv (svc .cells [0x20000001, 0])) (svc .cells [0x20000001, 0]) ?_ ?_ rfl ?_).2 ?_ (.far 0) 8 ?_).2.1 ?_ |>.2.1 0 ?_ ?_ ?_) <;> decide +kernel
theorem witness_Stream_st5 (h : Obligations.Stream) :
    Completes (exec (Instr.start) (sv (svc .cells [0x60000000]))) := by
  refine Yields.completes (((h (sv (svc .cells [0x60000000])) (svc .cells [0x60000000]) ?_ ?_ rfl ?_).2 ?_ .start 4 ?_).2.1 ?_ |>.2.2.1 ?_ ?_) <;> decide +kernel
theorem witness_Stream_bad_gclr (h : Obligations.Stream) :
    Completes (exec (Instr.gclr) (sv (svc .cells [0x99000000]))) := by
  refine Yields.completes (((h (sv (svc .cells [0x99000000])) (svc .cells [0x99000000]) ?_ ?_ rfl ?_).2 ?_ .bad 0 ?_).2.2 ?_ ?_ ?_ ?_ .gclr ?_) <;> decide +kernel
theorem witness_Stream_bad_wcfg (h : Obligations.Stream) :
    Completes (exec (Instr.wcfg) (sv (svc .cells [0x99000000]))) := by
  refine Yields.completes (((h (sv (svc .cells [0x99000000])) (svc .cells [0x99000000]) ?_ ?_ rfl ?_).2 ?_ .bad 0 ?_).2.2 ?_ ?_ ?_ ?_ .wcfg ?_) <;> decide +kernel
theorem witness_Stream_bad_far (h : Obligations.Stream) :
    Completes (exec (Instr.far) (sv (svc .cells [0x99000000]))) := by
  refine Yields.completes (((h (sv (svc .cells [0x99000000])) (svc .cells [0x99000000]) ?_ ?_ rfl ?_).2 ?_ .bad 0 ?_).2.2 ?_ ?_ ?_ ?_ .far ?_) <;> decide +kernel
theorem witness_Stream_bad_fdata (h : Obligations.Stream) :
    Completes (exec (Instr.fdata) (sv (svc .cells [0x99000000]))) := by
  refine Yields.completes (((h (sv (svc .cells [0x99000000])) (svc .cells [0x99000000]) ?_ ?_ rfl ?_).2 ?_ .bad 0 ?_).2.2 ?_ ?_ ?_ ?_ .fdata ?_) <;> decide +kernel
theorem witness_Stream_bad_start (h : Obligations.Stream) :
    Completes (exec (Instr.start) (sv (svc .cells [0x99000000]))) := by
  refine Yields.completes (((h (sv (svc .cells [0x99000000])) (svc .cells [0x99000000]) ?_ ?_ rfl ?_).2 ?_ .bad 0 ?_).2.2 ?_ ?_ ?_ ?_ .start ?_) <;> decide +kernel
theorem witness_Stream_bad_streamEnd (h : Obligations.Stream) :
    Completes (exec (Instr.streamEnd) (sv (svc .cells [0x99000000]))) := by
  refine Yields.completes (((h (sv (svc .cells [0x99000000])) (svc .cells [0x99000000]) ?_ ?_ rfl ?_).2 ?_ .bad 0 ?_).2.2 ?_ ?_ ?_ ?_ .streamEnd ?_) <;> decide +kernel

theorem chunks_zero (k : Nat) (tail : List Nat) : chunks 35 k (List.replicate (35 * k) 0 ++ tail) = List.replicate k (List.replicate 35 0) := by
  induction k with
  | zero => rfl
  | succ k ih =>
    have e : List.replicate (35 * (k + 1)) 0 ++ tail = List.replicate 35 0 ++ (List.replicate (35 * k) 0 ++ tail) := by
      rw [← List.append_assoc, List.replicate_append_replicate, show 35 * (k + 1) = 35 + 35 * k by omega]
    rw [e, chunks, List.take_left' List.length_replicate, List.drop_left' List.length_replicate, ih]
    rfl

theorem decode_zero (k : Nat) (tail : List Nat) :
    decodeRun 35 3 k (List.replicate (35 * k) 0 ++ tail) = (List.replicate (32 * k) 0, 0, false) := by
  unfold decodeRun
  rw [chunks_zero]
  have z : rsDecode 3 (List.replicate 35 0) = { data := List.replicate 32 0 } := by decide
  have go : ∀ (k : Nat) (a : List Nat × Nat × Bool), (List.replicate k (List.replicate 35 0)).foldl (fun a w =>
      let d := rsDecode 3 w
      (a.1 ++ d.data, a.2.1 + (if d.report = .corr then 1 else 0), a.2.2 || decide (d.report = .uncorr))) a
      = (a.1 ++ List.replicate (32 * k) 0, a.2.1, a.2.2) := by
    intro k
    induction k with
    | zero => intro a; simp
    | succ k ih =>
      intro a
      rw [List.replicate_succ, List.foldl_cons, ih, z]
      simp [Nat.mul_succ, Nat.add_comm, ← List.replicate_append_replicate]
  rw [go]
  simp

theorem crc32_lt (l : List Nat) (h : ∀ b ∈ l, b < 256) : crc32 l < 2 ^ 32 := by
  have bit : ∀ c, c < 2 ^ 32 → crcBit c < 2 ^ 32 := by
    intro c hc
    unfold crcBit
    split
    · exact Nat.xor_lt_two_pow (by omega) (by decide)
    · omega
  have go : ∀ (l : List Nat), (∀ b ∈ l, b < 256) → ∀ a, a < 2 ^ 32 → l.foldl crcByte a < 2 ^ 32 := by
    intro l
    induction l with
    | nil => exact fun _ a ha => ha
    | cons b l ih =>
      intro hl a ha
      rw [List.foldl_cons]
      refine ih (fun x hx => hl x (List.mem_cons_of_mem _ hx)) _ ?_
      have hb := hl b List.mem_cons_self
      unfold crcByte
      exact bit _ (bit _ (bit _ (bit _ (bit _ (bit _ (bit _ (bit _ (Nat.xor_lt_two_pow ha (by omega)))))))))
  exact Nat.xor_lt_two_pow (go l h _ (by decide)) (by decide)

theorem ofLe_leNats (n v : Nat) : ofLe (leNats n v) = v % 256 ^ n := by
  induction n generalizing v with
  | zero => simp [leNats, ofLe, Nat.mod_one]
  | succ n ih => rw [leNats, ofLe, ih, Nat.pow_succ', Nat.mod_mul]

theorem leNats_length (n v : Nat) : (leNats n v).length = n := by
  induction n generalizing v with
  | zero => rfl
  | succ n ih => rw [leNats, List.length_cons, ih]

/-- A word's bytes give back what they hold of it. -/
theorem ofLe_word (v : Nat) : ofLe (leNats 4 v) = v % 4294967296 := by
  rw [ofLe_leNats, show (256 : Nat) ^ 4 = 4294967296 by decide]

/-- An encoded frame of zeros. -/
def frame0 (a : Nat) : List Nat := List.replicate (35 * frameWords a) 0 ++ leNats 4 (crc32 (List.replicate (32 * frameWords a) 0))

theorem frame0_ok (a : Nat) : decodeFrame a (frame0 a) = (List.replicate (32 * frameWords a) 0, 0, false) := by
  unfold decodeFrame frame0
  dsimp only
  rw [decode_zero]
  have e : leAt (List.replicate (35 * frameWords a) 0 ++ leNats 4 (crc32 (List.replicate (32 * frameWords a) 0))) (35 * frameWords a) 4
      = crc32 (List.replicate (32 * frameWords a) 0) := by
    unfold leAt
    rw [List.drop_left' (by simp), List.take_of_length_le (Nat.le_of_eq (leNats_length _ _)), ofLe_word]
    have := crc32_lt (List.replicate (32 * frameWords a) 0) fun b hb => by rw [List.eq_of_mem_replicate hb]; decide
    omega
  simp [e]

theorem frame0_length (a : Nat) : (frame0 a).length = 35 * frameWords a + 4 := by
  simp [frame0, leNats_length]

/-- A load at an FDATA with a frame of zeros for the address a. -/
def fdL (a : Nat) : Load := { svc .cells [0x30000000 + (35 * frameWords a + 4) / 4] (frame0 a) with far := some a }

theorem fd_next (a key : Nat) : (fdL a).next key = some (.fdata (frame0 a), 35 * frameWords a + 8) := by
  have hl : (fdL a).received = 35 * frameWords a + 8 := by
    simp [Load.received, fdL, svc, frame0_length, leNats_length]; omega
  have hk : frameWords a = 512 ∨ frameWords a = 2176 := by unfold frameWords; split <;> simp
  have hi : (fdL a).image = leNats 4 (0x30000000 + (35 * frameWords a + 4) / 4) ++ frame0 a := by
    simp [fdL, svc]
  have hw : ofLe ((fdL a).plain key 0 4) = 0x30000000 + (35 * frameWords a + 4) / 4 := by
    have : (fdL a).plain key 0 4 = ((fdL a).image.drop 0).take 4 := by
      rw [Load.plain, if_pos (show (fdL a).service = true from rfl)]
    rw [this, hi, List.drop_zero, List.take_left' (leNats_length _ _), ofLe_word]
    rcases hk with e | e <;> omega
  have hp : (fdL a).plain key 4 (35 * frameWords a + 4) = frame0 a := by
    have : (fdL a).plain key 4 (35 * frameWords a + 4) = ((fdL a).image.drop 4).take (35 * frameWords a + 4) := by
      rw [Load.plain, if_pos (show (fdL a).service = true from rfl)]
    rw [this, hi, List.drop_left' (leNats_length _ _), List.take_of_length_le (Nat.le_of_eq (frame0_length a))]
  have he : (fdL a).streamEnd = 300000 := rfl
  have ht : (fdL a).taken = 0 := rfl
  unfold Load.next
  simp only [hl, hw, he, ht]
  rcases hk with e | e <;> rw [e] at hp ⊢ <;> simp [lenOk, mkCmd, hp]

theorem witness_Stream_fd1 (h : Obligations.Stream) : Completes (exec .fdata (sv (fdL 0x20200000))) := by
  refine Yields.completes (((h (sv (fdL 0x20200000)) (fdL 0x20200000) rfl ?_ rfl rfl).2 rfl _ _ (fd_next _ _)).2.1 rfl
    |>.2.2.2 (frame0 0x20200000) 0x20200000 _ 0 rfl rfl (frame0_length _) (frame0_ok _))
  decide +kernel

theorem witness_Stream_fd2 (h : Obligations.Stream) : Completes (exec .fdata (sv (fdL 0x200000))) := by
  refine Yields.completes (((h (sv (fdL 0x200000)) (fdL 0x200000) rfl ?_ rfl rfl).2 rfl _ _ (fd_next _ _)).2.1 rfl
    |>.2.2.2 (frame0 0x200000) 0x200000 _ 0 rfl rfl (frame0_length _) (frame0_ok _))
  decide +kernel

end Load

namespace Fabric

def k9 : KeySlot := { kind := .image, key := 5 }
def cS (c : CfgSt) (l : Life := .deployed) : State := st0 l { devS with cfg := c, clk := { devS.clk with vinMv := 5000 }, sec := { devS.sec with slots := [(9, k9)] } }
def l1 : Load := { source := 3, session := 5, length := 400, image := List.replicate 300 0, taken := 260, pos := .clearing, passed := true }
theorem witness_LoadEnds_le1 (h : Obligations.LoadEnds) :
    Completes (exec (Instr.gclrComplete [true, true, true]) (cS { load := some l1, state := 2 })) := by
  refine Yields.completes (((h (cS { load := some l1, state := 2 }) ?_ ?_).1 l1 rfl).1 ?_) <;> decide +kernel
/-- A full image of 400 bytes without frames for the slot 9, its body and its signature zeros. -/
def hdr1 : List Nat :=
  let part := (dev0.rg 0 .identPart).toNat
  leNats 4 1 ++ leNats 2 (part / 65536) ++ leNats 2 part ++ leNats 4 st0.fuse.stepping
    ++ leNats 4 (fld (BitVec.ofNat 32 st0.fuse.dieset) 23 0) ++ leNats 8 400 ++ leNats 4 0 ++ leNats 2 9
    ++ List.replicate 226 0
def img1 : List Nat := hdr1 ++ List.replicate 128 0 ++ leNats 8 400 ++ leNats 4 0
def l2 : Load := { source := 3, session := 5, length := 400, image := hdr1 }
theorem found_ok (life : Life) (hl : life = .deployed) (o : Option Nat) (ho : o = some 400) :
    let found := (cS { load := some l2, state := 1 }).dev.headerReason life (cS { load := some l2, state := 1 }).ident o (l2.image.take 256)
    found = none ∨ l2.source = 3 ∧ found = some rSignature := by
  subst hl ho
  intro found
  have e : found = if !Config.ecdsa k9.pub ((l2.image.take 256).take 0x80) (parseHeader (l2.image.take 256)).signature
      then some rSignature else none := by
    show Dev.headerReason _ _ _ _ _ = _
    unfold Dev.headerReason
    rw [if_neg (by decide +kernel), if_neg (by decide), if_neg (by decide +kernel), if_neg (by decide +kernel)]
    rfl
  rw [e]
  split
  · exact .inr ⟨rfl, rfl⟩
  · exact .inl rfl
theorem witness_LoadEnds_le2 (h : Obligations.LoadEnds) :
    Completes (exec Instr.configCheckComplete (cS { load := some l2, state := 1 })) := by
  refine Yields.completes (((h (cS { load := some l2, state := 1 }) ?_ ?_).1 l2 rfl).2.1 ?_ ?_ ?_ ?_ ?_ ?_ ?_ (found_ok _ rfl _ rfl)) <;> decide +kernel
/-- A load whose next command is END, encrypted in a full image. -/
def l3 (service : Bool) : Load :=
  let ks : Nat → Nat := fun k => if service then 0 else keyStream k9.bodyKey 0 (380 - 0x100 + k)
  { source := 3, session := 5, length := if service then 384 else 400, taken := 380, pos := .started, passed := true, service := service
    hdr := { keyId := 9 }, wcfg := [(0, 100), (0x105, 0x28), (0x1FF, 0x38)]
    image := List.replicate 380 0 ++ ([0 ^^^ ks 0, 0 ^^^ ks 1, 0 ^^^ ks 2, 0x70 ^^^ ks 3] ++ List.replicate 16 0) }
theorem l3_next (b : Bool) : (l3 b).next ((cS { load := some (l3 b), state := 2 }).dev.imageKey (l3 b)).bodyKey = some (.ending, 4) := by
  have hk : ((cS { load := some (l3 b), state := 2 }).dev.imageKey (l3 b)).bodyKey = k9.bodyKey := by cases b <;> rfl
  rw [hk]
  have hp : (l3 b).plain k9.bodyKey 380 4 = [0, 0, 0, 0x70] := by
    have hi : ((l3 b).image.drop 380).take 4
        = (let ks : Nat → Nat := fun k => if b then 0 else keyStream k9.bodyKey 0 (380 - 0x100 + k)
           [0 ^^^ ks 0, 0 ^^^ ks 1, 0 ^^^ ks 2, 0x70 ^^^ ks 3]) := by
      show ((List.replicate 380 0 ++ _).drop 380).take 4 = _
      rw [List.drop_left' List.length_replicate]
      rfl
    unfold Load.plain
    rw [hi]
    cases b <;> simp [l3, Nat.xor_assoc]
  have hl : (l3 b).received = 400 := by simp [Load.received, l3]
  have he : (l3 b).streamEnd = 384 := by cases b <;> rfl
  have ht : (l3 b).taken = 380 := rfl
  unfold Load.next
  simp only [hl, he, ht, hp]
  rfl
theorem witness_LoadEnds_le3 (h : Obligations.LoadEnds) :
    Completes (exec Instr.streamEnd (cS { load := some (l3 false), state := 2 })) := by
  refine Yields.completes (((h (cS { load := some (l3 false), state := 2 }) rfl ?_).1 (l3 false) rfl).2.2.1 4 rfl rfl rfl (l3_next _) rfl |>.1 rfl)
  decide +kernel
theorem witness_LoadEnds_le3b (h : Obligations.LoadEnds) :
    Completes (exec Instr.streamEnd (cS { load := some (l3 true), state := 2 })) := by
  refine Yields.completes (((h (cS { load := some (l3 true), state := 2 }) rfl ?_).1 (l3 true) rfl).2.2.1 4 rfl rfl rfl (l3_next _) rfl |>.2 rfl ?_ ?_ ?_) <;>
    decide +kernel
def l4 (service : Bool) : Load :=
  { source := 3, session := 5, length := 400, image := img1 ++ leNats 4 (crc32 img1), taken := 384, pos := .ended, passed := true, service := service
    hdr := { parseHeader hdr1 with bodyHash := bodyHashOf (img1 ++ leNats 4 (crc32 img1)) } }
def S4 (b : Bool) : State := cS { load := some (l4 b), state := 3 }
theorem witness_LoadEnds_le4 (h : Obligations.LoadEnds) : Completes (exec .configVerifyComplete (S4 false)) := by
  refine Yields.completes (((h (S4 false) ?_ ?_).1 (l4 false) rfl).2.2.2.1 rfl ?_ rfl ?_ ?_ ?_ ?_ ?_) <;> decide +kernel
def l5 (p : Bool) (x : StreamPos) : Load := { source := 3, session := 5, length := 400, image := List.replicate 300 0, taken := 300, pos := x, passed := p }
def arr (s : State) : State := { s with dev := { s.dev with array := { cells := [(3, [4])] } } }
theorem witness_LoadEnds_le5 (h : Obligations.LoadEnds) :
    Completes (exec (Instr.configIdleTimeout) (arr (cS { load := some (l5 true .cells), state := 2 }))) := by
  refine Yields.completes (((h (arr (cS { load := some (l5 true .cells), state := 2 })) ?_ ?_).1 (l5 true .cells) rfl).2.2.2.2.1 ?_ ?_ ?_ ?_) <;> decide +kernel
theorem witness_LoadEnds_le5b (h : Obligations.LoadEnds) :
    Completes (exec (Instr.configIdleTimeout) (arr (cS { load := some (l5 false .first), state := 1 }))) := by
  refine Yields.completes (((h (arr (cS { load := some (l5 false .first), state := 1 })) ?_ ?_).1 (l5 false .first) rfl).2.2.2.2.1 ?_ ?_ ?_ ?_) <;> decide +kernel
def l6 : Load := { source := 3, session := 5, store := some 1, length := 400, image := img1 ++ leNats 4 0, taken := 256, passed := true, finished := true, replies := [(401, { session := 5, seq := 1, src := 3, tag := 4, op := 0x22 })] }
theorem witness_LoadEnds_le6 (h : Obligations.LoadEnds) :
    Completes (exec (Instr.configStoreComplete []) (arr (cS { load := some l6, state := 5, source := 3 }))) := by
  refine Yields.completes (((h (arr (cS { load := some l6, state := 5, source := 3 })) ?_ ?_).1 l6 rfl).2.2.2.2.2 1 ?_ ?_ ?_ ?_ ?_ ?_) <;> decide +kernel
theorem witness_LoadEnds_le7 (h : Obligations.LoadEnds) :
    Completes (exec Instr.configClearComplete (cS { state := 4 })) := by
  refine Yields.completes (((h (cS { state := 4 }) ?_ ?_).2.1) ?_ ?_ ?_) <;> decide +kernel
def cb (n : Nat) (c : CfgSt) : State := let s := cS c; { s with dev := (s.dev.setRg 0 .cfgBoot 0 (BitVec.ofNat 32 n)) }
theorem witness_LoadEnds_le8 (h : Obligations.LoadEnds) :
    Completes (exec Instr.autoloadStart (cb 1 { slot0 := { valid := true } })) := by
  refine Yields.completes (((h (cb 1 { slot0 := { valid := true } }) ?_ ?_).2.2) ?_ ?_ ?_ ?_ ?_) <;> decide +kernel
def cf (d : Dev) (w : Tbl Nat := []) : State := st0 .deployed { d with cfg := { state := 5, source := 3, wcfg := w } }
theorem witness_FabricRows_fr1 (h : Obligations.FabricRows) :
    Completes (exec (Instr.scrubPass Side.w [(0, 0)] []) (cf dev0)) := by
  refine Yields.completes ((h (cf dev0) .w ?_ ?_).1 [(0, 0)] [] ?_ |>.1 ?_ ?_ (.inl ?_)) <;> decide +kernel
/-- Lost frames raise an interrupt only. -/
def devL : Dev := dev0.setPage .w blkFab { (pageDefault blkFab) with severity := 0 }
theorem witness_FabricRows_fr1b (h : Obligations.FabricRows) :
    Completes (exec (Instr.scrubPass Side.w [(0, 0)] [{ addr := 2 ^ 21, hits := [(3, [(1, 7)])] }]) (cf devL)) := by
  refine Yields.completes ((h (cf devL) .w ?_ ?_).1 [(0, 0)] [{ addr := 2 ^ 21, hits := [(3, [(1, 7)])] }] ?_
      |>.1 ?_ ?_ (.inr ?_)) <;> decide +kernel
theorem witness_FabricRows_fr1c (h : Obligations.FabricRows) :
    Completes (exec (Instr.scrubPass Side.w [] []) (cf dev0)) := by
  refine Yields.completes ((h (cf dev0) .w ?_ ?_).1 [] [] ?_ |>.2 ?_ ?_) <;> decide +kernel
def sb (s : Side) : Dev := dev0.mod s fun h => { h with modes := 0x20, fab := { h.fab with scrubBusy := true } }
theorem witness_FabricRows_fr2 (h : Obligations.FabricRows) :
    Completes (exec (Instr.scrubCmdComplete Side.w {}) (cf (sb .w))) := by
  refine Yields.completes ((h (cf (sb .w)) .w ?_ ?_).2.1 {} ?_ ?_ ?_ (.inl ?_)) <;> decide +kernel
def sm (s : Side) : Dev := dev0.mod s fun h => { h with modes := 0x20 }
def vF : Word := BitVec.ofNat 32 (3 * 2^30 + 2^21 * 239)
theorem witness_FabricRows_fr3 (h : Obligations.FabricRows) :
    Completes (exec (Instr.fabScrubCmd Writer.host Side.e vF) (cf (sm .e))) := by
  refine Yields.completes ((h (cf (sm .e)) .e ?_ ?_).2.2.1 .host vF ?_ ?_ ?_ ?_ ?_) <;> decide +kernel
theorem witness_FabricRows_fr4 (h : Obligations.FabricRows) :
    Completes (exec (Instr.fabNocPortEn Writer.host 3 4294967295) (cf dev0)) := by
  refine Yields.completes ((h (cf dev0) .e ?_ ?_).2.2.2.1 .host 3 0xFFFFFFFF ?_ ?_) <;> decide +kernel
def wall : Tbl Nat := (0, 100) :: (List.range 480).map fun n => (0x100 + n, 8)
def cm : State := let s := cf dev0 wall; { s with dev := { s.dev with clk := { s.dev.clk with fck := [100, 0,0,0,0,0,0,0] }, array := { bmem := [(0, bmemRow 0x123456789ABCDEF0), (1, 7)] } } }
theorem witness_FabricRows_fr5 (h : Obligations.FabricRows) :
    Completes (exec (Instr.bmemAccess 0 0 (some { addr := 32768, we := true, din := 1 }) none) cm) := by
  refine Yields.completes ((h cm .w ?_ ?_).2.2.2.2 0 0 false { addr := 32768, we := true, din := 1 } ?_ ?_ ?_) <;> decide +kernel
theorem witness_FabricRows_fr5b (h : Obligations.FabricRows) :
    Completes (exec (Instr.bmemAccess 3 2303 none (some { addr := 5 })) cm) := by
  refine Yields.completes ((h cm .w ?_ ?_).2.2.2.2 3 2303 true { addr := 5 } ?_ ?_ ?_) <;> decide +kernel
end Fabric

namespace Cellar

def cel (f : CelSt → CelSt) (g : Half → Half := id) : State := st0 .deployed { dev0 with west := g { dev0.west with cel := f dev0.west.cel }, east := g { dev0.east with cel := f dev0.east.cel } }
def hm (n : Nat) (h : Half) : Half := { h with modes := BitVec.ofNat _ n }
theorem witness_CellarTraining_ct1 (h : Obligations.CellarTraining) :
    Completes (exec (Instr.celTrainStart Writer.host Side.w 1) (cel id)) := by
  refine Yields.completes ((h.1 (cel id) .w ?_ ?_).1 .host 1 ?_ ?_ ?_ ?_ ?_) <;> decide +kernel
def c2 : CelSt → CelSt := fun c => { c with chans := [2,2,2,2], host := true, staged := [(5, 7)], delays := [(6, 8)] }
theorem witness_CellarTraining_ct2 (h : Obligations.CellarTraining) :
    Completes (exec (Instr.celTrainCommit Writer.host Side.w 2) (cel c2)) := by
  refine Yields.completes ((((h.1 (cel c2) .w ?_ ?_).2.1 ?_).1 ?_ .host 2 ?_).1 ?_ ?_) <;> decide +kernel
theorem witness_CellarTraining_ct3 (h : Obligations.CellarTraining) :
    Completes (exec (Instr.celDlyDataWrite Writer.host Side.w 74565) (cel c2)) := by
  refine Yields.completes ((((h.1 (cel c2) .w ?_ ?_).2.1 ?_).1 ?_ .host 0x12345 ?_).2) <;> decide +kernel
def c1 (b : Bool) : CelSt → CelSt := fun c => { c with chans := [1,1,1,1], host := b, staged := [(5, 7)], delays := [(6, 8)] }
theorem witness_CellarTraining_ct4 (h : Obligations.CellarTraining) :
    Completes (exec (Instr.celSweepComplete Side.w true []) (cel (c1 true))) := by
  refine Yields.completes ((((h.1 (cel (c1 true)) .w ?_ ?_).2.1 ?_).2.1 ?_ [])) <;> decide +kernel
theorem witness_CellarTraining_ct5 (h : Obligations.CellarTraining) :
    Completes (exec (Instr.celSweepComplete Side.e false [(1, 2, 3)]) (cel (c1 false))) := by
  refine Yields.completes ((((h.1 (cel (c1 false)) .e ?_ ?_).2.1 ?_).2.2 ?_ ?_ [(1,2,3)])) <;> decide +kernel
theorem witness_CellarTraining_ct5b (h : Obligations.CellarTraining) :
    Completes (exec (Instr.celSweepComplete Side.e true [(1, 2, 3)]) (cel (c1 false))) := by
  refine Yields.completes (((h.1 (cel (c1 false)) .e ?_ ?_).2.1 ?_).2.1 ?_ [(1,2,3)]) <;> decide +kernel
theorem witness_CellarTraining_ct6 (h : Obligations.CellarTraining) :
    Completes (exec (Instr.celVerifyComplete Side.w [true, false, true, true] [2, 2, 2, 2] [20480, 16384, 32768, 65536] true false true) (cel (fun c => { (c1 false c) with verifying := true }))) := by
  refine Yields.completes ((h.1 (cel (fun c => { (c1 false c) with verifying := true })) .w ?_ ?_).2.2 [true, false, true, true] [2, 2, 2, 2] [20480, 16384, 32768, 65536] true false true ?_ ?_) <;> decide +kernel
theorem witness_CellarTraining_ct6b (h : Obligations.CellarTraining) :
    Completes (exec (Instr.celVerifyComplete Side.w [true, true, true, true] [2, 2, 3, 2] [20480, 8192, 32768, 65536] true false true) (cel (fun c => { (c1 false c) with verifying := true }))) := by
  refine Yields.completes ((h.1 (cel (fun c => { (c1 false c) with verifying := true })) .w ?_ ?_).2.2 [true, true, true, true] [2, 2, 3, 2] [20480, 8192, 32768, 65536] true false true ?_ ?_) <;> decide +kernel
def c3 (f : CelSt → CelSt := id) : CelSt → CelSt := fun c => f { c with chans := [3,3,3,3], rate := 3, chGib := 16, patrol := 8 }
def K (s : State) (r _ : Rg) (die : Nat) (v : Word) : State := { s with dev := s.dev.setRg die r 0 v }
def u1 : State := cel (c3 (fun c => { c with refreshes := [(3, 4)] }))
theorem witness_CellarTraining_cu1 (h : Obligations.CellarTraining) :
    Completes (exec (Instr.refresh Side.w 3) u1) := by
  refine Yields.completes (((h.2 u1 .w 3 ?_ ?_).1 ?_).1) <;> decide +kernel
theorem witness_CellarTraining_cu1b (h : Obligations.CellarTraining) :
    Completes (exec (Instr.zqCalibration Side.w 3) u1) := by
  refine Yields.completes (((h.2 u1 .w 3 ?_ ?_).1 ?_).2) <;> decide +kernel
theorem witness_CellarTraining_cu2 (h : Obligations.CellarTraining) :
    Completes (exec (Instr.dimmTempRead Side.w 3 1 85) u1) := by
  refine Yields.completes ((h.2 u1 .w 3 ?_ ?_).2.1 1 85) <;> decide +kernel
theorem witness_CellarTraining_cu3 (h : Obligations.CellarTraining) :
    Completes (exec (Instr.caRetry Side.e 0 3) u1) := by
  refine Yields.completes (((h.2 u1 .e 0 ?_ ?_).2.2.1 ?_).1 3 ?_ ?_ ?_) <;> decide +kernel
theorem witness_CellarTraining_cu4 (h : Obligations.CellarTraining) :
    Completes (exec (Instr.caRetry Side.w 1 4) u1) := by
  refine Yields.completes (((h.2 u1 .w 1 ?_ ?_).2.2.1 ?_).2.1 4 ?_ |>.1) <;> decide +kernel
theorem witness_CellarTraining_cu4b (h : Obligations.CellarTraining) :
    Completes (exec (Instr.dimmNotResponding Side.e 3) u1) := by
  refine Yields.completes (((h.2 u1 .e 3 ?_ ?_).2.2.1 ?_).2.2.1) <;> decide +kernel
theorem witness_CellarTraining_cu4c (h : Obligations.CellarTraining) :
    Completes (exec (Instr.dimmNotResponding Side.e 3) u1) := by
  refine Yields.completes (((h.2 u1 .e 3 ?_ ?_).2.2.1 ?_).2.2.2 ?_ ?_ ?_ ?_ ?_) <;> decide +kernel
def u5 : State := K (cel c3 (hm 0x40)) .celScrubWin .celScrubWin 1 0x00020001
theorem witness_CellarTraining_cu5 (h : Obligations.CellarTraining) :
    Completes (exec (Instr.celScrubGo Writer.host Side.e 512) u5) := by
  refine Yields.completes ((h.2 u5 .e 0 ?_ ?_).2.2.2.1 .host 0x200 ?_ ?_ ?_) <;> decide +kernel
theorem witness_CellarTraining_cu6 (h : Obligations.CellarTraining) :
    Completes (exec (Instr.patrolRead Side.w (u1.dev.half Side.w).cel.patrol []) u1) := by
  refine Yields.completes (((h.2 u1 .w 0 ?_ ?_).2.2.2.2.1 [] ?_ ?_).1 ?_ ?_ |>.1 ?_ ?_ |>.1 ?_) <;> decide +kernel
/-- Two faulty symbols. -/
def two : Faults := [(3, 1), (9, 2)]
theorem witness_CellarTraining_cu6b (h : Obligations.CellarTraining) :
    Completes (exec (Instr.patrolRead Side.e (u1.dev.half Side.e).cel.patrol two) u1) := by
  refine Yields.completes (((h.2 u1 .e 0 ?_ ?_).2.2.2.2.1 two ?_ ?_).1 ?_ ?_ |>.2 (.inl ?_) ?_ ?_ ?_) <;> decide +kernel
def uP : State := cel (c3 (fun c => { c with bad := [8] }))
theorem witness_CellarTraining_cu6c (h : Obligations.CellarTraining) :
    Completes (exec (Instr.patrolRead Side.e 8 []) uP) := by
  refine Yields.completes (((h.2 uP .e 0 ?_ ?_).2.2.2.2.1 [] ?_ ?_).1 ?_ ?_ |>.2 (.inr ?_) ?_ ?_ ?_) <;> decide +kernel
def u7 : State := cel (c3 (fun c => { c with patrol := c.lines - 1 }))
def u7' : State := cel (fun c => let c := { c with chans := [3,3,3,3], rate := 3, chGib := 16 }; { c with patrol := c.lines - 1 })
theorem witness_CellarTraining_cu7 (h : Obligations.CellarTraining) :
    Completes (exec (Instr.patrolRead Side.w (u7'.dev.half Side.w).cel.patrol []) u7') := by
  refine Yields.completes (((h.2 u7' .w 0 ?_ ?_).2.2.2.2.1 [] ?_ ?_).1 ?_ ?_ |>.1 ?_ ?_ |>.2 ?_) <;> decide +kernel
def u8 : State := cel (c3 (fun c => { c with window := some (5, 7) })) (hm 0x40)
theorem witness_CellarTraining_cu8 (h : Obligations.CellarTraining) :
    Completes (exec (Instr.patrolRead Side.e 5 []) u8) := by
  refine Yields.completes (((h.2 u8 .e 0 ?_ ?_).2.2.2.2.1 [] ?_ ?_).2 5 7 ?_ ?_ ?_ ?_) <;> decide +kernel
theorem witness_CellarTraining_cu9 (h : Obligations.CellarTraining) :
    Completes (exec (Instr.atticPatrol Side.w (u1.dev.half Side.w).att.patrol []) u1) := by
  refine Yields.completes ((h.2 u1 .w 0 ?_ ?_).2.2.2.2.2.1 [] ?_ ?_) <;> decide +kernel
theorem witness_CellarTraining_cu10 (h : Obligations.CellarTraining) :
    Completes (exec (Instr.shelfPatrol Side.w Ecc.clean) u1) := by
  refine Yields.completes ((h.2 u1 .w 0 ?_ ?_).2.2.2.2.2.2) <;> decide +kernel
def r1 (n : Nat) : State := cel (c3 fun c => { c with suspect := [9, 13, 14], remap := (List.range n).map fun k => (1, 4 * k + 1, false) }) (fun h => { h with att := { h.att with suspect := [31, 16], spare := (List.range (n/2)).map fun k => (15, k, true) } })
theorem witness_Remaps_rm1 (h : Obligations.Remaps) :
    Completes (exec (Instr.lineReadback Side.w (RemapMem.cellar 1) 13 []) (r1 15)) := by
  refine Yields.completes ((h (r1 15) .w 13 [] ?_ ?_ ?_).1 1 ?_ ?_ |>.1 ?_) <;> decide +kernel
theorem witness_Remaps_rm1b (h : Obligations.Remaps) :
    Completes (exec (Instr.lineReadback Side.e (RemapMem.cellar 1) 9 [(3, 1)]) (r1 15)) := by
  refine Yields.completes ((h (r1 15) .e 9 [(3, 1)] ?_ ?_ ?_).1 1 ?_ ?_ |>.2.1 ?_ ?_) <;> decide +kernel
theorem witness_Remaps_rm1c (h : Obligations.Remaps) :
    Completes (exec (Instr.lineReadback Side.e (RemapMem.cellar 1) 9 two) (r1 16)) := by
  refine Yields.completes ((h (r1 16) .e 9 two ?_ ?_ ?_).1 1 ?_ ?_ |>.2.2 ?_ ?_ ?_ ?_) <;> decide +kernel
theorem witness_Remaps_rm2 (h : Obligations.Remaps) :
    Completes (exec (Instr.lineReadback Side.e (RemapMem.attic 15) 31 []) (r1 15)) := by
  refine Yields.completes ((h (r1 15) .e 31 [] ?_ ?_ ?_).2 15 ?_ ?_ |>.1 ?_) <;> decide +kernel
theorem witness_Remaps_rm2b (h : Obligations.Remaps) :
    Completes (exec (Instr.lineReadback Side.w (RemapMem.attic 15) 31 two) (r1 15)) := by
  refine Yields.completes ((h (r1 15) .w 31 two ?_ ?_ ?_).2 15 ?_ ?_ |>.2.1 ?_ ?_) <;> decide +kernel
theorem witness_Remaps_rm2c (h : Obligations.Remaps) :
    Completes (exec (Instr.lineReadback Side.w (RemapMem.attic 15) 31 two) (r1 16)) := by
  refine Yields.completes ((h (r1 16) .w 31 two ?_ ?_ ?_).2 15 ?_ ?_ |>.2.2 ?_ ?_ ?_ ?_) <;> decide +kernel
def fRC : FileRec := { id := 7, slot := 3, length := 4096, received := 4096, data := [(65, 9), (130, 8)], wc := [(0, 1)] }
def celR (h : Half) : Half := { h with cel := { h.cel with chans := [3, 3, 3, 3], rate := 3, chGib := 16 } }
def rc (a b : AttSt) (f : FileRec := fRC) : State := st0 .deployed { dev0 with west := celR { dev0.west with files := [f], att := a }, east := celR { dev0.east with files := [{ f with id := 8 }], att := b } }
def a1 : AttSt := { cache := [(5, [⟨5, 1, 0⟩, ⟨1029, 2, 1⟩, ⟨2053, 3, 2⟩])], fills := [{ line := 9, key := 1 }, { line := 10, key := 1, stale := true }], dir := [20, 30] }
def a2 : AttSt := { cache := [(20, [⟨20, 2, 0⟩])], fills := [{ line := 30, key := 1 }], dir := [1029] }
theorem witness_RemoteCache_rc1 (h : Obligations.RemoteCache) :
    Completes (exec (Instr.remoteRead Side.w 2053 3) (rc a1 a2)) := by
  refine Yields.completes ((h (rc a1 a2) .w 2053 3 ?_ ?_).1 ⟨2053, 3, 2⟩ ?_) <;> decide +kernel
theorem witness_RemoteCache_rc2 (h : Obligations.RemoteCache) :
    Completes (exec (Instr.remoteRead Side.w 2053 4) (rc a1 a2)) := by
  refine Yields.completes ((h (rc a1 a2) .w 2053 4 ?_ ?_).2.1 ?_ ?_ ?_ ?_) <;> decide +kernel
theorem witness_RemoteCache_rc3 (h : Obligations.RemoteCache) :
    Completes (exec (Instr.remoteFill Side.w 9 1) (rc a1 a2)) := by
  refine Yields.completes ((h (rc a1 a2) .w 9 1 ?_ ?_).2.2.1 { line := 9, key := 1 } ?_) <;> decide +kernel
theorem witness_RemoteCache_rc3b (h : Obligations.RemoteCache) :
    Completes (exec (Instr.remoteFill Side.w 10 1) (rc a1 a2)) := by
  refine Yields.completes ((h (rc a1 a2) .w 10 1 ?_ ?_).2.2.1 { line := 10, key := 1, stale := true } ?_) <;> decide +kernel
theorem witness_RemoteCache_rc4 (h : Obligations.RemoteCache) :
    Completes (exec (Instr.remoteWrite Side.w 8 60 (List.replicate 70 5)) (rc a1 { a2 with dir := [] })) := by
  refine Yields.completes ((h (rc a1 { a2 with dir := [] }) .w 10 1 ?_ ?_).2.2.2.1 8 60 { fRC with id := 8 } (List.replicate 70 5) ?_ ?_ ?_ ?_ ?_ ?_ ?_ ?_) <;> decide +kernel
def a3 : AttSt := { a1 with held := [{ line := cellarLine .w 7 1, file := 7, offset := 64, data := [1] }], dir := [cellarLine .w 7 1, 20] }
def a4 : AttSt := { a2 with cache := [(cellarLine .w 7 1 % 1024, [⟨cellarLine .w 7 1, 2, 0⟩])], fills := [{ line := cellarLine .w 7 1, key := 1 }] }
theorem witness_RemoteCache_rc5 (h : Obligations.RemoteCache) :
    Completes (exec (Instr.snoopInvalidate Side.w (cellarLine Side.w 7 1)) (rc a3 a4)) := by
  refine Yields.completes (((h (rc a3 a4) .w (cellarLine .w 7 1) 1 ?_ ?_).2.2.2.2.1 (by simp [rc, celR, a3, st0, Dev.half])).1 ⟨_, List.mem_singleton_self _, by simp [touched]⟩) <;> decide +kernel
theorem witness_RemoteCache_rc6b (h : Obligations.RemoteCache) :
    Completes (exec (Instr.invalidateAck Side.w 30) (rc a1 a2)) := by
  refine Yields.completes (((h (rc a1 a2) .w 30 1 ?_ ?_).2.2.2.2.1 ?_).2 ?_) <;> decide +kernel
theorem witness_RemoteCache_rc7 (h : Obligations.RemoteCache) :
    Completes (exec (Instr.evictionReport Side.w 30) (rc a1 a2)) := by
  refine Yields.completes (((h (rc a1 a2) .w 30 1 ?_ ?_).2.2.2.2.2) ?_) <;> decide +kernel
def ld (l : LdrSt) : State := st0 .deployed ({ dev0 with ldr := l, west := { dev0.west with files := [fRC] }, sec := { dev0.sec with cert := some [1,2], slots := [(3, { kind := .file })] } }.setRg 0 .cfgBoot 0 3)
def recs : LdrSt := { records := [{ seq := 3, type := 9, key := 0, data := .boot 1 }, { seq := 4, type := 4, key := 7, data := .other 5 }], seq := 0xFFFFFFFF, sector := 478, used := 7 }
theorem witness_LarderRows_la1 (h : Obligations.LarderRows) :
    Completes (exec (Instr.larderAppend 9 0 5) (ld recs)) := by
  refine Yields.completes ((h (ld recs) ?_ ?_).1 9 0 5 (.boot 3) ?_ ?_ ?_ ?_ ?_) <;> decide +kernel
theorem witness_LarderRows_la2 (h : Obligations.LarderRows) :
    Completes (exec (Instr.ldrCompact Writer.fw 3) (ld { recs with hostMode := true })) := by
  refine Yields.completes ((h (ld { recs with hostMode := true }) ?_ ?_).2.1 .fw 3 ?_ ?_ ?_ ?_) <;> decide +kernel
theorem witness_LarderRows_la3 (h : Obligations.LarderRows) :
    Completes (exec Instr.larderCompactionComplete (ld { recs with compacting := true, hold := true })) := by
  refine Yields.completes ((h (ld { recs with compacting := true, hold := true }) ?_ ?_).2.2 ?_) <;> decide +kernel
def lc (g : Half → Half) (f : FileRec := fRC) : State := st0 .deployed { dev0 with west := g { dev0.west with files := [f] }, east := g { dev0.east with files := [{ f with id := 5 }, f] } }
def dep (h : Half) : Half := { h with xts := { h.xts with checks := [(7, 0, 5)] } }
theorem witness_LineChecks_lk1 (h : Obligations.LineChecks) :
    Completes (exec (Instr.lineCheckComplete Side.w 7 0 3 LineOutcome.pass) (lc dep)) := by
  refine Yields.completes ((h.1 (lc dep) .w 7 fRC ?_ ?_ ?_).1 0 3 ?_) <;> decide +kernel
theorem witness_LineChecks_lk2 (h : Obligations.LineChecks) :
    Completes (exec (Instr.lineCheckComplete Side.e 7 0 3 LineOutcome.tag) (lc dep)) := by
  refine Yields.completes ((h.1 (lc dep) .e 7 fRC ?_ ?_ ?_).2.1 0 3 .tag ?_ ?_ ?_ ?_ ?_ ?_ |>.1 ?_ ?_ ?_) <;> decide +kernel
def brn (h : Half) : Half := { dep h with face := { h.face with state := .running, plan := some { fileId := 7, hash := 0, cls := false }, fires := 1 } }
theorem witness_LineChecks_lk3 (h : Obligations.LineChecks) :
    Completes (exec (Instr.lineCheckComplete Side.e 7 0 3 LineOutcome.tag) (lc brn)) := by
  refine Yields.completes ((h.1 (lc brn) .e 7 fRC ?_ ?_ ?_).2.1 0 3 .tag ?_ ?_ ?_ ?_ ?_ ?_ |>.2 ?_ ?_ ?_) <;> decide +kernel
def rk (n : Nat) (h : Half) : Half := { h with xts := { h.xts with rekey := some (7, n) } }
def f3 : FileRec := { fRC with received := 3 * 65536 , length := 4 * 65536, wc := [(0, 5), (2, 9)] }
theorem witness_LineChecks_lk4 (h : Obligations.LineChecks) :
    Completes (exec (Instr.rekeySector Side.e) (lc (rk 0) f3)) := by
  refine Yields.completes (((h.1 (lc (rk 0) f3) .e 7 f3 ?_ ?_ ?_).2.2 0 0 ?_ ?_).1 ?_) <;> decide +kernel
theorem witness_LineChecks_lk5 (h : Obligations.LineChecks) :
    Completes (exec (Instr.rekeySector Side.w) (lc (rk 2) f3)) := by
  refine Yields.completes (((h.1 (lc (rk 2) f3) .w 7 f3 ?_ ?_ ?_).2.2 2 2 ?_ ?_).2 ?_ ?_) <;> decide +kernel
def at1 (h : Half) : Half := { h with attic := (List.range 20).map fun k => (4194304 + 262144 * k, 5) }
theorem witness_LineChecks_pa1 (h : Obligations.LineChecks) :
    Completes (exec (Instr.attStageWrite Writer.host Side.e 26) (K (lc at1) .attStage .attStage 1 20)) := by
  refine Yields.completes ((h.2 (K (lc at1) .attStage .attStage 1 20) .e .host 26 ?_ ?_ ?_).1 ?_ ?_ ?_ ?_) <;> decide +kernel
def u9 : State := K (cel (c3)) .qryReserve .qryReserve 0 100
theorem witness_LineChecks_pa2 (h : Obligations.LineChecks) :
    Completes (exec (Instr.qryReserveWrite Writer.host Side.w 4096) u9) := by
  refine Yields.completes ((h.2 u9 .w .host 4096 ?_ ?_ ?_).2 ?_ ?_ ?_) <;> decide +kernel
end Cellar

namespace Haul

def quads4 (x : Quad) (h : Half) : Half := { h with haul := { h.haul with q0 := x, q1 := { x with tx := 9 }, q2 := x, q3 := { x with tx := 10 } } }
/-- all quads of both halves in x, HAUL_Q_CTRL c -/
def ha (x : Quad) (c : Word := 0x300001) (g : Half → Half := id) : State :=
  let d : Dev := { dev0 with west := g (quads4 x dev0.west), east := g (quads4 x dev0.east) }
  st0 .deployed ([0, 1].foldl (fun d k => [0, 1, 2, 3].foldl (fun d q => d.setRg k .haulQCtrl q c) d) d)
def hm (n : Nat) (h : Half) : Half := { h with modes := BitVec.ofNat _ n }
def K (s : State) (r : Rg) (i die : Nat) (v : Word) : State := { s with dev := s.dev.setRg die r i v }
def lanes (s : State) (v : Word) : State := (List.range 16).foldl (fun s k => K (K s .haulLaneStatus k 0 v) .haulLaneStatus k 1 v) s
def up : Quad := { st := .up, credits := 60, tx := 3, rx := 255, replay := [(1, 5, [1])], keyed := true }
theorem witness_HaulTraining_ht1 (h : Obligations.HaulTraining) :
    Completes (exec (Instr.haulModeWrite Writer.host Side.w 2 0) (ha up)) := by
  refine Yields.completes (((h (ha up) .w 2 ?_ ?_).1 .host 0x0 ?_).1 ?_ ?_ |>.1 ?_ ?_ ?_) <;> decide +kernel
theorem witness_HaulTraining_ht2 (h : Obligations.HaulTraining) :
    Completes (exec (Instr.haulRetrain Writer.poke Side.e 0 257) (ha up)) := by
  refine Yields.completes (((h (ha up) .e 0 ?_ ?_).1 .poke 0x101 ?_).1 ?_ ?_ |>.2 ?_ ?_ ?_) <;> decide +kernel
def ad : Quad := { st := .adapt, clkLock := true, hostAdapt := true, retrain := false }
theorem witness_HaulTraining_ht3 (h : Obligations.HaulTraining) :
    Completes (exec (Instr.haulCommit Writer.host Side.w 3 513) (ha ad)) := by
  refine Yields.completes (((h (ha ad) .w 3 ?_ ?_).1 .host 0x201 ?_).2.1 ?_ ?_ ?_ |>.1 ?_ ?_) <;> decide +kernel
def al : Quad := { st := .align, clkLock := true, hostAlign := true, retrain := true, replay := [(1, 5, [1])], credits := 3 }
theorem witness_HaulTraining_ht4 (h : Obligations.HaulTraining) :
    Completes (exec (Instr.haulCommit Writer.host Side.w 3 513) (lanes (ha al) 0x100)) := by
  refine Yields.completes (((h (lanes (ha al) 0x100) .w 3 ?_ ?_).1 .host 0x201 ?_).2.1 ?_ ?_ ?_
      |>.2 ?_ ?_ ?_) <;> decide +kernel
theorem witness_HaulTraining_ht5 (h : Obligations.HaulTraining) :
    Completes (exec (Instr.haulSlip Writer.host Side.e 3 3 1) (lanes (ha al) 0x410100)) := by
  refine Yields.completes ((((h (lanes (ha al) 0x410100) .e 3 ?_ ?_).1 .host 0x1 ?_).2.2 3).1 ?_ ?_ ?_ ?_) <;> decide +kernel
theorem witness_HaulTraining_ht6 (h : Obligations.HaulTraining) :
    Completes (exec (Instr.inject Writer.fw Side.w 0 1 4294967294) (ha up 0x300004)) := by
  refine Yields.completes ((((h (ha up 0x300004) .w 0 ?_ ?_).1 .fw 0xFFFFFFFE ?_).2.2 1).2.1 ?_ ?_) <;> decide +kernel
theorem witness_HaulTraining_ht7 (h : Obligations.HaulTraining) :
    Completes (exec (Instr.haulLaneEqWrite Writer.fw Side.e 3 1 4294967295) (ha up)) := by
  refine Yields.completes ((((h (ha up) .e 3 ?_ ?_).1 .fw 0xFFFFFFFF ?_).2.2 1).2.2 ?_) <;> decide +kernel
theorem witness_HaulTraining_ht8 (h : Obligations.HaulTraining) :
    Completes (exec (Instr.haulClockLock Side.w 3) (ha { st := .clock } 1 (hm 4))) := by
  refine Yields.completes ((h (ha { st := .clock } 1 (hm 4)) .w 3 ?_ ?_).2.1 ?_ |>.1) <;> decide +kernel
theorem witness_HaulTraining_ht8b (h : Obligations.HaulTraining) :
    Completes (exec (Instr.haulClockTimeout Side.e 3) (ha { st := .clock } 1)) := by
  refine Yields.completes ((h (ha { st := .clock } 1) .e 3 ?_ ?_).2.1 ?_ |>.2 ?_ ?_) <;> decide +kernel
theorem witness_HaulTraining_ht9 (h : Obligations.HaulTraining) :
    Completes (exec (Instr.haulAdaptDone Side.e 3 [255, 48, 49, 50] [1, 2, 4294967295]) (ha { ad with hostAdapt := false })) := by
  refine Yields.completes ((h (ha { ad with hostAdapt := false }) .e 3 ?_ ?_).2.2.1 [255, 48, 49, 50] [1, 2, 0xFFFFFFFF] ?_ ?_ ?_ ?_) <;> decide +kernel
theorem witness_HaulTraining_ht10 (h : Obligations.HaulTraining) :
    Completes (exec (Instr.haulAlignDone Side.e 3 [0, 65, 66]) (ha { al with hostAlign := false, retrain := false })) := by
  refine Yields.completes ((h (ha { al with hostAlign := false, retrain := false }) .e 3 ?_ ?_).2.2.2.1 [0, 65, 66] ?_ ?_) <;> decide +kernel
theorem witness_HaulTraining_ht11 (h : Obligations.HaulTraining) :
    Completes (exec (Instr.haulLinkDone Side.w 0 100) (ha { al with st := .link })) := by
  refine Yields.completes ((h (ha { al with st := .link }) .w 0 ?_ ?_).2.2.2.2.1 100 ?_ ?_) <;> decide +kernel
theorem witness_HaulTraining_ht12 (h : Obligations.HaulTraining) :
    Completes (exec (Instr.haulLockLoss Side.e 0) (ha up)) := by
  refine Yields.completes ((h (ha up) .e 0 ?_ ?_).2.2.2.2.2.1 ?_) <;> decide +kernel
theorem witness_HaulTraining_ht13 (h : Obligations.HaulTraining) :
    Completes (exec (Instr.haulClockAbsent Side.e 0) (ha up)) := by
  refine Yields.completes ((h (ha up) .e 0 ?_ ?_).2.2.2.2.2.2 ?_) <;> decide +kernel
def rx1 : HaulRx := { quad := 1, seq := 255 }
def H2 (q : Word) (rl : Word) (g : Half → Half := id) : State := K (K (ha up q g) .haulRelay 0 0 rl) .haulRelay 0 1 rl
theorem witness_HaulFrames_hf1 (h : Obligations.HaulFrames) :
    Completes (exec (Instr.relay Side.w rx1 7 [[1, 2, 17], [], [0, 5]]) (H2 0x12 0x100)) := by
  refine Yields.completes ((h (H2 0x12 0x100) .w rx1 ?_ ?_ ?_ ?_ ?_ ?_).1 7 [[1, 2, 17], [], [0, 5]] ?_ ?_ ?_) <;> decide +kernel
theorem witness_HaulFrames_hf2 (h : Obligations.HaulFrames) :
    Completes (exec (Instr.relayTag Side.e rx1 7 5) (H2 0x12 0x103)) := by
  refine Yields.completes ((h (H2 0x12 0x103) .e rx1 ?_ ?_ ?_ ?_ ?_ ?_).2.1 7 5 ?_ ?_ ?_) <;> decide +kernel
def brn (h : Half) : Half := { h with face := { h.face with state := .running, plan := some { fileId := 7, hash := 0, cls := false }, fires := 1 } }
theorem witness_HaulFrames_hf3 (h : Obligations.HaulFrames) :
    Completes (exec (Instr.relayTag Side.e rx1 7 6) (H2 0x12 0x1FF brn)) := by
  refine Yields.completes ((h (H2 0x12 0x1FF brn) .e rx1 ?_ ?_ ?_ ?_ ?_ ?_).2.1 7 6 ?_ ?_ ?_) <;> decide +kernel
def cl (x : Option Nat) (fs : List FileRec) (h : Half) : Half := { h with cel := { h.cel with chans := [3,3,3,3], rate := 3, chGib := 16 }, haul := { h.haul with spoilRx := x }, files := fs }
def QR (s : State) : State := K (K s .qryReserve 0 0 10) .qryReserve 0 1 10
def spf : FileRec := { id := 20, slot := 0, length := 1000000, received := 128, spoil := 6, data := [(3, 4)] }
def ln77 : List Byte := (List.range 77).map fun n => BitVec.ofNat 8 (n + 1)
theorem sp1 : ∀ id, (QR (ha up 0x13 (cl (some 20) [spf]))).dev.west.haul.spoilRx = some id → id = 20 := by
  have : (QR (ha up 0x13 (cl (some 20) [spf]))).dev.west.haul.spoilRx = some 20 := by decide +kernel
  intro id h; rw [this] at h; cases h; rfl
theorem sp2 : ∃ f, (QR (ha up 0x13 (cl (some 20) [spf]))).dev.west.file 20 = some f ∧ f.received % 64 = 0 ∧ f.received + 64 ≤ f.length ∧ f.received + 64 ≤ 2 ^ 40 := ⟨spf, by decide +kernel⟩
theorem sp3 : ∀ id, ((QR (ha up 0x13 (cl none [])))).dev.east.haul.spoilRx ≠ some id := by
  have : (QR (ha up 0x13 (cl none []))).dev.east.haul.spoilRx = none := by decide +kernel
  intro id h; rw [this] at h; cases h
theorem witness_HaulFrames_hf4 (h : Obligations.HaulFrames) :
    Completes (exec (Instr.spoil Side.w rx1 ln77) (QR (ha up 0x13 (cl (some 20) [spf])))) := by
  refine Yields.completes ((h (QR (ha up 0x13 (cl (some 20) [spf]))) .w rx1 ?_ ?_ ?_ ?_ ?_ ?_).2.2.1 ln77 ?_ ?_ ?_ ?_ ?_
    (fun id hi => (sp1 id hi) ▸ sp2)) <;> decide +kernel
theorem witness_HaulFrames_hf5 (h : Obligations.HaulFrames) :
    Completes (exec (Instr.key Side.w rx1 true false) (H2 0x12 0x100)) := by
  refine Yields.completes (((h (H2 0x12 0x100) .w rx1 ?_ ?_ ?_ ?_ ?_ ?_).2.2.2 ?_).1 false) <;> decide +kernel
theorem witness_HaulFrames_hf6 (h : Obligations.HaulFrames) :
    Completes (exec (Instr.key Side.w rx1 false true) (H2 0x12 0x100)) := by
  refine Yields.completes (((h (H2 0x12 0x100) .w rx1 ?_ ?_ ?_ ?_ ?_ ?_).2.2.2 ?_).2 ?_) <;> decide +kernel
def upc : Quad := { up with replay := [(254, 5, [1]), (255, 5, [2]), (0, 6, [])], echoes := [3, 4] }
theorem witness_HaulControl_hc1 (h : Obligations.HaulControl) :
    Completes (exec (Instr.ack Side.w 3 255 2 false) (ha upc)) := by
  refine Yields.completes (((h (ha upc) .w 3 ?_ ?_).1 ?_).1 255 2 false ?_ ?_) <;> decide +kernel
theorem witness_HaulControl_hc1b (h : Obligations.HaulControl) :
    Completes (exec (Instr.ack Side.w 3 255 2 true) (ha upc)) := by
  refine Yields.completes (((h (ha upc) .w 3 ?_ ?_).1 ?_).1 255 2 true ?_ ?_) <;> decide +kernel
theorem witness_HaulControl_hc2 (h : Obligations.HaulControl) :
    Completes (exec (Instr.creditReset Side.e 0) (ha { upc with replay := [] })) := by
  refine Yields.completes (((h (ha { upc with replay := [] }) .e 0 ?_ ?_).1 ?_).2.1 ?_ ?_) <;> decide +kernel
theorem witness_HaulControl_hc3 (h : Obligations.HaulControl) :
    Completes (exec (Instr.echo Side.e 0 77) (ha upc)) := by
  refine Yields.completes (((h (ha upc) .e 0 ?_ ?_).1 ?_).2.2.1 77) <;> decide +kernel
theorem witness_HaulControl_hc4 (h : Obligations.HaulControl) :
    Completes (exec (Instr.echoReplySend Side.e 0) (ha upc)) := by
  refine Yields.completes (((h (ha upc) .e 0 ?_ ?_).1 ?_).2.2.2.1 3 [4] rfl ?_) <;> decide +kernel
theorem witness_HaulControl_hc5 (h : Obligations.HaulControl) :
    Completes (exec (Instr.echoReply Side.e 0 3 64) (ha upc)) := by
  refine Yields.completes (((h (ha upc) .e 0 ?_ ?_).1 ?_).2.2.2.2 3 64 ?_) <;> decide +kernel
def rl (b : Bool) (t : Nat) : Quad := { up with keyed := b, pack := [0x123, 5, 7], first := 100, tagged := t }
def R2 (x : Quad) (q r : Word) : State := K (K (ha x q) .haulRelay 0 0 r) .haulRelay 0 1 r
theorem witness_HaulControl_hc6 (h : Obligations.HaulControl) :
    Completes (exec (Instr.relayFrameClose Side.e 0) (R2 (rl false 0) 2 0x0F)) := by
  refine Yields.completes (((h (R2 (rl false 0) 2 0x0F) .e 0 ?_ ?_).2 0x123 [5, 7] ?_ ?_).1 ?_) <;> decide +kernel
theorem witness_HaulControl_hc7 (h : Obligations.HaulControl) :
    Completes (exec (Instr.relayFrameClose Side.w 0) (R2 (rl true 62) 2 0x0F)) := by
  refine Yields.completes (((h (R2 (rl true 62) 2 0x0F) .w 0 ?_ ?_).2 0x123 [5, 7] ?_ ?_).2 ?_ ?_ ?_ ?_) <;> decide +kernel
def ca (s : State) (c : Word) (cs : CascSt) : State := let s := K s .haulCascade 0 0 c; { s with dev := { s.dev with casc := cs } }
theorem witness_CascadeRows_ca1 (h : Obligations.CascadeRows) :
    Completes (exec (Instr.timeSync Writer.host) (ca (ha up) 0xF4 { ctime := 500 })) := by
  refine Yields.completes ((((h (ca (ha up) 0xF4 { ctime := 500 }) ?_ ?_).1 .host ?_ ?_)).1) <;> decide +kernel
theorem witness_CascadeRows_ca1b (h : Obligations.CascadeRows) :
    Completes (exec (Instr.fireTx Writer.host) (ca (ha up) 0xF4 { ctime := 500 })) := by
  refine Yields.completes (((h (ca (ha up) 0xF4 { ctime := 500 }) ?_ ?_).1 .host ?_ ?_).2) <;> decide +kernel
theorem witness_CascadeRows_ca2 (h : Obligations.CascadeRows) :
    Completes (exec (Instr.haulFire Side.w rx1 564) (ca (ha up) 0xC1 { ctime := 500, fires := [(3, 3)] })) := by
  refine Yields.completes (((h (ca (ha up) 0xC1 { ctime := 500, fires := [(3, 3)] }) ?_ ?_).2.1 rx1 564 ?_ ?_ ?_ ?_ ?_).1 ?_) <;> decide +kernel
theorem witness_CascadeRows_ca3 (h : Obligations.CascadeRows) :
    Completes (exec (Instr.time Side.w rx1 564) (K (ca (ha up) 0xC1 { ctime := 500 }) .haulRxLat 1 0 0x00800FFF)) := by
  refine Yields.completes (((h (K (ca (ha up) 0xC1 { ctime := 500 }) .haulRxLat 1 0 0x00800FFF) ?_ ?_).2.1 rx1 564 ?_ ?_ ?_ ?_ ?_).2 ?_ ?_) <;> decide +kernel
def armd (h : Half) : Half := { h with face := { h.face with state := .armed, plan := some { fileId := 7, hash := 0, cls := false } }, attic := [(6, 7)], cal := { h.cal with loaded := true } }
def aS : State := ca (ha up 0x300001 armd) 0xC1 { ctime := 500, fires := [(77, 3)] }
theorem witness_CascadeRows_ca4 (h : Obligations.CascadeRows) :
    Completes (exec (Instr.haulFireTime) aS) := by
  refine Yields.completes ((h aS ?_ ?_).2.2.1 77 ?_ ?_ ?_ (fun side => by cases side <;> decide +kernel)) <;> decide +kernel
theorem witness_CascadeRows_ca5 (h : Obligations.CascadeRows) :
    Completes (exec (Instr.flag Side.w rx1 52 3 1) (ha up 1 brn)) := by
  refine Yields.completes (((h (ha up 1 brn) ?_ ?_).2.2.2.1 .w rx1 52 3 1 ?_ ?_ ?_ ?_ ?_ ?_ ?_)) <;> decide +kernel
def fl (h : Half) : Half := let h := brn h; { h with haul := { h.haul with flags := [(5, 0xF0, 0x5A)] } }
theorem witness_CascadeRows_ca6 (h : Obligations.CascadeRows) :
    Completes (exec (Instr.flagApply Side.e) (K (ha up 1 fl) .haulFlagIn 0 1 0xC3)) := by
  refine Yields.completes (((h (K (ha up 1 fl) .haulFlagIn 0 1 0xC3) ?_ ?_).2.2.2.2 .e 5 0xF0 0x5A ?_ ?_)) <;> decide +kernel
theorem witness_AlignmentWrites_aw1 (h : Obligations.AlignmentWrites) :
    Completes (exec (Instr.xmodPhaseWrite Writer.host 9999) (K (ha up) .haulXmod 0 0 0x10005)) := by
  refine Yields.completes (((h (K (ha up) .haulXmod 0 0 0x10005) .host 9999 ?_ ?_ ?_ ?_).1 ?_ ?_).1 ?_ ?_) <;> decide +kernel
theorem witness_AlignmentWrites_aw2 (h : Obligations.AlignmentWrites) :
    Completes (exec (Instr.xmodAlignedWrite Writer.poke 65541) (K (K (ha up) .haulXmod 0 0 5) .faceFireOffset 0 0 0x777)) := by
  refine Yields.completes (((h (K (K (ha up) .haulXmod 0 0 5) .faceFireOffset 0 0 0x777) .poke 0x10005 ?_ ?_ ?_ ?_).1 ?_ ?_).2 ?_ ?_) <;> decide +kernel
theorem witness_AlignmentWrites_aw3 (h : Obligations.AlignmentWrites) :
    Completes (exec (Instr.haulAdjWrite Writer.poke Side.e 2 4294967295) (K (K (ha up) .haulXmod 0 0 0x10005) .haulRxLat 2 1 0x120345)) := by
  refine Yields.completes (((h (K (K (ha up) .haulXmod 0 0 0x10005) .haulRxLat 2 1 0x120345) .poke 0xFFFFFFFF ?_ ?_ ?_ ?_).2.1 .e 2)) <;> decide +kernel
theorem witness_AlignmentWrites_aw4 (h : Obligations.AlignmentWrites) :
    Completes (exec (Instr.haulCascadeWrite Writer.fw 4294967295) (K (ha up) .haulXmod 0 0 0x10005)) := by
  refine Yields.completes (((h (K (ha up) .haulXmod 0 0 0x10005) .fw 0xFFFFFFFF ?_ ?_ ?_ ?_).2.2 ?_)) <;> decide +kernel
end Haul

namespace Debug

/-- The CRC of a Trapdoor request. -/
def crcB (req : List Byte) : Byte := BitVec.ofNat 8 (crc8 req)
def D (x : DbgSt) (l : Life := .deployed) (f : Dev → Dev := id) : State := st0 l (f { dev0 with dbg := x })
theorem witness_TrapdoorAccess_ta1 (h : Obligations.TrapdoorAccess) :
    Completes (exec (Instr.idcode (crcB [0x01])) (D {})) := by
  refine Yields.completes ((h (D {}) (crcB [0x01]) ?_ ?_).1 ?_) <;> decide +kernel
theorem witness_TrapdoorAccess_ta2 (h : Obligations.TrapdoorAccess) :
    Completes (exec (Instr.challenge (crcB [0x02])) (D { nonce := some 4 } .blank)) := by
  refine Yields.completes ((h (D { nonce := some 4 } .blank) (crcB [0x02]) ?_ ?_).2.1 ?_ |>.1 ?_) <;> decide +kernel
theorem witness_TrapdoorAccess_ta2b (h : Obligations.TrapdoorAccess) :
    Completes (exec (Instr.token 5 0 [9] (crcB (0x03 :: beBytes 4 5 ++ beBytes 4 0 ++ [9]))) (D { nonce := some 4 } .retired)) := by
  refine Yields.completes ((h (D { nonce := some 4 } .retired) (crcB (0x03 :: beBytes 4 5 ++ beBytes 4 0 ++ [9])) ?_ ?_).2.2.1 5 0 [9] ?_ |>.1 ?_) <;> decide +kernel
theorem witness_TrapdoorAccess_ta3 (h : Obligations.TrapdoorAccess) :
    Completes (exec (Instr.challenge (crcB [0x02])) (D { nonce := some 4 })) := by
  refine Yields.completes ((h (D { nonce := some 4 }) (crcB [0x02]) ?_ ?_).2.1 ?_ |>.2 ?_) <;> decide +kernel
theorem witness_TrapdoorAccess_ta4 (h : Obligations.TrapdoorAccess) :
    Completes (exec (Instr.token 31 0 [9] (crcB (0x03 :: beBytes 4 31 ++ beBytes 4 0 ++ [9]))) (D { nonce := some 4 })) := by
  refine Yields.completes ((h (D { nonce := some 4 }) (crcB (0x03 :: beBytes 4 31 ++ beBytes 4 0 ++ [9])) ?_ ?_).2.2.1 31 0 [9] ?_ |>.2 ?_ ?_ ?_) <;> decide +kernel
theorem witness_TrapdoorAccess_ta5 (h : Obligations.TrapdoorAccess) :
    Completes (exec (Instr.token 32 0 [9] (crcB (0x03 :: beBytes 4 32 ++ beBytes 4 0 ++ [9]))) (D { nonce := some 4, scope := some 3 })) := by
  refine Yields.completes ((h (D { nonce := some 4, scope := some 3 }) (crcB (0x03 :: beBytes 4 32 ++ beBytes 4 0 ++ [9])) ?_ ?_).2.2.1 32 0 [9] ?_ |>.2 ?_ ?_ ?_) <;> decide +kernel
theorem witness_TrapdoorAccess_ta5b (h : Obligations.TrapdoorAccess) :
    Completes (exec (Instr.idcode 0) (D { nonce := some 4 })) := by
  refine Yields.completes ((h (D { nonce := some 4 }) 0 ?_ ?_).2.2.2.1 ?_ |>.1 ?_) <;> decide +kernel
theorem witness_TrapdoorAccess_ta5c (h : Obligations.TrapdoorAccess) :
    Completes (exec (Instr.challenge 0) (D { nonce := some 4 })) := by
  refine Yields.completes ((h (D { nonce := some 4 }) 0 ?_ ?_).2.2.2.1 ?_ |>.2.1 ?_) <;> decide +kernel
theorem witness_TrapdoorAccess_ta5d (h : Obligations.TrapdoorAccess) :
    Completes (exec (Instr.token 5 0 [9] 0) (D { nonce := some 4 })) := by
  refine Yields.completes ((h (D { nonce := some 4 }) 0 ?_ ?_).2.2.2.1 ?_ |>.2.2 5 0 [9] ?_) <;> decide +kernel
theorem witness_TrapdoorAccess_ta6 (h : Obligations.TrapdoorAccess) :
    Completes (exec (Instr.tokenExpire) (D { nonce := some 3, scope := some 5, pins := true, drive := [(3, 1, 1)] } .returned)) := by
  refine Yields.completes ((h (D { nonce := some 3, scope := some 5, pins := true, drive := [(3, 1, 1)] } .returned) 0 ?_ ?_).2.2.2.2.1) <;> decide +kernel
theorem witness_TrapdoorAccess_ta7 (h : Obligations.TrapdoorAccess) :
    Completes (exec (Instr.trapLineIdle) (D { nonce := some 3, scope := some 31 } .returned)) := by
  refine Yields.completes ((h (D { nonce := some 3, scope := some 31 } .returned) 0 ?_ ?_).2.2.2.2.2.1) <;> decide +kernel
theorem witness_TrapdoorAccess_ta8 (h : Obligations.TrapdoorAccess) :
    Completes (exec (Instr.framingError true) (D { lows := 3 })) := by
  refine Yields.completes ((h (D { lows := 3 }) 0 ?_ ?_).2.2.2.2.2.2 true) <;> decide +kernel
def PS (x : DbgSt) (f : Dev → Dev := id) := D { x with scope := some 31 } .deployed f
def run1 (d : Dev) : Dev := { d with east := { d.east with face := { d.east.face with state := .armed, plan := some { fileId := 7, hash := 0, cls := false } } } }
theorem witness_PinsAndFlash_pf1 (h : Obligations.PinsAndFlash) :
    Completes (exec (Instr.pinsEnter 7 (crcB (0x30 :: 0 :: beBytes 3 7))) (PS {})) := by
  refine Yields.completes ((h (PS {}) (crcB (0x30 :: 0 :: beBytes 3 7)) ?_ ?_).1 ?_ |>.1 7 ?_
      |>.1 ?_ ?_ ?_) <;> decide +kernel
theorem witness_PinsAndFlash_pf2 (h : Obligations.PinsAndFlash) :
    Completes (exec (Instr.pinsEnter 7 (crcB (0x30 :: 0 :: beBytes 3 7))) (PS {} run1)) := by
  refine Yields.completes ((h (PS {} run1) (crcB (0x30 :: 0 :: beBytes 3 7)) ?_ ?_).1 ?_ |>.1 7 ?_
      |>.2 ?_) <;> decide +kernel
theorem witness_PinsAndFlash_pf3 (h : Obligations.PinsAndFlash) :
    Completes (exec (Instr.pinsExit 0 (crcB (0x30 :: 1 :: beBytes 3 0))) (PS { pins := true, drive := [(3, 1, 1)] })) := by
  refine Yields.completes ((h (PS { pins := true, drive := [(3, 1, 1)] }) (crcB (0x30 :: 1 :: beBytes 3 0)) ?_ ?_).1 ?_
      |>.2.1 0 ?_) <;> decide +kernel
theorem witness_PinsAndFlash_pf4 (h : Obligations.PinsAndFlash) :
    Completes (exec (Instr.pinsSet 3 3 (crcB (0x30 :: 2 :: (beBytes 2 3 ++ [3])))) (PS { drive := [(3, 1, 1)] })) := by
  refine Yields.completes ((h (PS { drive := [(3, 1, 1)] }) (crcB (0x30 :: 2 :: (beBytes 2 3 ++ [3]))) ?_ ?_).1 ?_
      |>.2.2.1 3 3 ?_ |>.1 ?_) <;> decide +kernel
theorem witness_PinsAndFlash_pf4b (h : Obligations.PinsAndFlash) :
    Completes (exec (Instr.pinsGet 3 0 true (crcB (0x30 :: 3 :: (beBytes 2 3 ++ [0])))) (PS { drive := [(3, 1, 1)] })) := by
  refine Yields.completes ((h (PS { drive := [(3, 1, 1)] }) (crcB (0x30 :: 3 :: (beBytes 2 3 ++ [0]))) ?_ ?_).1 ?_
      |>.2.2.2 3 0 true ?_ |>.1 ?_) <;> decide +kernel
def pn2 : State := PS { pins := true, drive := [(1027, 1, 0), (3, 1, 1), (700, 0, 1), (5, 0, 1)] }
theorem witness_PinsAndFlash_pi0 (h : Obligations.PinsAndFlash) :
    Completes (exec (Instr.pinsSet 300 1 (crcB (0x30 :: 2 :: (beBytes 2 300 ++ [1])))) pn2) := by
  refine Yields.completes ((h pn2 (crcB (0x30 :: 2 :: (beBytes 2 300 ++ [1]))) ?_ ?_).1 ?_ |>.2.2.1 300 1 ?_ |>.2 ?_
      |>.1 ?_) <;> decide +kernel
theorem witness_PinsAndFlash_pi1 (h : Obligations.PinsAndFlash) :
    Completes (exec (Instr.pinsSet 1600 1 (crcB (0x30 :: 2 :: (beBytes 2 1600 ++ [1])))) pn2) := by
  refine Yields.completes ((h pn2 (crcB (0x30 :: 2 :: (beBytes 2 1600 ++ [1]))) ?_ ?_).1 ?_ |>.2.2.1 1600 1 ?_ |>.2 ?_
      |>.2 3 64 ?_ |>.1 ?_) <;> decide +kernel
theorem witness_PinsAndFlash_pi2 (h : Obligations.PinsAndFlash) :
    Completes (exec (Instr.pinsSet 1027 3 (crcB (0x30 :: 2 :: (beBytes 2 1027 ++ [3])))) pn2) := by
  refine Yields.completes ((h pn2 (crcB (0x30 :: 2 :: (beBytes 2 1027 ++ [3]))) ?_ ?_).1 ?_ |>.2.2.1 1027 3 ?_ |>.2 ?_
      |>.2 2 3 ?_ |>.2 ?_ ?_) <;> decide +kernel
theorem witness_PinsAndFlash_pi3a (h : Obligations.PinsAndFlash) :
    Completes (exec (Instr.pinsGet 300 0 true (crcB (0x30 :: 3 :: (beBytes 2 300 ++ [0])))) pn2) := by
  refine Yields.completes ((h pn2 (crcB (0x30 :: 3 :: (beBytes 2 300 ++ [0]))) ?_ ?_).1 ?_ |>.2.2.2 300 0 true ?_ |>.2 ?_
      |>.1 ?_) <;> decide +kernel
theorem witness_PinsAndFlash_pi3 (h : Obligations.PinsAndFlash) :
    Completes (exec (Instr.pinsGet 0 0 true (crcB (0x30 :: 3 :: (beBytes 2 0 ++ [0])))) pn2) := by
  refine Yields.completes ((h pn2 (crcB (0x30 :: 3 :: (beBytes 2 0 ++ [0]))) ?_ ?_).1 ?_ |>.2.2.2 0 0 true ?_ |>.2 ?_
      |>.2 0 0 ?_ |>.2 ?_ ?_ |>.2 (.inl ?_)) <;> decide +kernel
theorem witness_PinsAndFlash_pi4 (h : Obligations.PinsAndFlash) :
    Completes (exec (Instr.pinsGet 700 0 false (crcB (0x30 :: 3 :: (beBytes 2 700 ++ [0])))) pn2) := by
  refine Yields.completes ((h pn2 (crcB (0x30 :: 3 :: (beBytes 2 700 ++ [0]))) ?_ ?_).1 ?_ |>.2.2.2 700 0 false ?_
      |>.2 ?_ |>.2 1 188 ?_ |>.1 ?_ |>.1 0 1 ?_ ?_) <;> decide +kernel
theorem witness_PinsAndFlash_pi5 (h : Obligations.PinsAndFlash) :
    Completes (exec (Instr.pinsGet 701 0 false (crcB (0x30 :: 3 :: (beBytes 2 701 ++ [0])))) pn2) := by
  refine Yields.completes ((h pn2 (crcB (0x30 :: 3 :: (beBytes 2 701 ++ [0]))) ?_ ?_).1 ?_ |>.2.2.2 701 0 false ?_
      |>.2 ?_ |>.2 1 189 ?_ |>.1 ?_ |>.2 ?_) <;> decide +kernel
theorem witness_PinsAndFlash_pi6 (h : Obligations.PinsAndFlash) :
    Completes (exec (Instr.pinsGet 3 0 false (crcB (0x30 :: 3 :: (beBytes 2 3 ++ [0])))) pn2) := by
  refine Yields.completes ((h pn2 (crcB (0x30 :: 3 :: (beBytes 2 3 ++ [0]))) ?_ ?_).1 ?_ |>.2.2.2 3 0 false ?_ |>.2 ?_
      |>.2 0 3 ?_ |>.2 ?_ ?_ |>.1 1 ?_ ?_) <;> decide +kernel
theorem witness_PinsAndFlash_pi7 (h : Obligations.PinsAndFlash) :
    Completes (exec (Instr.pinsGet 5 0 true (crcB (0x30 :: 3 :: (beBytes 2 5 ++ [0])))) pn2) := by
  refine Yields.completes ((h pn2 (crcB (0x30 :: 3 :: (beBytes 2 5 ++ [0]))) ?_ ?_).1 ?_ |>.2.2.2 5 0 true ?_ |>.2 ?_
      |>.2 0 5 ?_ |>.2 ?_ ?_ |>.2 (.inr ⟨1, ?_⟩)) <;> decide +kernel
theorem witness_PinsAndFlash_pd1 (h : Obligations.PinsAndFlash) :
    Completes (exec (Instr.pinsEnter 7 (crcB (0x30 :: 0 :: beBytes 3 7))) (D {})) := by
  refine Yields.completes ((h (D {}) (crcB (0x30 :: 0 :: beBytes 3 7)) ?_ ?_).2.1 ?_ |>.1 7 |>.1 ?_) <;> decide +kernel
theorem witness_PinsAndFlash_pd2 (h : Obligations.PinsAndFlash) :
    Completes (exec (Instr.pinsExit 0 (crcB (0x30 :: 1 :: beBytes 3 0))) (D {})) := by
  refine Yields.completes ((h (D {}) (crcB (0x30 :: 1 :: beBytes 3 0)) ?_ ?_).2.1 ?_ |>.1 0 |>.2 ?_) <;> decide +kernel
theorem witness_PinsAndFlash_pd3 (h : Obligations.PinsAndFlash) :
    Completes (exec (Instr.pinsSet 3 3 (crcB (0x30 :: 2 :: (beBytes 2 3 ++ [3])))) (D {})) := by
  refine Yields.completes ((h (D {}) (crcB (0x30 :: 2 :: (beBytes 2 3 ++ [3]))) ?_ ?_).2.1 ?_ |>.2 3 3
      |>.1 ?_) <;> decide +kernel
theorem witness_PinsAndFlash_pd4 (h : Obligations.PinsAndFlash) :
    Completes (exec (Instr.pinsGet 3 0 true (crcB (0x30 :: 3 :: (beBytes 2 3 ++ [0])))) (D {})) := by
  refine Yields.completes ((h (D {}) (crcB (0x30 :: 3 :: (beBytes 2 3 ++ [0]))) ?_ ?_).2.1 ?_ |>.2 3 0
      |>.2 true ?_) <;> decide +kernel
def fls : State := PS { flash := [(0x20FFF00, 4), (0x20FFEFF, 5), (3, 7)] }
def d256 : List Byte := (List.range 256).map fun n => BitVec.ofNat 8 (n+1)
theorem witness_PinsAndFlash_fl1 (h : Obligations.PinsAndFlash) :
    Completes (exec (Instr.flash 0x20FFF00 d256 (crcB (0x40 :: beBytes 4 0x20FFF00 ++ d256))) fls) := by
  refine Yields.completes ((h fls (crcB (0x40 :: beBytes 4 0x20FFF00 ++ d256)) ?_ ?_).2.2 0x20FFF00 d256 ?_ |>.1 ?_
      |>.2 ?_ ?_ |>.1 ?_) <;> decide +kernel
theorem witness_PinsAndFlash_fl2 (h : Obligations.PinsAndFlash) :
    Completes (exec (Instr.flash 0x20FFF01 d256 (crcB (0x40 :: beBytes 4 0x20FFF01 ++ d256))) fls) := by
  refine Yields.completes ((h fls (crcB (0x40 :: beBytes 4 0x20FFF01 ++ d256)) ?_ ?_).2.2 0x20FFF01 d256 ?_ |>.1 ?_
      |>.2 ?_ ?_ |>.2 ?_) <;> decide +kernel
theorem witness_PinsAndFlash_fl2b (h : Obligations.PinsAndFlash) :
    Completes (exec (Instr.flash 0 [1, 2] (crcB (0x40 :: beBytes 4 0 ++ [1, 2]))) fls) := by
  refine Yields.completes ((h fls (crcB (0x40 :: beBytes 4 0 ++ [1, 2])) ?_ ?_).2.2 0 [1, 2] ?_ |>.1 ?_
      |>.1 ?_) <;> decide +kernel
theorem witness_PinsAndFlash_fl3 (h : Obligations.PinsAndFlash) :
    Completes (exec (Instr.flash 0 d256 (crcB (0x40 :: beBytes 4 0 ++ d256))) (D {})) := by
  refine Yields.completes ((h (D {}) (crcB (0x40 :: beBytes 4 0 ++ d256)) ?_ ?_).2.2 0 d256 ?_ |>.2 ?_) <;> decide +kernel
theorem witness_Halts_ha1 (h : Obligations.Halts) :
    Completes (exec (Instr.halt Side.e 2 (crcB (0x20 :: beBytes 1 (16 + 2)))) (PS {})) := by
  refine Yields.completes ((h (PS {}) .e 2 (crcB (0x20 :: beBytes 1 (16 + 2))) ?_ ?_).1 ?_ |>.1 ?_) <;> decide +kernel
def hl (b : Bool) (d : Dev) : Dev := { d with east := { d.east with tsk := d.east.tsk.setHalt b } }
theorem witness_Halts_ha2 (h : Obligations.Halts) :
    Completes (exec (Instr.step Side.e 2 (crcB (0x21 :: beBytes 1 (16 + 2)))) (PS {} (hl true))) := by
  refine Yields.completes ((h (PS {} (hl true)) .e 2 (crcB (0x21 :: beBytes 1 (16 + 2))) ?_ ?_).1 ?_ |>.2.1 ?_
      |>.1 ?_) <;> decide +kernel
theorem witness_Halts_ha2b (h : Obligations.Halts) :
    Completes (exec (Instr.resume Side.e (crcB (0x22 :: beBytes 1 (16 + 0)))) (PS {} (hl true))) := by
  refine Yields.completes ((h (PS {} (hl true)) .e 2 (crcB (0x22 :: beBytes 1 (16 + 0))) ?_ ?_).1 ?_ |>.2.1 ?_
      |>.2 ?_) <;> decide +kernel
theorem witness_Halts_ha3 (h : Obligations.Halts) :
    Completes (exec (Instr.step Side.e 2 (crcB (0x21 :: beBytes 1 (16 + 2)))) (PS {})) := by
  refine Yields.completes ((h (PS {}) .e 2 (crcB (0x21 :: beBytes 1 (16 + 2))) ?_ ?_).1 ?_ |>.2.2 ?_
      |>.1 ?_) <;> decide +kernel
theorem witness_Halts_ha3b (h : Obligations.Halts) :
    Completes (exec (Instr.resume Side.e (crcB (0x22 :: beBytes 1 (16 + 0)))) (PS {})) := by
  refine Yields.completes ((h (PS {}) .e 2 (crcB (0x22 :: beBytes 1 (16 + 0))) ?_ ?_).1 ?_ |>.2.2 ?_
      |>.2 ?_) <;> decide +kernel
theorem witness_Halts_ha4 (h : Obligations.Halts) :
    Completes (exec (Instr.halt Side.e 2 (crcB (0x20 :: beBytes 1 (16 + 2)))) (D {})) := by
  refine Yields.completes ((h (D {}) .e 2 (crcB (0x20 :: beBytes 1 (16 + 2))) ?_ ?_).2.1 ?_ |>.1 ?_) <;> decide +kernel
theorem witness_Halts_ha4b (h : Obligations.Halts) :
    Completes (exec (Instr.step Side.e 2 (crcB (0x21 :: beBytes 1 (16 + 2)))) (D {})) := by
  refine Yields.completes ((h (D {}) .e 2 (crcB (0x21 :: beBytes 1 (16 + 2))) ?_ ?_).2.1 ?_ |>.2.1 ?_) <;> decide +kernel
theorem witness_Halts_ha4c (h : Obligations.Halts) :
    Completes (exec (Instr.resume Side.e (crcB (0x22 :: beBytes 1 (16 + 0)))) (D {})) := by
  refine Yields.completes ((h (D {}) .e 2 (crcB (0x22 :: beBytes 1 (16 + 0))) ?_ ?_).2.1 ?_ |>.2.2 ?_) <;> decide +kernel
def bkS : State := D {} .deployed fun d => d.setRg 1 .tskPatchAddr 3 0x80000010
theorem witness_Halts_ha5 (h : Obligations.Halts) :
    Completes (exec (Instr.breakpoint Side.e 2) bkS) := by
  refine Yields.completes ((h bkS .e 2 0 ?_ ?_).2.2 ?_ ?_ |>.1 ⟨3, ?_⟩) <;> decide +kernel
theorem witness_Halts_ha6 (h : Obligations.Halts) :
    Completes (exec (Instr.breakpoint Side.e 2) (D {})) := by
  refine Yields.completes ((h (D {}) .e 2 0 ?_ ?_).2.2 ?_ ?_ |>.2 ?_) <;> decide +kernel
end Debug

namespace Whole

/-- The plan's bytes that are not 0: their places and their values. -/
def pf : List (Nat × Nat) := List.zip
  ([0, 5, 6, 8, 9, 12, 13, 16, 24, 28, 32, 36, 40, 48, 56, 60] ++ [65, 68, 69, 72, 73, 80, 81, 85, 128, 132, 144, 162, 185, 194, 204, 206] ++ [216, 218, 226, 230, 242, 246, 248, 256, 265, 272, 281, 282, 288, 290, 292, 294] ++ [512, 516])
  ([1, 1, 4, 48, 2, 255, 3, 2, 2, 2, 2, 1, 1, 128, 160, 224] ++ [1, 32, 1, 64, 1, 128, 1, 2, 1, 2, 15, 2, 64, 2, 1, 1] ++ [128, 24, 1, 16, 32, 32, 1, 1, 64, 2, 16, 24, 1, 1, 80, 24] ++ [180, 2])
def mk (l : List (Nat × Nat)) : Tbl Byte := l.map fun x => (x.1, BitVec.ofNat 8 x.2)
def shf : Tbl Byte := mk ([(0, 1), (4, 255)] ++ (List.range 16).flatMap fun t => [(16 + 4 * t, 32), (17 + 4 * t, 78)])
def fl (i slot len : Nat) (t : Tbl Byte) : FileRec := { id := i, slot := slot, length := len, received := len, data := t }
def plW : Half := { dev0.west with cel := { dev0.west.cel with chans := [3, 3, 3, 3], rate := 3, chGib := 16 }, files := [fl 1 2 16384 [], fl 2 3 1576960 shf, fl 3 4 560 (mk pf)], tags := [(3, 1)], face := { dev0.west.face with loading := [(3, { session := 5, seq := 11, tag := 7, op := 0x50 })] }, attic := [(5, 7), (3000, 9)] }
def plD : Dev := Dev.setRf { devS with west := plW, sec := { devS.sec with slots := [(0, { kind := .root }), (1, { kind := .owner }), (2, { kind := .file, owner := 1 }), (3, { kind := .file, owner := 1 }), (4, { kind := .file, owner := 1 }), (1023, { kind := .result, owner := 1 })] } } 0 .attStage 0 4 0 16
def plS : State := st0 .deployed plD
def plF : FileRec := fl 3 4 560 (mk pf)
def plE : Dev := Dev.mod { plS.dev with out := [] } .w fun h => { h with face := { h.face with loading := [] } }

theorem shelf_tail : ∀ k, 80 ≤ k → (fl 2 3 1576960 shf).rd k = 0 := tget_above shf 80 (by decide +kernel)

theorem shelves_pass : auditShelves (plE.auditCtx .w plF.rd) = none := by
  have hn : PlanImg.shelves plF.rd = 1 := by decide +kernel
  have ho : PlanImg.shOff plF.rd 0 = 0 := by decide +kernel
  have hx : (plE.half .w).file (PlanImg.fileId plF.rd (PlanImg.shFile plF.rd 0)) = some (fl 2 3 1576960 shf) := by decide +kernel
  have hr : (fun k => (plE.auditCtx .w plF.rd).file (PlanImg.shFile plF.rd 0) (PlanImg.shOff plF.rd 0 + k))
      = (fl 2 3 1576960 shf).rd := by
    funext k
    simp only [Dev.auditCtx, hx, ho, Nat.zero_add]
  unfold auditShelves
  show (List.range (PlanImg.shelves plF.rd)).findSome? _ = none
  rw [hn, List.findSome?_eq_none_iff]
  intro j hj
  have : j = 0 := by simpa using hj
  subst this
  rw [Option.map_eq_none_iff]
  show shelfCheck (fun k => (plE.auditCtx .w plF.rd).file (PlanImg.shFile plF.rd 0) (PlanImg.shOff plF.rd 0 + k)) _ _ = none
  rw [hr]
  exact shelfCheck_empty _ _ _ (by decide +kernel) shelf_tail

/-- What follows the shelves of an audit. -/
theorem audit_rest {d : Dev} {s : Side} {f : FileRec} {longest minPeriod : Nat}
    (h1 : firstFail [auditFormat f.rd s f.length,
      auditLimits f.rd (decide ((d.slot (PlanImg.resultKey f.rd)).kind = .result)
        && decide ((d.slot (PlanImg.resultKey f.rd)).owner = (d.slot f.slot).owner)),
      auditStepCode f.rd, auditStructure f.rd, auditForkUse f.rd, auditBuffers f.rd (d.stageSize s),
      auditFiles f.rd (d.fileMatches s (d.slot f.slot).owner)] = none)
    (h2 : auditShelves (d.auditCtx s f.rd) = none) (h3 : badMap f.rd (PlanImg.initSrcMap f.rd) = false)
    (h4 : (match auditWalk (d.auditCtx s f.rd) (2 ^ 42) {} (.start f.rd) [] with
      | .error _ => false
      | .ok a => decide (firstFail [auditSource f.rd, auditEntries f.rd a] = none) && decide (a.longest = longest)
          && decide (a.minPer.getD 256000000 = minPeriod)) = true) : d.audit s f = .passed longest minPeriod := by
  unfold Dev.audit
  simp only [h1, h2, h3]
  revert h4
  cases auditWalk (d.auditCtx s f.rd) (2 ^ 42) {} (.start f.rd) [] with
  | error x => intro h; cases h
  | ok a =>
    intro h
    simp only [Bool.and_eq_true, decide_eq_true_eq] at h
    simp [h.1.1, h.1.2, h.2]

/-- An entry staged during ARM that covers a shelf image holds each of its lines. -/
theorem buffers_pass (rd : Nat → Byte) (stage e : Nat)
    (h1 : firstFail [
    itemFail 6 3 (firstBad (PlanImg.entries rd) fun e => decide (PlanImg.entLen rd e < 64) || decide (16777216 < PlanImg.entLen rd e)
      || decide (PlanImg.entLen rd e % 64 ≠ 0) || decide (PlanImg.entSrc rd e % 64 ≠ 0) || decide (PlanImg.entDst rd e % 64 ≠ 0)
      || decide (PlanImg.bufSize rd (PlanImg.entBuf rd e) < PlanImg.entDst rd e + PlanImg.entLen rd e)),
    itemFail 6 4 (firstBad (PlanImg.buffers rd) fun i => decide (stage < PlanImg.bufOff rd i + PlanImg.bufSize rd i)
      || decide (PlanImg.bufOff rd i < PlanImg.length rd)
      || (List.range i).any fun j => overlap (PlanImg.bufOff rd i) (PlanImg.bufSize rd i) (PlanImg.bufOff rd j) (PlanImg.bufSize rd j)),
    itemFail 6 6 (firstBad (PlanImg.shelves rd) fun i => decide (PlanImg.bufKind rd (PlanImg.shBuf rd i) ≠ 1)
      || decide (PlanImg.bufSize rd (PlanImg.shBuf rd i) < PlanImg.shBufOff rd i + PlanImg.shLen rd i))] = none)
    (h2 : e < PlanImg.entries rd) (h3 : PlanImg.entArm rd e = true)
    (h4 : PlanImg.bufOff rd (PlanImg.entBuf rd e) + PlanImg.entDst rd e
      ≤ PlanImg.bufOff rd (PlanImg.shBuf rd (PlanImg.initShelf rd)) + PlanImg.shBufOff rd (PlanImg.initShelf rd))
    (h5 : PlanImg.bufOff rd (PlanImg.shBuf rd (PlanImg.initShelf rd)) + PlanImg.shBufOff rd (PlanImg.initShelf rd)
      + PlanImg.shLen rd (PlanImg.initShelf rd) ≤ PlanImg.bufOff rd (PlanImg.entBuf rd e) + PlanImg.entDst rd e + PlanImg.entLen rd e) :
    auditBuffers rd stage = none := by
  unfold auditBuffers
  dsimp only
  rw [if_pos]
  · revert h1
    generalize itemFail 6 3 _ = a
    generalize itemFail 6 4 _ = b
    generalize itemFail 6 6 _ = c
    cases a <;> cases b <;> cases c <;> intro h <;> first | rfl | exact nomatch h
  · rw [List.all_eq_true]
    intro l hl
    rw [List.mem_range] at hl
    rw [List.any_eq_true]
    refine ⟨e, List.mem_range.mpr h2, ?_⟩
    simp only [h3, Bool.true_and, Bool.and_eq_true, decide_eq_true_eq]
    omega

theorem buffers_ok : auditBuffers plF.rd (plE.stageSize .w) = none :=
  buffers_pass _ _ 1 (by decide +kernel) (by decide +kernel) (by decide +kernel) (by decide +kernel) (by decide +kernel)

theorem six_pass {a b c d e f g : Option AuditFail} (ha : a = none) (hb : b = none) (hc : c = none) (hd : d = none) (he : e = none)
    (hf : f = none) (hg : g = none) : firstFail [a, b, c, d, e, f, g] = none := by
  subst ha hb hc hd he hf hg
  rfl

theorem audit_passes : plE.audit .w plF = .passed 40000 20000 :=
  audit_rest (six_pass (by decide +kernel) (by decide +kernel) (by decide +kernel) (by decide +kernel)
      (by decide +kernel) buffers_ok (by decide +kernel)) shelves_pass (by decide +kernel) (by decide +kernel)

theorem witness_PlanLoaded_audit (h : Obligations.PlanLoaded) : Completes (exec (.planAuditDone .w) plS) := by
  refine Yields.completes (h.1 plS .w 3 { session := 5, seq := 11, tag := 7, op := 0x50 } [] plF 40000 20000 ?_ ?_
    ?_ ?_ ?_ audit_passes) <;> decide +kernel
/-- A sequencer at the end reads nothing ahead. -/
theorem readFirst_ended (n : Nat) (h : Half)
    (k : (match h.face.ahead.toIssue h.planRd h.face.samples 64 with | .error _ => true | .ok _ => false) = true) :
    ∃ h3, h.readFirst n = .ok h3 none := by
  induction n generalizing h with
  | zero => exact ⟨h, rfl⟩
  | succ n ih =>
    unfold Half.readFirst Half.readAhead
    dsimp only
    match e : h.face.ahead.toIssue h.planRd h.face.samples 64 with
    | .error _ => exact ih _ k
    | .ok _ =>
      rw [e] at k
      cases k

/-- An east half in ARM, its two shelf slots written; its plan ends at once. -/
def armS : State := st0 .deployed { devS with east := { dev0.east with attic := mk [(16, 1), (28, 1), (36, 1), (48, 128), (60, 160), (68, 192), (128, 15)], face := { dev0.east.face with state := .loaded, arming := true }, shelf := { dev0.east.shelf with armLoads := 2 } }, hst := { devS.hst with faceE := .loaded } }
def armD : Dev := Dev.mod { armS.dev with out := [] } .e fun h => h.loadDrills.stageArm

theorem witness_PlanLoaded_arm (h : Obligations.PlanLoaded) : Completes (exec (.armWorkComplete .e) armS) := by
  have hd : armD.armShelf .e = armD := by
    unfold Dev.armShelf
    rw [if_pos (by decide +kernel)]
  obtain ⟨h3, hr⟩ := readFirst_ended 64 (armD.half .e) (by decide +kernel)
  refine Yields.completes ((h.2.1 armS .e ?_ ?_ ?_).1 armD h3 none ?_ ?_ ?_ ?_ ?_ ?_ ?_ ?_)
  case refine_7 =>
    show (armD.armShelf .e |>.half .e).shelf.armLoads = 2
    rw [hd]
    decide +kernel
  case refine_8 =>
    show (armD.armShelf .e).deliverKeys .e = .ok armD
    rw [hd]
    unfold Dev.deliverKeys
    have hp : armD.east.planSlots = [] := by decide +kernel
    rw [if_neg (by decide), hp]
    rfl
  case refine_9 => exact hr
  all_goals decide +kernel
theorem witness_PlanLoaded_shelf (h : Obligations.PlanLoaded) : Completes (exec (.armWorkFail .e (.shelf 6 1 0 0 2)) armS) := by
  refine Yields.completes ((h.2.1 armS .e ?_ ?_ ?_).2.1 (.shelf 6 1 0 0 2) (fun _ _ _ => nofun) nofun) <;> decide +kernel
theorem witness_PlanLoaded_chute (h : Obligations.PlanLoaded) : Completes (exec (.armWorkFail .e .chute) armS) := by
  refine Yields.completes (h.2.1 armS .e ?_ ?_ ?_).2.2 <;> decide +kernel
end Whole

end Sys2Proof.Tests
end

section
/-! PROOFS. The fabric's rows: a block whose checkers failed stays in reset (R295), and the host's writes across the Stairwell are
told BUSY while its block does (R449). FAB_NOC_PORT_EN of F2 is such a write. -/
namespace Sys2Proof.Machine

open Sys2Proof.Safety

/-- An answer is one state: what it is said to give, it gives together. -/
theorem yields_and {c : Instr} {s : State} {p q : Dev → Prop} (h : Yields c s p) (k : Yields c s q) :
    Yields c s fun d => p d ∧ q d := by
  obtain ⟨t, ht, hpend, hfuse, hp⟩ := h
  obtain ⟨u, hu, -, -, hq⟩ := k
  obtain rfl : t = u := Host.Outcome.next.inj (ht.symm.trans hu)
  exact ⟨t, ht, hpend, hfuse, hp, hq⟩

/-- Registers are no bookkeeping. -/
theorem rg_of_bare {d e : Dev} (h : e.bare = d.bare) (n : Nat) (r : Rg) (i : Nat) : e.rg n r i = d.rg n r i :=
  rg_of_regs (congrArg Dev.regs h) n r i

/-- A half's block whose checkers failed is in reset, whatever RESET_PART holds (R295). -/
theorem Half.down_of_stuck {h : Half} {b : Nat} (k : h.stuck.getLsbD (resetPage b) = true) : h.down b = true := by
  simp [Half.down, k]

/-- A write from outside that has to cross the Stairwell while TW's end is in reset is told BUSY and changes nothing (R449). -/
theorem writeTo_far_busy {d : Dev} {w : Writer} {p : Place} (life : Life) (v : Word) (hw : w ≠ .fw) (hp : p ≠ .reject)
    (hup : d.stwDown = false) (hdown : d.west.down 10 = true) : d.writeTo life w p true v = (stBusy, d) := by
  have hu : d.unreached p true = some stBusy := by simp [Dev.unreached, hp, hup, hdown]
  simp [Dev.writeTo, hw, hu]

/-- While TW's end of the Stairwell is in reset, a write of FAB_NOC_PORT_EN of an east F-die is told BUSY and enables nothing
(R237, R449). -/
theorem fabNocPortEn_far_busy {s : State} {w : Writer} {die : Fin 4} (v : Word) (hpow : s.dev.powered = true) (hcalm : s.dev.calm)
    (hw : w ≠ .fw) (hfar : sideOf (2 + die.val) = .e) (hup : s.dev.stwDown = false) (hdown : s.dev.west.down 10 = true) :
    Yields (.fabNocPortEn w die v) s fun d => d.bare = s.dev.bare ∧ Out.wrote stBusy ∈ d.out := by
  let d0 : Dev := { s.dev with out := [] }
  have hd : ∃ x, descOf .fabNocPortEn = some x := ⟨_, rfl⟩
  obtain ⟨x, hx⟩ := hd
  have hwrite : d0.writeTo s.fuse.life w (.reg (2 + die.val) x 0) (decide (sideOf (2 + die.val) = .e)) v = (stBusy, d0) := by
    rw [decide_eq_true hfar]
    exact writeTo_far_busy _ _ hw nofun hup hdown
  refine yields_reg rfl hx hpow hwrite fun t ht => ⟨?_, ht.grows.2 _ (by simp)⟩
  have hquiet : s.dev.quiet (d0.emit (.wrote stBusy)) := quiet_of_eq rfl rfl rfl rfl
  exact (ht.bare (hcalm.quiet hquiet)).trans rfl

/-- A CONFIGURED module in which the checkers of TW's Stairwell block failed: the block stays in reset, and CHECKER_FAIL has asserted
the SAFE net; no RESET_PART runs, and TE's firmware has started. -/
def stairwellStuck : State :=
  { State.reset with
    dev := Dev.setPage { State.reset.dev with
        clk := { power := .run }
        cfg := { state := 5 }
        safe := { State.reset.dev.safe with asserted := true }
        west := { State.reset.dev.west with stuck := bitSet 0 blkStw }
        east := { State.reset.dev.east with tsk := { started := true } } }
      .w blkStw { pageDefault blkStw with src := bitSet 0 15, req := bitSet 0 15 } }

/-- Refutes O20: a writer is let through where no RESET_PART runs and the Stairwell is not down, but a host's write of F2's
FAB_NOC_PORT_EN also meets BUSY, and enables no port, while the checkers of TW's Stairwell block have failed (`stairwellStuck`). -/
theorem not_fabricRows : ¬ Obligations.FabricRows := by
  unfold Obligations.FabricRows
  intro h
  have hpow : stairwellStuck.dev.powered = true := by decide +kernel
  have hcalm : stairwellStuck.dev.calm := by decide +kernel
  have hup : stairwellStuck.dev.stwDown = false := by decide +kernel
  have hopen : stairwellStuck.dev.openTo .host := .inr ⟨rfl, rfl, hup⟩
  have hstuck : stairwellStuck.dev.west.down 10 = true := Half.down_of_stuck (by decide +kernel)
  obtain ⟨-, -, -, hports, -⟩ := h stairwellStuck .e hpow hcalm
  have hsays := hports .host 2 1 hopen (by decide +kernel)
  have hdoes := fabNocPortEn_far_busy (w := .host) (die := 2) 1 hpow hcalm nofun rfl hup hstuck
  obtain ⟨t, -, -, -, ⟨hset, -⟩, hkept, -⟩ := yields_and hsays hdoes
  have henabled := rg_of_bare (hset.symm.trans hkept) (2 + (2 : Fin 4).val) .fabNocPortEn 0
  rw [rg_setRg_same] at henabled
  exact absurd henabled (by decide +kernel)

end Sys2Proof.Machine
end

section
/-! PROOFS. The watchdogs' rows: the host's write of TSK_WDOG_CFG is told BUSY, not DENIED, while its block cannot be reached
(R421, R449). -/
namespace Sys2Proof.Machine

open Sys2Proof.Safety

/-- What a row of a running module yields is what holds of the module after its effect, and conversely. -/
theorem yields_running_iff {c : Instr} {s : State} {f : Life → Dev → Dev} {p : Dev → Prop} (hc : exec c s = running f s)
    (h : s.dev.powered = true) : Yields c s p ↔ p (s.dev.after s.fuse.life f) := by
  have hnext : exec c s = .next { s with dev := s.dev.after s.fuse.life f } := hc.trans (by simp [running, h, commit])
  constructor
  · rintro ⟨t, ht, -, -, hp⟩
    obtain rfl := Host.Outcome.next.inj (hnext.symm.trans ht)
    exact hp
  · exact fun hp => ⟨_, hnext, rfl, rfl, hp⟩

/-- From outside, a register command of TE shows BUSY and does no more while TW's end of the Stairwell is in reset, whatever
the register's own rule answers (R449). -/
theorem regCommand_far_busy {d : Dev} {w : Writer} {r : Rg} {x : RegDesc} (i : Nat) (v : Word) (life : Life)
    (hx : descOf r = some x) (hw : w ≠ .fw) (hup : d.stwDown = false) (hdown : d.west.down 10 = true) :
    regCommand w Side.e.code r i v life d = d.emit (.wrote stBusy) := by
  have hfar : decide (sideOf Side.e.code = .e) = true := rfl
  simp only [descOf] at hx
  simp only [regCommand, hx, hfar, writeTo_far_busy life v hw (p := .reg Side.e.code x i) nofun hup hdown]

/-- Refutes O46: a writer is let through where no RESET_PART runs and the Stairwell is not down, but a host's write of TE's
TSK_WDOG_CFG is told BUSY, and never DENIED, while the checkers of TW's Stairwell block have failed (`stairwellStuck`). -/
theorem not_watchdogs : ¬ Obligations.Watchdogs := by
  unfold Obligations.Watchdogs
  intro h
  have hpow : stairwellStuck.dev.powered = true := by decide +kernel
  have hcalm : stairwellStuck.dev.calm := by decide +kernel
  have hup : stairwellStuck.dev.stwDown = false := by decide +kernel
  have hopen : stairwellStuck.dev.openTo .host := .inr ⟨rfl, rfl, hup⟩
  have hstuck : stairwellStuck.dev.west.down 10 = true := Half.down_of_stuck (by decide +kernel)
  obtain ⟨-, hwrites, -⟩ := h stairwellStuck .e 2 hpow hcalm
  obtain ⟨-, -, hothers⟩ := hwrites 0
  obtain ⟨-, hdenied⟩ := (yields_running_iff rfl hpow).mp (hothers .host nofun hopen)
  obtain ⟨x, hx⟩ : ∃ x, descOf .tskWdogCfg = some x := ⟨_, rfl⟩
  have hbusy := regCommand_far_busy (d := { stairwellStuck.dev with out := [] }) (w := .host) (2 : Fin 4).val 0
    stairwellStuck.fuse.life hx nofun hup hstuck
  rw [Dev.after, hbusy] at hdenied
  exact absurd hdenied (by decide +kernel)

end Sys2Proof.Machine
end

section
/-! PROOFS. The SAFE net and the SC cycle: a raise at severity 3 requests the net (R459, R464), as a shelf load that fails its check
does (R87, R90); an SC cycle in which no command waits runs the loads, but not what every command leaves in order. -/
namespace Sys2Proof.Machine

/-! ## A raise at severity 3 requests the net -/

theorem page_event (d : Dev) (c x a : Nat) (s : Side) (b : Nat) : (d.event c x a).page s b = d.page s b := by
  apply page_of_pages
  simp only [Dev.event]

theorem page_mod (d : Dev) (s' : Side) (f : Half → Half) (s : Side) (b : Nat) : (d.mod s' f).page s b = d.page s b := by
  cases s' <;> rfl

theorem bitSet_ne_zero {n i : Nat} (x : BitVec n) (hi : i < n) : bitSet x i ≠ 0 := fun h => by
  have hbit : (bitSet x i).getLsbD i = true := by rw [getLsbD_bitSet]; simp [hi]
  rw [h, BitVec.ofNat_eq_ofNat, BitVec.getLsbD_zero] at hbit
  exact absurd hbit Bool.false_ne_true

theorem requests_of_req {p : Page} (h : p.req ≠ 0) : p.requests = true := by
  simpa [Page.requests] using Or.inl h

theorem requests_capture (p : Page) (i t : Nat) : (p.capture i t).requests = p.requests := by
  unfold Page.capture
  split <;> simp only [Page.requests]

theorem sev_capture (p : Page) (i t b j : Nat) : (p.capture i t).sev b j = p.sev b j := by
  refine sev_of_severity ?_ b j
  unfold Page.capture
  split <;> rfl

/-- A page keeps its request when the page written requests the net if the old one did. -/
theorem requests_setPage {d : Dev} {s s' : Side} {b b' : Nat} {p : Page}
    (hp : (d.page s b).requests = true → p.requests = true) (h : (d.page s' b').requests = true) :
    ((d.setPage s b p).page s' b').requests = true := by
  by_cases k : pageKey s' b' = pageKey s b
  · rw [page_setPage_key _ _ _ _ _ _ k]
    exact hp (page_congr d k ▸ h)
  · rwa [page_setPage_ne _ _ _ _ _ _ k]

/-- No raise withdraws a request (R469). -/
theorem requests_raiseQuiet {d : Dev} {s' : Side} {b' : Nat} (s : Side) (b : Nat) {i : Nat} (hi : i < 16)
    (h : (d.page s' b').requests = true) : ((d.raiseQuiet s b i).page s' b').requests = true := by
  unfold Dev.raiseQuiet
  split
  · exact h
  · extract_lets p p1 q
    have hq : (d.page s b).requests = true → q.requests = true := fun k => (requests_capture p i _).trans k
    split
    · exact h
    · split
      · exact requests_setPage hq h
      · rw [page_event]
        exact requests_setPage (fun _ => requests_of_req (bitSet_ne_zero q.req hi)) h
      · rw [page_event]
        exact requests_setPage hq h

theorem requests_post {d : Dev} {s' : Side} {b' : Nat} (s : Side) (q : Nat) (e : BitVec 64)
    (h : (d.page s' b').requests = true) : ((d.post s q e).1.page s' b').requests = true := by
  unfold Dev.post
  extract_lets t eq taken full d1
  split
  · rwa [page_mod]
  · have h1 : (d1.page s' b').requests = true := by rwa [page_mod]
    split
    · exact h1
    · exact requests_raiseQuiet s blkTsk (by decide) h1

/-- A raise of an enabled source at severity 3 has its page request the net (R459, R464). -/
theorem requests_raise {d : Dev} {s : Side} {b i : Nat} (hs : ¬(s = .e ∧ twOnly b = true)) (hi : i < 16)
    (he : (d.page s b).enable.getLsbD i = true) (h3 : (d.page s b).sev b i = 3) : ((d.raise s b i).page s b).requests = true := by
  have hc : srcClass b i ≠ none := fun hnone => by simp [Page.sev, hnone] at h3
  have hq : ((d.raiseQuiet s b i).page s b).requests = true := by
    unfold Dev.raiseQuiet
    rw [if_neg (fun h => h.elim hs hc)]
    extract_lets p p1 q
    have hsev : q.sev b i = 3 := (sev_capture p i _ b i).trans h3
    rw [if_neg (by simp [p, he]), hsev]
    simp only [page_event, page_setPage_same]
    exact requests_of_req (bitSet_ne_zero q.req hi)
  unfold Dev.raise
  rw [if_neg (fun h => h.elim hs hc)]
  dsimp only
  rw [if_neg (by simp [he]), if_neg (by simp [h3])]
  have hpost := requests_post s b (Config.faultEntry s.code b i) hq
  split
  · exact hpost
  · exact requests_setPage id hpost

/-! ## A shelf load that fails its check -/

theorem page_shelfFail (d : Dev) (s' : Side) (src : Nat) (f : ShelfFail) (s : Side) (b : Nat) :
    (d.shelfFail s' src f).page s b = d.page s b := by
  unfold Dev.shelfFail
  split <;> rfl

/-- A load that fails its check raises LOAD_CHECK, which requests the net at severity 3 (R90, R464). -/
theorem safeWanted_loadFails {d : Dev} {s : Side} (src : Nat) (f : ShelfFail) (he : (d.page s blkShelf).enable.getLsbD 0 = true)
    (h3 : (d.page s blkShelf).sev blkShelf 0 = 3) : (d.loadFails s src f).safeWanted = true := by
  unfold Dev.loadFails
  refine Bool.or_eq_true_iff.mpr (.inr (page_requests _ s blkShelf (requests_raise ?_ (by decide) ?_ ?_)))
  · exact fun h => absurd h.2 (by decide)
  all_goals rwa [page_shelfFail, page_mod]

/-- What a failing load leaves besides its half, SHELF_CHECK and bookkeeping: whether the module runs, the fabric is released and
the net asserted. -/
theorem loadFails_keeps (d : Dev) (s : Side) (src : Nat) (f : ShelfFail) :
    (d.loadFails s src f).powered = d.powered ∧ (d.loadFails s src f).released = d.released
      ∧ (d.loadFails s src f).safe.asserted = d.safe.asserted := by
  have hb : ∃ regs west east, (d.loadFails s src f).bare = { d.bare with regs := regs, west := west, east := east } := by
    unfold Dev.loadFails Dev.shelfFail
    rw [bare_raise]
    split <;> cases s <;> exact ⟨_, _, _, rfl⟩
  obtain ⟨regs, west, east, hb⟩ := hb
  have keeps {α : Type} (g : Dev → α) :
      g (d.loadFails s src f).bare = g { d.bare with regs := regs, west := west, east := east } := congrArg g hb
  exact ⟨keeps Dev.powered, keeps Dev.released, keeps fun e => e.safe.asserted⟩

/-- The fabric stands still until START releases it (R220). -/
theorem fabricCycle_of_not_released {d : Dev} (h : d.released = false) : d.fabricCycle = d := by
  simp [Dev.fabricCycle, h]

/-- A running module that is loading a shelf page into the east half's shadow slot from a staging buffer of zeros: the next SC cycle
ends the header's check, and the header's format is 0 (R87, R93). No fault is latched and LOAD_CHECK has its default severity. -/
def illegalPageLoading : State :=
  { State.reset with
    dev := { State.reset.dev with
      clk := { power := .run }
      hst := { State.reset.dev.hst with faceE := .running }
      east := { State.reset.dev.east with
        face := { State.reset.dev.east.face with state := .running }
        shelf := { st0 := .valid, st1 := .loading, load := some { slot := 1, ref := 0, cycle := 33 } } } } }

/-- The same module in its next SC cycle, before the load has moved on. -/
def illegalPageNext : Dev :=
  let d := Dev.aonTick { illegalPageLoading.dev with out := [] }
  let d : Dev := { d with casc := { d.casc with ctime := d.casc.ctime + 1 }, clk := { d.clk with cycles := d.clk.cycles + 1 } }
  d.mod .e fun h => { h with face := h.face.cycle }

/-- The check's first failure: the header is no shelf page image's (R87). -/
def formatFail : ShelfFail := (1, 0, 0, 0, 0)

/-- Nothing follows the load's failure in its SC cycle: the fabric is not released, and no command runs. -/
theorem cycle_illegalPageLoading : illegalPageLoading.dev.cycle = illegalPageNext.loadFails .e 2 formatFail := by
  have hload : illegalPageNext.loadCyclesPass .e 1 = illegalPageNext.loadFails .e 2 formatFail := rfl
  obtain ⟨-, hreleased, -⟩ := loadFails_keeps illegalPageNext .e 2 formatFail
  calc illegalPageLoading.dev.cycle
      = (illegalPageNext.loadCyclesPass .e 1).fabricCycle := rfl
    _ = (illegalPageNext.loadFails .e 2 formatFail).fabricCycle := congrArg Dev.fabricCycle hload
    _ = illegalPageNext.loadFails .e 2 formatFail := fabricCycle_of_not_released (hreleased.trans (by decide +kernel))

/-- Refutes O6: an SC cycle in which no command waits runs the shelf loads, but does not leave the net following its requests as
every command does. A load whose header is illegal raises LOAD_CHECK in such a cycle (`illegalPageLoading`): its page requests the
net, which is not asserted when the step ends. -/
theorem not_safeNetFollows : ¬ Obligations.SafeNetFollows := by
  unfold Obligations.SafeNetFollows
  intro h
  have hcalm : illegalPageLoading.dev.calm := by decide +kernel
  have hstep : step illegalPageLoading = .next { illegalPageLoading with dev := illegalPageLoading.dev.cycle } := rfl
  rw [cycle_illegalPageLoading] at hstep
  obtain ⟨hpowered, -, hasserted⟩ := loadFails_keeps illegalPageNext .e 2 formatFail
  obtain ⟨hnet, -⟩ := h _ _ (fun _ => hcalm) hstep (hpowered.trans (by decide +kernel))
  have hwanted : (illegalPageNext.loadFails .e 2 formatFail).safeWanted = true :=
    safeWanted_loadFails 2 formatFail (by decide +kernel) (by decide +kernel)
  exact absurd (hasserted.symm.trans (hnet hwanted)) (by decide +kernel)

end Sys2Proof.Machine
end

section
/-! PROOFS. The whole block: what any row answers, the life cycle, the SC cycle of an empty queue, and the block after reset. -/
namespace Sys2Proof.Machine
open Sys2Proof.Safety

/-- The commands that act in every power state, but for POWER_ON and MODULE_RESET_RELEASE. -/
def alwaysOnRows : List Instr :=
  [.vinWarn, .vinWarnClear, .vinCut, .safeN, .safeNHigh, .alarm, .wakeN, .vbakLow, .vbakRestore, .overTemp, .overTempClear,
    .lidOpen, .lidClosed, .crystalDelayExpire, .xo32Stop, .xo32Resume]

/-- A command that acts whatever the power state (R443 to R445, R450). -/
def actsUnpowered (c : Instr) : Prop :=
  (∃ a b l, c = .powerOn a b l) ∨ (∃ a l, c = .moduleResetRelease a l) ∨ c ∈ alwaysOnRows

/-- A row of the opcode table is one for a running module, one that acts in every power state, or LIFECYCLE_ADVANCE. -/
theorem exec_shape (c : Instr) (s : State) :
    (∃ f, exec c s = running f s) ∨ (actsUnpowered c ∧ ∃ f, exec c s = commit f s)
      ∨ ∃ h target key auth, c = .lifecycleAdvance h target key auth := by
  cases c with
  | lifecycleAdvance h target key auth => exact .inr (.inr ⟨h, target, key, auth, rfl⟩)
  | powerOn a b l => exact .inr (.inl ⟨.inl ⟨a, b, l, rfl⟩, _, rfl⟩)
  | moduleResetRelease a l => exact .inr (.inl ⟨.inr (.inl ⟨a, l, rfl⟩), _, rfl⟩)
  | vinWarn | vinWarnClear | vinCut | safeN | safeNHigh | alarm | wakeN | vbakLow | vbakRestore | overTemp | overTempClear
  | lidOpen | lidClosed | crystalDelayExpire | xo32Stop | xo32Resume =>
    exact .inr (.inl ⟨.inr (.inr (by simp [alwaysOnRows])), _, rfl⟩)
  | _ => exact .inl ⟨_, rfl⟩

/-- LIFECYCLE_ADVANCE blows the next fuse or none (R309, R310). -/
theorem advance_life {d d' : Dev} {life l : Life} {target key : Nat} {ok : Bool}
    (h : d.advance life target key ok = .ok (l, d')) : l.code = life.code + 1 := by
  unfold Dev.advance at h
  split at h
  · cases h
  · split at h
    · cases h
    · cases life with
      | retired => cases h
      | blank => cases h; rfl
      | manufacture | deployed | returned =>
        dsimp only at h
        split at h
        · cases h
        · cases h; rfl

theorem lifecycleBody_life (f : Fuse) (target key : Nat) (auth : List Byte) (r : Reply) (d : Dev) :
    f.life.code ≤ (lifecycleBody f target key auth r d).1.code := by
  unfold lifecycleBody
  split
  · exact Nat.le_refl _
  · rename_i h
    exact (advance_life h) ▸ Nat.le_succ _

/-- What LIFECYCLE_ADVANCE answers: a next state with the queue and every other fuse as they were, and the life cycle no further
back; nothing but the log of what was sent changes without power. -/
theorem lifecycleRow_next (h : Hdr) (target key : Nat) (auth : List Byte) (s : State) :
    ∃ t, lifecycleRow h target key auth s = .next t ∧ t.pending = s.pending ∧ { t.fuse with life := s.fuse.life } = s.fuse
      ∧ s.fuse.life.code ≤ t.fuse.life.code
      ∧ (s.dev.powered = false → t = { s with dev := { s.dev with out := [] } }) := by
  unfold lifecycleRow
  dsimp only
  split
  · exact ⟨_, rfl, rfl, rfl, Nat.le_refl _, fun _ => rfl⟩
  · rename_i hp
    have hon : s.dev.powered ≠ false := by simpa using hp
    split
    · exact ⟨_, rfl, rfl, rfl, Nat.le_refl _, fun h => absurd h hon⟩
    · exact ⟨_, rfl, rfl, rfl, lifecycleBody_life .., fun h => absurd h hon⟩

/-- A row for a running module answers a next state with queue and fuses as they were, and does nothing without power. -/
theorem running_next (f : Life → Dev → Dev) (s : State) :
    ∃ t, running f s = .next t ∧ t.pending = s.pending ∧ t.fuse = s.fuse
      ∧ (s.dev.powered = false → t = { s with dev := { s.dev with out := [] } }) := by
  unfold running
  split
  · rename_i hp
    exact ⟨_, rfl, rfl, rfl, fun h => by simp [hp] at h⟩
  · exact ⟨_, rfl, rfl, rfl, fun _ => rfl⟩

/-- Settles O4: a row is one for a running module, one of the always-on ones, or LIFECYCLE_ADVANCE. -/
theorem everyCommandCompletes : Obligations.EveryCommandCompletes := by
  unfold Obligations.EveryCommandCompletes
  intro c s
  obtain ⟨f, hf⟩ | ⟨hc, f, hf⟩ | ⟨h, target, key, auth, rfl⟩ := exec_shape c s
  · obtain ⟨t, ht, hpend, hfuse, hoff⟩ := running_next f s
    exact ⟨t, hf.trans ht, hpend, by rw [hfuse], fun hl => absurd (congrArg Fuse.life hfuse) hl, fun hp => .inr (.inl (hoff hp))⟩
  · exact ⟨_, hf, rfl, rfl, fun hl => absurd rfl hl, fun _ => .inr (.inr hc)⟩
  · obtain ⟨t, ht, hpend, hfuse, -, hoff⟩ := lifecycleRow_next h target key auth s
    exact ⟨t, ht, hpend, hfuse, fun _ => ⟨h, target, key, auth, rfl⟩, fun hp => .inr (.inl (hoff hp))⟩

/-- A command takes the life cycle no further back. -/
theorem exec_life_le {c : Instr} {s t : State} (h : exec c s = .next t) : s.fuse.life.code ≤ t.fuse.life.code := by
  obtain ⟨f, hf⟩ | ⟨-, f, hf⟩ | ⟨h', target, key, auth, rfl⟩ := exec_shape c s
  · obtain ⟨u, hu, -, hfuse, -⟩ := running_next f s
    obtain rfl := Host.Outcome.next.inj (h.symm.trans (hf.trans hu))
    exact Nat.le_of_eq (by rw [hfuse])
  · obtain rfl := Host.Outcome.next.inj (h.symm.trans hf)
    exact Nat.le_refl _
  · obtain ⟨u, hu, -, -, hlife, -⟩ := lifecycleRow_next h' target key auth s
    obtain rfl := Host.Outcome.next.inj (h.symm.trans hu)
    exact hlife

/-- Settles O5: a step is an SC cycle, which leaves the fuses, or a command. -/
theorem lifeNeverGoesBack : Obligations.LifeNeverGoesBack := by
  unfold Obligations.LifeNeverGoesBack
  intro l s t hl hstep
  unfold step at hstep
  split at hstep
  · obtain rfl := Host.Outcome.next.inj hstep
    exact hl
  · rename_i rest _
    exact Nat.le_trans hl (exec_life_le (s := { s with pending := rest }) hstep)


/-- A load that fails its check at severity 3 has its page request the net (R90, R459). -/
theorem requests_loadFails {d : Dev} {s : Side} (src : Nat) (f : ShelfFail) (he : (d.page s blkShelf).enable.getLsbD 0 = true)
    (h3 : (d.page s blkShelf).sev blkShelf 0 = 3) : ((d.loadFails s src f).page s blkShelf).requests = true := by
  unfold Dev.loadFails
  refine requests_raise (fun h => absurd h.2 (by decide)) (by decide) ?_ ?_
  all_goals rwa [page_shelfFail, page_mod]

/-- Refutes O2: an SC cycle in which no command waits also runs the shelf loads. One whose header is illegal raises LOAD_CHECK
(`illegalPageLoading`), and the page that held no request then requests the SAFE net (R87, R90, R459). -/
theorem not_stepRunsFront : ¬ Obligations.StepRunsFront := by
  unfold Obligations.StepRunsFront
  rintro ⟨-, hidle⟩
  obtain ⟨t, hstep, -, -, -, -, hpages, -⟩ := hidle illegalPageLoading rfl
  obtain rfl : { illegalPageLoading with dev := illegalPageLoading.dev.cycle } = t := Host.Outcome.next.inj hstep
  have hsame : (illegalPageLoading.dev.cycle.page .e blkShelf).requests = (illegalPageLoading.dev.page .e blkShelf).requests :=
    congrArg Page.requests (page_of_pages hpages .e blkShelf)
  have hquiet : (illegalPageLoading.dev.page .e blkShelf).requests = false := rfl
  have hreq : (illegalPageLoading.dev.cycle.page .e blkShelf).requests = true := by
    rw [cycle_illegalPageLoading]
    exact requests_loadFails 2 formatFail rfl rfl
  exact absurd (hreq.symm.trans (hsame.trans hquiet)) (by decide)

/-! ## The block after reset -/

/-- After reset every fault page is at its default. -/
theorem page_reset (s : Side) (b : Nat) : State.reset.dev.page s b = pageDefault (pageKey s b % 32) := rfl

/-- After reset every register is at its default. -/
theorem rg_reset (die : Nat) (r : Rg) (i : Nat) : State.reset.dev.rg die r i = regDefault (regKey die r i) := rfl

/-- The default of a register is the reset value of its table (R519). -/
theorem regDefault_regKey {die i : Nat} {x : RegDesc} (hx : x ∈ allRegs) (hi : i < 8192) :
    regDefault (regKey die x.reg i) = resetVal x.reg i := by
  have hlt := ctorIdx_lt x.reg
  have hidx : regKey die x.reg i / 8192 % 512 = x.reg.ctorIdx := by unfold regKey; omega
  have hi' : regKey die x.reg i % 8192 = i := by unfold regKey; omega
  unfold regDefault
  rw [hidx, hi']
  cases hf : allRegs.find? fun y => decide (y.reg.ctorIdx = x.reg.ctorIdx) with
  | none => exact absurd (List.find?_eq_none.mp hf x hx) (by simp)
  | some y =>
    have hy := List.find?_some hf
    exact congrArg (resetVal · i) (ctorIdx_inj (of_decide_eq_true hy))

/-- Each field of the register tables but CEL_QOS's shows its Reset column in the reset value of its register (R10). -/
theorem fld_resetVal : ∀ x ∈ allRegs, x.reg ≠ .celQos → ∀ f ∈ x.fields, fld (resetVal x.reg 0) f.hi f.lo = f.reset := by
  decide +kernel

theorem resetVal_index {r : Rg} (h : r ≠ .celQos) (i j : Nat) : resetVal r i = resetVal r j := by
  simp [resetVal, h]

/-- The default page of a block shows the severities of its fault source table (R456, R458). -/
theorem sev_pageDefault : ∀ b < 20, ∀ i < 16,
    ((srcClass b i).all fun | .sev n _ => decide ((pageDefault b).sev b i = n) | _ => true) = true := by
  decide +kernel

/-- A block that no chapter lists has CHECKER_FAIL alone, whose severity is fixed (R456). -/
theorem srcClass_of_ge {b i : Nat} {c : SrcClass} (hb : 20 ≤ b) (h : srcClass b i = some c) : c = .sev 3 true := by
  unfold srcClass at h
  split at h
  · exact (Option.some.inj h).symm
  · have ht : srcTable b = [] := by
      obtain ⟨k, rfl⟩ := Nat.exists_eq_add_of_le' hb
      rfl
    rw [ht] at h
    split at h <;> simp at h

/-- After reset every source has its default severity in force (R456, R458). -/
theorem sev_reset (s : Side) {b i n : Nat} {fixed : Bool} (hi : i < 16) (hc : srcClass b i = some (.sev n fixed)) :
    (State.reset.dev.page s b).sev b i = n := by
  by_cases hb : b < 20
  · have hkey : pageKey s b % 32 = b := by cases s <;> simp only [pageKey, Side.code] <;> omega
    have hsev := sev_pageDefault b hb i hi
    rw [page_reset, hkey]
    simpa [hc] using hsev
  · cases srcClass_of_ge (Nat.le_of_not_lt hb) hc
    simp only [Page.sev, hc]

/-- Settles O3: field by field, the reset values of the tables. -/
theorem resetValues : Obligations.ResetValues := by
  unfold Obligations.ResetValues
  refine ⟨rfl, ⟨nofun, rfl, rfl, rfl⟩, rfl, rfl, rfl, fun side blk => ⟨rfl, rfl, rfl, ?_⟩, fun side => ?_, rfl, rfl, ?_⟩
  · exact fun i hi n fixed hc => sev_reset side hi hc
  · cases side <;> exact ⟨rfl, rfl, rfl, rfl, rfl, rfl⟩
  · intro die x f i hx hq hf hi
    show fld (State.reset.dev.rg die x.reg i) f.hi f.lo = f.reset
    rw [rg_reset, regDefault_regKey hx hi, resetVal_index hq i 0]
    exact fld_resetVal x hx hq f hf

end Sys2Proof.Machine
end

section
/-! PROOFS. Writes from outside while a block's checkers failed: the block stays in reset (R295), and the writer is told BUSY (R449), though no RESET_PART runs and the Stairwell is up. -/
namespace Sys2Proof.Machine
open Sys2Proof.Safety

/-- A register command from outside that cannot reach its block is told BUSY, and no other status (R449): `hout` says that what
every command leaves in order sends nothing more. -/
theorem told_busy {s : State} {c : Instr} {w : Writer} {die i status : Nat} {r : Rg} {x : RegDesc} {v : Word} {p : Dev → Prop}
    (hc : exec c s = running (regCommand w die r i v) s) (hpow : s.dev.powered = true) (hw : w ≠ .fw)
    (hout : (Dev.settle (Dev.emit { s.dev with out := [] } (.wrote stBusy)) s.fuse.life).out = [.wrote stBusy])
    (hx : descOf r = some x)
    (hu : Dev.unreached { s.dev with out := [] } (.reg die x i) (decide (sideOf die = .e)) = some stBusy)
    (h : Yields c s p) (hp : ∀ d, p d → Out.wrote status ∈ d.out) : status = stBusy := by
  have hd := hp _ ((yields_running_iff hc hpow).mp h)
  have hbusy : regCommand w die r i v s.fuse.life { s.dev with out := [] } = Dev.emit { s.dev with out := [] } (.wrote stBusy) := by
    simp only [descOf] at hx
    simp [regCommand, hx, Dev.writeTo, hw, hu]
  rw [Dev.after, hbusy, hout, List.mem_singleton] at hd
  exact Out.wrote.inj hd

/-- Across the Stairwell, nothing is reached while TW's end is in reset (R449). -/
theorem unreached_of_far {d : Dev} {x : RegDesc} {die i : Nat} (hup : d.stwDown = false) (hdown : d.west.down 10 = true) :
    d.unreached (.reg die x i) true = some stBusy := by
  simp [Dev.unreached, hup, hdown]

/-! ## TW's Stairwell block is stuck: no register of TE is reached -/

theorem stairwellStuck_powered : stairwellStuck.dev.powered = true := rfl
theorem stairwellStuck_calm : stairwellStuck.dev.calm := ⟨fun _ => rfl, rfl, rfl, rfl⟩
theorem stairwellStuck_open : stairwellStuck.dev.openTo .host := .inr ⟨rfl, rfl, rfl⟩
theorem stairwellStuck_down : stairwellStuck.dev.west.down 10 = true := Half.down_of_stuck rfl

/-- A register command of TE from the host is told BUSY, whatever its register's own rule. -/
theorem stairwellStuck_tells {c : Instr} {r : Rg} {x : RegDesc} {i status : Nat} {v : Word} {p : Dev → Prop}
    (hc : exec c stairwellStuck = running (regCommand .host Side.e.code r i v) stairwellStuck) (hx : descOf r = some x)
    (h : Yields c stairwellStuck p) (hp : ∀ d, p d → Out.wrote status ∈ d.out) : status = stBusy :=
  told_busy hc stairwellStuck_powered nofun rfl hx (unreached_of_far rfl stairwellStuck_down) h hp

/-- Refutes O1: a host's SWAP of TE's shelf page is told BUSY, not DENIED. -/
theorem not_ownRegisterWrites : ¬ Obligations.OwnRegisterWrites := by
  unfold Obligations.OwnRegisterWrites
  intro h
  obtain ⟨hswap, -⟩ := h stairwellStuck .host 1 stairwellStuck_powered stairwellStuck_calm stairwellStuck_open
  obtain ⟨hdenied, -⟩ := hswap .e (by decide)
  obtain ⟨x, hx⟩ : ∃ x, descOf .shelfCtrl = some x := ⟨_, rfl⟩
  have hrow : exec (.shelfSwapWrite .host .e 1) stairwellStuck
      = running (regCommand .host Side.e.code .shelfCtrl 0 1) stairwellStuck := rfl
  have htold := stairwellStuck_tells hrow hx (hdenied rfl) fun _ hd => hd.2
  exact absurd htold (by decide)

/-- Refutes O21: a host's START of the training of TE's Cellar is told BUSY, not OK. -/
theorem not_cellarTraining : ¬ Obligations.CellarTraining := by
  unfold Obligations.CellarTraining
  rintro ⟨htrain, -⟩
  obtain ⟨hstart, -⟩ := htrain stairwellStuck .e stairwellStuck_powered stairwellStuck_calm
  have hok := hstart .host 1 stairwellStuck_open (by decide) (by decide) (.inl rfl) rfl
  obtain ⟨x, hx⟩ : ∃ x, descOf .celTrain = some x := ⟨_, rfl⟩
  have hrow : exec (.celTrainStart .host .e 1) stairwellStuck
      = running (regCommand .host Side.e.code .celTrain 0 1) stairwellStuck := rfl
  exact absurd (stairwellStuck_tells hrow hx hok fun _ hd => hd.2) (by decide)

/-- Refutes O25: a host's write of TE's ATT_STAGE is told BUSY, not OK. -/
theorem not_lineChecks : ¬ Obligations.LineChecks := by
  unfold Obligations.LineChecks
  rintro ⟨-, hwrites⟩
  obtain ⟨hstage, -⟩ := hwrites stairwellStuck .e .host 16 stairwellStuck_powered stairwellStuck_calm stairwellStuck_open
  have hok := hstage rfl rfl (by decide) (by decide)
  obtain ⟨x, hx⟩ : ∃ x, descOf .attStage = some x := ⟨_, rfl⟩
  have hrow : exec (.attStageWrite .host .e 16) stairwellStuck
      = running (regCommand .host Side.e.code .attStage 0 16) stairwellStuck := rfl
  exact absurd (stairwellStuck_tells hrow hx hok fun _ hd => hd.1) (by decide)

/-- Refutes O36: the host's injection of an error into a lane of TE's quad 0 is told BUSY, not OK. -/
theorem not_haulTraining : ¬ Obligations.HaulTraining := by
  unfold Obligations.HaulTraining
  intro h
  obtain ⟨hwrites, -⟩ := h stairwellStuck .e 0 stairwellStuck_powered stairwellStuck_calm
  obtain ⟨-, -, hlanes⟩ := hwrites .host 2 stairwellStuck_open
  obtain ⟨-, hinject, -⟩ := hlanes 0
  have hok := hinject (by decide) (by decide)
  obtain ⟨x, hx⟩ : ∃ x, descOf .haulLaneCtrl = some x := ⟨_, rfl⟩
  have hrow : exec (.inject .host .e 0 0 2) stairwellStuck
      = running (regCommand .host Side.e.code .haulLaneCtrl 0 2) stairwellStuck := rfl
  exact absurd (stairwellStuck_tells hrow hx hok fun _ hd => hd.1) (by decide)

/-- Refutes O40: a host's write of ADJ of TE's quad 0 is told BUSY, not OK. -/
theorem not_alignmentWrites : ¬ Obligations.AlignmentWrites := by
  unfold Obligations.AlignmentWrites
  intro h
  obtain ⟨-, hadj, -⟩ := h stairwellStuck .host 0 stairwellStuck_powered stairwellStuck_calm stairwellStuck_open (by decide)
  obtain ⟨x, hx⟩ : ∃ x, descOf .haulRxLat = some x := ⟨_, rfl⟩
  have hrow : exec (.haulAdjWrite .host .e 0 0) stairwellStuck
      = running (regCommand .host Side.e.code .haulRxLat 0 0) stairwellStuck := rfl
  exact absurd (stairwellStuck_tells hrow hx (hadj .e 0) fun _ hd => hd.1.1) (by decide)

/-- Refutes O42: a host's SLIP of a lane of TE's end, away from the stop point, is told BUSY, not WRONG_STATE. -/
theorem not_stairwellFrames : ¬ Obligations.StairwellFrames := by
  unfold Obligations.StairwellFrames
  intro h
  obtain ⟨-, hwrites⟩ := h stairwellStuck .e stairwellStuck_powered stairwellStuck_calm
  obtain ⟨-, hslips⟩ := hwrites .host 0x10000 stairwellStuck_open
  obtain ⟨-, hwrong⟩ := hslips 0 (by decide)
  obtain ⟨x, hx⟩ : ∃ x, descOf .stwLane = some x := ⟨_, rfl⟩
  have hrow : exec (.stwSlip .host .e 0 0x10000) stairwellStuck
      = running (regCommand .host Side.e.code .stwLane 0 0x10000) stairwellStuck := rfl
  exact absurd (stairwellStuck_tells hrow hx (hwrong rfl) fun _ hd => hd.2) (by decide)

/-- Refutes O45: a host's write of a patch unit of TE is told BUSY, not DENIED. -/
theorem not_patchUnits : ¬ Obligations.PatchUnits := by
  unfold Obligations.PatchUnits
  intro h
  obtain ⟨hothers, -⟩ := h stairwellStuck .e 0 0 stairwellStuck_powered stairwellStuck_calm
  obtain ⟨x, hx⟩ : ∃ x, descOf .tskPatchAddr = some x := ⟨_, rfl⟩
  have hrow : exec (.tskPatchWrite .host .e 0 0 0) stairwellStuck
      = running (regCommand .host Side.e.code .tskPatchAddr 0 0) stairwellStuck := rfl
  have htold := stairwellStuck_tells hrow hx (hothers 0 .host stairwellStuck_open nofun) fun _ hd => hd.2.2
  exact absurd htold (by decide)

/-- `stairwellStuck` with TE's end of the Stairwell still UP. -/
def stairwellStuckUp : State :=
  { stairwellStuck with dev := stairwellStuck.dev.mod .e fun h => { h with stw := { h.stw with state := 2 } } }

/-- Refutes O41: a host's RETRAIN of TE's end is told BUSY, not OK. -/
theorem not_stairwellTraining : ¬ Obligations.StairwellTraining := by
  unfold Obligations.StairwellTraining
  intro h
  have hpow : stairwellStuckUp.dev.powered = true := rfl
  have hup : stairwellStuckUp.dev.stwDown = false := rfl
  obtain ⟨hsides, -⟩ := h stairwellStuckUp hpow ⟨fun _ => rfl, rfl, rfl, rfl⟩
  obtain ⟨-, -, -, hwrites⟩ := hsides .e rfl
  obtain ⟨-, hretrain⟩ := hwrites .host 7 (.inr ⟨rfl, rfl, hup⟩) (by decide)
  obtain ⟨x, hx⟩ : ∃ x, descOf .stwCtrl = some x := ⟨_, rfl⟩
  have hrow : exec (.stwRetrainWrite .host .e 7) stairwellStuckUp
      = running (regCommand .host Side.e.code .stwCtrl 0 7) stairwellStuckUp := rfl
  have htold := told_busy hrow hpow nofun rfl hx (unreached_of_far hup stairwellStuck_down)
    (hretrain (by decide) (by decide)) fun _ hd => hd.1
  exact absurd htold (by decide)

/-! ## TW's Haul block is stuck -/

/-- A cascade master whose Haul block's checkers failed: the block stays in reset, and CHECKER_FAIL has asserted the SAFE net. -/
def haulStuck : State :=
  { State.reset with
    dev := (Dev.setPage { State.reset.dev with
        clk := { power := .run }
        safe := { State.reset.dev.safe with asserted := true }
        west := { State.reset.dev.west with stuck := bitSet 0 blkHaul }
        east := { State.reset.dev.east with tsk := { started := true } } }
      .w blkHaul { pageDefault blkHaul with src := bitSet 0 15, req := bitSet 0 15 }).setRf 0 .haulCascade 0 2 2 1 }

/-- HAUL_CTRL cannot be reached while TW's Haul block is in reset (R295, R449). -/
theorem haulStuck_unreached :
    (descOf .haulCtrl).map (fun x => Dev.unreached { haulStuck.dev with out := [] } (.reg 0 x 0) false) = some (some stBusy) := by
  rfl

/-- Refutes O39: the host's TIME_SYNC is told BUSY, not OK, while the checkers of the master's Haul block have failed. -/
theorem not_cascadeRows : ¬ Obligations.CascadeRows := by
  unfold Obligations.CascadeRows
  intro h
  have hpow : haulStuck.dev.powered = true := rfl
  obtain ⟨hmaster, -⟩ := h haulStuck hpow ⟨fun _ => rfl, rfl, rfl, rfl⟩
  obtain ⟨hsync, -⟩ := hmaster .host (.inr ⟨rfl, rfl, rfl⟩) rfl
  obtain ⟨x, hx⟩ : ∃ x, descOf .haulCtrl = some x := ⟨_, rfl⟩
  have hu := haulStuck_unreached
  rw [hx] at hu
  have hrow : exec (.timeSync .host) haulStuck = running (regCommand .host 0 .haulCtrl 0 1) haulStuck := rfl
  have htold := told_busy hrow hpow nofun rfl hx (Option.some.inj hu) hsync fun _ hd => hd.1
  exact absurd htold (by decide)

end Sys2Proof.Machine
end

section
/-! PROOFS. The always-on domain: conditions of its fault page, wake sources, and the crystal and the reference inputs (chapter 17). -/
namespace Sys2Proof.Machine
open Sys2Proof.Safety

/-! ## Conditions of a fault page -/

theorem getLsbD_bitClear {n : Nat} (x : BitVec n) (i : Nat) : (bitClear x i).getLsbD i = false := by
  by_cases hi : i < n <;> simp [bitClear, BitVec.getLsbD_shiftLeft, hi]

/-- A condition that begins is ACTIVE (R456). -/
theorem active_condOn (d : Dev) (s : Side) (b : Nat) {i : Nat} (hi : i < 16) :
    ((d.condOn s b i).page s b).active.getLsbD i = true := by
  unfold Dev.condOn
  rw [((grows_raise _ s b i).1 s b).1, page_setPage_same, getLsbD_bitSet]
  simp [hi]

theorem enable_condOn (d : Dev) (s : Side) (b i : Nat) : ((d.condOn s b i).page s b).enable = (d.page s b).enable := by
  unfold Dev.condOn
  rw [((grows_raise _ s b i).1 s b).2.1, page_setPage_same]

/-- A condition that begins raises its source (R456). -/
theorem src_condOn {d : Dev} {s : Side} {b i : Nat} (hs : ¬(s = .e ∧ twOnly b = true)) (hc : srcClass b i ≠ none) (hi : i < 16)
    (he : (d.page s b).enable.getLsbD i = true) : ((d.condOn s b i).page s b).src.getLsbD i = true :=
  raise_src _ s b i hs hc hi (by rwa [page_setPage_same])

/-- A condition that ends is ACTIVE no longer (R456). -/
theorem active_condOff (d : Dev) (s : Side) (b i : Nat) : ((d.condOff s b i).page s b).active.getLsbD i = false := by
  simp only [Dev.condOff, page_setPage_same, getLsbD_bitClear]

@[simp] theorem deep_condOn (d : Dev) (s : Side) (b i : Nat) : (d.condOn s b i).deep = d.deep := deep_of_bare (bare_condOn ..)
@[simp] theorem deep_condOff (d : Dev) (s : Side) (b i : Nat) : (d.condOff s b i).deep = d.deep := deep_of_bare (bare_condOff ..)

/-! ## What the deep module keeps -/

theorem aon_of_deep {d e : Dev} (h : d.deep = e.deep) : d.aon = e.aon := by
  have haon := congrArg Dev.aon h
  exact haon

theorem power_of_deep {d e : Dev} (h : d.deep = e.deep) : d.clk.power = e.clk.power := by
  have hpower := congrArg (fun x : Dev => x.clk.power) h
  exact hpower

/-! ## Events of the always-on domain -/

/-- AON_CFG reads as before an event is latched. -/
theorem aonCfg_aonEvent (d : Dev) (i hi lo : Nat) : (d.aonEvent i).rf 0 .aonCfg 0 hi lo = d.rf 0 .aonCfg 0 hi lo :=
  congrArg (fld · hi lo) (rg_setRf_ne d _ _ _ (by decide))

/-- The module with a state of the always-on domain and event n latched there, before anything is sent. -/
def Dev.latched (d : Dev) (a : AonSt) (n : Nat) : Dev := Dev.aonEvent { d with out := [], aon := a } n

theorem aonCfg_latched (d : Dev) (a : AonSt) (n hi lo : Nat) : (d.latched a n).rf 0 .aonCfg 0 hi lo = d.rf 0 .aonCfg 0 hi lo :=
  aonCfg_aonEvent { d with out := [], aon := a } n hi lo

/-- A module that does not sleep is not woken. -/
theorem wakeUp_awake {d : Dev} (cause : Fin 4) (h : d.aon.sleeping = false) : d.wakeUp cause = d := by
  simp [Dev.wakeUp, h]

/-- In a running module a condition of the always-on page begins, and wakes nothing. -/
theorem aonCond_running {d : Dev} (i : Nat) (cause : Fin 4) (h : d.powered = true) (ha : d.aon.sleeping = false) :
    (d.aonCond i).wakeUp cause = d.condOn .w blkAon i := by
  have hcond : d.aonCond i = d.condOn .w blkAon i := by simp [Dev.aonCond, h]
  rw [hcond]
  exact wakeUp_awake cause ((congrArg AonSt.sleeping (aon_of_deep (deep_condOn ..))).trans ha)

/-- While LID_EN is 1 an open lid is a condition, and wakes (R454, R455). -/
theorem lidOpen_enabled {d : Dev} (h : d.rf 0 .aonCfg 0 8 8 = 1) :
    lidOpen { d with out := [] } = ((d.latched { d.aon with lidOpen := true } 4).aonCond 3).wakeUp 3 := by
  have hne : ¬(d.latched { d.aon with lidOpen := true } 4).rf 0 .aonCfg 0 8 8 = 0 := by
    rw [aonCfg_latched, h]; decide
  exact if_neg hne

/-- A row whose effect begins a condition of the always-on page shows it there, and leaves the deep module. -/
theorem yields_condOn {c : Instr} {s : State} {f : Life → Dev → Dev} {e : Dev} {i : Nat} (hc : exec c s = commit f s)
    (hi : i < 4) (hf : f s.fuse.life { s.dev with out := [] } = e.condOn .w blkAon i) (he : e.pages = s.dev.pages) :
    Yields c s fun d => d.deep = e.deep ∧ (d.page .w blkAon).active.getLsbD i = true
      ∧ ((s.dev.page .w blkAon).enable.getLsbD i = true → (d.page .w blkAon).src.getLsbD i = true) := by
  refine yields_commit hc fun t ht => ?_
  rw [hf] at ht
  obtain ⟨hactive, -, hsrc⟩ := ht.grows.1 .w blkAon
  have hclass : ∀ j < 4, srcClass blkAon j ≠ none := by decide
  refine ⟨ht.deep.trans (deep_condOn ..), ?_, fun hen => hsrc i (src_condOn nofun (hclass i hi) (by omega) ?_)⟩
  · rw [hactive]; exact active_condOn _ _ _ (by omega)
  · rwa [page_of_pages he]

/-- A row whose effect ends a condition of the always-on page shows it there, and leaves the deep module. -/
theorem yields_condOff {c : Instr} {s : State} {f : Life → Dev → Dev} {e : Dev} {i : Nat} (hc : exec c s = commit f s)
    (hf : f s.fuse.life { s.dev with out := [] } = e.condOff .w blkAon i) :
    Yields c s fun d => d.deep = e.deep ∧ (d.page .w blkAon).active.getLsbD i = false := by
  refine yields_commit hc fun t ht => ?_
  rw [hf] at ht
  obtain ⟨hactive, -, -⟩ := ht.grows.1 .w blkAon
  exact ⟨ht.deep.trans (deep_condOff ..), by rw [hactive]; exact active_condOff ..⟩

/-- Settles O49: a row latches its event; its condition begins or ends. -/
theorem alwaysOnEvents : Obligations.AlwaysOnEvents := by
  unfold Obligations.AlwaysOnEvents
  refine ⟨fun s hcalm hawake => ⟨?_, fun hcount hen => ?_, fun hlid => ?_⟩, fun s hpow hawake => ?_⟩
  · refine yields_commit (f := fun _ d => wakeN d) rfl fun t ht => ?_
    have heff : wakeN { s.dev with out := [] } = Dev.aonEvent { s.dev with out := [] } 1 := wakeUp_awake 2 hawake
    rw [heff] at ht
    exact (ht.bare hcalm).trans rfl
  · refine yields_commit (f := fun _ d => alarm d) rfl fun t ht => ?_
    have heff : alarm { s.dev with out := [] } = Dev.aonEvent { s.dev with out := [] } 0 := by
      have hen' : Dev.rf { s.dev with out := [] } 0 .aonCfg 0 9 9 = 1 := hen
      have hcount' : s.dev.aon.count.toNat = Dev.alarmAt { s.dev with out := [] } := hcount
      rw [alarm, if_neg (by simp [hen', hcount'])]
      exact wakeUp_awake 1 hawake
    rw [heff] at ht
    exact (ht.bare hcalm).trans rfl
  · refine yields_commit (f := fun _ d => lidOpen d) rfl fun t ht => ?_
    have heff : lidOpen { s.dev with out := [] } = s.dev.latched { s.dev.aon with lidOpen := true } 4 :=
      if_pos ((aonCfg_latched ..).trans hlid)
    rw [heff] at ht
    exact (ht.bare hcalm).trans rfl
  · have begun (a : AonSt) (ha : a.sleeping = false) (n i : Nat) (cause : Fin 4) :
        ((s.dev.latched a n).aonCond i).wakeUp cause = (s.dev.latched a n).condOn .w blkAon i := aonCond_running i cause hpow ha
    refine ⟨?_, ?_, fun hlid => ?_, ?_, ?_, ?_⟩
    · exact yields_condOn (f := fun _ d => vbakLow d) (e := s.dev.latched { s.dev.aon with vbakLow := true } 2) rfl (by decide)
        (begun { s.dev.aon with vbakLow := true } hawake 2 1 3) rfl
    · exact yields_condOn (f := fun _ d => overTemp d) (e := s.dev.latched { s.dev.aon with overTemp := true } 3) rfl (by decide)
        (begun { s.dev.aon with overTemp := true } hawake 3 2 3) rfl
    · exact yields_condOn (f := fun _ d => lidOpen d) (e := s.dev.latched { s.dev.aon with lidOpen := true } 4) rfl (by decide)
        ((lidOpen_enabled hlid).trans (begun { s.dev.aon with lidOpen := true } hawake 4 3 3)) rfl
    · exact yields_condOff (f := fun _ d => vbakRestore d) (e := { s.dev with out := [], aon := { s.dev.aon with vbakLow := false } }) rfl rfl
    · exact yields_condOff (f := fun _ d => overTempClear d) (e := { s.dev with out := [], aon := { s.dev.aon with overTemp := false } }) rfl rfl
    · exact yields_condOff (f := fun _ d => lidClosed d) (e := { s.dev with out := [], aon := { s.dev.aon with lidOpen := false } }) rfl rfl

/-! ## Wake -/

@[simp] theorem deep_conditionsOn (d : Dev) : d.conditionsOn.deep = d.deep := by
  unfold Dev.conditionsOn
  extract_lets on d1 d2
  have hon (d : Dev) (b : Bool) (i : Nat) : (on d b i).deep = d.deep := by
    simp only [on]; split <;> simp
  have h2 : d2.deep = d.deep := by simp only [d2, d1, hon]
  split <;> simp [h2]

/-- A wake source of a sleeping module with VIN high clears SLEEPING, records its cause and begins the start-up (R451). -/
theorem wakeUp_sleeping {d : Dev} (cause : Fin 4) (hp : d.clk.power = .sleep) (hs : d.aon.sleeping = true) (hv : d.aon.vinWarn = false) :
    (d.wakeUp cause).deep = ((d.setAon fun a => { a with sleeping := false, wake := cause }).fresh .starting).deep := by
  unfold Dev.wakeUp
  rw [if_neg (by simp [hs])]
  extract_lets e
  rw [if_pos ⟨hp, by simp [e, Dev.setAon, hv]⟩]
  exact deep_conditionsOn _

theorem yields_wakes {c : Instr} {s : State} {f : Life → Dev → Dev} {cause : Fin 4} {e : Dev} (hc : exec c s = commit f s)
    (hf : f s.fuse.life { s.dev with out := [] } = e.wakeUp cause) (hp : e.clk.power = .sleep) (hs : e.aon.sleeping = true)
    (hv : e.aon.vinWarn = false) (hcount : e.aon.count = s.dev.aon.count) (hvalid : e.aon.timeValid = s.dev.aon.timeValid) :
    Yields c s fun d => d.clk.power = .starting ∧ d.aon.sleeping = false ∧ d.aon.wake = cause ∧ d.aon.count = s.dev.aon.count
      ∧ d.aon.timeValid = s.dev.aon.timeValid := by
  refine yields_commit hc fun t ht => ?_
  rw [hf] at ht
  have hdeep := ht.deep.trans (wakeUp_sleeping cause hp hs hv)
  have haon : t.aon = { e.aon with sleeping := false, wake := cause } := aon_of_deep hdeep
  rw [haon]
  exact ⟨power_of_deep hdeep, rfl, rfl, hcount, hvalid⟩

/-- In SLEEP a condition of the always-on page is latched alone. -/
theorem aonCond_sleep {d : Dev} (i : Nat) (h : d.clk.power = .sleep) : d.aonCond i = d := by
  simp [Dev.aonCond, Dev.powered, h]

/-- Settles O50: each wake source wakes the module whose power stages sleep. -/
theorem wakeStarts : Obligations.WakeStarts := by
  unfold Obligations.WakeStarts
  intro s hp hs hv
  refine ⟨?_, fun hcount hen => ?_, ?_, ?_, fun hlid => ?_⟩
  · exact yields_wakes (f := fun _ d => wakeN d) (e := Dev.aonEvent { s.dev with out := [] } 1) rfl rfl hp hs hv rfl rfl
  · refine yields_wakes (f := fun _ d => alarm d) (e := Dev.aonEvent { s.dev with out := [] } 0) rfl ?_ hp hs hv rfl rfl
    have hen' : Dev.rf { s.dev with out := [] } 0 .aonCfg 0 9 9 = 1 := hen
    have hcount' : s.dev.aon.count.toNat = Dev.alarmAt { s.dev with out := [] } := hcount
    dsimp only
    rw [alarm, if_neg (by simp [hen', hcount'])]
  · exact yields_wakes (f := fun _ d => vbakLow d) (e := s.dev.latched { s.dev.aon with vbakLow := true } 2) rfl
      (congrArg (Dev.wakeUp · 3) (aonCond_sleep 1 hp)) hp hs hv rfl rfl
  · exact yields_wakes (f := fun _ d => overTemp d) (e := s.dev.latched { s.dev.aon with overTemp := true } 3) rfl
      (congrArg (Dev.wakeUp · 3) (aonCond_sleep 2 hp)) hp hs hv rfl rfl
  · exact yields_wakes (f := fun _ d => lidOpen d) (e := s.dev.latched { s.dev.aon with lidOpen := true } 4) rfl
      ((lidOpen_enabled hlid).trans (congrArg (Dev.wakeUp · 3) (aonCond_sleep 3 hp))) hp hs hv rfl rfl

/-! ## The crystal, the reference inputs and PLL-C -/

/-- Without power nothing follows a row's effect. -/
theorem yields_unpowered {c : Instr} {s : State} {f : Life → Dev → Dev} {p : Dev → Prop} (hc : exec c s = commit f s)
    (hp : (f s.fuse.life { s.dev with out := [] }).powered = false) (h : p (f s.fuse.life { s.dev with out := [] })) :
    Yields c s p :=
  ⟨_, hc, rfl, rfl, by simpa only [Dev.after, Dev.settle, hp, Bool.not_false, if_true] using h⟩

/-- With the power stages off or the module asleep nothing runs. -/
theorem unpowered_of {d : Dev} (h : d.clk.power = .off ∨ d.clk.power = .sleep) : d.powered = false := by
  rcases h with h | h <;> simp [Dev.powered, h]

@[simp] theorem deep_xmodLost (d : Dev) : d.xmodLost.deep = d.deep := by
  unfold Dev.xmodLost
  split <;> simp

/-- A row of a running module whose effect leaves the deep module of e leaves it so. -/
theorem yields_deep {c : Instr} {s : State} {f : Life → Dev → Dev} {e : Dev} (hc : exec c s = running f s)
    (hpow : s.dev.powered = true) (hf : (f s.fuse.life { s.dev with out := [] }).deep = e.deep) :
    Yields c s fun d => d.deep = e.deep :=
  yields_running hc hpow fun _ ht => ht.deep.trans hf

/-- A half whose validity is looked at again may have lost it (R203); its deep part changes in nothing else. -/
theorem deep_recheckCal (d : Dev) (s : Side) : (d.recheckCal s).deep = d.deep
    ∨ (d.recheckCal s).deep = (d.mod s fun h => { h with cal := { h.cal with lost := true } }).deep := by
  unfold Dev.recheckCal Dev.loseCal
  split
  · split
    · exact .inl rfl
    · exact .inr (deep_raise ..)
  · exact .inl rfl

/-- What the deep module shows of two halves, where a half's validity is left out. -/
def Dev.lostless (d : Dev) : Dev :=
  { d.deep with
    west := { d.west.deep with cal := { d.west.deep.cal with lost := false } }
    east := { d.east.deep with cal := { d.east.deep.cal with lost := false } } }

theorem lostless_of_deep {d e : Dev} (h : d.deep = e.deep) : d.lostless = e.lostless := by
  have hlost := congrArg Dev.lostless h
  exact hlost

theorem lostless_recheckCal (d : Dev) (s : Side) : (d.recheckCal s).lostless = d.lostless := by
  rcases deep_recheckCal d s with h | h
  · exact lostless_of_deep h
  · refine (lostless_of_deep h).trans ?_
    cases s <;> rfl

/-- All channels of both halves are STALE, and nothing else is lost with TC but the validity of running halves (R202). -/
theorem lostless_loseTc (d : Dev) : d.loseTc.lostless = Dev.lostless { d with
    west := { d.west with cal := { d.west.cal with anchored := 0 } }
    east := { d.east with cal := { d.east.cal with anchored := 0 } } } := by
  unfold Dev.loseTc Dev.staleAll
  rw [lostless_of_deep (deep_xmodLost _), lostless_recheckCal]
  refine Eq.trans (b := (((d.mod .w fun h => { h with cal := { h.cal with anchored := 0 } }).recheckCal .w).lostless.mod .e
    fun h => { h with cal := { h.cal with anchored := 0 } })) rfl ?_
  rw [lostless_recheckCal]
  rfl

/-- The loss of REF (R434). -/
theorem lostless_refLost (d : Dev) : d.refLost.lostless = Dev.lostless { d with
    clk := { d.clk with ref := {}, lock := d.clk.lock &&& 0x10, backup := true }
    west := { d.west with cal := { d.west.cal with anchored := 0 }, cel := { d.west.cel with selfRef := true } }
    east := { d.east with cal := { d.east.cal with anchored := 0 }, cel := { d.east.cel with selfRef := true } } } := by
  unfold Dev.refLost
  rw [lostless_of_deep (deep_condOn ..), lostless_loseTc]
  rfl

/-- A condition that a row begins is ACTIVE when the row has ended. -/
theorem active_of_leaves {e t : Dev} {s : Side} {b i : Nat} (ht : Leaves (e.condOn s b i) t) (hi : i < 16) :
    (t.page s b).active.getLsbD i = true := by
  obtain ⟨hactive, -, -⟩ := ht.grows.1 s b
  rw [hactive]
  exact active_condOn _ _ _ hi

/-- PLL-C locks while PLL-T has no lock: the cores leave the backup clock, and nothing else follows (R429, R434). -/
theorem pllLock_c {d : Dev} (hok : d.clk.ref.ok = true) (hc : d.clk.lock.getLsbD 3 = false) (ht : d.clk.lock.getLsbD 0 = false) :
    pllLock .c d = d.setClk fun c => { c with lock := bitSet c.lock 3, backup := false } := by
  have hbit : (bitSet d.clk.lock 3).getLsbD 0 = false := by rw [getLsbD_bitSet, ht]; rfl
  have hne : bitSet d.clk.lock 3 ≠ 0x1F := fun h => by rw [h] at hbit; exact absurd hbit (by decide)
  unfold pllLock
  rw [if_neg (by rw [hok, show pllBit .c = 3 from rfl, hc]; decide)]
  extract_lets d1 d2 d3 d4 train
  have h4 : d4 = d1 := if_neg (by rw [ClkSt.refLocks, show d3.clk.lock = bitSet d.clk.lock 3 from rfl, hbit]; simp)
  rw [h4]
  exact (if_pos hne).trans (by simp [d1, Dev.setClk, pllBit])

/-- Settles O52: with the power stages off nothing follows the effect; in a running module each row leaves the deep module but for
what it names. -/
theorem crystalRows : Obligations.CrystalRows := by
  unfold Obligations.CrystalRows
  refine ⟨fun s hoff => ⟨fun h => ?_, ?_, ?_⟩, fun s hpow => ⟨fun hok hgood => ?_, fun hok => ?_, fun hok => ?_, fun hlock => ?_,
    fun hok hc hunlocked => ?_, ?_, ?_, ?_, ?_⟩⟩
  · have heff : crystalDelayExpire { s.dev with out := [] } = { s.dev with out := [], aon := { s.dev.aon with xoOk := true } } :=
      if_neg (not_not_intro h)
    refine yields_unpowered (f := fun _ d => crystalDelayExpire d) rfl ?_ heff
    rw [heff]; exact unpowered_of hoff
  · have heff : xo32Stop { s.dev with out := [] }
        = { s.dev with out := [], aon := { s.dev.aon with stopped := true, timeValid := false } } :=
      if_neg (not_and_or.mpr (hoff.imp not_not_intro not_not_intro))
    refine yields_unpowered (f := fun _ d => xo32Stop d) rfl ?_ heff
    rw [heff]; exact unpowered_of hoff
  · have heff : xo32Resume { s.dev with out := [] } = { s.dev with out := [], aon := { s.dev.aon with stopped := false } } :=
      if_neg (not_and_or.mpr (hoff.imp not_not_intro not_not_intro))
    refine yields_unpowered (f := fun _ d => xo32Resume d) rfl ?_ heff
    rw [heff]; exact unpowered_of hoff
  · refine yields_deep (f := fun _ d => qualWindow .ref true d) rfl hpow ?_
    have heff : qualWindow .ref true { s.dev with out := [] } = Dev.setClk { s.dev with out := [] } fun c =>
        { c with ref := { ok := decide (4 ≤ c.ref.good + 1), good := c.ref.good + 1 } } := if_neg (by simp [hok])
    rw [heff, Dev.setClk, hgood]
    rfl
  · refine yields_running (f := fun _ d => clockEdgeLoss .eth d) rfl hpow fun t ht => ?_
    rw [show clockEdgeLoss .eth { s.dev with out := [] } = Dev.ethLost { s.dev with out := [] } from if_pos hok] at ht
    have hdeep := ht.deep.trans (deep_raise ..)
    exact ⟨congrArg (fun x : Dev => x.clk.eth.ok) hdeep, congrArg (fun x : Dev => x.hst.linkUp) hdeep⟩
  · refine yields_running (f := fun _ d => clockEdgeLoss .ref d) rfl hpow fun t ht => ?_
    rw [show clockEdgeLoss .ref { s.dev with out := [] } = Dev.refLost { s.dev with out := [] } from if_pos hok] at ht
    have hl := (lostless_of_deep ht.deep).trans (lostless_refLost _)
    exact ⟨congrArg (fun x : Dev => x.clk.ref.ok) hl, congrArg (fun x : Dev => x.clk.backup) hl, active_of_leaves ht (by decide),
      congrArg (fun x : Dev => x.west.cal.anchored) hl, congrArg (fun x : Dev => x.east.cal.anchored) hl,
      congrArg (fun x : Dev => x.west.cel.selfRef) hl⟩
  · refine yields_deep (f := fun _ d => pllUnlock .c d) rfl hpow ?_
    rw [show pllUnlock .c { s.dev with out := [] } = Dev.setClk (Dev.setClk { s.dev with out := [] } fun c =>
      { c with lock := bitClear c.lock 3 }) fun c => { c with backup := true } from if_neg (by simpa [pllBit] using hlock)]
    rfl
  · refine yields_deep (f := fun _ d => pllLock .c d) rfl hpow ?_
    rw [pllLock_c (d := { s.dev with out := [] }) hok hc hunlocked]
    rfl
  · exact yields_deep (f := fun _ d => phaseMoveComplete d) rfl hpow rfl
  · refine yields_running (f := fun _ d => ilimit d) rfl hpow fun t ht => ⟨ht.deep.trans (deep_raise ..), fun hen => ?_⟩
    obtain ⟨-, -, hsrc⟩ := ht.grows.1 .w blkClk
    exact hsrc 6 (raise_src _ _ _ _ nofun (by decide) (by decide) hen)
  · exact yields_running (f := fun _ d => railUv d) rfl hpow fun t ht => ⟨ht.deep.trans (deep_condOn ..), active_of_leaves ht (by decide)⟩
  · refine yields_running (f := fun _ d => railInRegulation d) rfl hpow fun t ht => ⟨ht.deep.trans (deep_condOff ..), ?_⟩
    obtain ⟨hactive, -, -⟩ := ht.grows.1 .w blkClk
    rw [hactive]
    exact active_condOff ..

end Sys2Proof.Machine
end

section
/-! PROOFS. What every command leaves in order keeps the bare task units, whether the Larder's writer holds, and the outcome of self-test. -/
namespace Sys2Proof.Machine
open Sys2Proof.Safety

/-! ## Scheduling leaves the bare task unit -/

namespace TskSt

/-- A core that takes or leaves a task stays as it is otherwise. -/
theorem bare_setCore {t : TskSt} {c : Nat} {x : Core4} (h : x.bare = (t.core c).bare) : (t.setCore c x).bare = t.bare := by
  unfold core at h
  unfold setCore
  split at h <;> simp_all [TskSt.bare]

@[simp] theorem core_setTask (t : TskSt) (n c : Nat) (x : Task) : (t.setTask n x).core c = t.core c := by
  unfold core setTask
  split <;> rfl

@[simp] theorem bare_setTask (t : TskSt) (n : Nat) (x : Task) : (t.setTask n x).bare = t.bare := rfl
@[simp] theorem bare_enqueue (t : TskSt) (n : Nat) : (t.enqueue n).bare = t.bare := rfl

theorem bare_free (x : Core4) (tick : Nat) : (x.free tick).bare = x.bare := rfl

theorem bare_foldl {α : Type} (l : List α) (f : TskSt → α → TskSt) (h : ∀ t x, (f t x).bare = t.bare) (t : TskSt) :
    (l.foldl f t).bare = t.bare := by
  induction l generalizing t with
  | nil => rfl
  | cons x l ih => rw [List.foldl_cons, ih, h]

@[simp] theorem bare_serve (t : TskSt) (c : Nat) : (t.serve c).bare = t.bare := by
  unfold serve
  extract_lets x
  split
  · rfl
  · split
    · rfl
    · extract_lets p wait t1
      have h1 (n : Nat) (y : Task) : (t1.setTask n y).core c = t.core c := by
        rw [core_setTask]; unfold core; split <;> rfl
      rw [bare_setCore]
      · rfl
      · rw [h1]; rfl

@[simp] theorem bare_dispatch (t : TskSt) : t.dispatch.bare = t.bare := bare_foldl _ _ bare_serve t

@[simp] theorem bare_wakeUp (t : TskSt) (n : Nat) : (t.wakeUp n).bare = t.bare := by
  unfold wakeUp
  dsimp only
  split
  · simp
  · split
    · simp
    · split
      · simp
      · rw [bare_dispatch, bare_enqueue, bare_setCore (bare_free ..), bare_dispatch, bare_enqueue]

@[simp] theorem bare_deliverQ (t : TskSt) (q n : Nat) : (t.deliverQ q n).bare = t.bare := by
  induction n generalizing t with
  | zero => rfl
  | succ n ih =>
    unfold deliverQ
    dsimp only
    split
    · rw [ih, bare_wakeUp]; rfl
    · rfl

@[simp] theorem bare_deliver (t : TskSt) : t.deliver.bare = t.bare := by
  unfold deliver
  split
  · rfl
  · exact bare_foldl _ _ (fun t q => bare_deliverQ ..) t

@[simp] theorem bare_expire (t : TskSt) : t.expire.bare = t.bare := by
  unfold expire
  split
  · rfl
  · exact bare_foldl _ _ bare_wakeUp t

theorem halted_of_bare {t u : TskSt} (h : t.bare = u.bare) : t.halted = u.halted := by
  have hhalted := congrArg TskSt.halted h
  exact hhalted

end TskSt

/-! ## What every command leaves of the task units and of the Larder's hold -/

/-- The FIRE_IN offset, the registers that self-test writes its outcome to, and those of the patch units (R200, R422, R475, R480). -/
def keptReg (r : Rg) : Bool := [Rg.faceFireOffset, .safeBistLast, .safeBistSigLo, .safeBistSigHi, .tskPatchAddr, .tskPatchLo, .tskPatchHi].contains r

/-- The registers of the patch units. -/
def patchReg (r : Rg) : Bool := [Rg.tskPatchAddr, .tskPatchLo, .tskPatchHi].contains r

def patchWords (regs : Tbl Word) (n : Nat) (r : Rg) (i : Nat) : Word :=
  if patchReg r = true ∧ i < 8192 then tgetF regDefault regs (regKey n r i) else 0

/-- Whether the Larder's writer holds, both FIRE_IN offsets, the bare task units, the patch units, and the outcome of the last self-test:
what every command leaves in order changes none of it. -/
def Dev.stay (d : Dev) : ((Bool × Word × Word) × TskSt × TskSt × (Nat → Rg → Nat → Word)) × (Word × Word × Word) :=
  (((d.ldr.hold, d.rg 0 .faceFireOffset, d.rg 1 .faceFireOffset), d.west.tsk.bare, d.east.tsk.bare, patchWords d.regs), d.rg 0 .safeBistLast, d.rg 0 .safeBistSigLo, d.rg 0 .safeBistSigHi)

/-- What the lower operations keep, too, and the assertion of the SAFE net changes: the net itself, pin-access mode and the
sequencers. -/
def Dev.firm (d : Dev) : (((Bool × Word × Word) × TskSt × TskSt × (Nat → Rg → Nat → Word)) × (Word × Word × Word)) × SafeSt × Bool × FaceSt × FaceSt :=
  (d.stay, d.safe, d.dbg.pins, d.west.face, d.east.face)

theorem stay_of_firm {d e : Dev} (h : e.firm = d.firm) : e.stay = d.stay := congrArg Prod.fst h

@[simp] theorem firm_setPage (d : Dev) (s : Side) (b : Nat) (p : Page) : (d.setPage s b p).firm = d.firm := rfl

/-- Patch units whose registers read as before. -/
theorem patchWords_of_rg {d e : Dev} (h : ∀ n r i, patchReg r = true → i < 8192 → e.rg n r i = d.rg n r i) : patchWords e.regs = patchWords d.regs := by
  funext n r i
  unfold patchWords
  split
  next hin => exact h n r i hin.1 hin.2
  · rfl

theorem keptReg_of_patch {r : Rg} (h : patchReg r = true) : keptReg r = true := by
  unfold patchReg at h
  unfold keptReg
  simp only [List.contains_cons, Bool.or_eq_true] at h ⊢
  exact .inr (.inr (.inr (.inr h)))

/-- A write of another register leaves the outcome of self-test and the patch units. -/
theorem firm_setRg (d : Dev) (n : Nat) {r : Rg} {i : Nat} (v : Word) (hr : keptReg r = false) (hi : i < 8192) :
    (d.setRg n r i v).firm = d.firm := by
  have hother (m : Nat) (q : Rg) (j : Nat) (hq : keptReg q = true) (hj : j < 8192) : (d.setRg n r i v).rg m q j = d.rg m q j := by
    refine rg_setRg_ne d v fun h => ?_
    obtain ⟨-, hqr, -⟩ := (regKey_inj hj hi).mp h
    rw [hqr, hr] at hq
    exact Bool.false_ne_true hq
  have hpatch : patchWords (d.setRg n r i v).regs = patchWords d.regs := patchWords_of_rg fun m q j hq hj => hother m q j (keptReg_of_patch hq) hj
  have hoffset (m : Nat) := hother m _ 0 (show keptReg .faceFireOffset = true by decide) (by decide)
  simp only [Dev.firm, Dev.stay, hpatch, hoffset, hother 0 _ 0 (show keptReg .safeBistLast = true by decide) (by decide),
    hother 0 _ 0 (show keptReg .safeBistSigLo = true by decide) (by decide), hother 0 _ 0 (show keptReg .safeBistSigHi = true by decide) (by decide)]
  rfl

theorem firm_bump (d : Dev) (n : Nat) {r : Rg} {i : Nat} (hi lo k : Nat) (hr : keptReg r = false) (h : i < 8192) :
    (d.bump n r i hi lo k).firm = d.firm := firm_setRg d n _ hr h

@[simp] theorem firm_modSession (d : Dev) (i : Nat) (f : Session → Session) : (d.modSession i f).firm = d.firm := rfl
@[simp] theorem firm_emit (d : Dev) (o : Out) : (d.emit o).firm = d.firm := rfl
@[simp] theorem firm_event (d : Dev) (c s a : Nat) : (d.event c s a).firm = d.firm := by simp only [Dev.event, Dev.firm, Dev.stay, Dev.rg]

/-- A register of a die at its reset value, and the others as they were. -/
theorem rg_resetRg (d : Dev) (n : Nat) (r : Rg) (m : Nat) (q : Rg) {j : Nat} (hj : j < 8192) :
    (d.resetRg n r).rg m q j = if m = n ∧ q = r then regDefault (regKey m q j) else d.rg m q j := by
  have hin : (regKey n r 0 ≤ regKey m q j ∧ regKey m q j < regKey n r 8192) ↔ m = n ∧ q = r := by
    have hlt := ctorIdx_lt r
    have hlt' := ctorIdx_lt q
    unfold regKey
    constructor
    · intro h
      exact ⟨by omega, ctorIdx_inj (by omega)⟩
    · rintro ⟨rfl, rfl⟩
      omega
  show tgetF regDefault (d.regs.filter fun kv => !(decide (regKey n r 0 ≤ kv.1) && decide (kv.1 < regKey n r 8192))) _ = _
  rw [tgetF_filter regDefault d.regs (fun k => !(decide (regKey n r 0 ≤ k) && decide (k < regKey n r 8192))), ← Bool.decide_and]
  by_cases h : m = n ∧ q = r
  · rw [if_pos h, decide_eq_true (hin.mpr h)]
    rfl
  · rw [if_neg h, decide_eq_false fun k => h (hin.mp k)]
    rfl

/-- Other registers at their reset values leave the outcome of self-test and the patch units. -/
theorem firm_resetRg (d : Dev) (n : Nat) {r : Rg} (hr : keptReg r = false) : (d.resetRg n r).firm = d.firm := by
  have hother (m : Nat) (q : Rg) (j : Nat) (hq : keptReg q = true) (hj : j < 8192) : (d.resetRg n r).rg m q j = d.rg m q j := by
    rw [rg_resetRg d n r m q hj, if_neg]
    rintro ⟨-, rfl⟩
    rw [hr] at hq
    exact Bool.false_ne_true hq
  have hpatch : patchWords (d.resetRg n r).regs = patchWords d.regs := patchWords_of_rg fun m q j hq hj => hother m q j (keptReg_of_patch hq) hj
  have hoffset (m : Nat) := hother m _ 0 (show keptReg .faceFireOffset = true by decide) (by decide)
  simp only [Dev.firm, Dev.stay, hpatch, hoffset, hother 0 _ 0 (show keptReg .safeBistLast = true by decide) (by decide),
    hother 0 _ 0 (show keptReg .safeBistSigLo = true by decide) (by decide), hother 0 _ 0 (show keptReg .safeBistSigHi = true by decide) (by decide)]
  rfl

theorem stay_mod (d : Dev) (s : Side) (f : Half → Half) (h : ∀ x, (f x).tsk.bare = x.tsk.bare) : (d.mod s f).stay = d.stay := by
  cases s <;> simp [Dev.mod, Dev.setHalf, Dev.half, Dev.stay, Dev.rg, h]

theorem firm_mod (d : Dev) (s : Side) (f : Half → Half) (h : ∀ x, (f x).tsk.bare = x.tsk.bare ∧ (f x).face = x.face) :
    (d.mod s f).firm = d.firm := by
  have hstay := stay_mod d s f fun x => (h x).1
  simp only [Dev.firm, hstay]
  cases s <;> simp [Dev.mod, Dev.setHalf, Dev.half, h]

theorem firm_foldl {α : Type} (l : List α) (f : Dev → α → Dev) (h : ∀ d x, (f d x).firm = d.firm) (d : Dev) :
    (l.foldl f d).firm = d.firm := by
  induction l generalizing d with
  | nil => rfl
  | cons x l ih => rw [List.foldl_cons, ih, h]

@[simp] theorem firm_clearArray (d : Dev) : d.clearArray.firm = d.firm := by
  have hidle (d : Dev) (s : Side) : (d.mod s fun h => { h with fab := { h.fab with
      hooks := [], ports := [], padOut := 0, padOe := 0, scrubBusy := false } }).firm = d.firm := firm_mod _ _ _ fun _ => ⟨rfl, rfl⟩
  unfold Dev.clearArray
  dsimp only
  rw [firm_resetRg _ _ (by decide), firm_resetRg _ _ (by decide), firm_foldl _ _ (fun d f => firm_resetRg d _ (by decide)), hidle, hidle]
  rfl

@[simp] theorem firm_raiseQuiet (d : Dev) (s : Side) (b i : Nat) : (d.raiseQuiet s b i).firm = d.firm := by
  unfold Dev.raiseQuiet
  split
  · rfl
  · dsimp only
    split
    · rfl
    · split <;> simp

@[simp] theorem firm_post (d : Dev) (s : Side) (q : Nat) (e : BitVec 64) : (d.post s q e).1.firm = d.firm := by
  have hmod (d : Dev) (x : EvQueue) : (d.mod s fun h => { h with tsk := { h.tsk with queues := tset {} h.tsk.queues q x } }).firm
      = d.firm := firm_mod _ _ _ fun _ => ⟨rfl, rfl⟩
  unfold Dev.post
  dsimp only
  split
  · exact hmod ..
  · dsimp only
    split
    · exact hmod ..
    · rw [firm_raiseQuiet]; exact hmod ..

@[simp] theorem firm_raise (d : Dev) (s : Side) (b i : Nat) : (d.raise s b i).firm = d.firm := by
  unfold Dev.raise
  split
  · rfl
  · dsimp only
    split
    · rfl
    · split
      · simp
      · split <;> simp

@[simp] theorem firm_condOn (d : Dev) (s : Side) (b i : Nat) : (d.condOn s b i).firm = d.firm := by simp [Dev.condOn]

@[simp] theorem firm_condOff (d : Dev) (s : Side) (b i : Nat) : (d.condOff s b i).firm = d.firm := rfl

@[simp] theorem firm_send (d : Dev) (f : Frame) : (d.send f).firm = d.firm := by
  have htransmit (d : Dev) (f : Frame) : (d.transmit f).firm = d.firm := by
    unfold Dev.transmit
    extract_lets keys
    split <;> rfl
  unfold Dev.send
  split
  · exact htransmit ..
  · split
    · rfl
    · exact htransmit ..

@[simp] theorem firm_finish (d : Dev) (life : Life) (r : Reply) (st : Nat) (pl : List Byte) : (d.finish life r st pl).firm = d.firm := by
  unfold Dev.finish Dev.finishWith
  dsimp only
  rw [firm_modSession, firm_send]
  split
  · unfold Dev.rejected
    rw [firm_raise, firm_event, firm_bump _ _ _ _ _ (by decide) (by decide)]
  · rfl

@[simp] theorem firm_closeSession (d : Dev) (i r : Nat) (f : Bool) : (d.closeSession i r f).firm = d.firm := by
  unfold Dev.closeSession
  split
  · rfl
  · dsimp only
    rw [firm_event]
    split
    · exact firm_send d _
    · rfl

/-! A load's end -/

@[simp] theorem firm_endReplies (d : Dev) (life : Life) (l : Load) (r a : Nat) (who : List (Nat × Reply)) :
    (d.endReplies life l r a who).firm = d.firm := by
  induction who generalizing d with
  | nil => rfl
  | cons x who ih =>
    unfold Dev.endReplies
    split
    · rw [ih, firm_finish]
    · split
      · rw [ih, firm_finish]
      · rw [firm_foldl _ _ (fun d x => firm_finish ..), firm_finish]

@[simp] theorem firm_recordEnd (d : Dev) (life : Life) (l : Load) (r a : Nat) : (d.recordEnd life l r a).firm = d.firm := by
  unfold Dev.recordEnd
  extract_lets d1 d2 d3 d4 d5
  have h1 : d1.firm = d.firm := firm_setRg _ _ _ (by decide) (by decide)
  have h2 : d2.firm = d1.firm := by
    simp only [d2]
    clear_value d1
    split
    · rfl
    · exact firm_setRg _ _ _ (by decide) (by decide)
  have h3 : d3.firm = d2.firm := by
    simp only [d3]
    clear_value d2
    split <;> rfl
  have h4 : d4.firm = d3.firm := firm_event ..
  have h5 : d5.firm = d.firm := by
    rw [← h1, ← h2, ← h3, ← h4]
    simp only [d5]
    clear_value d4
    split <;> simp
  clear_value d5
  split
  · exact h5
  · rw [firm_endReplies, h5]

@[simp] theorem firm_autoNext (d : Dev) : d.autoNext.firm = d.firm := by
  unfold Dev.autoNext
  split
  · rfl
  · dsimp only
    split
    · rfl
    · split
      · split
        · rfl
        · rw [firm_raise]; rfl
      · rw [firm_raise]; rfl

@[simp] theorem firm_checkFail (d : Dev) (life : Life) (l : Load) (r a : Nat) : (d.checkFail life l r a).firm = d.firm := by
  have hafter (d : Dev) : (d.autoAfter l).firm = d.firm := by
    unfold Dev.autoAfter
    split
    · rfl
    · split <;> simp
  unfold Dev.checkFail
  rw [hafter, firm_recordEnd]
  rfl

@[simp] theorem firm_loadFail (d : Dev) (life : Life) (l : Load) (r a : Nat) : (d.loadFail life l r a).firm = d.firm := by
  unfold Dev.loadFail
  dsimp only
  split
  · rw [firm_recordEnd]
    rfl
  · rw [firm_recordEnd]
    exact firm_clearArray d

@[simp] theorem firm_truncateLoad (d : Dev) (life : Life) : (d.truncateLoad life).firm = d.firm := by
  unfold Dev.truncateLoad Dev.failHere
  split
  · rfl
  · split
    · rfl
    · split <;> simp

@[simp] theorem firm_pathLost (d : Dev) (life : Life) : (d.pathLost life).firm = d.firm := by
  unfold Dev.pathLost
  split
  · rfl
  · split <;> simp

/-! The journal of ended halves, and the net's step -/

@[simp] theorem firm_ldrAppend (d : Dev) (type key : Nat) (x : LdrData) : (d.ldrAppend type key x).firm = d.firm := by
  unfold Dev.ldrAppend
  extract_lets l cw fits sector used r fill now rest b d1 d2
  split
  · rfl
  · split
    · rw [firm_raise, firm_bump _ _ _ _ _ (by decide) (by decide)]
    · split
      · rw [firm_raise]; rfl
      · rfl

@[simp] theorem firm_journalEnd (d : Dev) (s : Side) : (d.journalEnd s).firm = d.firm := by
  unfold Dev.journalEnd Dev.journalCal
  split
  · dsimp only
    split
    · rfl
    · rw [firm_mod _ _ _ (by intro x; exact ⟨rfl, rfl⟩), firm_ldrAppend, firm_ldrAppend]
  · rfl

@[simp] theorem firm_armPart (d : Dev) (life : Life) (s : Side) (st : Nat) : (d.armPart life s st).firm = d.firm := by
  unfold Dev.armPart
  dsimp only
  rw [firm_foldl _ _ (fun d a => firm_finish d life _ _ _)]
  rfl

theorem Half.tsk_abort (h : Half) (c : Nat) : (h.abort c).tsk = h.tsk := by
  unfold Half.abort
  dsimp only
  split
  · rfl
  · split
    · rfl
    · split <;> rfl

theorem Half.tsk_stopArming (h : Half) (plan : Bool) : (h.stopArming plan).tsk = h.tsk := by
  unfold Half.stopArming
  extract_lets k
  show k.tsk = h.tsk
  simp only [k]
  split <;> rfl

@[simp] theorem stay_abort (d : Dev) (s : Side) (c : Nat) : (d.abort s c).stay = d.stay :=
  stay_mod d s _ fun x => congrArg TskSt.bare (x.tsk_abort c)

@[simp] theorem stay_safeHalf (d : Dev) (life : Life) (s : Side) : (d.safeHalf life s).stay = d.stay := by
  unfold Dev.safeHalf
  dsimp only
  split
  · rw [stay_of_firm (firm_armPart ..), stay_mod _ _ _ (fun x => congrArg TskSt.bare (x.tsk_stopArming true))]; split <;> simp
  · split <;> simp

@[simp] theorem stay_safeNet (d : Dev) (life : Life) : (d.safeNet life).stay = d.stay := by
  have hpins (d : Dev) : d.pinsOff.stay = d.stay := rfl
  unfold Dev.safeNet Dev.safeAssert
  split
  · dsimp only
    rw [stay_of_firm (firm_journalEnd ..), stay_of_firm (firm_journalEnd ..), hpins, stay_of_firm (firm_truncateLoad ..), stay_safeHalf, stay_safeHalf]
    rfl
  all_goals rfl

@[simp] theorem firm_retryHeld (d : Dev) (s : Side) : (d.retryHeld s).firm = d.firm := by
  unfold Dev.retryHeld
  refine firm_foldl _ _ (fun d kv => ?_) d
  split
  · rfl
  · refine firm_foldl _ _ (fun d i => ?_) d
    split
    · rfl
    · split <;> simp

@[simp] theorem firm_reportStates (d : Dev) : d.reportStates.firm = d.firm := by
  unfold Dev.reportStates
  dsimp only
  split <;> split <;> split <;> simp only [Dev.event, Dev.firm, Dev.stay, Dev.rg]

/-- What every command leaves in order after the SAFE net has followed its requests keeps the net and the sequencers. -/
theorem firm_settle {d : Dev} (life : Life) (hpow : d.powered = true) :
    (d.settle life).firm = ((((d.pathLost life).journalEnd .w).journalEnd .e).safeNet life).firm := by
  have hspent (d : Dev) : d.spentSessions.firm = d.firm := by
    unfold Dev.spentSessions
    refine firm_foldl _ _ (fun d x => ?_) d
    split <;> simp
  have hdeliver (d : Dev) (s : Side) : (d.mod s fun h => h.modTsk TskSt.deliver).firm = d.firm :=
    firm_mod d s _ fun x => ⟨x.tsk.bare_deliver, rfl⟩
  unfold Dev.settle
  rw [if_neg (by simp [hpow])]
  simp [hspent, hdeliver]

/-- What every command leaves in order changes neither the Larder's hold nor the bare task units, nor the outcome of self-test. -/
theorem stay_settle (d : Dev) (life : Life) : (d.settle life).stay = d.stay := by
  by_cases hpow : d.powered = true
  · rw [stay_of_firm (firm_settle life hpow)]
    exact (stay_safeNet ..).trans (stay_of_firm ((firm_journalEnd ..).trans ((firm_journalEnd ..).trans (firm_pathLost ..))))
  · unfold Dev.settle
    rw [if_pos (by simp [hpow])]

/-- A row leaves what its effect does, the Larder's hold and the bare task units included. -/
theorem yields_staying {c : Instr} {s : State} {f : Life → Dev → Dev} {p : Dev → Prop} (hc : exec c s = commit f s)
    (hp : ∀ t, Leaves (f s.fuse.life { s.dev with out := [] }) t → t.stay = (f s.fuse.life { s.dev with out := [] }).stay → p t) :
    Yields c s p :=
  ⟨_, hc, rfl, rfl, hp _ (settle_leaves _ _) (stay_settle _ _)⟩

theorem running_eq_commit {s : State} (f : Life → Dev → Dev) (h : s.dev.powered = true) : running f s = commit f s := if_pos h

theorem hold_of_stay {d e : Dev} (h : d.stay = e.stay) : d.ldr.hold = e.ldr.hold := congrArg (fun x => x.1.1.1) h

theorem tsk_of_stay {d e : Dev} (h : d.stay = e.stay) (s : Side) : (d.half s).tsk.bare = (e.half s).tsk.bare := by
  simp only [Dev.stay, Prod.mk.injEq] at h
  obtain ⟨⟨-, hw, he, -⟩, -⟩ := h
  cases s
  · exact hw
  · exact he

/-- The FIRE_IN offset of a half, read from what every command keeps. -/
theorem offset_of_stay {d e : Dev} (h : d.stay = e.stay) (s : Side) : d.rg s.code .faceFireOffset = e.rg s.code .faceFireOffset := by
  cases s
  · have hw := congrArg (fun x => x.1.1.2.1) h
    exact hw
  · have he := congrArg (fun x => x.1.1.2.2) h
    exact he

/-- The registers of the patch units, read from what every command keeps. -/
theorem patch_of_stay {d e : Dev} (h : d.stay = e.stay) (n : Nat) {r : Rg} {i : Nat} (hr : patchReg r = true) (hi : i < 8192) :
    d.rg n r i = e.rg n r i := by
  have hwords := congrArg (fun x => x.1.2.2.2 n r i) h
  simp only [Dev.stay, patchWords, hr, hi, and_self, if_true] at hwords
  exact hwords

end Sys2Proof.Machine
end

section
/-! PROOFS. The supply, TRAP_N and the power governor: the release of a halt, the Larder's writer, the checks of start-up, the greatest k (chapter 17). -/
namespace Sys2Proof.Machine
open Sys2Proof.Safety

/-! ## The release of a halt -/

namespace TskSt

theorem started_of_bare {t u : TskSt} (h : t.bare = u.bare) : t.started = u.started := by
  have hstarted := congrArg TskSt.started h
  exact hstarted

end TskSt

/-- The task unit of a halted T-die when it is released (R487, R489). -/
def TskSt.released (t : TskSt) : TskSt :=
  cores.foldl (fun t c => t.setCore c { (t.core c) with wdog := max 100 (t.core c).wdog }) (t.setHalt false)

theorem TskSt.halted_released (t : TskSt) : t.released.halted = false := rfl

theorem TskSt.started_released (t : TskSt) : t.released.started = t.started := by
  unfold TskSt.released TskSt.setHalt
  rw [started_foldl _ _ (fun t c => started_setCore ..), started_foldl _ _ (fun t c => started_setCore ..)]

theorem releaseDie_halted {d : Dev} {s : Side} (h : (d.half s).tsk.halted = true) : d.releaseDie s
    = (if s = .w then d.thawWriter else d).mod s fun h => h.modTsk fun t => t.released.expire.deliver.dispatch :=
  if_neg (by simp [h])

theorem releaseDie_going {d : Dev} {s : Side} (h : (d.half s).tsk.halted = false) : d.releaseDie s = d := if_pos (by simp [h])

theorem bare_released (t : TskSt) : t.released.expire.deliver.dispatch.bare = t.released.bare := by simp

/-- The writer that goes on changes in nothing but its clock. -/
theorem thawWriter_eq (d : Dev) : ∃ frozen burning, d.thawWriter = { d with ldr := { d.ldr with frozen := frozen, burning := burning } } := by
  unfold Dev.thawWriter
  split
  · exact ⟨d.ldr.frozen, d.ldr.burning, rfl⟩
  · exact ⟨_, _, rfl⟩

theorem half_thawWriter (d : Dev) (s : Side) : d.thawWriter.half s = d.half s := by
  obtain ⟨frozen, burning, h⟩ := thawWriter_eq d
  rw [h]
  cases s <;> rfl

theorem hold_thawWriter (d : Dev) : d.thawWriter.ldr.hold = d.ldr.hold := by
  obtain ⟨frozen, burning, h⟩ := thawWriter_eq d
  rw [h]

theorem deep_thawWriter (d : Dev) : d.thawWriter.deep = d.deep := by
  obtain ⟨frozen, burning, h⟩ := thawWriter_eq d
  rw [h]
  rfl

/-- A T-die that is released is not halted. -/
theorem halted_releaseDie (d : Dev) (s : Side) : ((d.releaseDie s).half s).tsk.halted = false := by
  by_cases h : (d.half s).tsk.halted = true
  · rw [releaseDie_halted h]
    have hrel (t : TskSt) : t.released.expire.deliver.dispatch.halted = false :=
      (TskSt.halted_of_bare (bare_released t)).trans t.halted_released
    cases s <;> exact hrel _
  · rw [releaseDie_going (by simpa using h)]
    simpa using h

/-- The release of one T-die leaves the other's task unit. -/
theorem tsk_releaseDie_other (d : Dev) {s s' : Side} (h : s' ≠ s) : ((d.releaseDie s).half s').tsk = (d.half s').tsk := by
  by_cases hh : (d.half s).tsk.halted = true
  · rw [releaseDie_halted hh]
    cases s <;> cases s' <;> simp_all [Dev.mod, Dev.setHalf, Dev.half]
    exact congrArg Half.tsk (half_thawWriter d .e)
  · rw [releaseDie_going (by simpa using hh)]

theorem hold_releaseDie (d : Dev) (s : Side) : (d.releaseDie s).ldr.hold = d.ldr.hold := by
  by_cases hh : (d.half s).tsk.halted = true
  · rw [releaseDie_halted hh]
    cases s
    · exact hold_thawWriter d
    · rfl
  · rw [releaseDie_going (by simpa using hh)]

@[simp] theorem deep_releaseDie (d : Dev) (s : Side) : (d.releaseDie s).deep = d.deep := by
  by_cases hh : (d.half s).tsk.halted = true
  · rw [releaseDie_halted hh]
    have hstarted (t : TskSt) : t.released.expire.deliver.dispatch.started = t.started :=
      (TskSt.started_of_bare (bare_released t)).trans t.started_released
    rw [deep_of_bare (bare_modTsk _ _ _ hstarted)]
    cases s
    · exact deep_thawWriter d
    · rfl
  · rw [releaseDie_going (by simpa using hh)]

/-! ## The Larder's writer stops -/

@[simp] theorem deep_stopWriter (d : Dev) (few : Nat) : (d.stopWriter few).deep = d.deep := by
  unfold Dev.stopWriter
  extract_lets now l left
  split <;> rfl

theorem tsk_stopWriter (d : Dev) (few : Nat) (s : Side) : ((d.stopWriter few).half s).tsk = (d.half s).tsk := by
  unfold Dev.stopWriter
  extract_lets now l left
  split <;> cases s <;> rfl

theorem aon_stopWriter (d : Dev) (few : Nat) : (d.stopWriter few).aon = d.aon := aon_of_deep (deep_stopWriter d few)

/-- With nothing being written, nothing stops. -/
theorem stopWriter_idle {d : Dev} (few : Nat) (h : d.ldr.burning = []) : d.stopWriter few = d := by
  simp [Dev.stopWriter, h]

/-! ## The governor's k -/

/-- The greatest k whose demand fits is found (R438). -/
theorem bestK_eq {d : Dev} {adm : Option Side} {budget k : Nat} (hk : 1 ≤ k) (hfit : d.demandAt adm (d.freqAt adm k) ≤ budget) :
    ∀ n, k ≤ n → (∀ j, k < j → j ≤ n → budget < d.demandAt adm (d.freqAt adm j)) → d.bestK adm budget n = some k := by
  intro n
  induction n with
  | zero => omega
  | succ n ih =>
    intro hn habove
    unfold Dev.bestK
    by_cases h : k = n + 1
    · rw [← h, if_pos hfit]
    · rw [if_neg (Nat.not_le.mpr (habove (n + 1) (by omega) (Nat.le_refl _)))]
      exact ih (by omega) fun j hj hjn => habove j hj (by omega)

/-! ## The supply and TRAP_N -/

/-- The always-on domain and the power state. -/
def Dev.supply (d : Dev) : AonSt × PowerState := (d.aon, d.clk.power)

theorem supply_of_deep {d e : Dev} (h : d.deep = e.deep) : d.supply = e.supply := by
  have hsupply := congrArg Dev.supply h
  exact hsupply

theorem supply_mod (d : Dev) (s : Side) (f : Half → Half) : (d.mod s f).supply = d.supply := by cases s <;> rfl

theorem supply_foldl {α : Type} (l : List α) (f : Dev → α → Dev) (h : ∀ d x, (f d x).supply = d.supply) (d : Dev) :
    (l.foldl f d).supply = d.supply := by
  induction l generalizing d with
  | nil => rfl
  | cons x l ih => rw [List.foldl_cons, ih, h]

theorem supply_seamCheck (d : Dev) (ok : List Bool) : (d.seamCheck ok).supply = d.supply := by
  have hseam (d : Dev) (k : Nat) : (d.seamFault k).supply = d.supply := by
    unfold Dev.seamFault
    rw [supply_of_deep (deep_condOn ..), supply_of_deep (deep_setRf ..), supply_of_deep (deep_setRf ..)]
  unfold Dev.seamCheck
  rw [supply_foldl]
  intro d k
  split
  · rfl
  · exact hseam d k

theorem supply_checkerFails (d : Dev) (s : Side) (blk : Nat) : (d.checkerFails s blk).supply = d.supply := by
  unfold Dev.checkerFails
  rw [supply_of_deep (deep_raise ..), supply_mod]

/-- The checks of start-up leave the always-on domain and the power state. -/
theorem supply_selfTests (d : Dev) (seamOk : List Bool) (checkFail : List (Side × Nat)) :
    (d.selfTests seamOk checkFail).supply = d.supply := by
  unfold Dev.selfTests
  dsimp only
  rw [supply_mod, supply_mod, supply_foldl _ _ fun d (p : Side × Nat) => supply_checkerFails d p.1 p.2, supply_seamCheck]

/-- A row that ends with the checks of start-up leaves the always-on domain and the power state it set. -/
theorem yields_selfTests {c : Instr} {s : State} {f : Life → Dev → Dev} {e : Dev} {seamOk : List Bool} {checkFail : List (Side × Nat)}
    (hc : exec c s = commit f s) (hf : f s.fuse.life { s.dev with out := [] } = e.conditionsOn.selfTests seamOk checkFail) :
    Yields c s fun d => d.clk.power = e.clk.power ∧ d.aon = e.aon := by
  refine yields_commit hc fun t ht => ?_
  rw [hf] at ht
  have hsupply : t.supply = e.supply :=
    (supply_of_deep ht.deep).trans ((supply_selfTests ..).trans (supply_of_deep (deep_conditionsOn e)))
  exact ⟨congrArg Prod.snd hsupply, congrArg Prod.fst hsupply⟩

/-- A running module whose VIN falls: TW's halt is released first, and the Larder's writer holds (R307, R443). -/
def Dev.warned (d : Dev) : Dev :=
  let e := ((d.setAon fun a => { a with vinWarn := true }).releaseDie .w).stopWriter 64
  { e with ldr := { e.ldr with hold := true } }

theorem vinWarn_eq {d : Dev} (h : d.powered = true) : vinWarn d = ((d.warned.releaseDie .w).releaseDie .e).condOn .w blkAon 0 := by
  have hp : (d.setAon fun a => { a with vinWarn := true }).powered = true := h
  unfold vinWarn
  rw [if_neg (by rw [hp]; decide)]
  rfl

theorem deep_warned (d : Dev) : d.warned.deep = (d.setAon fun a => { a with vinWarn := true }).deep := by
  have hldr (e : Dev) : ({ e with ldr := { e.ldr with hold := true } } : Dev).deep = e.deep := rfl
  unfold Dev.warned
  rw [hldr, deep_stopWriter, deep_releaseDie]

theorem hold_warned (d : Dev) : d.warned.ldr.hold = true := rfl

/-- VIN_WARN of a running module (R443). -/
theorem yields_vinWarn {s : State} (hpow : s.dev.powered = true) :
    Yields .vinWarn s fun d => d.aon = { s.dev.aon with vinWarn := true } ∧ d.ldr.hold = true
      ∧ (∀ side, (d.half side).tsk.halted = false) ∧ (d.page .w blkAon).active.getLsbD 0 = true := by
  refine yields_staying (f := fun _ d => vinWarn d) rfl fun t ht hstay => ?_
  rw [vinWarn_eq (d := { s.dev with out := [] }) hpow] at ht hstay
  rw [stay_of_firm (firm_condOn ..)] at hstay
  refine ⟨?_, ?_, fun side => ?_, active_of_leaves ht (by decide)⟩
  · refine (aon_of_deep ht.deep).trans (aon_of_deep (e := Dev.setAon s.dev fun a => { a with vinWarn := true }) ?_)
    rw [deep_condOn, deep_releaseDie, deep_releaseDie, deep_warned]
    rfl
  · rw [hold_of_stay hstay, hold_releaseDie, hold_releaseDie, hold_warned]
  · rw [TskSt.halted_of_bare (tsk_of_stay hstay side)]
    cases side
    · rw [tsk_releaseDie_other _ (by decide)]
      exact halted_releaseDie ..
    · exact halted_releaseDie ..

theorem vinWarnClear_eq {d : Dev} (h : d.powered = true) : vinWarnClear d
    = ({ d with aon := { d.aon with vinWarn := false }, ldr := { d.ldr with hold := false } } : Dev).condOff .w blkAon 0 := by
  have hp : (d.setAon fun a => { a with vinWarn := false }).powered = true := h
  unfold vinWarnClear
  rw [if_neg (by rw [hp]; decide)]
  rfl

theorem yields_vinWarnClear {s : State} (hpow : s.dev.powered = true) :
    Yields .vinWarnClear s fun d => d.aon = { s.dev.aon with vinWarn := false } ∧ d.ldr.hold = false
      ∧ (d.page .w blkAon).active.getLsbD 0 = false := by
  refine yields_staying (f := fun _ d => vinWarnClear d) rfl fun t ht hstay => ?_
  rw [vinWarnClear_eq (d := { s.dev with out := [] }) hpow] at ht hstay
  obtain ⟨hactive, -, -⟩ := ht.grows.1 .w blkAon
  refine ⟨?_, ?_, by rw [hactive]; exact active_condOff ..⟩
  · exact aon_of_deep (ht.deep.trans (deep_condOff ..))
  · exact (hold_of_stay hstay).trans rfl

/-- What a cut or a module reset leaves of the Larder and the flash when nothing is being written (R443, R445). -/
theorem fresh_stopWriter (d : Dev) (few : Nat) (p : PowerState) :
    ((d.stopWriter few).fresh p).aon = d.aon
      ∧ (d.ldr.burning = [] → ((d.stopWriter few).fresh p).dbg.flash = d.dbg.flash
        ∧ ((d.stopWriter few).fresh p).ldr.records = d.ldr.records) :=
  ⟨aon_stopWriter d few, fun h => by rw [stopWriter_idle few h]; exact ⟨rfl, rfl⟩⟩

theorem yields_vinCut {s : State} (hpow : s.dev.powered = true) :
    Yields .vinCut s fun d => d.clk.power = .off ∧ d.aon = s.dev.aon ∧ d.pages = [] ∧ d.west.files = []
      ∧ (s.dev.ldr.burning = [] → d.dbg.flash = s.dev.dbg.flash ∧ d.ldr.records = s.dev.ldr.records) := by
  have hon : ¬s.dev.clk.power = .off := fun h => by simp [Dev.powered, h] at hpow
  have heff : vinCut { s.dev with out := [] } = (Dev.stopWriter { s.dev with out := [] } 0).fresh .off := if_neg hon
  obtain ⟨haon, hflash⟩ := fresh_stopWriter { s.dev with out := [] } 0 .off
  refine yields_unpowered (f := fun _ d => vinCut d) rfl ?_ ?_
  · rw [heff]; rfl
  · rw [heff]; exact ⟨rfl, haon, rfl, rfl, hflash⟩

theorem yields_moduleReset {s : State} (hpow : s.dev.powered = true) :
    Yields .moduleReset s fun d => d.clk.power = .reset ∧ d.aon = s.dev.aon ∧ d.west.files = []
      ∧ (s.dev.ldr.burning = [] → d.dbg.flash = s.dev.dbg.flash ∧ d.ldr.records = s.dev.ldr.records) := by
  let e : Dev := (Dev.stopWriter { s.dev with out := [] } 0).fresh .reset
  obtain ⟨haon, hflash⟩ := fresh_stopWriter { s.dev with out := [] } 0 .reset
  have heff : (moduleReset { s.dev with out := [] }).bare = e.bare := by
    unfold moduleReset
    rw [if_neg (by rw [show Dev.powered { s.dev with out := [] } = true from hpow]; decide)]
    dsimp only
    split
    · exact bare_raise ..
    · rfl
  have keeps {α : Type} (g : Dev → α) : g (moduleReset { s.dev with out := [] }).bare = g e.bare := congrArg g heff
  refine yields_unpowered (f := fun _ d => moduleReset d) (running_eq_commit _ hpow) (keeps Dev.powered) ⟨?_, ?_, ?_, fun h => ⟨?_, ?_⟩⟩
  · exact keeps fun d => d.clk.power
  · exact (keeps Dev.aon).trans haon
  · exact keeps fun d => d.west.files
  · exact (keeps fun d => d.dbg.flash).trans (hflash h).1
  · exact (keeps fun d => d.ldr.records).trans (hflash h).2

/-- The module with VINmin and the input current that an evaluation takes (R437). -/
def Dev.measured (d : Dev) (mv ma : Nat) : Dev := { d with clk := { d.clk with vinMv := mv, ma := ma, evals := d.clk.evals + 1 } }

/-- Neither what was measured nor what was sent counts in the demand (R437, R438). -/
theorem demandAt_measured (d : Dev) (mv ma k : Nat) :
    (Dev.measured { d with out := [] } mv ma).demandAt none ((Dev.measured { d with out := [] } mv ma).freqAt none k)
      = d.demandAt none (d.freqAt none k) := rfl

/-- The governor finds a k below the present one: it is in force at once (R438). -/
theorem governorEval_falls {d : Dev} {mv ma k : Nat} (hhost : d.clk.hostMode = false) (hshort : d.clk.short = false)
    (hbelow : k < d.clk.k) (hbest : (d.measured mv ma).bestK none (powerBudget mv) 64 = some k) :
    governorEval mv ma d = (d.measured mv ma).applyK none k := by
  unfold governorEval
  extract_lets src e budget e' src' up f
  have hend : e' = e := if_neg (by simp [e, src, hshort])
  rw [if_neg (by simp [e, src, hhost]), show e.bestK none budget 64 = some k from hbest]
  dsimp only
  rw [hend, if_pos (show k ≤ e.clk.k from Nat.le_of_lt hbelow), if_neg (show ¬k = e.clk.k from Nat.ne_of_lt hbelow)]
  rfl

/-- Settles O51: each row's effect, and what every command leaves of it. -/
theorem supplyRows : Obligations.SupplyRows := by
  unfold Obligations.SupplyRows
  refine ⟨fun s => ⟨fun hpow => ⟨yields_vinWarn hpow, yields_vinWarnClear hpow, yields_vinCut hpow, yields_moduleReset hpow⟩,
    fun seamOk checkFail hoff hawake => ?_, fun seamOk checkFail hreset => ?_⟩,
    fun s mv ma k hpow hhost hshort hk hbelow htop hfit habove => ?_⟩
  · refine yields_selfTests (seamOk := seamOk) (checkFail := checkFail)
      (f := fun _ d => powerOn s.fuse.held true seamOk checkFail d) (e := Dev.fresh { s.dev with
      out := [], held := s.fuse.held, aon := { s.dev.aon with vinWarn := false, wake := 0 } } .starting) rfl ?_
    have hgo : ¬(s.dev.clk.power ≠ .off ∧ ¬(s.dev.clk.power = .sleep ∧ (!s.dev.aon.sleeping) = true)) := fun h => h.1 hoff
    dsimp only
    unfold powerOn
    rw [if_neg hgo]
    simp [hoff, hawake, Dev.setAon, Dev.startUp]
  · refine yields_selfTests (seamOk := seamOk) (checkFail := checkFail)
      (f := fun _ d => moduleResetRelease seamOk checkFail d) (e := Dev.setClk { s.dev with out := [] }
      fun c => { c with power := .starting }) rfl ?_
    exact if_neg (not_not_intro hreset)
  · refine yields_running (f := fun _ d => governorEval mv ma d) rfl hpow fun t ht => ?_
    have hbest : (Dev.measured { s.dev with out := [] } mv ma).bestK none (powerBudget mv) 64 = some k := by
      refine bestK_eq hk ?_ 64 (by omega) fun j hj hj64 => ?_
      · rw [demandAt_measured]; exact hfit
      · rw [demandAt_measured]; exact habove j hj hj64
    rw [governorEval_falls (d := { s.dev with out := [] }) hhost hshort hbelow hbest] at ht
    exact ⟨congrArg (fun d : Dev => d.clk.k) ht.deep, congrArg (fun d : Dev => d.clk.vinMv) ht.deep,
      congrArg (fun d : Dev => d.clk.ma) ht.deep, (aon_of_deep ht.deep).trans rfl⟩

end Sys2Proof.Machine
end

section
/-! PROOFS. The steps of a plan: what one half does leaves the module calm unless it ends there; RUN to END by the cursor's rule (chapter 4). -/
namespace Sys2Proof.Machine
open Sys2Proof.Safety

/-! ## An effect on one half -/

@[simp] theorem half_mod_same (d : Dev) (s : Side) (f : Half → Half) : (d.mod s f).half s = f (d.half s) := by cases s <;> rfl

theorem half_mod_ne (d : Dev) {s s' : Side} (f : Half → Half) (h : s' ≠ s) : (d.mod s f).half s' = d.half s' := by
  cases s <;> cases s' <;> simp_all [Dev.mod, Dev.setHalf, Dev.half]

theorem mod_congr {d : Dev} {s : Side} {f g : Half → Half} (h : f (d.half s) = g (d.half s)) : d.mod s f = d.mod s g := by
  simp only [Dev.mod, h]

theorem mod_mod (d : Dev) (s : Side) (f g : Half → Half) : (d.mod s f).mod s g = d.mod s fun h => g (f h) := by cases s <;> rfl

theorem mod_id (d : Dev) (s : Side) : (d.mod s fun h => h) = d := by cases s <;> rfl

theorem setHalf_eq_mod (d : Dev) (s : Side) (h : Half) : d.setHalf s h = d.mod s fun _ => h := by cases s <;> rfl

/-- A half has ended, since event 3 last told its state, with its tables changed. -/
def Half.ended (h : Half) (told : FaceState) : Bool :=
  decide (h.face.state ≠ told) && (decide (h.face.state = .done) || decide (h.face.state = .aborted)) && h.cal.changed

theorem justEnded_eq (d : Dev) (s : Side) : d.justEnded s = (d.half s).ended (d.hst.face s) := rfl

/-- What one half does without ending leaves the module calm. -/
theorem quiet_mod {d : Dev} {s : Side} {f : Half → Half} (hstw : (f (d.half s)).stw = (d.half s).stw)
    (htsk : (f (d.half s)).tsk.started = (d.half s).tsk.started)
    (hend : ∀ told, (f (d.half s)).ended told = true → (d.half s).ended told = true) : d.quiet (d.mod s f) := by
  have hcut : (d.mod s f).pathCut = d.pathCut := by
    have hf : d.mod s f = d.mod s fun _ => f (d.half s) := mod_congr rfl
    let g (n : Nat) (b : Bool) : Bool := d.cfg.load.any fun l => l.cutOff (decide (n = 4) || !b)
    have key (w e : Half) : Dev.pathCut { d with west := w, east := e } = g w.stw.state e.tsk.started := rfl
    cases s
    · exact (key (f d.west) d.east).trans (by rw [show (f d.west).stw = d.west.stw from hstw]; rfl)
    · exact (key d.west (f d.east)).trans (by rw [show (f d.east).tsk.started = d.east.tsk.started from htsk]; rfl)
  refine ⟨fun h => ?_, by cases s <;> rfl, fun h => hcut ▸ h, fun s' h => ?_⟩
  · rwa [wanted_of_eq (d := d) (by cases s <;> rfl) (by cases s <;> rfl)] at h
  · rw [justEnded_eq] at h ⊢
    have htold : (d.mod s f).hst.face s' = d.hst.face s' := by cases s <;> rfl
    rw [htold] at h
    by_cases k : s' = s
    · subst k
      rw [half_mod_same] at h
      exact hend _ h
    · rwa [half_mod_ne _ _ k] at h

/-- A half whose sequencer stays in a state other than DONE and ABORTED does not end. -/
theorem Half.not_ended {h : Half} (told : FaceState) (hd : h.face.state ≠ .done) (ha : h.face.state ≠ .aborted) :
    h.ended told = false := by
  simp [Half.ended, hd, ha]

theorem Half.ended_congr {h k : Half} (told : FaceState) (hf : k.face.state = h.face.state) (hc : k.cal.changed = h.cal.changed) :
    k.ended told = h.ended told := by
  simp [Half.ended, hf, hc]

/-- A row that changes one half, and does not end it, changes nothing else. -/
theorem yields_mod {c : Instr} {s : State} {side : Side} {f : Life → Dev → Dev} {g : Half → Half} (hc : exec c s = running f s)
    (hpow : s.dev.powered = true) (hcalm : s.dev.calm)
    (hf : f s.fuse.life { s.dev with out := [] } = Dev.mod { s.dev with out := [] } side g)
    (hstw : (g (s.dev.half side)).stw = (s.dev.half side).stw)
    (htsk : (g (s.dev.half side)).tsk.started = (s.dev.half side).tsk.started)
    (hend : ∀ told, (g (s.dev.half side)).ended told = true → (s.dev.half side).ended told = true) :
    Yields c s fun d => d.bare = (s.dev.mod side g).bare := by
  refine yields_running hc hpow fun t ht => ?_
  rw [hf] at ht
  have hq : (Dev.mod { s.dev with out := [] } side g).calm := by
    have h0 : ({ s.dev with out := [] } : Dev).calm := hcalm
    have hh : Dev.half { s.dev with out := [] } side = s.dev.half side := by cases side <;> rfl
    exact h0.quiet (quiet_mod (by rwa [hh]) (by rwa [hh]) (by rwa [hh]))
  exact (ht.bare hq).trans (by cases side <;> rfl)

/-! ## The steps of a plan -/

open PlanImg

/-- What it means to stand at a step. -/
theorem atStep_iff {h : Half} {o : Nat} : h.atStep o = true ↔
    h.face.state = .running ∧ h.face.cur.busy = false ∧ op h.planRd h.face.cur.pc = o := by
  simp [Half.atStep, and_assoc]

/-- A step is passed as the cursor passes it. -/
theorem passStep_eq {h : Half} {c : Cur} (hpass : h.face.cur.pass h.planRd h.face.samples = .ok c) :
    h.passStep = { h with face := { h.face.stepped true with cur := c } } := by
  unfold Half.passStep
  extract_lets f
  rw [show f.cur.pass h.planRd f.samples = _ from hpass]

/-- A step that issues nothing and is no loop's, fork's or END is passed to the next (R107 to R112). -/
theorem passStep_next {h : Half} {o : Nat} (ho : op h.planRd h.face.cur.pc = o) (hplain : o ∈ [6, 7, 8, 9, 10, 11, 12, 13]) :
    h.passStep = { h with face := { h.face.stepped true with cur := { h.face.cur with pc := h.face.cur.pc + 1 } } } := by
  refine passStep_eq ?_
  unfold Cur.pass
  rw [ho]
  simp only [List.mem_cons, List.not_mem_nil, or_false] at hplain
  rcases hplain with rfl | rfl | rfl | rfl | rfl | rfl | rfl | rfl <;> rfl

/-- A half at a step has not ended, wherever the step leads it but to DONE or ABORTED. -/
theorem not_ended_of_step {h k : Half} (hd : k.face.state ≠ .done) (ha : k.face.state ≠ .aborted) :
    ∀ told, k.ended told = true → h.ended told = true := fun told hk => by
  rw [Half.not_ended told hd ha] at hk
  exact absurd hk Bool.false_ne_true

/-- A step of a running half that keeps it running yields what it does to the half. -/
theorem yields_step {c : Instr} {s : State} {side : Side} {f : Life → Dev → Dev} {g : Half → Half} (hc : exec c s = running f s)
    (hpow : s.dev.powered = true) (hcalm : s.dev.calm)
    (hf : f s.fuse.life { s.dev with out := [] } = Dev.mod { s.dev with out := [] } side g)
    (hstw : (g (s.dev.half side)).stw = (s.dev.half side).stw)
    (htsk : (g (s.dev.half side)).tsk.started = (s.dev.half side).tsk.started)
    (hrun : (g (s.dev.half side)).face.state = .running ∨ (g (s.dev.half side)).face.state = .draining) :
    Yields c s fun d => d.bare = (s.dev.mod side g).bare := by
  refine yields_mod hc hpow hcalm hf hstw htsk (not_ended_of_step ?_ ?_)
  all_goals rcases hrun with h | h <;> rw [h] <;> decide

theorem half_out (d : Dev) (s : Side) : Dev.half { d with out := [] } s = d.half s := by cases s <;> rfl

/-- Two effects on a half that agree on it. -/
theorem mod_out_congr {d : Dev} {s : Side} {f g : Half → Half} (h : f (d.half s) = g (d.half s)) :
    Dev.mod { d with out := [] } s f = Dev.mod { d with out := [] } s g := mod_congr (by rwa [half_out])

theorem setDrl_keeps (h : Half) (n : Nat) (x : Drill) : (h.setDrl n x).face = h.face ∧ (h.setDrl n x).stw = h.stw
    ∧ (h.setDrl n x).tsk = h.tsk ∧ (h.setDrl n x).planRd = h.planRd := by
  unfold Half.setDrl Half.planRd
  split <;> exact ⟨rfl, rfl, rfl, rfl⟩

/-- A DRILL step passes with its drill as the step leaves it (R112, R155). -/
theorem passStep_setDrl {h : Half} {o : Nat} (n : Nat) (x : Drill) (ho : op h.planRd h.face.cur.pc = o)
    (hplain : o ∈ [6, 7, 8, 9, 10, 11, 12, 13]) : (h.setDrl n x).passStep
      = { h.setDrl n x with face := { h.face.stepped true with cur := { h.face.cur with pc := h.face.cur.pc + 1 } } } := by
  obtain ⟨hface, -, -, hrd⟩ := setDrl_keeps h n x
  rw [passStep_next (o := o) (by rw [hface, hrd, ho]) hplain, hface]

/-- With no shelf load in progress, a step's own instant sets the cycle of the burst alone (R108). -/
theorem stepTime_idle {d : Dev} {s : Side} (h : (d.half s).shelf.load = none) : d.stepTime s = d.mod s fun h =>
    { h with face := { h.face with burst := { h.face.burst with cycle := max h.face.burst.cycle (h.face.burst.tvs / 10000) } } } := by
  unfold Dev.stepTime Dev.timeTo
  extract_lets b
  split
  · rename_i hle
    rw [← mod_id d s, mod_mod]
    refine (mod_congr ?_).symm
    rw [show max (d.half s).face.burst.cycle ((d.half s).face.burst.tvs / 10000) = (d.half s).face.burst.cycle from Nat.max_eq_left hle]
  · rename_i hlt
    have hidle (e : Dev) (k : Nat) (he : (e.half s).shelf.load = none) : e.loadCyclesPass s k = e := by
      unfold Dev.loadCyclesPass
      dsimp only
      rw [he]
    rw [hidle _ _ (by rw [half_mod_same]; exact h)]
    refine mod_congr ?_
    rw [show max (d.half s).face.burst.cycle ((d.half s).face.burst.tvs / 10000) = (d.half s).face.burst.tvs / 10000 from
      Nat.max_eq_right (Nat.le_of_lt (Nat.not_le.mp hlt))]

/-- A register is no part of what calls the SAFE net, cuts a load or ends a half. -/
theorem quiet_setRg (d : Dev) (n : Nat) (r : Rg) (i : Nat) (v : Word) : d.quiet (d.setRg n r i v) :=
  ⟨fun h => h, rfl, fun h => h, fun _ h => h⟩

theorem quiet_setSiteMask (d : Dev) (s : Side) (m v : Nat) : d.quiet (d.setSiteMask s m v) :=
  (quiet_setRg ..).trans (quiet_setRg ..)

/-- Settles O7: each step by the cursor's rule. -/
theorem planSteps : Obligations.PlanSteps := by
  unfold Obligations.PlanSteps
  intro s side hpow hcalm h rd c gives goes next
  refine ⟨fun hat => ?_, fun hat => ?_, fun hat => ?_, fun hat => ?_, fun hat => ?_, fun hat => ?_, fun hat => ?_, fun hat => ?_,
    fun hat hload => ?_⟩
  all_goals obtain ⟨hrun, hidle, hop⟩ := atStep_iff.mp hat
  · refine yields_step (f := fun _ d => runStep side d) rfl hpow hcalm (mod_out_congr ?_) rfl rfl (.inl hrun)
    dsimp only
    rw [if_neg (by rw [hat]; decide)]
    unfold Cur.pass
    rw [show op (s.dev.half side).planRd ((s.dev.half side).face.stepped (decide ((s.dev.half side).face.burst.issues < 64))).cur.pc = 1 from hop]
    rfl
  · refine yields_step (f := fun _ d => drunStep side d) rfl hpow hcalm (mod_out_congr ?_) rfl rfl (.inl hrun)
    refine (if_pos hat).trans (passStep_eq ?_)
    unfold Cur.pass
    rw [hop]
    rfl
  · refine yields_step (f := fun _ d => loopStep side d) rfl hpow hcalm (mod_out_congr ?_) rfl rfl (.inl hrun)
    refine (if_pos hat).trans (passStep_eq ?_)
    unfold Cur.pass
    rw [hop]
    rfl
  · refine yields_step (f := fun _ d => pauseStep side d) rfl hpow hcalm (mod_out_congr ?_) rfl rfl (.inl hrun)
    refine (if_pos hat).trans ?_
    rw [passStep_next hop (by decide)]
  · obtain ⟨hface, hstw, htsk, -⟩ := setDrl_keeps h (PlanImg.fa rd c.pc) ((h.drl (PlanImg.fa rd c.pc)).start (PlanImg.fb rd c.pc))
    refine yields_step (f := fun _ d => dstartStep side d) rfl hpow hcalm (mod_out_congr ?_) hstw (congrArg TskSt.started htsk)
      (.inl ((congrArg FaceSt.state hface).trans hrun))
    refine (if_neg (by rw [hat]; decide)).trans ((passStep_setDrl _ _ hop (by decide)).trans ?_)
    simp only [goes, hface, h, rd, c, next]
  · obtain ⟨hface, hstw, htsk, -⟩ := setDrl_keeps h (PlanImg.fa rd c.pc) (h.drl (PlanImg.fa rd c.pc)).stop
    refine yields_step (f := fun _ d => dstopStep side d) rfl hpow hcalm (mod_out_congr ?_) hstw (congrArg TskSt.started htsk)
      (.inl ((congrArg FaceSt.state hface).trans hrun))
    refine (if_neg (by rw [hat]; decide)).trans ((passStep_setDrl _ _ hop (by decide)).trans ?_)
    simp only [goes, hface, h, rd, c, next]
  · refine yields_running (f := fun _ d => smaskStep side d) rfl hpow fun t ht => ?_
    have hgoes : (s.dev.half side).passStep = goes (s.dev.half side) next := passStep_next hop (by decide)
    have hout : Dev.half { s.dev with out := [] } side = h := half_out ..
    have heff : smaskStep side { s.dev with out := [] }
        = (Dev.mod { s.dev with out := [] } side fun h => goes h next).setSiteMask side (PlanImg.fa rd c.pc) (PlanImg.fc rd c.pc) := by
      unfold smaskStep
      rw [hout, if_neg (by rw [hat]; decide), mod_out_congr (g := fun h => goes h next) hgoes]
    rw [heff] at ht
    have hq : (Dev.mod { s.dev with out := [] } side fun h => goes h next).calm := by
      refine Dev.calm.quiet (d := { s.dev with out := [] }) hcalm (quiet_mod ?_ ?_ ?_)
      · rfl
      · rfl
      · rw [hout]
        exact not_ended_of_step (by rw [show (goes h next).face.state = _ from hrun]; decide)
          (by rw [show (goes h next).face.state = _ from hrun]; decide)
    refine (ht.bare (hq.quiet (quiet_setSiteMask ..))).trans ?_
    cases side <;> rfl
  · refine yields_step (f := fun _ d => srcStep side d) rfl hpow hcalm (mod_out_congr ?_) rfl rfl (.inl hrun)
    refine (if_neg (by rw [hat]; decide)).trans ?_
    dsimp only
    rw [passStep_next hop (by decide)]
  · refine yields_step (f := fun _ d => endStep side d) rfl hpow hcalm ?_ rfl rfl (.inr rfl)
    dsimp only
    unfold endStep
    rw [half_out, if_neg (by rw [hat]; decide), stepTime_idle (by rw [half_out]; exact hload), mod_mod]

end Sys2Proof.Machine
end

section
/-! PROOFS. A half whose burst a fault ends: its changed tables are journaled, what ends and what goes on; parity errors (chapters 2, 4, 5). -/
namespace Sys2Proof.Machine
open Sys2Proof.Safety

/-! ## A half that ends: its changed tables are journaled (R192) -/

theorem severity_post (d : Dev) (s s' : Side) (b' q : Nat) (e : BitVec 64) :
    ((d.post s q e).1.page s' b').severity = (d.page s' b').severity := by
  unfold Dev.post
  extract_lets t eq taken full d1
  split
  · rw [page_mod]
  · dsimp only
    split
    · simp only [d1, page_mod]
    · rw [severity_raiseQuiet]
      simp only [d1, page_mod]

/-- A raise changes no severity. -/
theorem severity_raise (d : Dev) (s s' : Side) (b b' i : Nat) : ((d.raise s b i).page s' b').severity = (d.page s' b').severity := by
  have hset (d : Dev) (p : Page) (h : p.severity = (d.page s b).severity) :
      ((d.setPage s b p).page s' b').severity = (d.page s' b').severity := by
    by_cases k : pageKey s' b' = pageKey s b
    · rw [page_setPage_key _ _ _ _ _ _ k, page_congr d k, h]
    · rw [page_setPage_ne _ _ _ _ _ _ k]
  unfold Dev.raise
  split
  · rfl
  · dsimp only
    split
    · rfl
    · split
      · exact severity_raiseQuiet ..
      · have hpost := (severity_post (d.raiseQuiet s b i) s s' b' b (Config.faultEntry s.code b i)).trans (severity_raiseQuiet ..)
        split
        · exact hpost
        · refine (hset _ _ ?_).trans hpost
          rfl

/-- A source is mild by the severities of two pages. -/
theorem mild_of_severity {d e : Dev} {s : Side} {b i : Nat} (hb : (e.page s b).severity = (d.page s b).severity)
    (ht : (e.page s blkTsk).severity = (d.page s blkTsk).severity) (h : d.mild s b i) : e.mild s b i := by
  obtain ⟨h1, h2⟩ := h
  exact ⟨by rwa [sev_of_severity hb], by rwa [sev_of_severity ht]⟩

theorem mild_raise {d : Dev} {s s' : Side} {b b' i i' : Nat} (h : d.mild s b i) : (d.raise s' b' i').mild s b i :=
  mild_of_severity (severity_raise ..) (severity_raise ..) h

theorem meek_of_pages {d e : Dev} (h : e.pages = d.pages) (hm : d.meek) : e.meek :=
  ⟨mild_of_severity (by rw [page_of_pages h]) (by rw [page_of_pages h]) hm.1,
    mild_of_severity (by rw [page_of_pages h]) (by rw [page_of_pages h]) hm.2⟩

theorem meek_raise {d : Dev} {s : Side} {b i : Nat} (h : d.meek) : (d.raise s b i).meek := ⟨mild_raise h.1, mild_raise h.2⟩

theorem meek_mod {d : Dev} (s : Side) (f : Half → Half) (h : d.meek) : (d.mod s f).meek := meek_of_pages (by cases s <;> rfl) h

theorem quiet_mildRaise {d : Dev} {s : Side} {b i : Nat} (h : d.mild s b i) : d.quiet (d.raise s b i) := quiet_raise d s b i h.1 h.2

/-- The Larder and the flash are no part of what calls the SAFE net, cuts a load or ends a half. -/
theorem quiet_setLarder (d : Dev) (l : LdrSt) (g : DbgSt) : d.quiet { d with ldr := l, dbg := g } :=
  ⟨fun h => h, rfl, fun h => h, fun _ h => h⟩

/-- An append that calls no SAFE net, full Larder or not (R307). -/
theorem quiet_ldrAppend {d : Dev} (type key : Nat) (x : LdrData) (h : d.meek) :
    d.quiet (d.ldrAppend type key x) ∧ (d.ldrAppend type key x).meek := by
  unfold Dev.ldrAppend
  extract_lets l cw fits sector used r fill now rest b d1 src d2
  have h2 : d.quiet d2 ∧ d2.meek := ⟨quiet_setLarder .., h⟩
  split
  · exact ⟨quiet_setLarder d _ d.dbg, h⟩
  · split
    · exact ⟨(quiet_setRg ..).trans (quiet_mildRaise (d := d.bump 0 .ldrLost) h.1), meek_raise (d := d.bump 0 .ldrLost) h⟩
    · split
      · exact ⟨h2.1.trans (quiet_mildRaise h2.2.2), meek_raise h2.2⟩
      · exact h2

/-- A half without whether its tables have changed. -/
def Half.sans (h : Half) : Half := { h with cal := { h.cal with changed := false } }

/-- The bare module without what the journal of an ended half changes: registers, the Larder, the flash, and whether tables have
changed. -/
def Dev.sans (d : Dev) : Dev :=
  { d.bare with regs := [], ldr := {}, dbg := { d.dbg with flash := [] }, west := d.bare.west.sans, east := d.bare.east.sans }

theorem sans_of_bare {d e : Dev} (h : d.bare = e.bare) : d.sans = e.sans := by
  have hsans := congrArg Dev.sans h
  exact hsans

@[simp] theorem sans_raise (d : Dev) (s : Side) (b i : Nat) : (d.raise s b i).sans = d.sans := sans_of_bare (bare_raise ..)

@[simp] theorem sans_ldrAppend (d : Dev) (type key : Nat) (x : LdrData) : (d.ldrAppend type key x).sans = d.sans := by
  unfold Dev.ldrAppend
  extract_lets l cw fits sector used r fill now rest b d1 src d2
  split
  · rfl
  · split
    · exact sans_raise ..
    · split
      · exact sans_raise ..
      · rfl

@[simp] theorem sans_journalEnd (d : Dev) (s : Side) : (d.journalEnd s).sans = d.sans := by
  have hchanged (e : Dev) : (e.mod s fun h => { h with cal := { h.cal with changed := false } }).sans = e.sans := by cases s <;> rfl
  unfold Dev.journalEnd Dev.journalCal
  split
  · dsimp only
    split
    · rfl
    · rw [hchanged, sans_ldrAppend, sans_ldrAppend]
  · rfl

/-- The bare halves stay as they are through an append. -/
theorem half_ldrAppend (d : Dev) (type key : Nat) (x : LdrData) (s : Side) : (d.ldrAppend type key x).bare.half s = d.bare.half s := by
  unfold Dev.ldrAppend
  extract_lets l cw fits sector used r fill now rest b d1 src d2
  split
  · rfl
  · split
    · rw [bare_raise]
      rfl
    · split
      · rw [bare_raise]
        rfl
      · rfl

/-- The other half stays as it is while one is journaled. -/
theorem half_journalEnd_ne (d : Dev) {s s' : Side} (h : s' ≠ s) : (d.journalEnd s).bare.half s' = d.bare.half s' := by
  have hother (e : Dev) (f : Half → Half) : (e.mod s f).bare.half s' = e.bare.half s' := by
    cases s <;> cases s' <;> simp_all [Dev.mod, Dev.setHalf, Dev.half, Dev.bare]
  unfold Dev.journalEnd Dev.journalCal
  split
  · dsimp only
    split
    · rfl
    · rw [hother, half_ldrAppend, half_ldrAppend]
  · rfl

/-- A half that is journaled has ended no longer, and nothing else comes up. -/
theorem quiet_journalEnd {d : Dev} (s : Side) (h : d.meek) :
    d.quiet (d.journalEnd s) ∧ (d.journalEnd s).meek ∧ (d.journalEnd s).justEnded s = false := by
  unfold Dev.journalEnd
  split
  · unfold Dev.journalCal
    extract_lets c part d1
    split
    · rename_i hend hc
      rw [justEnded_eq, Half.ended, Bool.and_eq_true] at hend
      exact absurd hend.2 (by simpa [c] using hc)
    · obtain ⟨q1, m1⟩ := quiet_ldrAppend 1 (2 * s.code) (part 0) h
      obtain ⟨q2, m2⟩ := quiet_ldrAppend 1 (2 * s.code + 1) (part 128) m1
      have hno (told : FaceState) : Half.ended { (d1.half s) with cal := { (d1.half s).cal with changed := false } } told = false := by
        simp [Half.ended]
      refine ⟨(q1.trans q2).trans (quiet_mod rfl rfl fun told hk => ?_), meek_mod s _ m2, ?_⟩
      · rw [hno] at hk
        exact absurd hk Bool.false_ne_true
      · rw [justEnded_eq, half_mod_same]
        exact hno _
  · rename_i hend
    exact ⟨.refl d, h, by simpa using hend⟩

/-- What is calm but for halves that ended is calm when they are journaled. -/
theorem calm_journaled {d : Dev} (hnet : d.safeWanted = true → d.safe.asserted = true) (hcut : d.pathCut = false) (hmeek : d.meek) :
    ((d.journalEnd .w).journalEnd .e).calm := by
  obtain ⟨q1, m1, e1⟩ := quiet_journalEnd .w hmeek
  obtain ⟨q2, m2, e2⟩ := quiet_journalEnd .e m1
  have q := q1.trans q2
  refine ⟨fun h => q.2.1 ▸ hnet (q.1 h), Bool.eq_false_iff.mpr fun h => ?_, Bool.eq_false_iff.mpr fun h => ?_, e2⟩
  · have := q.2.2.1 h
    simp [hcut] at this
  · have := q2.2.2.2 .w h
    simp [e1] at this

/-- What every command leaves in order of a module that is calm but for halves that ended: they are journaled. -/
theorem bare_settle_ended {d : Dev} (life : Life) (hpow : d.powered = true) (hnet : d.safeWanted = true → d.safe.asserted = true)
    (hcut : d.pathCut = false) (hmeek : d.meek) : (d.settle life).bare = ((d.journalEnd .w).journalEnd .e).bare := by
  have hcalm := calm_journaled hnet hcut hmeek
  have hload : d.pathLost life = d := by
    unfold Dev.pathLost
    unfold Dev.pathCut at hcut
    split
    · rfl
    · rename_i l hl
      rw [hl] at hcut
      rw [if_neg (by simpa using hcut)]
  unfold Dev.settle
  rw [if_neg (by simp [hpow])]
  dsimp only
  rw [bare_reportStates, bare_modTsk _ _ _ TskSt.started_deliver, bare_modTsk _ _ _ TskSt.started_deliver, bare_retryHeld,
    bare_retryHeld, bare_spentSessions, hload, bare_safeNet _ life hcalm]

/-- From one state to a later one no request or cut load comes up, and the net stays as it is. -/
def Dev.hush (d e : Dev) : Prop :=
  (e.safeWanted = true → d.safeWanted = true) ∧ e.safe.asserted = d.safe.asserted ∧ (e.pathCut = true → d.pathCut = true)

theorem Dev.quiet.hush {d e : Dev} (h : d.quiet e) : d.hush e := ⟨h.1, h.2.1, h.2.2.1⟩

theorem Dev.hush.trans {d e f : Dev} (h : d.hush e) (k : e.hush f) : d.hush f :=
  ⟨fun x => h.1 (k.1 x), k.2.1.trans h.2.1, fun x => h.2.2 (k.2.2 x)⟩

/-- What one half does calls no SAFE net and cuts no load, whether it ends or not. -/
theorem hush_mod {d : Dev} {s : Side} {f : Half → Half} (hstw : (f (d.half s)).stw = (d.half s).stw)
    (htsk : (f (d.half s)).tsk.started = (d.half s).tsk.started) : d.hush (d.mod s f) := by
  have hcut : (d.mod s f).pathCut = d.pathCut := by
    have hf : d.mod s f = d.mod s fun _ => f (d.half s) := mod_congr rfl
    let g (n : Nat) (b : Bool) : Bool := d.cfg.load.any fun l => l.cutOff (decide (n = 4) || !b)
    have key (w e : Half) : Dev.pathCut { d with west := w, east := e } = g w.stw.state e.tsk.started := rfl
    cases s
    · exact (key (f d.west) d.east).trans (by rw [show (f d.west).stw = d.west.stw from hstw]; rfl)
    · exact (key d.west (f d.east)).trans (by rw [show (f d.east).tsk.started = d.east.tsk.started from htsk]; rfl)
  refine ⟨fun h => ?_, by cases s <;> rfl, fun h => hcut ▸ h⟩
  rwa [wanted_of_eq (d := d) (by cases s <;> rfl) (by cases s <;> rfl)] at h

theorem Half.stw_abort (h : Half) (c : Nat) : (h.abort c).stw = h.stw := by
  unfold Half.abort
  dsimp only
  split
  · rfl
  · split
    · rfl
    · split <;> rfl

theorem hush_abort (d : Dev) (s : Side) (c : Nat) : d.hush (d.abort s c) :=
  hush_mod (Half.stw_abort ..) (congrArg TskSt.started (Half.tsk_abort ..))

/-- A row of a running module that may end halves, at severities below 3. -/
theorem yields_ending {c : Instr} {s : State} {f : Life → Dev → Dev} {e : Dev} {p : Dev → Prop} (hc : exec c s = running f s)
    (hpow : s.dev.powered = true) (hcalm : s.dev.calm) (hf : f s.fuse.life { s.dev with out := [] } = e) (hp : e.powered = true)
    (hq : s.dev.hush e) (hmeek : e.meek)
    (h : ∀ t, t.bare = ((e.journalEnd .w).journalEnd .e).bare → e.grows t → p t) : Yields c s p := by
  obtain ⟨hwanted, hasserted, hcut⟩ := hq
  obtain ⟨hnet, huncut, -⟩ := hcalm
  rw [yields_running_iff hc hpow, Dev.after, hf]
  refine h _ (bare_settle_ended _ hp (fun x => hasserted ▸ hnet (hwanted x)) (Bool.eq_false_iff.mpr fun x => ?_) hmeek) (grows_settle ..)
  rw [hcut x] at huncut
  exact absurd huncut.symm Bool.false_ne_true

/-- Of a half that another one's end does not touch, nothing but bookkeeping changes. -/
theorem half_journaled {d : Dev} {s : Side} (hmeek : d.meek) (h : d.justEnded s.other = false) :
    ((d.journalEnd .w).journalEnd .e).bare.half s.other = d.bare.half s.other := by
  cases s with
  | w =>
    obtain ⟨hq, -, -⟩ := quiet_journalEnd .w hmeek
    have he : (d.journalEnd .w).justEnded .e = false :=
      Bool.eq_false_iff.mpr fun x => absurd ((hq.2.2.2 .e x).symm.trans h) (by decide)
    rw [show (d.journalEnd .w).journalEnd .e = d.journalEnd .w from if_neg (by simp [he])]
    exact half_journalEnd_ne d (by decide)
  | e =>
    rw [show d.journalEnd .w = d from if_neg (by simp [show d.justEnded .w = false from h])]
    exact half_journalEnd_ne d (by decide)

/-- The journal of ended halves shows in no half but by whether its tables have changed. -/
theorem sans_journaled (d : Dev) : ((d.journalEnd .w).journalEnd .e).sans = d.sans := by simp

/-- The engines of a half that a burst runs on. -/
def Half.engines (h : Half) : FaceSt × TchSt × QrySt × Drill × Drill × ShelfSt := (h.face, h.tch, h.qry, h.drl0, h.drl1, h.shelf)

theorem engines_of_sans {d e : Dev} (h : d.sans = e.sans) (s : Side) : (d.half s).engines = (e.half s).engines := by
  have hengines := congrArg (fun x : Dev => (x.half s).engines) h
  cases s <;> exact hengines

theorem engines_iff {h k : Half} : h.engines = k.engines ↔ h.face = k.face ∧ h.tch = k.tch ∧ h.qry = k.qry ∧ h.drl0 = k.drl0
    ∧ h.drl1 = k.drl1 ∧ h.shelf = k.shelf := by
  simp [Half.engines]

/-! ## Parity -/

/-- A burst that a cause ends is ABORTED by it (R130, R135). -/
theorem abort_bursting {h : Half} (cause : Nat) (hb : h.face.bursting = true) : (h.abort cause).face.state = .aborted
    ∧ (h.abort cause).face.cause = cause ∧ (h.abort cause).face.burst.abortIssue = some h.face.burst.issues
    ∧ (h.abort cause).tch.cause = causeTch cause ∧ (h.abort cause).qry.state = .flushing
    ∧ (h.abort cause).drl0 = h.drl0.stop ∧ (h.abort cause).drl1 = h.drl1.stop := by
  unfold Half.abort
  dsimp only
  rw [if_pos hb]
  exact ⟨rfl, rfl, rfl, rfl, rfl, rfl, rfl⟩

theorem half_of_bare {d e : Dev} (h : d.bare = e.bare) (s : Side) : d.bare.half s = e.bare.half s := congrArg (fun x : Dev => x.half s) h

/-- A raise leaves the engines of either half. -/
theorem engines_raise (d : Dev) (s s' : Side) (b i : Nat) : ((d.raise s b i).half s').engines = (d.half s').engines :=
  engines_of_sans (sans_raise d s b i) s'

theorem powered_of_sans {d e : Dev} (h : d.sans = e.sans) : d.powered = e.powered := by
  have hpowered := congrArg Dev.powered h
  exact hpowered

/-- The engines of a half decide what an abort makes of them. -/
theorem engines_abort {h k : Half} (cause : Nat) (hb : h.face.bursting = true) (he : h.engines = k.engines) :
    (h.abort cause).engines = (k.abort cause).engines := by
  obtain ⟨hface, htch, hqry, hdrl0, hdrl1, hshelf⟩ := engines_iff.mp he
  have hb' : k.face.bursting = true := hface ▸ hb
  unfold Half.abort
  dsimp only
  rw [if_pos hb, if_pos hb', hface, hqry, htch]
  simp [Half.engines, hdrl0, hdrl1, hshelf]

theorem powered_mod (d : Dev) (s : Side) (f : Half → Half) : (d.mod s f).powered = d.powered := by cases s <;> rfl

theorem justEnded_mod_other (d : Dev) (s : Side) (f : Half → Half) : (d.mod s f).justEnded s.other = d.justEnded s.other := by
  cases s <;> rfl

theorem bareHalf_mod_other (d : Dev) (s : Side) (f : Half → Half) : (d.mod s f).bare.half s.other = d.bare.half s.other := by
  cases s <;> rfl

theorem Dev.calm.not_justEnded {d : Dev} (h : d.calm) (s : Side) : d.justEnded s = false := by
  obtain ⟨-, -, hw, he⟩ := h
  cases s
  · exact hw
  · exact he

/-- A row that raises a mild source of a half and ends its burst with a cause: every severity below 3, the half is ABORTED, its page
shows the source, and the other half goes on (R135, R459). -/
theorem yields_burstEnds {c : Instr} {s : State} {side : Side} {f : Life → Dev → Dev} {g : Half → Half} {b i cause : Nat}
    (hc : exec c s = running f s) (hpow : s.dev.powered = true) (hcalm : s.dev.calm) (hmeek : s.dev.meek)
    (hf : f s.fuse.life { s.dev with out := [] } = ((Dev.mod { s.dev with out := [] } side g).raise side b i).abort side cause)
    (hstw : (g (s.dev.half side)).stw = (s.dev.half side).stw)
    (htsk : (g (s.dev.half side)).tsk.started = (s.dev.half side).tsk.started)
    (hb : (g (s.dev.half side)).face.bursting = true) (hs : ¬(side = .e ∧ twOnly b = true)) (hclass : srcClass b i ≠ none) (hi : i < 16)
    (hen : (s.dev.page side b).enable.getLsbD i = true) (hmild : s.dev.mild side b i) :
    Yields c s fun d => (d.half side).engines = ((g (s.dev.half side)).abort cause).engines
      ∧ d.bare.half side.other = s.dev.bare.half side.other ∧ (d.page side b).src.getLsbD i = true := by
  let d0 : Dev := { s.dev with out := [] }
  let d1 : Dev := d0.mod side g
  let d2 : Dev := d1.raise side b i
  have hhalf : d0.half side = s.dev.half side := half_out ..
  have hpages : d1.pages = s.dev.pages := by cases side <;> rfl
  have hmild1 : d1.mild side b i := mild_of_severity (by rw [page_of_pages hpages]) (by rw [page_of_pages hpages]) hmild
  have hmeek1 : d1.meek := meek_of_pages hpages hmeek
  have heng : (d2.half side).engines = (g (s.dev.half side)).engines := by
    rw [engines_raise, half_mod_same, hhalf]
  have hb2 : (d2.half side).face.bursting = true := by
    obtain ⟨hface, -⟩ := engines_iff.mp heng
    rw [hface, hb]
  have hhush : s.dev.hush (d2.abort side cause) := by
    refine Dev.hush.trans (hush_mod (d := d0) ?_ ?_) ((quiet_mildRaise hmild1).hush.trans (hush_abort ..))
    · rwa [hhalf]
    · rwa [hhalf]
  have hother : (d2.abort side cause).justEnded side.other = false := by
    rw [show (d2.abort side cause).justEnded side.other = _ from justEnded_mod_other ..]
    refine Bool.eq_false_iff.mpr fun h => ?_
    have h1 := (quiet_mildRaise hmild1).2.2.2 _ h
    rw [justEnded_mod_other] at h1
    exact absurd (h1.symm.trans (hcalm.not_justEnded side.other)) (by decide)
  have hmeek2 : (d2.abort side cause).meek := meek_mod side _ (meek_raise hmeek1)
  refine yields_ending hc hpow hcalm hf ?_ hhush hmeek2 fun t hbare hgrows => ⟨?_, ?_, ?_⟩
  · rw [show (d2.abort side cause).powered = d2.powered from powered_mod .., powered_of_sans (sans_raise ..), powered_mod]
    exact hpow
  · rw [engines_of_sans ((sans_of_bare hbare).trans (sans_journaled _)) side, show (d2.abort side cause).half side = _ from half_mod_same ..]
    exact engines_abort cause hb2 heng
  · rw [hbare, half_journaled hmeek2 hother, show (d2.abort side cause).bare.half side.other = _ from bareHalf_mod_other ..,
      show d2.bare = d1.bare from bare_raise .., bareHalf_mod_other]
    cases side <;> rfl
  · obtain ⟨-, -, hsrc⟩ := hgrows.1 side b
    refine hsrc i ?_
    rw [show (d2.abort side cause).page side b = d2.page side b from page_mod ..]
    exact raise_src d1 side b i hs hclass hi (by rwa [page_of_pages hpages])

theorem yields_mono {c : Instr} {s : State} {p q : Dev → Prop} (h : Yields c s p) (k : ∀ d, p d → q d) : Yields c s q := by
  obtain ⟨t, ht, hpend, hfuse, hp⟩ := h
  exact ⟨t, ht, hpend, hfuse, k _ hp⟩

theorem drl_setDrl (h : Half) (n : Nat) (x : Drill) : (h.setDrl n x).drl n = x := by
  unfold Half.setDrl Half.drl
  split <;> rfl

/-- Settles O13: a pipeline's and a drill's parity errors end the burst; the plan image's is raised. -/
theorem parityRows : Obligations.ParityRows := by
  unfold Obligations.ParityRows
  intro s side hpow hcalm hmeek
  refine ⟨fun hb hen hmild => ?_, fun n hb hst hen hmild => ?_, fun hplan hen => ?_⟩
  · have heff : pipeFault side { s.dev with out := [] }
        = ((Dev.mod { s.dev with out := [] } side fun h => h).raise side blkTch 0).abort side 7 := by
      have hsev : ¬((s.dev.page side blkTch).enable.getLsbD 0 && decide ((s.dev.page side blkTch).sev blkTch 0 = 3)) = true := by
        simp [hmild.1]
      rw [mod_id]
      exact if_neg hsev
    refine yields_mono (yields_burstEnds (c := .pipeFault side) (f := fun _ d => pipeFault side d) (g := fun h => h) rfl hpow hcalm hmeek
      heff rfl rfl hb (fun h => absurd h.2 (by decide)) (by decide) (by decide) hen hmild) fun d ⟨heng, hother, hsrc⟩ => ?_
    obtain ⟨hface, htch, hqry, -⟩ := engines_iff.mp heng
    obtain ⟨-, -, -, hcause, hflush, -⟩ := abort_bursting 7 hb
    exact ⟨hface, (congrArg TchSt.cause htch).trans hcause, (congrArg QrySt.state hqry).trans hflush, hother, hsrc⟩
  · let g (h : Half) : Half := h.setDrl n { (h.drl n).stop with fault := true }
    obtain ⟨hgface, hgstw, hgtsk, -⟩ := setDrl_keeps (s.dev.half side) n { ((s.dev.half side).drl n).stop with fault := true }
    have heff : drillParity side n { s.dev with out := [] }
        = ((Dev.mod { s.dev with out := [] } side g).raise side blkDrl 0).abort side 8 := by
      unfold drillParity
      rw [half_out]
      dsimp only
      rw [if_neg (by rw [hst]; decide), if_neg (by rw [hst]; decide)]
    have hgb : (g (s.dev.half side)).face.bursting = true := (congrArg FaceSt.bursting hgface).trans hb
    refine yields_mono (yields_burstEnds (c := .drillParity side n) (f := fun _ d => drillParity side n d) rfl hpow hcalm hmeek heff hgstw
      (congrArg TskSt.started hgtsk) hgb (fun h => absurd h.2 (by decide)) (by decide) (by decide) hen hmild)
      fun d ⟨heng, _, hsrc⟩ => ?_
    obtain ⟨hface, -, -, hdrl0, hdrl1, -⟩ := engines_iff.mp heng
    obtain ⟨hstate, hcause, -, -, -, habort0, habort1⟩ := abort_bursting 8 hgb
    have hdrl : (d.half side).drl n = ((g (s.dev.half side)).drl n).stop := by
      rw [Half.drl, Half.drl, hdrl0, hdrl1, habort0, habort1]
      split <;> rfl
    have hstopped : ((g (s.dev.half side)).drl n).stop = { (s.dev.half side).drl n with st := 1, fault := true } := by
      rw [drl_setDrl, Drill.stop, Drill.stop, if_pos (Or.inl hst)]
      rfl
    rw [hdrl, hstopped, hface]
    exact ⟨hstate, hcause, rfl, rfl, hsrc⟩
  · refine yields_running (f := fun _ d => planParity side d) rfl hpow fun t ht => ?_
    have heff : planParity side { s.dev with out := [] } = Dev.raise { s.dev with out := [] } side blkFace 4 :=
      if_neg (by rw [half_out]; simp [Option.isNone_iff_eq_none, Option.isSome_iff_ne_none.mp hplan])
    rw [heff] at ht
    obtain ⟨-, -, hsrc⟩ := ht.grows.1 side blkFace
    exact ⟨hsrc 4 (raise_src _ _ _ _ (fun h => absurd h.2 (by decide)) (by decide) (by decide) hen), ht.deep.trans (deep_raise ..)⟩

end Sys2Proof.Machine
end

section
/-! PROOFS. Forks, loops and the shelf: what a quiet effect leaves of a half, FORK and LEND, loads and swaps of shelf pages (chapters 3, 4). -/
namespace Sys2Proof.Machine
open Sys2Proof.Safety

/-! ## What a quiet effect leaves of a half -/

/-- The module as a row finds it: nothing sent yet. -/
def Dev.mute (d : Dev) : Dev := { d with out := [] }

@[simp] theorem half_mute (d : Dev) (s : Side) : d.mute.half s = d.half s := half_out d s

/-- A row whose effect is quiet leaves it, but for bookkeeping. -/
theorem yields_quiet {c : Instr} {s : State} {f : Life → Dev → Dev} {e : Dev} {p : Dev → Prop} (hc : exec c s = running f s)
    (hpow : s.dev.powered = true) (hcalm : s.dev.calm) (hf : f s.fuse.life s.dev.mute = e)
    (hq : Dev.quiet s.dev.mute e) (hp : ∀ d, d.bare = e.bare → e.grows d → p d) : Yields c s p := by
  subst hf
  exact yields_running hc hpow fun t ht => hp t (ht.bare (Dev.calm.quiet (d := s.dev.mute) hcalm hq)) ht.grows

/-- Bookkeeping changes nothing of a half but its task unit. -/
theorem half_eq_of_bare {d e : Dev} (h : d.bare = e.bare) (s : Side) : ∃ t, d.half s = { e.half s with tsk := t } := by
  have hhalf := half_of_bare h s
  refine ⟨(d.half s).tsk, ?_⟩
  have hface (x : Dev) : { x.bare.half s with tsk := (d.half s).tsk } = { x.half s with tsk := (d.half s).tsk } := by cases s <;> rfl
  rw [← hface e, ← hhalf, hface d]

/-! ## FORK and LEND -/

open PlanImg

/-- A step that keeps its half running leaves what it makes of the half. -/
theorem yields_stepped {c : Instr} {s : State} {side : Side} {f : Life → Dev → Dev} {g : Half → Half} {k : Half} {p : Dev → Prop}
    (hc : exec c s = running f s) (hpow : s.dev.powered = true) (hcalm : s.dev.calm)
    (hf : f s.fuse.life s.dev.mute = Dev.mod s.dev.mute side g) (hk : g (s.dev.half side) = k)
    (hstw : k.stw = (s.dev.half side).stw) (htsk : k.tsk.started = (s.dev.half side).tsk.started)
    (hrun : k.face.state = .running ∨ k.face.state = .draining) (hp : ∀ d t, d.half side = { k with tsk := t } → p d) :
    Yields c s p := by
  subst hk
  refine yields_mono (yields_step hc hpow hcalm hf hstw htsk hrun) fun d hd => ?_
  obtain ⟨t, ht⟩ := half_eq_of_bare hd side
  rw [half_mod_same] at ht
  exact hp d t ht

theorem sampled_eq {samples : Tbl Nat} {fork : Nat} {v : Bool} (h : tget 2 samples fork = b1 v) : sampled samples fork = some v := by
  unfold sampled
  rw [h]
  cases v <;> rfl

/-- FORK goes to TRUE_STEP on 1, and to the next step on 0 (R114). -/
theorem pass_fork {rd : Nat → Byte} {samples : Tbl Nat} {c : Cur} {v : Bool} (ho : op rd c.pc = 5)
    (hv : sampled samples (fc rd c.pc % 1024) = some v) :
    c.pass rd samples = .ok { c with pc := if v then forkTrue rd (fc rd c.pc % 1024) else c.pc + 1 } := by
  unfold Cur.pass
  rw [ho]
  dsimp only
  rw [hv]
  cases v <;> rfl

/-- An LEND without a match repeats its body while runs are left (R113). -/
theorem pass_lend {rd : Nat → Byte} {samples : Tbl Nat} {c : Cur} {l n : Nat} {outer : List (Nat × Nat)} (ho : op rd c.pc = 4)
    (hplain : sflags rd c.pc ≠ 1) (hl : c.loops = (l, n) :: outer) :
    c.pass rd samples = .ok (if n = 0 then { c with pc := c.pc + 1, loops := outer }
      else { c with pc := l + 1, loops := (l, n - 1) :: outer }) := by
  unfold Cur.pass
  rw [ho, hl]
  exact if_neg hplain


/-- A FORK that takes the value v of its flag (R114). -/
def Half.forked (h : Half) (v : Bool) : Half :=
  let fork := fc h.planRd h.face.cur.pc % 1024
  let f := h.face.stepped true
  { h with face := { f with
      cur := { h.face.cur with pc := if v then forkTrue h.planRd fork else h.face.cur.pc + 1 }
      samples := tset 2 h.face.samples fork 2
      burst := { f.burst with forksTrue := h.face.burst.forksTrue + b1 v } } }

theorem forked_sample (h : Half) (v : Bool) : tget 2 (h.forked v).face.samples (fc h.planRd h.face.cur.pc % 1024) = 2 := by
  rw [show (h.forked v).face.samples = tset 2 h.face.samples (fc h.planRd h.face.cur.pc % 1024) 2 from rfl, tget_tset_same]

theorem forkStep_eq {d : Dev} {s : Side} {v : Bool} (hat : (d.half s).atStep 5 = true)
    (hv : sampled (d.half s).face.samples (fc (d.half s).planRd (d.half s).face.cur.pc % 1024) = some v) :
    forkStep s d = d.mod s fun h => h.forked v := by
  obtain ⟨-, -, hop⟩ := atStep_iff.mp hat
  refine mod_congr ((if_neg (by rw [hat]; decide)).trans ?_)
  dsimp only
  rw [hv, passStep_eq (pass_fork hop hv)]
  rfl

/-! ## The shelf -/

/-- A half comes to a step's own instant. -/
def Half.comesTo (h : Half) : Half :=
  { h with face := { h.face with burst := { h.face.burst with cycle := max h.face.burst.cycle (h.face.burst.tvs / 10000) } } }

/-- A half that passes a step which issues nothing. -/
def Half.passes (h : Half) : Half :=
  { h.comesTo with face := { h.comesTo.face.stepped true with cur := { h.face.cur with pc := h.face.cur.pc + 1 } } }

theorem stepTime_passStep {d : Dev} {s : Side} {o : Nat} (hload : (d.half s).shelf.load = none)
    (ho : op (d.half s).planRd (d.half s).face.cur.pc = o) (hplain : o ∈ [6, 7, 8, 9, 10, 11, 12, 13]) :
    (d.stepTime s).mod s Half.passStep = d.mod s Half.passes := by
  rw [stepTime_idle hload, mod_mod]
  exact mod_congr (passStep_next (h := (d.half s).comesTo) ho hplain)

/-- SLOAD starts a load into a shadow slot that is not LOADING (R95). -/
theorem sloadStep_eq {d : Dev} {s : Side} (hat : (d.half s).atStep 10 = true) (hload : (d.half s).shelf.load = none)
    (hslot : (d.half s).shelf.slot (d.half s).shelf.shadow ≠ .loading) : sloadStep s d
      = d.mod s fun h => h.passes.startLoad (d.half s).shelf.shadow (fa (d.half s).planRd (d.half s).face.cur.pc) := by
  obtain ⟨-, -, hop⟩ := atStep_iff.mp hat
  unfold sloadStep
  dsimp only
  rw [if_neg (by rw [hat]; decide), stepTime_passStep hload hop (by decide)]
  unfold Dev.loadStep
  dsimp only
  rw [half_mod_same]
  exact (if_neg hslot).trans (mod_mod ..)

theorem sswapStep_eq {d : Dev} {s : Side} (hat : (d.half s).atStep 11 = true) (hload : (d.half s).shelf.load = none) :
    sswapStep s d = (d.mod s Half.passes).swapStep s := by
  obtain ⟨-, -, hop⟩ := atStep_iff.mp hat
  unfold sswapStep
  rw [if_neg (by rw [hat]; decide), stepTime_passStep hload hop (by decide)]

theorem slot_setSlot (x : ShelfSt) (n : Nat) (v : SlotSt) : (x.setSlot n v).slot n = v := by
  unfold ShelfSt.setSlot ShelfSt.slot
  split <;> rfl

theorem setSlot_keeps (x : ShelfSt) (n : Nat) (v : SlotSt) : (x.setSlot n v).active = x.active ∧ (x.setSlot n v).ram = x.ram
    ∧ (x.setSlot n v).period = x.period := by
  unfold ShelfSt.setSlot
  split <;> exact ⟨rfl, rfl, rfl⟩

theorem quiet_bump (d : Dev) (n : Nat) (r : Rg) (i hi lo k : Nat) : d.quiet (d.bump n r i hi lo k) := quiet_setRg ..

theorem half_bump (d : Dev) (n : Nat) (r : Rg) (i hi lo k : Nat) (s : Side) : (d.bump n r i hi lo k).half s = d.half s := by cases s <;> rfl

theorem quiet_running {d : Dev} {s : Side} {f : Half → Half} (hstw : (f (d.half s)).stw = (d.half s).stw)
    (htsk : (f (d.half s)).tsk.started = (d.half s).tsk.started)
    (hrun : (f (d.half s)).face.bursting = true) : d.quiet (d.mod s f) := by
  refine quiet_mod hstw htsk (not_ended_of_step ?_ ?_)
  all_goals intro h; rw [FaceSt.bursting, h] at hrun; exact absurd hrun (by decide)

/-- A half at a step that its shadow slot cannot take (R98). -/
def Half.late (h : Half) : Half := { h.passes with shelf := h.passes.shelf.stopLoad }

/-- What a load writes is in the shelf, its active slot kept (R93). -/
theorem loadSpan_shelf (h : Half) (l : ShelfLoad) (c c' : Nat) (initial : Bool) :
    ∃ x, (h.loadSpan l c c' initial).1 = { h with shelf := x } ∧ x.active = h.shelf.active := by
  unfold Half.loadSpan
  extract_lets rd a head k lo hi
  split
  · exact ⟨_, rfl, rfl⟩
  · have hk : ∃ x, k = { h with shelf := x } ∧ x.active = h.shelf.active := by
      simp only [k]
      split
      · exact ⟨_, rfl, rfl⟩
      · exact ⟨_, rfl, rfl⟩
    obtain ⟨x, hk, hx⟩ := hk
    split
    · exact ⟨x, hk, hx⟩
    · split
      · exact ⟨x, hk, hx⟩
      · rw [hk]
        exact ⟨_, rfl, hx⟩

/-- The last line of the load of a burst is written: its slot is VALID (R93, R97). -/
theorem shelfLoadComplete_eq {d : Dev} {s : Side} {l : ShelfLoad} {n : Nat} {k : Half} (hload : (d.half s).shelf.load = some l)
    (hb : (d.half s).face.bursting = true) (harm : (d.half s).face.arming = false)
    (hn : loadCycles (d.half s).planRd (stagedAt (d.half s).planRd l.ref) = n) (hpoison : (d.half s).loadPoison l l.cycle n = none)
    (hspan : (d.half s).loadSpan l l.cycle n false = (k, none)) (hk : k.face.arming = false) :
    shelfLoadComplete s d
      = (d.mod s fun _ => { k with shelf := { k.shelf.setSlot l.slot .valid with load := none } }).bump s.code .shelfLoadCnt := by
  have hmin : min (l.cycle + n) n = n := Nat.min_eq_right (Nat.le_add_left ..)
  have hpass : d.loadCyclesPass s n = (d.setHalf s { k with shelf := { k.shelf with load := some { l with cycle := n } } }).loadDone s l := by
    unfold Dev.loadCyclesPass
    dsimp only
    rw [hload]
    dsimp only
    rw [hn, hmin, hpoison, harm]
    dsimp only
    rw [hspan]
    exact if_pos (Nat.le_refl n)
  unfold shelfLoadComplete Dev.finishLoad
  dsimp only
  rw [hb, hload]
  refine (if_pos rfl).trans ?_
  dsimp only
  rw [hn, hpass]
  unfold Dev.loadDone
  dsimp only
  rw [half_bump, half_mod_same, setHalf_eq_mod, half_mod_same, mod_mod]
  refine (if_pos (by simp [hk])).trans ?_
  congr 2
  funext h
  unfold ShelfSt.setSlot
  split <;> rfl

theorem deep_shelfFail (d : Dev) (s : Side) (src : Nat) (f : ShelfFail) : (d.shelfFail s src f).deep = d.deep := by
  unfold Dev.shelfFail
  split
  · rfl
  · exact deep_setRg ..

/-- A load that fails raises LOAD_CHECK and leaves memories and links (R90). -/
theorem deep_loadFails (d : Dev) (s : Side) (src : Nat) (f : ShelfFail) : (d.loadFails s src f).deep = d.deep := by
  unfold Dev.loadFails
  rw [deep_raise, deep_shelfFail]
  exact deep_modHalf _ _ _ fun _ => rfl

theorem loadFails_src {d : Dev} {s : Side} (src : Nat) (f : ShelfFail) (hen : (d.page s blkShelf).enable.getLsbD 0 = true) :
    ((d.loadFails s src f).page s blkShelf).src.getLsbD 0 = true := by
  unfold Dev.loadFails
  refine raise_src _ _ _ _ (fun h => absurd h.2 (by decide)) (by decide) (by decide) ?_
  rwa [page_shelfFail, page_mod]

/-- Settles O8: the steps by the cursor's rule, a load by what its span of cycles writes. -/
theorem branches : Obligations.Branches := by
  unfold Obligations.Branches
  refine ⟨fun s side hpow hcalm => ⟨fun v hat hv => ?_, fun l n outer hat hplain hl => ?_⟩, fun s side hpow hcalm => ?_⟩
  · obtain ⟨hrun, hidle, hop⟩ := atStep_iff.mp hat
    have hsam := sampled_eq hv
    refine yields_stepped (f := fun _ d => forkStep side d) rfl hpow hcalm
      (forkStep_eq (v := v) (by rwa [half_mute]) (by rwa [half_mute])) rfl rfl rfl (.inl hrun) fun d t ht => ?_
    rw [ht]
    exact ⟨rfl, forked_sample (s.dev.half side) v, rfl, rfl, hrun⟩
  · obtain ⟨hrun, hidle, hop⟩ := atStep_iff.mp hat
    refine yields_stepped (f := fun _ d => lendStep side d) rfl hpow hcalm rfl
      ((if_neg (by rw [hat]; decide)).trans ((if_pos hplain).trans (passStep_eq (pass_lend hop hplain hl)))) rfl rfl (.inl hrun) fun d t ht => ?_
    rw [ht]
    exact ⟨rfl, rfl, hrun⟩
  · refine ⟨fun hat hload hslot => ?_, fun hat hload hslot => ?_, fun hat hload hslot hmeek hmild hen => ?_,
      fun l hload hb harm => ?_, fun l reason channel tset wave slot hload hb hen => ?_⟩
    · obtain ⟨hrun, -, -⟩ := atStep_iff.mp hat
      refine yields_stepped (f := fun _ d => sloadStep side d) rfl hpow hcalm
        (sloadStep_eq (d := s.dev.mute) (by rwa [half_mute]) (by rwa [half_mute]) (by rwa [half_mute])) rfl rfl rfl (.inl hrun)
        fun d t ht => ?_
      rw [half_mute] at ht
      obtain ⟨hactive, hram, -⟩ := setSlot_keeps (s.dev.half side).shelf (s.dev.half side).shelf.shadow .loading
      rw [ht]
      exact ⟨rfl, slot_setSlot .., hactive, rfl, hram⟩
    · have heff : sswapStep side s.dev.mute = Dev.swapSlots (Dev.mod s.dev.mute side Half.passes) side := by
        rw [sswapStep_eq (by rwa [half_mute]) (by rwa [half_mute])]
        unfold Dev.swapStep
        dsimp only
        rw [half_mod_same, half_mute]
        exact if_pos hslot
      have hb : ((s.dev.half side).passes).face.bursting = true := by
        obtain ⟨hrun, -, -⟩ := atStep_iff.mp hat
        rw [FaceSt.bursting, show (s.dev.half side).passes.face.state = _ from hrun]
        rfl
      have hq : Dev.quiet s.dev.mute (Dev.swapSlots (Dev.mod s.dev.mute side Half.passes) side) := by
        unfold Dev.swapSlots
        rw [mod_mod]
        exact (quiet_running rfl rfl (by rwa [half_mute])).trans (quiet_bump ..)
      refine yields_quiet (f := fun _ d => sswapStep side d) rfl hpow hcalm heff hq fun d hd _ => ?_
      obtain ⟨t, ht⟩ := half_eq_of_bare hd side
      unfold Dev.swapSlots at ht
      rw [half_bump, half_mod_same, half_mod_same, half_mute] at ht
      rw [ht]
      exact ⟨rfl, rfl⟩
    · have heff : sswapStep side s.dev.mute
          = ((Dev.mod s.dev.mute side Half.late).raise side blkShelf 1).abort side 4 := by
        rw [sswapStep_eq (by rwa [half_mute]) (by rwa [half_mute])]
        unfold Dev.swapStep Dev.shelfLate
        dsimp only
        rw [half_mod_same, half_mute, mod_mod]
        exact if_neg hslot
      have hb : (s.dev.half side).late.face.bursting = true := by
        obtain ⟨hrun, -, -⟩ := atStep_iff.mp hat
        rw [FaceSt.bursting, show (s.dev.half side).late.face.state = _ from hrun]
        rfl
      refine yields_mono (yields_burstEnds (f := fun _ d => sswapStep side d) rfl hpow hcalm hmeek heff rfl rfl hb
        (b := blkShelf) (fun h => absurd h.2 (by decide)) (by decide) (by decide) hen hmild) fun d ⟨heng, _, hsrc⟩ => ?_
      obtain ⟨hface, -⟩ := engines_iff.mp heng
      obtain ⟨hstate, hcause, -⟩ := abort_bursting 4 hb
      rw [hface]
      exact ⟨hstate, hcause, hsrc⟩
    · intro n hpoison hspan _
      obtain ⟨x, hx, hactive⟩ := loadSpan_shelf (s.dev.half side) l l.cycle n false
      have heff := shelfLoadComplete_eq (d := s.dev.mute) (s := side) (n := n)
        (k := { s.dev.half side with shelf := x }) (by rwa [half_mute]) (by rwa [half_mute])
        (by rwa [half_mute]) (by rw [half_mute]) (by rwa [half_mute]) (by rw [half_mute]; exact Prod.ext hx hspan) harm
      have hq : s.dev.mute.quiet ((s.dev.mute.mod side fun _ =>
          { s.dev.half side with shelf := { x.setSlot l.slot .valid with load := none } }).bump side.code .shelfLoadCnt) :=
        (quiet_running (by rw [half_mute]) (by rw [half_mute]) hb).trans (quiet_bump ..)
      refine yields_quiet (f := fun _ d => shelfLoadComplete side d) rfl hpow hcalm heff hq fun d hd _ => ?_
      obtain ⟨t, ht⟩ := half_eq_of_bare hd side
      rw [half_bump, half_mod_same] at ht
      obtain ⟨hactive', hram, hperiod⟩ := setSlot_keeps x l.slot .valid
      rw [ht, hx]
      exact ⟨slot_setSlot x l.slot .valid, rfl, hram, hperiod, hactive'.trans hactive, rfl⟩
    · refine yields_running (f := fun _ d => loadCheck side (reason, channel, tset, wave, slot) d) rfl hpow fun d hd => ?_
      have heff : loadCheck side (reason, channel, tset, wave, slot) s.dev.mute
          = s.dev.mute.loadFails side (if (s.dev.half side).face.arming then 1 else 2) (reason, channel, tset, wave, slot) := by
        unfold loadCheck
        rw [half_mute]
        exact if_neg (by simp [hload, hb])
      obtain ⟨-, -, hsrc⟩ := hd.grows.1 side blkShelf
      refine ⟨hsrc 0 ?_, hd.deep.trans ?_⟩
      · exact heff ▸ loadFails_src _ _ hen
      · exact (congrArg Dev.deep heff).trans (deep_loadFails ..)

end Sys2Proof.Machine
end

section
/-! PROOFS. Prefetch entries and vector issue: what the chute writes, and what one issue makes of its half (chapters 2, 4). -/
namespace Sys2Proof.Machine
open Sys2Proof.Safety PlanImg

/-! ## Prefetch entries -/

theorem memRead_length (m : Tbl Byte) (a n : Nat) : (memRead m a n).length = n := by
  induction n generalizing a with
  | zero => rfl
  | succ n ih => rw [memRead, List.length_cons, ih]

theorem memRead_getElem (m : Tbl Byte) (a n k : Nat) (h : k < (memRead m a n).length) : (memRead m a n)[k] = tget 0 m (a + k) := by
  induction n generalizing a k with
  | zero => exact absurd h (by simp [memRead])
  | succ n ih =>
    cases k with
    | zero => rfl
    | succ k =>
      refine (ih (a + 1) k (by simpa [memRead] using h)).trans ?_
      rw [Nat.add_right_comm, Nat.add_assoc]

/-- Bytes that one memory gives to another read there as they stood (R280). -/
theorem tget_memWrite_read (m m' : Tbl Byte) (a b n : Nat) :
    (∀ k < n, tget 0 (memWrite m a (memRead m' b n)) (a + k) = tget 0 m' (b + k))
    ∧ ∀ k, k < a ∨ a + n ≤ k → tget 0 (memWrite m a (memRead m' b n)) k = tget 0 m k := by
  refine ⟨fun k hk => ?_, fun k hk => ?_⟩
  · have hlt : k < (memRead m' b n).length := by rwa [memRead_length]
    exact (tget_tblit_in 0 m a _ k hlt).trans (memRead_getElem ..)
  · exact tget_tblit_out 0 m a _ k (by rwa [memRead_length])

theorem half_completed (d : Dev) (s s' : Side) (port since : Nat) : (d.completed s port since).half s' = d.half s' := by
  unfold Dev.completed
  split
  · exact half_bump ..
  · rfl

theorem quiet_completed (d : Dev) (s : Side) (port since : Nat) : d.quiet (d.completed s port since) := by
  unfold Dev.completed
  split
  · exact quiet_bump ..
  · exact Dev.quiet.refl d

/-- An entry that has read its lines leaves its half but for the Cellar's open rows (R271). -/
theorem half_chuteDone (d : Dev) (s : Side) : ∃ c, (d.chuteDone s).half s = { d.half s with cel := c } := by
  unfold Dev.chuteDone
  dsimp only
  split
  · exact ⟨_, rfl⟩
  · rw [half_completed, half_mod_same]
    exact ⟨_, rfl⟩

theorem quiet_chuteDone (d : Dev) (s : Side) : d.quiet (d.chuteDone s) := by
  unfold Dev.chuteDone
  dsimp only
  split
  · exact Dev.quiet.refl d
  · exact (quiet_mod rfl rfl fun _ => id).trans (quiet_completed ..)

theorem armLoad_idle {d : Dev} {s : Side} (h : (d.half s).face.arming = false) : d.armLoad s = d := by
  unfold Dev.armLoad
  refine (mod_congr (g := fun h => h) ?_).trans (mod_id d s)
  exact if_neg (by simp [h])

theorem chuteEnd_arming (h : Half) (error : Bool) : (h.chuteEnd error).face.arming = h.face.arming := by
  unfold Half.chuteEnd
  split
  · rfl
  · split
    · rfl
    · cases error <;> rfl

/-- The entry in flight of a burst ends (R124, R280). -/
theorem chuteEnd_eq {h : Half} {e : Nat × Nat} {rest : List (Nat × Nat)} (error : Bool) (hq : h.face.chuteQ = e :: rest)
    (hb : h.face.bursting = true) (hon : h.face.chuteOn = true) : h.chuteEnd error
      = let k := if error then h else h.fillEntry e.1 e.2
        { k with face := { k.face with chuteQ := rest, chuteOn := false } } := by
  unfold Half.chuteEnd
  rw [hq]
  exact if_neg (by simp [FaceSt.chuting, hb, hon])

/-- A chute that is away from ARM and finds its Cellar lines ends its entry, and counts its request when it had no error (R280). -/
theorem chuteEntryComplete_eq {d : Dev} {life : Life} {s : Side} {error : Bool} (harm : (d.half s).face.arming = false)
    (hlost : (d.half s).chuteLost s = none) (hon : (d.half s).face.chuteOn = true) : chuteEntryComplete life s error d
      = (if error then d else d.chuteDone s).mod s fun h => h.chuteEnd error := by
  unfold chuteEntryComplete
  dsimp only
  rw [hlost, harm, hon]
  refine (if_neg (by simp)).trans ?_
  cases error with
  | true => exact armLoad_idle (d := d.mod s fun h => h.chuteEnd true) (by rw [half_mod_same, chuteEnd_arming, harm])
  | false =>
    obtain ⟨c, hc⟩ := half_chuteDone d s
    exact armLoad_idle (d := (d.chuteDone s).mod s fun h => h.chuteEnd false) (by rw [half_mod_same, chuteEnd_arming, hc, harm])

/-- What an entry writes into the Attic (R123, R280). -/
theorem fillEntry_spec (h : Half) (e n : Nat) :
    (e, n) ∉ (h.fillEntry e n).face.undone ∧ (h.fillEntry e n).files = h.files
    ∧ (∀ l < entLen h.planRd e / 64, tget 0 (h.fillEntry e n).tags (stageAddr h.planRd e 0 / 64 + l) = fillTag h.planRd e n)
    ∧ ∀ f, h.fileNow (fileId h.planRd (entFile h.planRd e)) = some f →
      (∀ k < entLen h.planRd e, tget 0 (h.fillEntry e n).attic (stageAddr h.planRd e 0 + k) = tget 0 f.data (entSrc h.planRd e + k))
      ∧ ∀ k, k < stageAddr h.planRd e 0 ∨ stageAddr h.planRd e 0 + entLen h.planRd e ≤ k →
        tget 0 (h.fillEntry e n).attic k = tget 0 h.attic k := by
  refine ⟨by simp [Half.fillEntry], rfl, fun l hl => ?_, fun f hf => ?_⟩
  · refine (tget_tblit_in 0 h.tags _ _ l (by simpa using hl)).trans ?_
    rw [List.getElem_replicate]
  · unfold Half.fillEntry
    dsimp only
    rw [hf]
    exact tget_memWrite_read ..

/-- Settles O9: the trigger queue, the chute's reads and writes, and a deadline missed. -/
theorem prefetchRows : Obligations.PrefetchRows := by
  unfold Obligations.PrefetchRows
  intro s side e hpow hcalm hb
  have hlive {k : Half} (h : k.face.bursting = true) : ∀ told, k.ended told = true → (s.dev.half side).ended told = true := by
    refine not_ended_of_step ?_ ?_
    all_goals intro hs; rw [FaceSt.bursting, hs] at h; exact absurd h (by decide)
  refine ⟨fun he htrig => ?_, fun n rest hq hon => ?_, fun n rest hq hon harm hlost => ⟨?_, ?_⟩, fun hundone hmeek hen hmild => ?_⟩
  · refine yields_mod (f := fun _ d => prefetchTrigger side e d) rfl hpow hcalm (mod_out_congr ?_) rfl rfl (hlive hb)
    exact if_neg (by simp [hb, he, htrig])
  · refine yields_mod (f := fun _ d => chuteEntryStart side d) rfl hpow hcalm (mod_out_congr ?_) rfl rfl (hlive hb)
    dsimp only
    rw [hq]
    exact if_neg (by simp [FaceSt.chuting, hb, hon])
  · let done := s.dev.mute.chuteDone side
    have heff := chuteEntryComplete_eq (d := s.dev.mute) (life := s.fuse.life) (s := side) (error := false) (by rwa [half_mute])
      (by rwa [half_mute]) (by rwa [half_mute])
    obtain ⟨c, hc⟩ := half_chuteDone s.dev.mute side
    rw [half_mute] at hc
    have hend := chuteEnd_eq (h := { s.dev.half side with cel := c }) (e := (e, n)) (rest := rest) false hq hb hon
    have hquiet : s.dev.mute.quiet (done.mod side fun h => h.chuteEnd false) := by
      refine (quiet_chuteDone ..).trans (quiet_mod ?_ ?_ ?_)
      all_goals rw [hc, hend]
      · rfl
      · rfl
      · exact hlive hb
    refine yields_quiet (f := fun life d => chuteEntryComplete life side false d) rfl hpow hcalm heff hquiet fun d hd _ => ?_
    obtain ⟨t, ht⟩ := half_eq_of_bare hd side
    rw [if_neg (by decide), half_mod_same, hc, hend] at ht
    obtain ⟨hundone, hfiles, htags, hbytes⟩ := fillEntry_spec { s.dev.half side with cel := c } e n
    rw [ht]
    exact ⟨rfl, rfl, hundone, hfiles, htags, hbytes⟩
  · have heff := chuteEntryComplete_eq (d := s.dev.mute) (life := s.fuse.life) (s := side) (error := true) (by rwa [half_mute])
      (by rwa [half_mute]) (by rwa [half_mute])
    refine yields_mod (f := fun life d => chuteEntryComplete life side true d) rfl hpow hcalm (heff.trans (mod_out_congr ?_)) rfl rfl (hlive hb)
    exact chuteEnd_eq true hq hb hon
  · have heff : chuteLate side e s.dev.mute = ((s.dev.mute.mod side fun h => h).raise side blkFace 1).abort side 3 := by
      unfold chuteLate
      rw [half_mute, mod_id]
      exact if_neg (by rw [hb, hundone]; simp)
    refine yields_mono (yields_burstEnds (b := blkFace) (f := fun _ d => chuteLate side e d) (g := fun h => h) rfl hpow hcalm hmeek heff rfl rfl hb
      (fun h => absurd h.2 (by decide)) (by decide) (by decide) hen hmild) fun d ⟨heng, _, hsrc⟩ => ?_
    obtain ⟨hface, -⟩ := engines_iff.mp heng
    obtain ⟨hstate, hcause, hissue, -⟩ := abort_bursting 3 hb
    rw [hface]
    exact ⟨hstate, hcause, hissue, hsrc⟩

/-! ## Issues -/

/-- The read-ahead leaves its half but for what it has read (R116). -/
theorem readAhead_ok {h k : Half} {arming : Bool} {e : Ecc} {corr : Option Nat} (hok : h.readAhead arming e = .ok k corr) :
    ∃ a i fetched starts, k = { h with face := { h.face with ahead := a, aheadIdx := i, fetched := fetched, starts := starts } } := by
  unfold Half.readAhead at hok
  extract_lets rd f at hok
  split at hok
  · obtain ⟨rfl, -⟩ := Ahead.ok.inj hok
    exact ⟨_, _, _, _, rfl⟩
  · extract_lets begins starts at hok
    split at hok
    · obtain ⟨rfl, -⟩ := Ahead.ok.inj hok
      exact ⟨_, _, _, _, rfl⟩
    · split at hok
      · exact absurd hok nofun
      · exact absurd hok nofun
      · obtain ⟨rfl, -⟩ := Ahead.ok.inj hok
        exact ⟨_, _, _, _, rfl⟩

/-- The period of an issue: its timing set's, of the active page (R96). -/
def Half.periodOf (h : Half) (header : Word) : Nat := (tget 0 h.shelf.period (16 * h.shelf.active + fld header 3 0)).toNat

/-- What both drills execute with the next issue. -/
def Half.drillsRun (h : Half) : (Drill × DrillOut) × (Drill × DrillOut) :=
  (h.drl0.execute (h.face.burst.tvs / 10000), h.drl1.execute (h.face.burst.tvs / 10000))

/-- The next issue of a half that takes no relay (R45, R100). -/
def Half.nextIssue (h : Half) (sites : BitVec 64) (header : Word) (v : HalfVec) : Issue :=
  { idx := h.face.burst.issues, tvs := h.face.burst.tvs, period := h.periodOf header, header := header, step := h.face.cur.pc
    page := h.shelf.active, epoch := h.cal.epoch.num, sites := sites, srcMap := h.face.srcMap, out0 := h.drillsRun.1.2
    out1 := h.drillsRun.2.2, symbols := h.symbols h.face.srcMap v h.drillsRun.1.2 h.drillsRun.2.2 }

/-- A half with its next issue made (R43, R45). -/
def Half.issueMade (h : Half) (sites : BitVec 64) (header : Word) (v : HalfVec) (next : Cur) : Half :=
  let f := (h.relayUsed h.face.burst.issues).face
  { h.relayUsed h.face.burst.issues with
    drl0 := h.drillsRun.1.1, drl1 := h.drillsRun.2.1
    face := { f with
      issues := f.issues ++ [h.nextIssue sites header v], last := some (h.nextIssue sites header v), cur := next, present := v
      burst := { f.burst with
        issues := h.face.burst.issues + 1, tvs := h.face.burst.tvs + h.periodOf header, endAt := h.face.burst.tvs + h.periodOf header
        lastStep := h.face.cur.pc, vecStep := h.face.cur.pc } } }

/-- A half whose RUN or DRUN has ended begins the next correction epoch (R189). -/
def Half.bounded (h : Half) (busy : Bool) : Half := if busy then h else h.newEpoch

theorem newEpoch_face (h : Half) : h.newEpoch.face = h.face ∧ h.newEpoch.stw = h.stw ∧ h.newEpoch.tsk = h.tsk := by
  unfold Half.newEpoch
  dsimp only
  split <;> exact ⟨rfl, rfl, rfl⟩

theorem bounded_keeps (h : Half) (busy : Bool) :
    (h.bounded busy).face = h.face ∧ (h.bounded busy).stw = h.stw ∧ (h.bounded busy).tsk = h.tsk := by
  unfold Half.bounded
  cases busy
  · exact newEpoch_face h
  · exact ⟨rfl, rfl, rfl⟩

theorem queueHook_unreleased {d : Dev} (h : d.configured = false) (s : Side) (k n : Nat) : d.queueHook s k n = d :=
  if_pos (Or.inl (by simp [h]))

/-- No hook is offered an issue while the fabric is not released (R220). -/
theorem foldl_queueHook {d : Dev} (h : d.configured = false) (s : Side) (n : Nat) (old : Nat → Drill) (l : List Nat) :
    l.foldl (fun d k => if k < 8 then d.queueHook s k n
      else if ((d.half s).drl (k - 8)).st = 2 ∨ (d.half s).drl (k - 8) ≠ old (k - 8)
        then (if ((d.half s).drl (k - 8)).usesHook then d.queueHook s (k + 8) n else d) else d) d = d := by
  induction l with
  | nil => rfl
  | cons k l ih =>
    rw [List.foldl_cons, queueHook_unreleased h, queueHook_unreleased h, ite_self, ite_self, ite_self, ih]

theorem configured_mod (d : Dev) (s : Side) (f : Half → Half) : (d.mod s f).configured = d.configured := by cases s <;> rfl

/-- With no relay and no fabric in force an issue changes its half alone (R45, R235). -/
theorem makeIssue_eq {d : Dev} {s : Side} (header : Word) (v : HalfVec) (next : Cur) (hto : d.relayed s = false) (hfrom : d.relays s = false)
    (hconf : d.configured = false) : d.makeIssue s header v next
      = d.mod s fun h => (h.issueMade (d.siteMask s (fld header 7 4)) header v next).bounded next.busy := by
  have hsymbols (n : Nat) (x : BitVec 1024) : d.relaySymbols s n x = some x := if_pos (by simp [hto])
  have hsend (n : Nat) (x : BitVec 1024) : d.relaySend s n x = d := if_pos (by simp [hfrom])
  unfold Dev.makeIssue
  extract_lets h f b page period
  split
  rename_i x0 o0 hx0
  split
  rename_i x1 o1 hx1
  rw [hsymbols]
  dsimp only
  rw [hsend, mod_mod]
  have hrun0 : h.drl0.execute (f.burst.tvs / 10000) = (x0, o0) := hx0
  have hrun1 : h.drl1.execute (f.burst.tvs / 10000) = (x1, o1) := hx1
  generalize hD : d.mod s _ = D
  have hmade : D = d.mod s fun k => k.issueMade (d.siteMask s (fld header 7 4)) header v next := by
    rw [← hD]
    refine mod_congr ?_
    unfold Half.issueMade Half.nextIssue Half.drillsRun
    rw [hrun0, hrun1]
    rfl
  have hbound : (if next.busy then D else D.mod s Half.newEpoch)
      = d.mod s fun h => (h.issueMade (d.siteMask s (fld header 7 4)) header v next).bounded next.busy := by
    rw [hmade]
    unfold Half.bounded
    cases next.busy with
    | true => rfl
    | false => exact mod_mod ..
  rw [hbound]
  exact foldl_queueHook ((configured_mod ..).trans hconf) s b.issues (fun n => h.drl n) _

/-- The half-vector that an issue presents: a new one from the read-ahead, or a repeated one (R109). -/
def Half.presented (h : Half) : HalfVec := if h.face.cur.rep = 0 then h.face.fetched.headD [] else h.face.present

/-- The header of the next issue: a DRUN's own, or its half-vector's (R100, R110). -/
def Half.nextHeader (h : Half) : Word :=
  BitVec.ofNat 32 (if op h.planRd h.face.cur.pc = 2 then fb h.planRd h.face.cur.pc else rdLE (fun i => h.presented.getD i 0) 0 4)

/-- A half with the half-vectors that it holds replaced. -/
def Half.holding (h : Half) (present : HalfVec) (fetched : List HalfVec) : Half :=
  { h with face := { h.face with present := present, fetched := fetched } }

/-- A vector without a fork sample due is issued when the read ahead of it is good (R115, R116). -/
theorem issueVector_eq {d : Dev} {s : Side} {e : Faults} {h1 : Half} (hrun : (d.half s).face.state = .running)
    (hbusy : (d.half s).face.cur.busy = true) (hfork : (d.half s).dueFork = none) (hload : (d.half s).shelf.load = none)
    (hread : (d.half s).comesTo.readAhead false (atticClass e) = .ok h1 none) :
    ∃ present fetched v next, issueVector s e d = (d.mod s fun _ => h1.holding present fetched).makeIssue s h1.nextHeader v next := by
  have hahead : issueVector s e d = (if op h1.planRd h1.face.cur.pc = 2 then
      (d.mod s fun _ => h1.holding [] h1.face.fetched).makeIssue s (BitVec.ofNat 32 (fb h1.planRd h1.face.cur.pc)) []
        (h1.face.cur.issued h1.planRd 1)
    else (d.mod s fun _ => h1.holding h1.face.present (if h1.face.cur.rep = 0 then h1.face.fetched.drop 1 else h1.face.fetched)).makeIssue s
        (BitVec.ofNat 32 (rdLE (fun i => h1.presented.getD i 0) 0 4)) h1.presented
        ((h1.face.cur.settle h1.planRd).issued h1.planRd (h1.presented.repeats + 1))) := by
    unfold issueVector
    dsimp only
    rw [if_neg (by simp [hrun, hbusy]), hfork, stepTime_idle hload]
    dsimp only
    rw [half_mod_same]
    unfold Half.comesTo at hread
    rw [hread]
    dsimp only
    rw [setHalf_eq_mod]
    unfold Half.presented
    by_cases hrep : h1.face.cur.rep = 0
    · rw [if_pos hrep, if_pos hrep, if_pos hrep]
      simp only [mod_mod]
      rfl
    · rw [if_neg hrep, if_neg hrep, if_neg hrep]
      simp only [mod_mod]
      rfl
  rw [hahead]
  unfold Half.nextHeader
  split
  · exact ⟨_, _, _, _, rfl⟩
  · exact ⟨_, _, _, _, rfl⟩

theorem relays_mod (d : Dev) (s : Side) (f : Half → Half) (s' : Side) : (d.mod s f).relays s' = d.relays s' := by cases s <;> rfl

theorem relayed_mod (d : Dev) (s : Side) (f : Half → Half) (s' : Side) : (d.mod s f).relayed s' = d.relayed s' := by cases s <;> rfl

/-- The issue is the last of those in the pipelines, and it moves the burst on by its period (R43, R45). -/
theorem issueMade_face (h : Half) (sites : BitVec 64) (header : Word) (v : HalfVec) (next : Cur) :
    ∃ haul, h.issueMade sites header v next = { h with
      haul := haul, drl0 := h.drillsRun.1.1, drl1 := h.drillsRun.2.1
      face := { h.face with
        issues := h.face.issues ++ [h.nextIssue sites header v], last := some (h.nextIssue sites header v), cur := next, present := v
        burst := { h.face.burst with
          issues := h.face.burst.issues + 1, tvs := h.face.burst.tvs + h.periodOf header
          endAt := h.face.burst.tvs + h.periodOf header, lastStep := h.face.cur.pc, vecStep := h.face.cur.pc } } } :=
  ⟨_, rfl⟩

/-- Settles O10: the read ahead is good, and the issue is made of what the half then holds. -/
theorem vectorIssue : Obligations.VectorIssue := by
  unfold Obligations.VectorIssue
  intro s side e h1 hpow hcalm hconf h b rd c v header period hrun hbusy hfork hload hto hfrom hread
  obtain ⟨a, i, fetched, starts, hh1⟩ := readAhead_ok (h := h.comesTo) hread
  obtain ⟨present, fetched', v', next, heff⟩ := issueVector_eq (d := s.dev.mute) (s := side) (e := e) (h1 := h1) (by rwa [half_mute])
    (by rwa [half_mute]) (by rwa [half_mute]) (by rwa [half_mute]) (by rw [half_mute]; exact hread)
  have hrd : h1.planRd = rd := by rw [hh1]; rfl
  have hface1 : h1.face = { h.comesTo.face with ahead := a, aheadIdx := i, fetched := fetched, starts := starts } := by rw [hh1]
  have hcur : h1.face.cur = c := by rw [hface1]; rfl
  have hheader : h1.nextHeader = header := by
    unfold Half.nextHeader Half.presented
    rw [hrd, hcur]
  rw [hheader, makeIssue_eq header v' next ((relayed_mod s.dev.mute ..).trans hto) ((relays_mod s.dev.mute ..).trans hfrom)
    ((configured_mod s.dev.mute ..).trans hconf),
    mod_mod] at heff
  let sites := (s.dev.mute.mod side fun _ => h1.holding present fetched').siteMask side (fld header 7 4)
  let ready := h1.holding present fetched'
  let made : Half := ready.issueMade sites header v' next
  obtain ⟨haul, hmade⟩ := issueMade_face ready sites header v' next
  obtain ⟨hface, hstw, htsk⟩ := bounded_keeps made next.busy
  have hready : ready = { h.comesTo with face := { h.comesTo.face with
      ahead := a, aheadIdx := i, present := present, fetched := fetched', starts := starts } } := by
    unfold ready Half.holding
    rw [hh1]
  have hperiod : ready.periodOf header = period := by rw [hready]; rfl
  rw [hperiod] at hmade
  refine yields_stepped (f := fun _ d => issueVector side e d) (k := made.bounded next.busy) rfl hpow hcalm heff rfl ?_ ?_ ?_ fun d t ht => ?_
  · rw [hstw, show made = _ from hmade, hready]
    rfl
  · rw [htsk, show made = _ from hmade, hready]
    rfl
  · rw [hface, show made = _ from hmade, hready]
    exact .inl hrun
  · have hd : (d.half side).face = made.face := by rw [ht]; exact hface
    have hissue : ready.nextIssue sites header v' ∈ made.face.issues := by
      rw [show made = _ from hmade]
      exact List.mem_append_right _ (List.mem_singleton_self _)
    have hburst : made.face.burst = { h.comesTo.face.burst with
        issues := b.issues + 1, tvs := b.tvs + period, endAt := b.tvs + period, lastStep := c.pc, vecStep := c.pc } := by
      rw [show made = _ from hmade, hready]
      rfl
    rw [hd, hburst]
    refine ⟨rfl, rfl, rfl, rfl, _, hissue, ?_⟩
    rw [hready]
    exact ⟨rfl, rfl, rfl, rfl, rfl, rfl⟩
end Sys2Proof.Machine
end

section
/-! PROOFS. Requests that are answered: what comes before a response is what the row leaves; records of bursts (chapter 13). -/
namespace Sys2Proof.Machine
open Sys2Proof.Safety

/-! ## Requests that are answered -/

theorem half_accepted (d : Dev) (h : Hdr) (s : Side) : (d.accepted h).half s = d.half s := by
  unfold Dev.accepted
  cases h.sealed <;> cases s <;> rfl

/-- The front end's part of a request disturbs nothing (R346). -/
theorem quiet_accepted (d : Dev) (h : Hdr) : d.quiet (d.accepted h) := by
  refine quiet_of_eq (accepted_bare d h) ?_ ?_ ?_
  all_goals unfold Dev.accepted; cases h.sealed <;> rfl

theorem calm_accepted {s : State} {h : Hdr} {op : Nat} {required fw far : Bool} (k : Admits s h op required fw far) :
    (s.dev.accepted h).calm := k.calm.quiet (quiet_accepted ..)

theorem bare_finishWith (d : Dev) (life : Life) (r : Reply) (st : Nat) (pl : List Byte) (dup : Bool) (h : st ≠ stWrong) :
    (d.finishWith life r st pl dup).bare = d.bare := by
  unfold Dev.finishWith
  dsimp only
  rw [if_neg h, bare_modSession, bare_send]

theorem quiet_finishWith (d : Dev) (life : Life) (r : Reply) {st : Nat} (pl : List Byte) (dup : Bool) (h : st ≠ stWrong) :
    d.quiet (d.finishWith life r st pl dup) := by
  unfold Dev.finishWith
  dsimp only
  rw [if_neg h]
  exact (quiet_send ..).trans (quiet_of_eq rfl rfl rfl rfl)

theorem tells_finishWith {d : Dev} (life : Life) (r : Reply) {st : Nat} (pl : List Byte) (dup : Bool) (h : d.reaches r) (hs : st ≠ stWrong) :
    (d.finishWith life r st pl dup).tells r st pl := by
  obtain ⟨n, w, hn⟩ := out_send (d := d)
    (f := { session := r.session, dst := r.src, tag := r.tag, op := r.op, status := st, dup := dup, sealed := decide (r.session ≠ 0),
            payload := pl }) h.1 h.2
  exact ⟨_, w, by simpa only [Dev.finishWith, hs, if_false, Dev.modSession] using hn, rfl, rfl, rfl, rfl, rfl, rfl⟩

/-- What the front end needs for an answer lies in its sessions and its link. -/
theorem reaches_of_hst {d e : Dev} {r : Reply} (h : d.reaches r) (hlink : e.hst.linkUp = d.hst.linkUp)
    (hsessions : e.hst.sessions = d.hst.sessions) : e.reaches r := by
  obtain ⟨hup, hopen⟩ := h
  refine ⟨hlink.trans hup, hopen.imp id fun h => ?_⟩
  rwa [Dev.session, hsessions]

/-- A request whose body ends in a response leaves what came before the response. -/
theorem yields_finishWith {c : Instr} {s : State} {h : Hdr} {o : OpRow} {far : Bool} {body : Body} {st : Nat} {pl : List Byte} {dup : Bool}
    {e : Dev} {p : Dev → Prop} (hc : exec c s = running (fun life d => hoist o far h body life d) s)
    (k : Admits s h o.code o.required o.fw far)
    (hb : body s.fuse.life (s.dev.replyTo o.code h) (s.dev.accepted h) = e.finishWith s.fuse.life (s.dev.replyTo o.code h) st pl dup)
    (hcalm : e.calm) (hr : e.reaches (s.dev.replyTo o.code h)) (hs : st ≠ stWrong)
    (hp : ∀ t, t.bare = e.bare → t.tells (s.dev.replyTo o.code h) st pl → p t) : Yields c s p := by
  refine yields_hoist hc k fun t ht => ?_
  rw [hb] at ht
  refine hp t ?_ (tells_grows ht.grows (tells_finishWith _ _ _ _ hr hs))
  rw [ht.bare (hcalm.quiet (quiet_finishWith _ _ _ _ _ hs)), bare_finishWith _ _ _ _ _ _ hs]

theorem hst_mod (d : Dev) (s : Side) (f : Half → Half) : (d.mod s f).hst = d.hst := by cases s <;> rfl

/-- A request that changes one half, without ending it, and is answered. -/
theorem yields_finishMod {c : Instr} {s : State} {h : Hdr} {o : OpRow} {far : Bool} {body : Body} {st : Nat} {pl : List Byte} {dup : Bool}
    {side : Side} {f : Half → Half} {p : Dev → Prop} (hc : exec c s = running (fun life d => hoist o far h body life d) s)
    (k : Admits s h o.code o.required o.fw far)
    (hb : body s.fuse.life (s.dev.replyTo o.code h) (s.dev.accepted h)
      = ((s.dev.accepted h).mod side f).finishWith s.fuse.life (s.dev.replyTo o.code h) st pl dup)
    (hstw : (f (s.dev.half side)).stw = (s.dev.half side).stw)
    (htsk : (f (s.dev.half side)).tsk.started = (s.dev.half side).tsk.started)
    (hend : ∀ told, (f (s.dev.half side)).ended told = true → (s.dev.half side).ended told = true) (hs : st ≠ stWrong)
    (hp : ∀ t, t.bare = ((s.dev.accepted h).mod side f).bare → t.tells (s.dev.replyTo o.code h) st pl → p t) : Yields c s p := by
  rw [← half_accepted s.dev h side] at hstw htsk hend
  exact yields_finishWith hc k hb ((calm_accepted k).quiet (quiet_mod hstw htsk hend))
    (reaches_of_hst (reaches_accepted _ k.takes) (by rw [hst_mod]) (by rw [hst_mod])) hs hp

/-! ## Results -/

theorem find_record {f : FaceSt} {r : Record} (hle : r.burst ≤ f.fires) (hlast : r.burst ≠ 0xFFFFFFFF)
    (hr : f.records.find? (fun x => decide (x.burst = r.burst)) = some r) : f.find r.burst = .record r := by
  unfold FaceSt.find
  rw [if_neg hlast, if_neg (Nat.not_lt.mpr hle), hr]

/-- The half that an operand names. -/
theorem side_of_code (s : Side) : ¬ 1 < s.code ∧ (if s.code = 0 then Side.w else .e) = s := by cases s <;> decide

/-- Settles O34. -/
theorem results : Obligations.Results := by
  unfold Obligations.Results
  intro s h side r d f hup hle hlast hr
  obtain ⟨hcode, hside⟩ := side_of_code side
  refine ⟨fun k => ?_, fun k => ?_⟩
  · refine yields_finishMod (body := resultGetBody side.code r.burst) (st := stOk) (pl := r.bytes) (dup := r.got) (side := side)
      (f := fun h => { h with face := { h.face with
        records := h.face.records.map fun y => if y.burst = r.burst then { y with got := true } else y } }) rfl k ?_ rfl rfl (fun _ => id)
      (by decide) fun t hbare htells => ⟨hbare, htells⟩
    unfold resultGetBody
    rw [if_neg hcode, hside]
    dsimp only
    rw [hup, find_record hle hlast hr]
  · refine yields_finishMod (body := resultReleaseBody side.code r.burst) (dup := false) (side := side) (st := stOk) (pl := [])
      (f := fun h => { h with face := { h.face with
        records := h.face.records.filter fun y => decide (y.burst ≠ r.burst)
        ready := h.face.ready && decide (r.burst ≠ h.face.fires) } }) rfl k ?_ rfl rfl (fun _ => id) (by decide) fun t hbare htells => ?_
    · unfold resultReleaseBody
      rw [if_neg hcode, hside]
      dsimp only
      rw [hup, find_record hle hlast hr]
      rfl
    · obtain ⟨x, hx⟩ := half_eq_of_bare hbare side
      rw [half_mod_same] at hx
      rw [hx]
      refine ⟨htells, fun y => ?_, rfl, rfl⟩
      simp [f, d]

end Sys2Proof.Machine
end

section
/-! PROOFS. The Ethernet port, and the commands that only ask (chapter 13). -/
namespace Sys2Proof.Machine
open Sys2Proof.Safety

/-! ## The Ethernet port -/

/-- The state of the link disturbs nothing (R367). -/
theorem quiet_linkUp (d : Dev) (up : Bool) : d.quiet { d with hst := { d.hst with linkUp := up } } :=
  ⟨id, rfl, id, fun s h => by cases s <;> exact h⟩

/-- Settles O28: what each event of the port does. -/
theorem ethernetRows : Obligations.EthernetRows := by
  unfold Obligations.EthernetRows
  intro s hpow hcalm
  refine ⟨?_, fun hup => ?_, fun hup hip => ?_, fun hup => ?_, fun hok => ?_, fun hup hmild => ?_⟩
  · exact yields_quiet (f := fun _ d => nonHoistFrame d) rfl hpow hcalm rfl (.refl _) fun d hd _ => hd
  · exact yields_quiet (f := fun _ d => badFrame d) rfl hpow hcalm (if_pos hup) (quiet_bump ..) fun d hd _ => hd
  · refine yields_quiet (f := fun _ d => arpRequest (s.dev.rg 0 .hstIpv4) d) rfl hpow hcalm (if_pos ?_) (quiet_emit ..)
      fun d hd hgrows => ⟨hd, hgrows.2 _ (List.mem_append_right _ (List.mem_singleton_self _))⟩
    have hip' : s.dev.mute.rg 0 .hstIpv4 = s.dev.rg 0 .hstIpv4 := rfl
    have hup' : s.dev.mute.hst.linkUp = true := hup
    simpa [hip', hup'] using hip
  · refine yields_quiet (f := fun _ d => neighbourSolicitation s.fuse.mac (linkLocal s.fuse.mac) d) rfl hpow hcalm (if_pos ?_) (quiet_emit ..)
      fun d hd hgrows => ⟨hd, hgrows.2 _ (List.mem_append_right _ (List.mem_singleton_self _))⟩
    have hup' : s.dev.mute.hst.linkUp = true := hup
    simp [hup']
  · exact yields_quiet (f := fun _ d => ethernetLinkUp d) rfl hpow hcalm (if_pos hok) (quiet_linkUp ..) fun d hd _ => hd
  · have hdown : ethernetLinkDown s.dev.mute = Dev.raise { s.dev.mute with hst := { s.dev.mute.hst with linkUp := false } } .w blkHst 1 :=
      if_neg (by simp [show s.dev.mute.hst.linkUp = true from hup])
    refine yields_quiet (f := fun _ d => ethernetLinkDown d) rfl hpow hcalm hdown ((quiet_linkUp ..).trans (quiet_mildRaise hmild))
      fun d hd hgrows => ⟨?_, fun hen => ?_⟩
    · exact hd.trans (bare_raise ..)
    · obtain ⟨-, -, hsrc⟩ := hgrows.1 .w blkHst
      exact hsrc 1 (raise_src _ _ _ _ (by decide) (by decide) (by decide) hen)

/-! ## Queries -/

/-- The digits of a sum of digits times powers of 4. -/
theorem digits_of_sum {b : Nat} (digit : Nat → Nat) (h : ∀ f, digit f < b) (m : Nat) :
    (List.range m).foldl (fun a f => a + digit f * b ^ f) 0 < b ^ m
    ∧ ∀ k < m, (List.range m).foldl (fun a f => a + digit f * b ^ f) 0 / b ^ k % b = digit k := by
  have hb : 0 < b := Nat.zero_lt_of_lt (h 0)
  induction m with
  | zero => exact ⟨Nat.one_pos, fun k hk => absurd hk (Nat.not_lt_zero k)⟩
  | succ m ih =>
    obtain ⟨hlt, hdigit⟩ := ih
    rw [List.range_succ, List.foldl_append, List.foldl_cons, List.foldl_nil]
    generalize (List.range m).foldl (fun a f => a + digit f * b ^ f) 0 = n at hlt hdigit
    have hm := h m
    refine ⟨?_, fun k hk => ?_⟩
    · calc n + digit m * b ^ m < (digit m + 1) * b ^ m := by rw [Nat.add_mul, Nat.one_mul]; omega
        _ ≤ b * b ^ m := Nat.mul_le_mul_right _ hm
        _ = b ^ (m + 1) := (Nat.pow_succ' ..).symm
    · rcases Nat.lt_succ_iff_lt_or_eq.mp hk with hk | rfl
      · obtain ⟨j, rfl⟩ := Nat.exists_eq_add_of_lt hk
        rw [show digit (k + j + 1) * b ^ (k + j + 1) = b ^ k * (b * (digit (k + j + 1) * b ^ j)) by ring,
          Nat.add_mul_div_left _ _ (Nat.pow_pos hb), Nat.add_mul_mod_self_left]
        exact hdigit k (by omega)
      · rw [Nat.add_mul_div_right _ _ (Nat.pow_pos hb), Nat.div_eq_of_lt hlt, Nat.zero_add, Nat.mod_eq_of_lt hm]

/-- A query that is answered with a status and a payload changes nothing. -/
theorem answers_query {c : Instr} {s : State} {h : Hdr} {op : Nat} {required fw far : Bool} {body : Body} {pl : List Byte}
    (hc : exec c s = running (fun life d => hoist { code := op, required := required, fw := fw } far h body life d) s)
    (k : Admits s h op required fw far) (hb : body s.fuse.life (s.dev.replyTo op h) (s.dev.accepted h)
      = (s.dev.accepted h).finish s.fuse.life (s.dev.replyTo op h) stOk pl) :
    Answers c s h op stOk pl (s.dev.accepted h) :=
  answers_of_finish (o := { code := op, required := required, fw := fw }) hc k hb rfl (calm_accepted k) (reaches_accepted _ k.takes) (by decide)

/-- The two bits that MODE_GET shows of a function (R360). -/
def Dev.modeBits (d : Dev) (f : Nat) : Nat :=
  if f = 8 then 3 * b1 d.ldr.hostMode
  else if f = 9 then 3 * b1 d.clk.hostMode
  else b1 (d.west.assisted f) + 2 * b1 (d.east.assisted f)

/-- Settles O26: each is answered, and answers alone. -/
theorem hoistQueries : Obligations.HoistQueries := by
  unfold Obligations.HoistQueries
  intro s h d r
  refine ⟨fun o m k hfits => ?_, fun nonce k hhash => ?_, fun k => ?_, fun side first count k hpos hle hfits hup => ?_, fun k => ?_,
    fun start max k => ?_, fun start max k => ?_⟩
  · refine answers_query (body := helloBody s.fuse o m) rfl k ?_
    exact if_neg (by rw [show Dev.fits _ _ _ = true from hfits]; decide)
  · exact answers_query (body := attestBody s.fuse nonce) rfl k (if_neg (by rw [hhash]; decide))
  · exact answers_query (body := statusBody) rfl k rfl
  · obtain ⟨hcode, hside⟩ := side_of_code side
    have hfar : decide (side.code = 1) = decide (side = .e) := by cases side <;> rfl
    refine answers_query (far := decide (side.code = 1)) (body := calTableGetBody side.code first count) rfl (hfar ▸ k) ?_
    unfold calTableGetBody
    have hfits' : (s.dev.accepted h).fits (s.dev.replyTo 0x61 h) (16 + 256 * count) = true := hfits
    rw [if_neg (by simp [hcode, hpos.ne', hle, hfits']), hside]
    dsimp only
    rw [hup]
  · have hlt (f : Nat) : d.modeBits f < 4 := by
      unfold Dev.modeBits b1
      split
      · split <;> decide
      · split
        · split <;> decide
        · split <;> split <;> decide
    obtain ⟨hsum, hdigit⟩ := digits_of_sum d.modeBits hlt 10
    refine ⟨_, hsum, answers_query (body := modeGetBody) rfl k rfl, fun f hf => ?_, hdigit 8 (by decide), hdigit 9 (by decide)⟩
    rw [hdigit f (by omega), Dev.modeBits, if_neg (by omega), if_neg (by omega)]
  · exact answers_query (body := eventPollBody start max) rfl k rfl
  · exact answers_query (body := logReadBody start max) rfl k rfl

end Sys2Proof.Machine
end

section
/-! PROOFS. Sessions: what every command leaves of them, fresh ids, and the frames of the front end's own (chapter 13). -/
namespace Sys2Proof.Machine
open Sys2Proof.Safety

/-! ## Sessions, and what every command leaves of them -/

abbrev Dev.sessions (d : Dev) : List Session := d.hst.sessions

theorem sessions_event (d : Dev) (c s a : Nat) : (d.event c s a).sessions = d.sessions := by simp only [Dev.event]

theorem sessions_mod (d : Dev) (s : Side) (f : Half → Half) : (d.mod s f).sessions = d.sessions := by cases s <;> rfl

theorem sessions_raiseQuiet (d : Dev) (s : Side) (b i : Nat) : (d.raiseQuiet s b i).sessions = d.sessions := by
  unfold Dev.raiseQuiet
  dsimp only
  split
  · rfl
  · split
    · rfl
    · split
      · rfl
      · exact sessions_event ..
      · exact sessions_event ..

theorem sessions_post (d : Dev) (s : Side) (q : Nat) (e : BitVec 64) : (d.post s q e).1.sessions = d.sessions := by
  unfold Dev.post
  dsimp only
  split
  · exact sessions_mod ..
  · dsimp only
    split
    · exact sessions_mod ..
    · rw [sessions_raiseQuiet]
      exact sessions_mod ..

theorem sessions_foldl {α : Type} (l : List α) (f : Dev → α → Dev) (h : ∀ d x, (f d x).sessions = d.sessions) (d : Dev) :
    (l.foldl f d).sessions = d.sessions := by
  induction l generalizing d with
  | nil => rfl
  | cons x l ih => exact (ih _).trans (h d x)

theorem sessions_retryHeld (d : Dev) (s : Side) : (d.retryHeld s).sessions = d.sessions := by
  unfold Dev.retryHeld
  refine sessions_foldl _ _ (fun d kv => ?_) d
  split
  · rfl
  · refine sessions_foldl _ _ (fun d i => ?_) d
    split
    · rfl
    · split
      · exact sessions_post ..
      · rfl

theorem sessions_reportStates (d : Dev) : d.reportStates.sessions = d.sessions := by
  unfold Dev.reportStates
  dsimp only
  split <;> split <;> split <;> simp only [sessions_event]

/-- A calm module keeps its sessions but for those whose numbers are used up (R348). -/
theorem sessions_settle {d : Dev} (life : Life) (hpow : d.powered = true) (h : d.calm) :
    ∃ e : Dev, e.sessions = d.sessions ∧ (d.settle life).sessions = e.spentSessions.sessions := by
  refine ⟨d.safeNet life, ?_, ?_⟩
  · unfold Dev.safeNet
    split
    · rename_i hwanted hnet
      exact absurd (h.1 hwanted) (by simp [hnet])
    all_goals rfl
  · unfold Dev.settle
    dsimp only
    rw [if_neg (by simp [hpow]), sessions_reportStates, sessions_mod, sessions_mod, sessions_retryHeld, sessions_retryHeld,
      pathLost_eq d life h, journalEnd_eq d h]

theorem session_none_iff {d : Dev} {k : Nat} : d.session k = none ↔ ∀ x ∈ d.sessions, x.id ≠ k := by
  simp [Dev.session, List.find?_eq_none]

/-- A change of the entries with one id leaves the others. -/
theorem filter_map_ids (l : List Session) (k : Nat) (f : Session → Session) (hf : ∀ x, (f x).id = x.id) :
    (l.map fun x => if x.id = k then f x else x).filter (fun x => decide (x.id ≠ k)) = l.filter fun x => decide (x.id ≠ k) := by
  induction l with
  | nil => rfl
  | cons x l ih =>
    by_cases hx : x.id = k
    · simp [hx, hf] at ih ⊢
      exact ih
    · simp [hx] at ih ⊢
      exact ih

theorem sessions_transmit (d : Dev) (f : Frame) : (d.transmit f).sessions = d.sessions := by
  unfold Dev.transmit
  dsimp only
  split <;> rfl

theorem filter_modSession (d : Dev) (k : Nat) (f : Session → Session) (hf : ∀ x, (f x).id = x.id) :
    (d.modSession k f).sessions.filter (fun x => decide (x.id ≠ k)) = d.sessions.filter fun x => decide (x.id ≠ k) :=
  filter_map_ids _ _ _ hf

/-- A sending moves on the device number of its own session alone (R346). -/
theorem sessions_send (d : Dev) (f : Frame) : (d.send f).sessions.filter (fun x => decide (x.id ≠ f.session))
    = d.sessions.filter fun x => decide (x.id ≠ f.session) := by
  unfold Dev.send
  split
  · rw [sessions_transmit]
  · split
    · rfl
    · rw [filter_modSession _ _ _ (by intro _; rfl), sessions_transmit]

/-- A session that ends leaves the others as they are (R348). -/
theorem sessions_closeSession (d : Dev) (k reason : Nat) (frame : Bool) :
    (d.closeSession k reason frame).sessions = d.sessions.filter fun x => decide (x.id ≠ k) := by
  unfold Dev.closeSession
  split
  · rename_i h
    exact (List.filter_eq_self.mpr fun x hx => decide_eq_true (session_none_iff.mp h x hx)).symm
  · dsimp only
    rw [sessions_event]
    cases frame with
    | true => exact sessions_send d { session := k, dst := _, op := 4, payload := beBytes 1 reason }
    | false => rfl

/-- A session's numbers are used up (R348). -/
abbrev Session.spent (x : Session) : Prop := 0xFFFFFFFF ≤ x.devSeq ∨ 0xFFFFFFFF ≤ x.high

/-- Of the sessions those whose numbers are not used up stay, and no others. -/
theorem mem_spentSessions (d : Dev) : (∀ x ∈ d.spentSessions.sessions, x ∈ d.sessions)
    ∧ ∀ x ∈ d.sessions, (∀ z ∈ d.sessions, z.id = x.id → ¬ z.spent) → x ∈ d.spentSessions.sessions := by
  have key (l : List Session) (e : Dev) :
      let e' := l.foldl (fun d x => if 0xFFFFFFFF ≤ x.devSeq ∨ 0xFFFFFFFF ≤ x.high then d.closeSession x.id 4 true else d) e
      (∀ x ∈ e'.sessions, x ∈ e.sessions) ∧ ∀ x ∈ e.sessions, (∀ z ∈ l, z.id = x.id → ¬ z.spent) → x ∈ e'.sessions := by
    induction l generalizing e with
    | nil => exact ⟨fun x hx => hx, fun x hx _ => hx⟩
    | cons z l ih =>
      rw [List.foldl_cons]
      by_cases hz : z.spent
      · obtain ⟨hsub, hkeep⟩ := ih (e.closeSession z.id 4 true)
        rw [if_pos hz]
        rw [sessions_closeSession] at hsub hkeep
        refine ⟨fun x hx => (List.mem_filter.mp (hsub x hx)).1, fun x hx hl => hkeep x (List.mem_filter.mpr ⟨hx, ?_⟩) fun y hy =>
          hl y (List.mem_cons_of_mem z hy)⟩
        exact decide_eq_true fun h => hl z (List.mem_cons_self ..) h.symm hz
      · obtain ⟨hsub, hkeep⟩ := ih e
        rw [if_neg hz]
        exact ⟨hsub, fun x hx hl => hkeep x hx fun y hy => hl y (List.mem_cons_of_mem z hy)⟩
  exact key d.sessions d

/-- What a command leaves of the sessions of its effect, when that is calm. -/
theorem mem_settle {d : Dev} (life : Life) (hpow : d.powered = true) (h : d.calm) :
    (∀ x ∈ (d.settle life).sessions, x ∈ d.sessions)
    ∧ ∀ x ∈ d.sessions, (∀ z ∈ d.sessions, z.id = x.id → ¬ z.spent) → x ∈ (d.settle life).sessions := by
  obtain ⟨e, he, hsettle⟩ := sessions_settle life hpow h
  rw [hsettle, ← he]
  exact mem_spentSessions e

/-- A row of a running module that leaves it calm: what it makes of the sessions, too. -/
theorem yields_sessions {c : Instr} {s : State} {f : Life → Dev → Dev} {e : Dev} {p : Dev → Prop} (hc : exec c s = running f s)
    (hpow : s.dev.powered = true) (hf : f s.fuse.life s.dev.mute = e) (he : e.powered = true) (hcalm : e.calm)
    (hp : ∀ d, d.bare = e.bare → e.grows d → (∀ x ∈ d.sessions, x ∈ e.sessions) →
      (∀ x ∈ e.sessions, (∀ z ∈ e.sessions, z.id = x.id → ¬ z.spent) → x ∈ d.sessions) → p d) : Yields c s p := by
  subst hf
  rw [yields_running_iff hc hpow]
  obtain ⟨hsub, hkeep⟩ := mem_settle s.fuse.life he hcalm
  exact hp _ (bare_settle _ _ hcalm) (grows_settle ..) hsub hkeep

theorem out_transmit {d : Dev} (hup : d.hst.linkUp = true) (f : Frame) : ∃ w, Out.hoist f w ∈ (d.transmit f).out := by
  unfold Dev.transmit
  dsimp only
  rw [if_pos hup]
  exact ⟨_, List.mem_append_right _ (List.mem_singleton_self _)⟩

/-- A frame that is sent in a session that is open, over a link that is up (R346). -/
theorem out_sent {d : Dev} {f : Frame} {x : Session} (hup : d.hst.linkUp = true) (hx : d.session f.session = some x) :
    ∃ n w, Out.hoist { f with seq := n } w ∈ (d.send f).out :=
  out_send hup (.inr (by rw [hx]; rfl))

theorem out_event (d : Dev) (c s a : Nat) : (d.event c s a).out = d.out := by simp only [Dev.event]

/-- The device's own SESSION_CLOSE (R348). -/
theorem out_closeSession {d : Dev} {k : Nat} {x : Session} (reason : Nat) (hup : d.hst.linkUp = true) (hx : d.session k = some x) :
    ∃ n w, Out.hoist { session := k, dst := x.src, op := 4, payload := beBytes 1 reason, seq := n } w ∈ (d.closeSession k reason true).out := by
  obtain ⟨n, w, hout⟩ := out_sent (d := d) (f := { session := k, dst := x.src, op := 4, payload := beBytes 1 reason }) hup hx
  refine ⟨n, w, ?_⟩
  unfold Dev.closeSession
  rw [hx]
  dsimp only
  rw [out_event]
  exact hout

/-- The session of a request that has to be in one is its own (R347). -/
theorem reply_session {s : State} {h : Hdr} {op opc : Nat} {fw far : Bool} (k : Admits s h opc true fw far) :
    (s.dev.replyTo op h).session = h.session := by
  obtain ⟨-, -, -, -, -, -, -, htakes⟩ := k.takes
  rcases htakes with ⟨-, hplain, -⟩ | ⟨-, hsealed, -, x, hx, -⟩
  · exact absurd (k.session rfl) (by simp [hplain])
  · simp [Dev.replyTo, hsealed, hx]

/-- A request in order reaches its body. -/
theorem hoist_of_admits {s : State} {h : Hdr} {o : OpRow} {far : Bool} (body : Body) (k : Admits s h o.code o.required o.fw far) :
    hoist o far h body s.fuse.life s.dev.mute = body s.fuse.life (s.dev.replyTo o.code h) (s.dev.accepted h) := by
  unfold hoist
  rw [show Dev.enter s.dev.mute o 0 far far h s.fuse.life = .ok (s.dev.accepted h) from enter_of_admits 0 k]
  exact congrArg (fun r => body s.fuse.life r (s.dev.accepted h)) (replyTo_accepted _ k.takes)

theorem powered_of_bare {d e : Dev} (h : d.bare = e.bare) : d.powered = e.powered := by
  have hpowered := congrArg Dev.powered h
  exact hpowered

/-- A candidate for a session's id (R345). -/
def idCandidate (n : Nat) : Nat := n % (2 ^ 32 - 1) + 1

/-- A fresh id is one of the candidates, and it is not in use unless all of them are. -/
theorem freshId_spec (used : List Nat) (base n : Nat) : (∃ k, freshId used base n = idCandidate k)
    ∧ (freshId used base n ∈ used → ∀ i ≤ n, idCandidate (base + i) ∈ used) := by
  induction n generalizing base with
  | zero => exact ⟨⟨base, rfl⟩, fun h i hi => by obtain rfl := Nat.le_zero.mp hi; exact h⟩
  | succ n ih =>
    obtain ⟨hform, hall⟩ := ih (base + 1)
    unfold freshId
    split
    · rename_i hused
      refine ⟨hform, fun h i hi => ?_⟩
      cases i with
      | zero => exact List.contains_iff_mem.mp hused
      | succ i =>
        rw [show base + (i + 1) = base + 1 + i by omega]
        exact hall h i (Nat.le_of_succ_le_succ hi)
    · rename_i hfree
      exact ⟨⟨base, rfl⟩, fun h => absurd (List.contains_iff_mem.mpr h) hfree⟩

/-- A session's id is not 0 and not in use (R345). -/
theorem freshId_fresh {used : List Nat} (base : Nat) (h : used.length < 2 ^ 32 - 1) :
    freshId used base used.length ≠ 0 ∧ freshId used base used.length ∉ used := by
  obtain ⟨⟨k, hk⟩, hall⟩ := freshId_spec used base used.length
  refine ⟨by rw [hk, idCandidate]; omega, fun hused => ?_⟩
  have hnodup : ((List.range (used.length + 1)).map fun i => idCandidate (base + i)).Nodup := by
    refine List.Nodup.map_on (fun i hi j hj hij => ?_) List.nodup_range
    rw [List.mem_range] at hi hj
    unfold idCandidate at hij
    omega
  have hle := (hnodup.subperm fun x hx => by
    obtain ⟨i, hi, rfl⟩ := List.mem_map.mp hx
    exact hall hused i (Nat.lt_succ_iff.mp (List.mem_range.mp hi))).length_le
  rw [List.length_map, List.length_range] at hle
  omega

theorem length_beBytes (n v : Nat) : (beBytes n v).length = n := by
  have hle (n v : Nat) : (leBytes n v).length = n := by
    induction n generalizing v with
    | zero => rfl
    | succ n ih => rw [leBytes, List.length_cons, ih]
  rw [beBytes, List.length_reverse, hle]

/-- The session that SESSION_OPEN makes (R345). -/
def Dev.newSession (d : Dev) (src maxFrame : Nat) (nonce : BitVec 256) (eph : Nat) : Session :=
  { id := freshId (d.sessions.map fun x => x.id) (Config.random d.free) d.sessions.length, maxFrame := maxFrame, src := src
    keys := sessionKeys nonce.toNat (Config.random (d.free + 1) % 2 ^ 256) (Config.ecdh (Config.random (d.free + 2)) eph) }

/-- What the device gives the host in SESSION_OPEN before its signature: its nonce and its key (R345). -/
def Dev.openPart (d : Dev) : List Byte :=
  beBytes 32 (Config.random (d.free + 1) % 2 ^ 256) ++ beBytes 97 (Config.pubKey (Config.random (d.free + 2)))

/-- The module with a session opened. -/
def Dev.opened (d : Dev) (src maxFrame : Nat) (nonce : BitVec 256) (eph : Nat) : Dev :=
  { d.mute with hst := { d.hst with sessions := d.sessions ++ [d.newSession src maxFrame nonce eph] }, free := d.free + 3 }

theorem newSession_fresh {d : Dev} (src maxFrame : Nat) (nonce : BitVec 256) (eph : Nat) (h : d.sessions.length < 4) :
    (d.newSession src maxFrame nonce eph).id ≠ 0 ∧ ∀ y ∈ d.sessions, y.id ≠ (d.newSession src maxFrame nonce eph).id := by
  obtain ⟨hid, hfresh⟩ := freshId_fresh (used := d.sessions.map fun x => x.id) (Config.random d.free) (by rw [List.length_map]; omega)
  rw [List.length_map] at hid hfresh
  exact ⟨hid, fun y hy hyx => hfresh (List.mem_map.mpr ⟨y, hy, hyx⟩)⟩

/-- SESSION_OPEN that nothing refuses opens a session and answers under it (R345). -/
theorem openBody_eq {s : State} {h : Hdr} {maxFrame : Nat} {nonce : BitVec 256} {eph : Nat} {chain : List (List Byte)}
    {sig : List Byte} (hplain : h.sealed = false) (hlo : 1500 ≤ maxFrame) (hhi : maxFrame ≤ 9000)
    (hcred : s.dev.credentialOk s.fuse.life maxFrame nonce eph chain sig = true) (hroom : s.dev.sessions.length < 4) :
    ∃ rest, openBody maxFrame nonce eph chain sig s.fuse.life (s.dev.replyTo 3 h) (s.dev.accepted h)
      = ((s.dev.opened h.src maxFrame nonce eph).transmit { session := (s.dev.newSession h.src maxFrame nonce eph).id, dst := h.src, tag := h.tag
                                                            op := 3, status := stOk, sealed := false, payload := s.dev.openPart ++ rest }).modSession 0
        fun x => { x with busy := x.busy.filter fun q => decide (q ≠ h.seq) } := by
  have haccepted : s.dev.accepted h = s.dev.mute := by
    unfold Dev.accepted
    rw [hplain]
    rfl
  have hreply : s.dev.replyTo 3 h = { session := 0, seq := h.seq, tag := h.tag, op := 3, src := h.src, encap := h.encap.val } := by
    unfold Dev.replyTo
    rw [hplain]
    rfl
  let body : List Byte := s.dev.openPart ++ beBytes 3 0
  let request : List Byte := openRequest maxFrame nonce eph chain ++ (if chain.isEmpty then [] else sig)
  refine ⟨beBytes 3 0 ++ s.dev.mute.signed (request ++ body), ?_⟩
  rw [haccepted, hreply, ← List.append_assoc]
  unfold openBody sessionOpenBody
  rw [if_neg (by omega), if_neg (by simp [show s.dev.mute.credentialOk s.fuse.life maxFrame nonce eph chain sig = true from hcred]),
    if_neg (show ¬ 4 ≤ s.dev.mute.hst.sessions.length from Nat.not_le.mpr hroom)]
  rfl

/-- Settles O27: what is sent, and what stays of the sessions. -/
theorem sessions : Obligations.Sessions := by
  unfold Obligations.Sessions
  refine fun s h => ⟨fun maxFrame nonce eph chain sig k hplain hlo hhi hcred hroom => ?_, fun k => ?_, fun hpow hcalm =>
    ⟨fun k x hx => ?_, fun k x n hx hstale hhigh hseen hasked => ?_, fun a => ?_⟩⟩
  · obtain ⟨rest, heff⟩ := openBody_eq (s := s) hplain hlo hhi hcred hroom
    let x : Session := s.dev.newSession h.src maxFrame nonce eph
    obtain ⟨hid, hfresh⟩ := newSession_fresh h.src maxFrame nonce eph hroom
    let f : Frame := { session := x.id, dst := h.src, tag := h.tag, op := 3, status := stOk, sealed := false, payload := s.dev.openPart ++ rest }
    let sent : Dev := (s.dev.opened h.src maxFrame nonce eph).transmit f
    have hbare : sent.bare = s.dev.bare := bare_transmit ..
    have hsent : sent.sessions = s.dev.sessions ++ [x] := sessions_transmit ..
    have hquiet : s.dev.quiet sent := (quiet_of_eq rfl rfl rfl rfl).trans (quiet_transmit ..)
    have hup : s.dev.hst.linkUp = true := by
      obtain ⟨hear, -⟩ := k.takes
      simp only [Dev.hears, Bool.and_eq_true] at hear
      exact hear.1.1.1
    have hnone : ∀ y ∈ s.dev.sessions, y.id ≠ 0 := by
      obtain ⟨-, -, -, -, -, -, -, htakes⟩ := k.takes
      rcases htakes with ⟨-, -, hnone⟩ | ⟨-, hsealed, -⟩
      · exact session_none_iff.mp hnone
      · exact absurd (hplain.symm.trans hsealed) (by decide)
    obtain ⟨w, hout⟩ : ∃ w, Out.hoist f w ∈ sent.out := out_transmit (d := s.dev.opened h.src maxFrame nonce eph) hup f
    have hkept (g : Session → Session) : (sent.modSession 0 g).sessions = s.dev.sessions ++ [x] := by
      rw [show (sent.modSession 0 g).sessions = sent.sessions.map fun x => if x.id = 0 then g x else x from rfl, hsent]
      refine (List.map_congr_left fun y hy => if_neg ?_).trans (List.map_id _)
      rcases List.mem_append.mp hy with hy | hy
      · exact hnone y hy
      · exact List.mem_singleton.mp hy ▸ hid
    refine yields_sessions (e := sent.modSession 0 _) rfl k.powered ((hoist_of_admits _ k).trans heff) ((powered_of_bare hbare).trans k.powered)
      ((k.calm.quiet hquiet).quiet (quiet_of_eq rfl rfl rfl rfl)) fun d hd hgrows _ hkeep =>
      ⟨hd.trans hbare, x, hkeep x ?_ fun z hz hzx => ?_, hid, hfresh, rfl, rfl, rfl, f, w, hgrows.2 _ hout, rfl, rfl, rfl, rfl, rfl, _, _, rfl, ?_⟩
    · rw [hkept]
      exact List.mem_append_right _ (List.mem_singleton_self x)
    · rw [hkept] at hz
      rcases List.mem_append.mp hz with hz | hz
      · exact absurd hzx (hfresh z hz)
      · rw [List.mem_singleton.mp hz]
        exact show ¬ (0xFFFFFFFF ≤ 0 ∨ 0xFFFFFFFF ≤ 0) by decide
    · rw [List.take_append_of_le_length (by simp [Dev.openPart, length_beBytes])]
      exact List.take_of_length_le (by simp [Dev.openPart, length_beBytes])
  · have hreply : (s.dev.replyTo 4 h).session = h.session := reply_session k
    let told : Dev := (s.dev.accepted h).finish s.fuse.life (s.dev.replyTo 4 h) stOk [1]
    have hbare : (told.closeSession h.session 1 false).bare = s.dev.bare :=
      (bare_closeSession ..).trans ((bare_finish_ok ..).trans (accepted_bare ..))
    have heff : hoist { code := 4, required := true, fw := false } false h sessionCloseBody s.fuse.life s.dev.mute
        = told.closeSession h.session 1 false := by
      rw [hoist_of_admits _ k]
      exact congrArg (fun n => Dev.closeSession told n 1 false) hreply
    refine yields_sessions rfl k.powered heff ((powered_of_bare hbare).trans k.powered)
      ((calm_accepted k).quiet ((quiet_finishWith _ _ _ _ _ (by decide)).trans (quiet_closeSession ..)))
      fun d hd hgrows hsub _ => ⟨hd.trans hbare, tells_grows hgrows ?_, session_none_iff.mpr fun y hy => ?_⟩
    · obtain ⟨f, w, hout, hrest⟩ := tells_finish s.fuse.life (s.dev.replyTo 4 h) (st := stOk) [1] (reaches_accepted 4 k.takes) (by decide)
      refine ⟨f, w, ?_, hrest⟩
      unfold Dev.closeSession
      split
      · exact hout
      · dsimp only
        rw [out_event]
        exact hout
    · have hleft := hsub y hy
      rw [sessions_closeSession] at hleft
      exact of_decide_eq_true (List.mem_filter.mp hleft).2
  · have hbare : (s.dev.mute.closeSession k 2 true).bare = s.dev.bare := bare_closeSession ..
    refine yields_sessions (f := fun _ d => sessionIdleTimeout k d) rfl hpow rfl ((powered_of_bare hbare).trans hpow)
      (Dev.calm.quiet (d := s.dev.mute) hcalm (quiet_closeSession ..))
      fun d hd hgrows hsub _ => ⟨hd.trans hbare, session_none_iff.mpr fun y hy => ?_, fun hup => ?_⟩
    · have hleft := hsub y hy
      rw [show (sessionIdleTimeout k s.dev.mute).sessions = _ from sessions_closeSession ..] at hleft
      exact of_decide_eq_true (List.mem_filter.mp hleft).2
    · obtain ⟨n, w, hout⟩ := out_closeSession (d := s.dev.mute) 2 hup hx
      exact ⟨_, w, hgrows.2 _ hout, rfl, rfl, rfl⟩
  · let sent : Dev := s.dev.mute.send { session := k, dst := x.src, op := 0, replay := true, payload := beBytes 4 n }
    have heff : replayReq k n s.dev.mute = sent.modSession k fun x => { x with asked := x.asked ++ [n] } := by
      unfold replayReq
      rw [show s.dev.mute.session k = some x from hx]
      exact if_neg (by rw [hstale, hseen, hasked]; simp [hhigh])
    have hbare : (replayReq k n s.dev.mute).bare = s.dev.bare := by
      rw [heff]
      exact bare_send ..
    refine yields_sessions (f := fun _ d => replayReq k n d) rfl hpow heff ((powered_of_bare (heff ▸ hbare)).trans hpow)
      (Dev.calm.quiet (d := s.dev.mute) hcalm ((quiet_send ..).trans (quiet_of_eq rfl rfl rfl rfl)))
      fun d hd hgrows hsub _ => ⟨hd.trans (heff ▸ hbare), fun y hy hid => ?_, fun hup => ?_⟩
    · obtain ⟨z, -, rfl⟩ := List.mem_map.mp (hsub y hy)
      by_cases hz : z.id = k
      · rw [if_pos hz]
        exact List.mem_append_right _ (List.mem_singleton_self n)
      · rw [if_neg hz] at hid
        exact absurd hid hz
    · obtain ⟨m, w, hout⟩ := out_sent (d := s.dev.mute)
        (f := { session := k, dst := x.src, op := 0, replay := true, payload := beBytes 4 n }) hup hx
      exact ⟨_, w, hgrows.2 _ hout, rfl, rfl, rfl⟩
  · exact yields_quiet (f := fun _ d => sourceIgnoreEnd a d) rfl hpow hcalm rfl ⟨id, rfl, id, fun s h => by cases s <;> exact h⟩ fun d hd _ => hd

end Sys2Proof.Machine
end

section
/-! PROOFS. A request answered WRONG_STATE: it is counted (R351), and so no command on a unit whose shadow differs leaves all registers as they were (R34). -/
namespace Sys2Proof.Machine
open Sys2Proof.Safety

/-! ## A request that is answered WRONG_STATE is counted (R351) -/

theorem bare_rejected (d : Dev) (op : Nat) : (d.rejected op).bare = (d.bump 0 .hstRejectCnt).bare := by
  unfold Dev.rejected
  rw [bare_raise, bare_event]

theorem quiet_rejected {d : Dev} (op : Nat) (h : d.mild .w blkHst 2) : d.quiet (d.rejected op) :=
  ((quiet_bump ..).trans (quiet_event ..)).trans
    (quiet_mildRaise (mild_of_severity (by simp only [Dev.event]; rfl) (by simp only [Dev.event]; rfl) h))

theorem bare_finishWrong (d : Dev) (life : Life) (r : Reply) (pl : List Byte) :
    (d.finish life r stWrong pl).bare = (d.bump 0 .hstRejectCnt).bare := by
  unfold Dev.finish Dev.finishWith
  dsimp only
  rw [if_pos rfl, bare_modSession, bare_send, bare_rejected]

theorem quiet_finishWrong {d : Dev} (life : Life) (r : Reply) (pl : List Byte) (h : d.mild .w blkHst 2) :
    d.quiet (d.finish life r stWrong pl) := by
  unfold Dev.finish Dev.finishWith
  dsimp only
  rw [if_pos rfl]
  exact ((quiet_rejected _ h).trans (quiet_send ..)).trans (quiet_of_eq rfl rfl rfl rfl)

/-! ## A shadow that differs meets KEY_INSTALL (R34) -/

theorem regs_reconcileUnit (d : Dev) (u : Unit34) : (d.reconcileUnit u).bare.regs = d.regs := by
  unfold Dev.reconcileUnit
  dsimp only
  split
  · rw [bare_raise, bare_event]
    rfl
  · rfl

/-- What is logged of a shadow that differs, before it is raised. -/
theorem reconcileUnit_eq {d : Dev} {u : Unit34} (h : d.diverges u = true) : ∃ e : Dev, d.quiet e ∧ e.pages = d.pages
    ∧ d.reconcileUnit u = e.raise (unitSource u).1 (unitSource u).2.1 (unitSource u).2.2 := by
  refine ⟨_, ?_, ?_, by unfold Dev.reconcileUnit; dsimp only; rw [if_pos h]⟩
  · exact Dev.quiet.trans ⟨fun h => h, rfl, fun h => h, fun _ h => h⟩ (quiet_event ..)
  · simp only [Dev.event]

/-- A command that touches a unit whose shadow differs is answered WRONG_STATE. -/
theorem touching_diverged {d : Dev} {u : Unit34} (life : Life) (r : Reply) (body : Body) (hr : d.reconciles [(unitSource u).1] = true)
    (h : d.diverges u = true) :
    touching [u] body life r d = (d.reconcileUnit u).finish life r stWrong (beBytes 1 (d.unitCode u)) := by
  simp [touching, hr, h]

/-- A module in which an upset has left another code in the shadow of key slot 5, that of no file's: firmware runs, and a host
whose session is 5 is heard. -/
def upsetSlot : State :=
  let started (h : Half) : Half := { h with tsk := { started := true }, stw := { state := 2, credits := [32, 32, 32, 32] } }
  { State.reset with
    fuse := { life := .deployed }
    dev := { State.reset.dev with
      clk := { power := .run }
      west := started State.reset.dev.west
      east := started State.reset.dev.east
      hst := { State.reset.dev.hst with linkUp := true, devState := 2, sessions := [{ id := 5, maxFrame := 9000, high := 10 }] }
      sec := { State.reset.dev.sec with linkKey := true }
      shadow := [(unitKey (.keySlot 5), some 9)] } }

/-- A frame of that session. -/
def upsetHdr : Hdr := { session := 5, seq := 11, tag := 7, src := 3 }

theorem upsetSlot_admits : Admits upsetSlot upsetHdr 0x40 true true false where
  powered := rfl
  calm := ⟨nofun, rfl, rfl, rfl⟩
  takes := ⟨rfl, by decide, rfl, rfl, rfl, rfl, rfl, .inr ⟨by decide, rfl, rfl, _, rfl, rfl, rfl, rfl, by decide⟩⟩
  life := by decide
  session := fun _ => rfl
  state := rfl
  firmware := by
    have hroom : 16 ≤ queueCap .w blkHst := Nat.le_add_right _ _
    have hfree : ¬ queueCap .w blkHst ≤ (tget {} upsetSlot.dev.west.tsk.queues blkHst).entries.length := by
      have : (tget {} upsetSlot.dev.west.tsk.queues blkHst).entries.length = 0 := rfl
      omega
    have hruns : upsetSlot.dev.fwHalted false = false ∧ upsetSlot.dev.west.tsk.started = true ∧ upsetSlot.dev.west.away = false := ⟨rfl, rfl, rfl⟩
    obtain ⟨hhalt, hstart, haway⟩ := hruns
    simp [Dev.fwRefusal, Dev.fwBusy, hhalt, hstart, haway, hfree]

/-- Refutes O54: KEY_INSTALL of a slot whose shadow differs is answered WRONG_STATE, and so counts in HST_REJECT_CNT, where the
statement has every register as it was. -/
theorem not_faultCounts : ¬ Obligations.FaultCounts := by
  unfold Obligations.FaultCounts
  intro h
  have k := upsetSlot_admits
  obtain ⟨-, -, -, -, hshadow⟩ := h upsetSlot k.powered k.calm
  have hmild : upsetSlot.dev.mild .w blkHst 2 := by decide
  have hreconciles : upsetSlot.dev.reconciles [.w] = true := rfl
  have hdiverges : upsetSlot.dev.diverges (.keySlot 5) = true := rfl
  have hsays := (hshadow (.keySlot 5) (by decide)).2 upsetHdr (.keyInstall upsetHdr 5 (.blob [])) 0x40 false
    (.inr (.inl ⟨5, .blob [], rfl, rfl, rfl, rfl⟩)) k hreconciles hdiverges hmild
  have hdoes : Yields (.keyInstall upsetHdr 5 (.blob [])) upsetSlot fun d => d.rg 0 .hstRejectCnt 0 = 1 := by
    refine yields_hoist (o := { code := 0x40, required := true, fw := true }) rfl k fun t ht => ?_
    rw [touching_diverged upsetSlot.fuse.life _ _ rfl rfl] at ht
    obtain ⟨e, hquiet, hpages, heq⟩ := reconcileUnit_eq (d := upsetSlot.dev.accepted upsetHdr) (u := .keySlot 5) rfl
    have hsev (s : Side) (b i : Nat) (h : (upsetSlot.dev.accepted upsetHdr).mild s b i) : e.mild s b i :=
      mild_of_severity (by rw [page_of_pages hpages]) (by rw [page_of_pages hpages]) h
    have hcalm := ((calm_accepted k).quiet hquiet).quiet (quiet_mildRaise (hsev .w blkXts 8 (by decide)))
    have hreject := mild_raise (s' := .w) (b' := blkXts) (i' := 8) (hsev .w blkHst 2 (by decide))
    rw [heq] at ht
    have hbare := (ht.bare (hcalm.quiet (quiet_finishWrong _ _ _ hreject))).trans (bare_finishWrong ..)
    rw [rg_of_bare hbare]
    have hregs : (e.raise (unitSource (.keySlot 5)).1 (unitSource (.keySlot 5)).2.1 (unitSource (.keySlot 5)).2.2).regs
        = upsetSlot.dev.regs := by
      rw [← heq]
      exact regs_reconcileUnit _ _
    unfold Dev.bump Dev.rf Dev.setRf
    rw [rg_setRg_same, rg_of_regs hregs]
    rfl
  obtain ⟨t, -, -, -, ⟨hset, -⟩, hcount⟩ := yields_and hsays hdoes
  have hkept : t.dev.rg 0 .hstRejectCnt 0 = 0 := by
    have hregs : t.dev.regs = (upsetSlot.dev.accepted upsetHdr).regs := by
      have hknown := congrArg Dev.regs hset
      exact hknown
    rw [rg_of_regs hregs]
    rfl
  rw [hkept] at hcount
  exact absurd hcount (by decide)

end Sys2Proof.Machine
end

section
/-! PROOFS. The Trapdoor: a request and its answer, access by token, pin access and FLASH (chapter 19). -/
namespace Sys2Proof.Machine
open Sys2Proof.Safety

/-! ## A request to the Trapdoor and its answer (R483) -/

theorem quiet_answer (d : Dev) (st : Nat) (l : List Byte) : d.quiet (d.answer st l) := quiet_emit ..

@[simp] theorem bare_answer (d : Dev) (st : Nat) (l : List Byte) : (d.answer st l).bare = d.bare := bare_emit ..

theorem out_answer (d : Dev) (st : Nat) (l : List Byte) : trapReply st l ∈ (d.answer st l).out :=
  List.mem_append_right _ (List.mem_singleton_self _)

/-- A request that the Trapdoor takes does what its command does. -/
theorem trapdoor_eq {s : State} {req : List Byte} {crc : Byte} (f : Life → Dev → Dev) (h : s.dev.trapTakes req crc)
    (hpow : s.dev.powered = true) : trapdoor req crc f s = running f s := by
  obtain ⟨hstuck, hcrc⟩ := h
  simp [trapdoor, running, hpow, commit, Dev.after, Dev.requested, hcrc, hstuck]

/-- A request that is answered leaves what the answer follows, and the answer is sent. -/
theorem yields_answered {c : Instr} {s : State} {req : List Byte} {crc : Byte} {f : Life → Dev → Dev} {e : Dev} {st : Nat} {l : List Byte}
    {p : Dev → Prop} (hc : exec c s = trapdoor req crc f s) (hpow : s.dev.powered = true) (hcalm : s.dev.calm)
    (ht : s.dev.trapTakes req crc) (hf : f s.fuse.life s.dev.mute = e.answer st l) (hq : Dev.quiet s.dev.mute e)
    (hp : ∀ d, d.bare = e.bare → e.grows d → trapReply st l ∈ d.out → p d) : Yields c s p := by
  refine yields_quiet (hc.trans (trapdoor_eq f ht hpow)) hpow hcalm hf (hq.trans (quiet_answer ..)) fun d hd hg => ?_
  exact hp d (hd.trans (bare_answer ..)) ((grows_emit ..).trans hg) (hg.2 _ (out_answer ..))

/-- A request that changes nothing is answered. -/
theorem kept_answered {c : Instr} {s : State} {req : List Byte} {crc : Byte} {f : Life → Dev → Dev} {st : Nat} {l : List Byte}
    (hc : exec c s = trapdoor req crc f s) (hpow : s.dev.powered = true) (hcalm : s.dev.calm)
    (ht : s.dev.trapTakes req crc) (hf : f s.fuse.life s.dev.mute = s.dev.mute.answer st l) :
    Yields c s fun d => d.bare = s.dev.bare ∧ trapReply st l ∈ d.out :=
  yields_answered hc hpow hcalm ht hf (.refl _) fun _ hd _ ho => ⟨hd, ho⟩

/-- A request whose CRC does not fit is answered MALFORMED. -/
theorem kept_malformed {c : Instr} {s : State} {req : List Byte} {crc : Byte} {f : Life → Dev → Dev}
    (hc : exec c s = trapdoor req crc f s) (hpow : s.dev.powered = true) (hcalm : s.dev.calm)
    (hstuck : s.dev.west.stuck.getLsbD blkDbg = false) (hcrc : crc8 req ≠ crc.toNat) :
    Yields c s fun d => d.bare = s.dev.bare ∧ trapReply stMalformed [] ∈ d.out := by
  refine yields_quiet (e := s.dev.mute.answer stMalformed []) (f := fun life d => if d.west.stuck.getLsbD blkDbg then d else d.requested req crc (f life))
    hc hpow hcalm ?_ (quiet_answer ..) fun d hd hg => ⟨hd, hg.2 _ (out_answer ..)⟩
  have hmute : s.dev.mute.west = s.dev.west := rfl
  simp [Dev.requested, hmute, hstuck, hcrc]

/-- A command without its grant is answered DENIED (R485). -/
theorem kept_denied {c : Instr} {s : State} {req : List Byte} {crc : Byte} {bit : Nat} {f : Life → Dev → Dev}
    (hc : exec c s = trapdoor req crc (fun life d => d.under life bit (f life)) s) (hpow : s.dev.powered = true) (hcalm : s.dev.calm)
    (ht : s.dev.trapTakes req crc) (hg : s.dev.granted s.fuse.life bit = false) :
    Yields c s fun d => d.bare = s.dev.bare ∧ trapReply stDenied [] ∈ d.out := by
  have hmute : s.dev.mute.granted s.fuse.life bit = false := hg
  exact kept_answered hc hpow hcalm ht (by simp [Dev.under, hmute])

/-- Nothing else of the debug port's own state calls the SAFE net, cuts a load or ends a half. -/
theorem quiet_setDbg (d : Dev) (x : DbgSt) : d.quiet { d with dbg := x } := ⟨fun h => h, rfl, fun h => h, fun _ h => h⟩

/-! ## IDCODE, CHALLENGE and TOKEN (R484, R485) -/

theorem challenge_shut {life : Life} (h : life = .blank ∨ life = .retired) (d : Dev) : challenge life d = d.answer stDenied [] :=
  if_pos h

theorem challenge_open {life : Life} (h : ¬(life = .blank ∨ life = .retired)) (d : Dev) :
    challenge life d = (Dev.draw { d with dbg := { d.dbg with nonce := some (Config.random d.free % 2 ^ 256) } }).answer stOk
      (beBytes 32 (Config.random d.free % 2 ^ 256)) := if_neg h

theorem token_shut {f : Fuse} (h : f.life = .blank ∨ f.life = .retired) (scope reserved : Word) (sig : List Byte) (d : Dev) :
    token f scope reserved sig d = d.answer stDenied [] := if_pos h

theorem token_good {f : Fuse} (h : ¬(f.life = .blank ∨ f.life = .retired)) {scope reserved : Word} {sig : List Byte} {d : Dev}
    (hok : d.tokenOk f scope reserved sig = true) :
    token f scope reserved sig d = Dev.answer { d with dbg := { d.dbg with nonce := none, scope := some scope } } stOk [] := by
  simp [token, h, hok]

theorem token_failing {f : Fuse} (h : ¬(f.life = .blank ∨ f.life = .retired)) {scope reserved : Word} {sig : List Byte} {d : Dev}
    (hok : d.tokenOk f scope reserved sig = false) :
    token f scope reserved sig d = (Dev.raise { d with dbg := { d.dbg with nonce := none } } .w blkDbg 0).answer stDenied [] := by
  simp [token, h, hok]

theorem tokenOk_eq (d : Dev) (f : Fuse) (scope reserved : Word) (sig : List Byte) : d.tokenOk f scope reserved sig
    = d.dbg.nonce.any fun n => decide (reserved = 0) && decide (scope.toNat < 32)
      && verifies f.serviceKey (beBytes 32 n ++ beBytes 48 d.idKeyHash ++ beBytes 4 scope.toNat) sig := by
  unfold Dev.tokenOk
  cases d.dbg.nonce <;> rfl

/-- Settles O57: each request by its answer. -/
theorem trapdoorAccess : Obligations.TrapdoorAccess := by
  unfold Obligations.TrapdoorAccess
  intro s crc hpow hcalm
  refine ⟨fun ht => kept_answered rfl hpow hcalm ht rfl, fun ht => ⟨fun hshut => ?_, fun hopen => ?_⟩,
    fun scope reserved sig ht => ⟨fun hshut => ?_, fun hopen hmild hen => ?_⟩, fun hstuck => ⟨?_, ?_, ?_⟩, ?_, ?_, ?_⟩
  · exact kept_answered rfl hpow hcalm ht (challenge_shut hshut _)
  · exact yields_answered rfl hpow hcalm ht (challenge_open hopen _)
      ((quiet_setDbg ..).trans (quiet_of_eq rfl rfl rfl rfl))
      fun d hd _ ho => ⟨_, Nat.mod_lt _ (by decide), ho, hd⟩
  · exact kept_answered rfl hpow hcalm ht (token_shut hshut ..)
  · dsimp only
    split
    · next hgood =>
      exact yields_answered (f := fun _ d => token s.fuse scope reserved sig d) rfl hpow hcalm ht
        (token_good hopen ((tokenOk_eq ..).trans hgood)) (quiet_setDbg ..) fun d hd _ ho => ⟨ho, hd⟩
    · next hbad =>
      refine yields_answered (f := fun _ d => token s.fuse scope reserved sig d) rfl hpow hcalm ht
        (token_failing hopen ((tokenOk_eq ..).trans (Bool.eq_false_of_not_eq_true hbad)))
        ((quiet_setDbg ..).trans (quiet_mildRaise hmild)) fun d hd hg ho => ⟨ho, hd.trans (bare_raise ..), ?_⟩
      exact (hg.1 .w blkDbg).2.2 0 (raise_src _ _ _ _ nofun (by decide) (by decide) hen)
  · exact kept_malformed rfl hpow hcalm hstuck
  · exact kept_malformed rfl hpow hcalm hstuck
  · exact fun scope reserved sig => kept_malformed rfl hpow hcalm hstuck
  · exact yields_quiet (f := fun _ d => tokenExpire d) rfl hpow hcalm rfl (quiet_setDbg ..) fun d hd _ => hd
  · exact yields_quiet (f := fun _ d => trapLineIdle d) rfl hpow hcalm rfl (.refl _) fun d hd _ => hd
  · intro wide
    refine yields_quiet (f := fun _ d => framingError wide d) rfl hpow hcalm rfl ?_ fun d hd _ => hd.trans ?_
    · unfold framingError
      split
      · exact quiet_setDbg ..
      · exact .refl _
    · have hmute : s.dev.mute.west = s.dev.west := rfl
      unfold framingError
      cases hlow : wide && s.dev.west.tsk.started && !s.dev.west.tsk.halted <;> simp [hmute, hlow] <;> rfl

/-! ## Pin access and FLASH (R486, R493) -/

/-- A command under its grant does what it does. -/
theorem under_granted {d : Dev} {life : Life} {bit : Nat} (f : Dev → Dev) (h : d.granted life bit = true) : d.under life bit f = f d :=
  if_pos h

theorem under_mute {d : Dev} {life : Life} {bit : Nat} (f : Dev → Dev) (h : d.granted life bit = true) :
    d.mute.under life bit f = f d.mute := under_granted f h

/-- The entry of a pin, as R493 says. -/
def DbgSt.pinned (x : DbgSt) (pin : Nat) : Option (Nat × Nat × Nat) := x.drive.find? fun kv => decide (kv.1 = pin)

/-- Pins as they are when one was set. -/
def DbgSt.setPin (x : DbgSt) (pin : Nat) (oe out : Bool) : DbgSt :=
  { x with drive := (x.drive.filter fun kv => decide (kv.1 < pin)) ++ (pin, b1 oe, b1 out) :: x.drive.filter fun kv => decide (pin < kv.1) }

theorem pinned_setPin_same (x : DbgSt) (pin : Nat) (oe out : Bool) : (x.setPin pin oe out).pinned pin = some (pin, b1 oe, b1 out) := by
  have hlow : (x.drive.filter fun kv => decide (kv.1 < pin)).find? (fun kv => decide (kv.1 = pin)) = none := by
    simp only [List.find?_eq_none, List.mem_filter, decide_eq_true_eq]
    exact fun kv h => Nat.ne_of_lt h.2
  simp [DbgSt.pinned, DbgSt.setPin, List.find?_append, hlow]

theorem pinned_setPin_ne (x : DbgSt) {pin other : Nat} (oe out : Bool) (h : other ≠ pin) : (x.setPin pin oe out).pinned other = x.pinned other := by
  have hsame (p : Nat → Bool) (hp : p other = true) : (x.drive.filter fun kv => p kv.1).find? (fun kv => decide (kv.1 = other))
      = x.pinned other := by
    rw [List.find?_filter]
    exact congrArg (x.drive.find? ·) (funext fun kv => by by_cases hkv : kv.1 = other <;> simp [hkv, hp])
  have hnone (p : Nat → Bool) (hp : p other = false) :
      (x.drive.filter fun kv => p kv.1).find? (fun kv => decide (kv.1 = other)) = none := by
    simp only [List.find?_eq_none, List.mem_filter, decide_eq_true_eq]
    rintro kv ⟨-, hkv⟩ rfl
    simp [hp] at hkv
  rcases Nat.lt_or_gt_of_ne h with hlt | hgt
  · simp [DbgSt.pinned, DbgSt.setPin, List.find?_append, h.symm, hsame (fun k => decide (k < pin)) (by simpa using hlt),
      hnone (fun k => decide (pin < k)) (by simpa using hlt.le)]
  · simp [DbgSt.pinned, DbgSt.setPin, List.find?_append, h.symm, hsame (fun k => decide (pin < k)) (by simpa using hgt),
      hnone (fun k => decide (k < pin)) (by simpa using hgt.le)]

theorem pinsSet_eq {d : Dev} {pin k n : Nat} (hon : d.dbg.pins = true) (hkind : pinKind pin = some (k, n)) (h3 : k ≠ 3) (h4 : k ≠ 4)
    {life : Life} (oe out : Bool) (hg : d.granted life scPins = true) :
    pinsSet life pin oe out d = Dev.answer { d with dbg := d.dbg.setPin pin oe out } stOk [0] := by
  rw [pinsSet, under_granted _ hg]
  simp [hon, hkind, h3, h4, DbgSt.setPin]

/-- The level that PINS get answers of a pin that has one. -/
def Dev.pinLevel (d : Dev) (pin k n : Nat) (level : Bool) : Bool :=
  if k = 1 ∨ k = 2 then d.landLevel pin k n
  else match d.dbg.pinned pin with
    | some kv => if kv.2.1 = 1 then decide (kv.2.2 = 1) else level
    | none => level

theorem pinsGet_eq {d : Dev} {pin k n : Nat} (hon : d.dbg.pins = true) (hkind : pinKind pin = some (k, n))
    {life : Life} (level : Bool) (hg : d.granted life scPins = true) :
    pinsGet life pin level d = d.answer stOk (beBytes 1 (b1 (d.pinLevel pin k n level))) := by
  rw [pinsGet, under_granted _ hg]
  simp [hon, hkind]
  rfl

theorem landLevel_pinned {d : Dev} {pin oe out : Nat} (k n : Nat) (h : d.dbg.pinned pin = some (pin, oe, out)) :
    d.landLevel pin k n = decide (out = 1) := by
  unfold Dev.landLevel
  rw [show d.dbg.drive.find? _ = some (pin, oe, out) from h]

theorem landLevel_driven {d : Dev} {pin : Nat} (k n : Nat) (h : d.dbg.pinned pin = none) : d.landLevel pin k n
    = if k = 1 then (d.pins (chanSide n) (n % 256)).1 != (d.rg (chanSide n).code .tchCfg (n % 256)).getLsbD 1
      else (d.pins (chanSide n) (n % 256)).2 := by
  unfold Dev.landLevel
  rw [show d.dbg.drive.find? _ = none from h]

theorem b1_decide_one {n : Nat} (h : n < 2) : b1 (decide (n = 1)) = n := by
  have hcases : n = 0 ∨ n = 1 := by omega
  rcases hcases with rfl | rfl <;> rfl

/-- What FLASH leaves of the flash: the bytes given where they go, every other byte as it was. -/
theorem tget_flashed (t : Tbl Byte) (addr k : Nat) {data : List Byte} (h : data.length = 256) : tget 0xFF (tblit 0xFF t addr data) k
    = if addr ≤ k ∧ k < addr + 256 then data.getD (k - addr) 0 else tget 0xFF t k := by
  split
  · next hin =>
    obtain ⟨i, rfl⟩ := Nat.exists_eq_add_of_le hin.1
    have hi : i < data.length := by omega
    rw [tget_tblit_in _ _ _ _ _ hi, Nat.add_sub_cancel_left, List.getD_eq_getElem _ _ hi]
  · exact tget_tblit_out _ _ _ _ _ (by omega)

/-- Settles O59: each request by its answer. -/
theorem pinsAndFlash : Obligations.PinsAndFlash := by
  unfold Obligations.PinsAndFlash
  intro s crc hpow hcalm
  refine ⟨fun hg => ⟨fun rest ht => ⟨fun hst hw he => ?_, fun hlock => ?_⟩, fun rest ht => ?_, fun pin value ht =>
    ⟨fun hoff => ?_, fun hon => ⟨fun hnone => ?_, fun k n hkind => ⟨fun hcmp => ?_, fun h3 h4 => ?_⟩⟩⟩, fun pin value level ht =>
    ⟨fun hoff => ?_, fun hon => ⟨fun hnone => ?_, fun k n hkind => ?_⟩⟩⟩,
    fun hg => ⟨fun rest => ⟨fun ht => ?_, fun ht => ?_⟩, fun pin value => ⟨fun ht => ?_, fun level ht => ?_⟩⟩,
    fun addr data ht => ⟨fun hg => ⟨fun hlen => ?_, fun hlen hstore => ⟨fun hle => ?_, fun hgt => ?_⟩⟩, fun hg => ?_⟩⟩
  case refine_1 =>
    refine yields_answered (f := fun life d => pinsEnter life d) rfl hpow hcalm ht ((under_mute _ hg).trans (if_neg ?_))
      (quiet_setDbg ..) fun d hd _ ho => ⟨hd, ho⟩
    simp [hst, hw, he, Dev.mute]
  case refine_2 => exact kept_answered (f := fun life d => pinsEnter life d) rfl hpow hcalm ht ((under_mute _ hg).trans (if_pos hlock))
  case refine_3 =>
    exact yields_answered (f := fun life d => pinsExit life d) rfl hpow hcalm ht (under_mute _ hg) (quiet_setDbg ..)
      fun d hd _ ho => ⟨hd, ho⟩
  case refine_4 =>
    refine kept_answered (f := fun life d => pinsSet life pin _ _ d) rfl hpow hcalm ht ((under_mute _ hg).trans (if_pos ?_))
    simp [hoff, Dev.mute]
  case refine_5 =>
    refine kept_answered (f := fun life d => pinsSet life pin _ _ d) rfl hpow hcalm ht ((under_mute _ hg).trans ?_)
    simp [hon, hnone, Dev.mute]
  case refine_6 =>
    refine kept_answered (f := fun life d => pinsSet life pin _ _ d) rfl hpow hcalm ht ((under_mute _ hg).trans ?_)
    simp [hon, hkind, hcmp, Dev.mute]
  case refine_7 =>
    refine yields_answered (f := fun life d => pinsSet life pin _ _ d) rfl hpow hcalm ht (pinsSet_eq (d := s.dev.mute) hon hkind h3 h4 _ _ hg)
      (quiet_setDbg ..) fun d hd _ ho => ⟨ho, ?_⟩
    have hdbg : d.dbg = s.dev.dbg.setPin pin (value.getLsbD 1) (value.getLsbD 0) := congrArg Dev.dbg hd
    rw [hdbg]
    exact ⟨pinned_setPin_same .., fun other hne => pinned_setPin_ne _ _ _ hne⟩
  case refine_8 =>
    refine kept_answered (f := fun life d => pinsGet life pin level d) rfl hpow hcalm ht ((under_mute _ hg).trans (if_pos ?_))
    simp [hoff, Dev.mute]
  case refine_9 =>
    refine kept_answered (f := fun life d => pinsGet life pin level d) rfl hpow hcalm ht ((under_mute _ hg).trans ?_)
    simp [hon, hnone, Dev.mute]
  case refine_10 =>
    have hreads {b : Nat} (hb : b1 (s.dev.mute.pinLevel pin k n level) = b) := hb ▸ kept_answered
      (f := fun life d => pinsGet life pin level d) (c := .pinsGet pin value level crc) rfl hpow hcalm ht (pinsGet_eq (d := s.dev.mute) hon hkind level hg)
    refine ⟨fun hdrive => ⟨fun oe out hpin hout => hreads ?_, fun hfree => hreads ?_⟩, fun h1 h2 => ⟨fun out hpin hout => hreads ?_,
      fun hfree => hreads ?_⟩⟩
    · rw [Dev.pinLevel, if_pos hdrive, landLevel_pinned (d := s.dev.mute) k n hpin, b1_decide_one hout]
    · rw [Dev.pinLevel, if_pos hdrive, landLevel_driven (d := s.dev.mute) k n hfree]
      rfl
    · rw [Dev.pinLevel, if_neg (by simp [h1, h2]), show s.dev.mute.dbg.pinned pin = _ from hpin]
      exact b1_decide_one hout
    · have hlevel (x : Option (Nat × Nat × Nat)) (hx : s.dev.mute.dbg.pinned pin = x) (hfloats : ∀ kv, x = some kv → kv.2.1 = 0) :
          s.dev.mute.pinLevel pin k n level = level := by
        cases x <;> simp_all [Dev.pinLevel]
      rcases hfree with hpin | ⟨out, hpin⟩
      · exact congrArg b1 (hlevel _ hpin nofun)
      · exact congrArg b1 (hlevel _ hpin (by rintro _ ⟨⟩; rfl))
  case refine_11 => exact kept_denied (f := fun life d => _) rfl hpow hcalm ht hg
  case refine_12 => exact kept_denied (f := fun life d => _) rfl hpow hcalm ht hg
  case refine_13 => exact kept_denied (f := fun life d => _) rfl hpow hcalm ht hg
  case refine_14 => exact kept_denied (f := fun life d => _) rfl hpow hcalm ht hg
  case refine_15 =>
    exact kept_answered (f := fun life d => flash life addr data d) rfl hpow hcalm ht ((under_mute _ hg).trans (if_pos hlen))
  case refine_16 =>
    refine yields_answered (f := fun life d => flash life addr data d) (e := { s.dev.mute with dbg :=
      { s.dev.dbg with flash := tblit 0xFF s.dev.dbg.flash addr data } }) rfl hpow hcalm ht ((under_mute _ hg).trans ?_)
      (quiet_setDbg ..) fun d hd _ ho => ⟨ho, ?_⟩
    · have hst : s.dev.mute.storing = false := hstore
      simp [hlen, hst, Nat.not_lt.mpr hle]
      rfl
    · have hdbg : d.dbg = { s.dev.dbg with flash := tblit 0xFF s.dev.dbg.flash addr data } := congrArg Dev.dbg hd
      rw [hdbg]
      exact ⟨rfl, fun k => tget_flashed _ _ _ hlen⟩
  case refine_17 =>
    refine kept_answered (f := fun life d => flash life addr data d) rfl hpow hcalm ht ((under_mute _ hg).trans ?_)
    have hst : s.dev.mute.storing = false := hstore
    simp [hlen, hst, hgt]
  case refine_18 => exact kept_denied (f := fun life d => _) rfl hpow hcalm ht hg

end Sys2Proof.Machine
end

section
/-! PROOFS. Halts: a T-die that halts shows its cause, one that is released goes on (chapter 19). -/
namespace Sys2Proof.Machine
open Sys2Proof.Safety

/-! ## A halt of a T-die (R487, R490) -/

/-- What a halt leaves of the module but for the lock that it may break. -/
def Dev.stopDie (d : Dev) (s : Side) (cause : Nat) : Dev :=
  let d := (d.mod s fun h => h.modTsk fun t => t.setHalt true).setRf 0 .dbgStatus 0 5 4 cause
  (if s = .w then d.freezeWriter else d).draw

theorem haltDie_eq (d : Dev) (s : Side) (cause : Nat) : ∃ broken : Bool, d.haltDie s cause
    = if broken then ((d.stopDie s cause).setRf 0 .dbgStatus 0 3 3 1).raise .w blkDbg 1 else d.stopDie s cause := ⟨_, rfl⟩

theorem TskSt.started_setHalt (t : TskSt) (on : Bool) : (t.setHalt on).started = t.started := by
  unfold TskSt.setHalt
  rw [started_foldl _ _ (fun t c => started_setCore ..)]

theorem TskSt.bare_setHalt {t u : TskSt} (h : t.bare = u.bare) (on : Bool) : (t.setHalt on).bare = (u.setHalt on).bare := by
  have hset := congrArg (fun t => TskSt.setHalt t on) h
  exact hset

theorem tsk_stopDie (d : Dev) (s : Side) (cause : Nat) : ((d.stopDie s cause).half s).tsk = (d.half s).tsk.setHalt true := by
  cases s <;> rfl

theorem regs_stopDie (d : Dev) (s : Side) (cause : Nat) : (d.stopDie s cause).regs = (d.setRf 0 .dbgStatus 0 5 4 cause).regs := by
  cases s <;> rfl

theorem page_stopDie (d : Dev) (s s' : Side) (cause b : Nat) : (d.stopDie s cause).page s' b = d.page s' b := by
  cases s <;> rfl

theorem deep_stopDie (d : Dev) (s : Side) (cause : Nat) : (d.stopDie s cause).deep = d.deep := by
  have hhalt : (d.mod s fun h => h.modTsk fun t => t.setHalt true).deep = d.deep :=
    deep_of_bare (bare_modTsk _ _ _ fun t => t.started_setHalt true)
  cases s <;> exact hhalt

theorem quiet_stopDie (d : Dev) (s : Side) (cause : Nat) : d.quiet (d.stopDie s cause) := by
  have hhalt : d.quiet ((d.mod s fun h => h.modTsk fun t => t.setHalt true).setRf 0 .dbgStatus 0 5 4 cause) :=
    (quiet_mod rfl (TskSt.started_setHalt ..) fun _ h => h).trans (quiet_setRg ..)
  cases s
  · exact hhalt.trans ((quiet_setLarder ..).trans (quiet_of_eq rfl rfl rfl rfl))
  · exact hhalt.trans (quiet_of_eq rfl rfl rfl rfl)

theorem deep_haltDie (d : Dev) (s : Side) (cause : Nat) : (d.haltDie s cause).deep = d.deep := by
  obtain ⟨broken, h⟩ := haltDie_eq d s cause
  rw [h]
  split
  · rw [deep_raise, deep_setRf, deep_stopDie]
  · exact deep_stopDie ..

theorem tsk_haltDie (d : Dev) (s : Side) (cause : Nat) : ((d.haltDie s cause).half s).tsk.bare = ((d.half s).tsk.setHalt true).bare := by
  obtain ⟨broken, h⟩ := haltDie_eq d s cause
  rw [h, ← tsk_stopDie d s cause]
  split
  · exact tsk_of_stay (stay_of_firm ((firm_raise ..).trans (firm_setRg _ _ _ (by decide) (by decide)))) s
  · rfl

theorem quiet_haltDie {d : Dev} (s : Side) (cause : Nat) (hmild : d.mild .w blkDbg 1) : d.quiet (d.haltDie s cause) := by
  obtain ⟨broken, h⟩ := haltDie_eq d s cause
  have hstop : (d.stopDie s cause).mild .w blkDbg 1 :=
    mild_of_severity (by rw [page_stopDie]) (by rw [page_stopDie]) hmild
  rw [h]
  split
  · exact ((quiet_stopDie ..).trans (quiet_setRg ..)).trans (quiet_mildRaise (d := Dev.setRf _ _ _ _ _ _ _) hstop)
  · exact quiet_stopDie ..

/-- The cause of a halt is shown, whether a lock was broken or not. -/
theorem cause_haltDie (d : Dev) (s : Side) {cause : Nat} (hc : cause < 4) : (d.haltDie s cause).rf 0 .dbgStatus 0 5 4 = cause := by
  have hstop : (d.stopDie s cause).rf 0 .dbgStatus 0 5 4 = cause := by
    rw [Dev.rf, rg_of_regs (regs_stopDie ..)]
    exact (rf_setRf_same _ _ _ _ _ _ _ (by decide) (by decide)).trans (Nat.mod_eq_of_lt hc)
  obtain ⟨broken, h⟩ := haltDie_eq d s cause
  rw [h]
  split
  · rw [Dev.rf, rg_of_bare (bare_raise ..), Dev.setRf, rg_setRg_same, fld_setFld_above _ _ _ _ _ _ (by decide) (by decide) (by decide)]
    exact hstop
  · exact hstop

/-! ## HALT, STEP, RESUME and BREAKPOINT (R487 to R490, R492) -/

/-- A row of a running module leaves what its effect does, the bare task units included. -/
theorem yields_still {c : Instr} {s : State} {f : Life → Dev → Dev} {e : Dev} {p : Dev → Prop} (hc : exec c s = running f s)
    (hpow : s.dev.powered = true) (hf : f s.fuse.life s.dev.mute = e)
    (hp : ∀ d, Leaves e d → (∀ side, (d.half side).tsk.bare = (e.half side).tsk.bare) → p d) : Yields c s p := by
  subst hf
  exact yields_staying (hc.trans (running_eq_commit f hpow)) fun d hd hstay => hp d hd (tsk_of_stay hstay)

/-- A request that changes nothing leaves the bare task units too. -/
theorem still_answered {c : Instr} {s : State} {req : List Byte} {crc : Byte} {f : Life → Dev → Dev} {st : Nat} {l : List Byte} (side : Side)
    (hc : exec c s = trapdoor req crc f s) (hpow : s.dev.powered = true) (hcalm : s.dev.calm)
    (ht : s.dev.trapTakes req crc) (hf : f s.fuse.life s.dev.mute = s.dev.mute.answer st l) :
    Yields c s fun d => d.bare = s.dev.bare ∧ (d.half side).tsk.bare = (s.dev.half side).tsk.bare ∧ trapReply st l ∈ d.out := by
  refine yields_still (hc.trans (trapdoor_eq f ht hpow)) hpow hf fun d hd htsk => ?_
  exact ⟨hd.bare (Dev.calm.quiet (d := s.dev.mute) hcalm (quiet_answer ..)),
    (htsk side).trans (congrArg (fun h : Half => h.tsk.bare) (half_mute ..)), hd.grows.2 _ (out_answer ..)⟩

/-- A row that halts a T-die of the module as it finds it, `m`, and sends an answer after it. -/
theorem yields_halting {c : Instr} {s : State} {f : Life → Dev → Dev} {side : Side} {cause : Nat} {m e : Dev} {p : Dev → Prop}
    (hc : exec c s = running f s) (hpow : s.dev.powered = true) (hcalm : s.dev.calm) (hf : f s.fuse.life s.dev.mute = e)
    (hcause : cause < 4) (hm : m.half side = s.dev.half side ∧ m.pages = s.dev.pages ∧ Dev.quiet s.dev.mute m)
    (he : e.regs = (m.haltDie side cause).regs ∧ e.half side = (m.haltDie side cause).half side ∧ (m.haltDie side cause).quiet e)
    (hp : ∀ d, Leaves e d → ((d.half side).tsk.bare = ((s.dev.half side).tsk.setHalt true).bare
      ∧ (s.dev.mild .w blkDbg 1 → d.rf 0 .dbgStatus 0 5 4 = cause)) → p d) : Yields c s p := by
  obtain ⟨hhalf, hpages, hquiet⟩ := hm
  obtain ⟨hregs, hdie, hanswer⟩ := he
  refine yields_still hc hpow hf fun d hd htsk => hp d hd ⟨?_, fun hmild => ?_⟩
  · rw [htsk side, hdie, tsk_haltDie, hhalf]
  · have hmild' : m.mild .w blkDbg 1 := mild_of_severity (by rw [page_of_pages hpages]) (by rw [page_of_pages hpages]) hmild
    have hbare := hd.bare (Dev.calm.quiet (d := s.dev.mute) hcalm ((hquiet.trans (quiet_haltDie _ _ hmild')).trans hanswer))
    rw [Dev.rf, rg_of_bare hbare, rg_of_regs hregs]
    exact cause_haltDie _ _ hcause

/-- The core of a unit that is released: it goes on, with its watchdog at 1 ms or more. -/
theorem core_released (t : TskSt) (c : Fin 4) : (t.released.core c).wdog = max 100 (t.core c).wdog
    ∧ (t.released.core c).on = (t.core c).on := by
  fin_cases c <;> simp [TskSt.released, TskSt.setHalt, cores, TskSt.setCore, TskSt.core]

theorem core_of_bare {t u : TskSt} (h : t.bare = u.bare) (c : Nat) : (t.core c).wdog = (u.core c).wdog ∧ (t.core c).on = (u.core c).on := by
  have hcore (t : TskSt) : (t.bare.core c).wdog = (t.core c).wdog ∧ (t.bare.core c).on = (t.core c).on := by
    unfold TskSt.core
    split <;> exact ⟨rfl, rfl⟩
  obtain ⟨hw, ho⟩ := hcore t
  obtain ⟨hw', ho'⟩ := hcore u
  rw [← hw, ← ho, h]
  exact ⟨hw', ho'⟩

theorem tsk_releaseDie {d : Dev} {s : Side} (h : (d.half s).tsk.halted = true) :
    ((d.releaseDie s).half s).tsk.bare = (d.half s).tsk.released.bare := by
  rw [releaseDie_halted h, half_mod_same, ← bare_released]
  cases s
  · exact congrArg (fun h : Half => h.tsk.released.expire.deliver.dispatch.bare) (half_thawWriter d .w)
  · rfl

theorem under_denied {d : Dev} {life : Life} {bit : Nat} (f : Dev → Dev) (h : d.granted life bit = false) :
    d.mute.under life bit f = d.mute.answer stDenied [] := if_neg (by rw [show d.mute.granted life bit = false from h]; decide)

/-- Settles O58: HALT, STEP and a breakpoint halt the T-die, RESUME releases it. -/
theorem halts : Obligations.Halts := by
  unfold Obligations.Halts
  intro s side core crc hpow hcalm
  have hmute : s.dev.mute.half side = s.dev.half side := half_mute ..
  refine ⟨fun hg => ⟨fun ht => ?_, fun hhalt => ⟨fun ht => ?_, fun ht => ?_⟩, fun hgo => ⟨fun ht => ?_, fun ht => ?_⟩⟩,
    fun hg => ⟨fun ht => ?_, fun ht => ?_, fun ht => ?_⟩, fun hon hgo => ⟨fun hpatch => ?_, fun hpatch => ?_⟩⟩
  case refine_1 =>
    refine yields_halting (f := fun life d => halt life side core.val d) (m := s.dev.mute) (cause := 1) (trapdoor_eq _ ht hpow) hpow hcalm
      (under_mute _ hg) (by decide) ⟨hmute, rfl, .refl _⟩ ⟨rfl, by cases side <;> rfl, (quiet_setDbg ..).trans (quiet_answer ..)⟩
      fun d hd hstop => ⟨hstop, hd.grows.2 _ (out_answer ..), ?_⟩
    have hdbg := congrArg (fun d => d.dbg.halter) hd.deep
    exact hdbg
  case refine_2 =>
    refine yields_halting (f := fun life d => stepCore life side d) (m := s.dev.mute.draw) (cause := 1) (trapdoor_eq _ ht hpow) hpow hcalm
      ((under_mute _ hg).trans (if_neg (by simp [hmute, hhalt]))) (by decide) ⟨hmute, rfl, quiet_of_eq rfl rfl rfl rfl⟩
      ⟨rfl, by cases side <;> rfl, quiet_answer ..⟩ fun d hd hstop => ⟨hstop, _, hd.grows.2 _ (out_answer ..)⟩
  case refine_3 =>
    refine yields_still (f := fun life d => resume life side d) (trapdoor_eq _ ht hpow) hpow (under_mute _ hg) fun d hd htsk => ?_
    have hrel : (d.half side).tsk.bare = (s.dev.half side).tsk.released.bare := by
      rw [htsk side, ← hmute, ← tsk_releaseDie (by rw [hmute]; exact hhalt)]
      cases side <;> rfl
    refine ⟨hd.grows.2 _ (out_answer ..), TskSt.halted_of_bare hrel, fun c => ?_⟩
    obtain ⟨hw, ho⟩ := core_of_bare hrel c
    obtain ⟨hw', ho'⟩ := core_released (s.dev.half side).tsk c
    exact ⟨hw.trans hw', ho.trans ho'⟩
  case refine_4 =>
    exact still_answered (f := fun life d => stepCore life side d) side rfl hpow hcalm ht
      ((under_mute _ hg).trans (if_pos (by simp [hmute, hgo])))
  case refine_5 =>
    refine still_answered (f := fun life d => resume life side d) side rfl hpow hcalm ht ((under_mute _ hg).trans ?_)
    rw [releaseDie_going (by rw [hmute]; exact hgo)]
  case refine_6 =>
    exact still_answered (f := fun life d => halt life side core.val d) side rfl hpow hcalm ht (under_denied _ hg)
  case refine_7 =>
    exact still_answered (f := fun life d => stepCore life side d) side rfl hpow hcalm ht (under_denied _ hg)
  case refine_8 => exact still_answered (f := fun life d => resume life side d) side rfl hpow hcalm ht (under_denied _ hg)
  case refine_9 =>
    obtain ⟨u, hu⟩ := hpatch
    have hany : ((List.range 16).any fun u => (s.dev.mute.rg side.code .tskPatchAddr u).getLsbD 31) = true :=
      List.any_eq_true.mpr ⟨u.val, List.mem_range.mpr u.isLt, hu⟩
    exact yields_halting (f := fun _ d => breakpoint side core.val d) (m := s.dev.mute) (cause := 2) rfl hpow hcalm
      (if_pos (by rw [hany, hmute, hon, hgo]; rfl)) (by decide) ⟨hmute, rfl, .refl _⟩ ⟨rfl, rfl, .refl _⟩ fun d _ hstop => hstop
  case refine_10 =>
    have hnone : ((List.range 16).any fun u => (s.dev.mute.rg side.code .tskPatchAddr u).getLsbD 31) = false := by
      simp only [List.any_eq_false, List.mem_range]
      exact fun u hu => Bool.eq_false_iff.mp (hpatch ⟨u, hu⟩)
    refine yields_still (f := fun _ d => breakpoint side core.val d) rfl hpow (if_neg (by rw [hnone, Bool.and_false]; decide)) fun d hd htsk => ?_
    exact ⟨hd.bare hcalm, (htsk side).trans (congrArg (fun h : Half => h.tsk.bare) hmute)⟩

end Sys2Proof.Machine
end

section
/-! PROOFS. A suspect line that is read back (R298), by what every command leaves of memories and links. -/
namespace Sys2Proof.Machine
open Sys2Proof.Safety

/-! ## What every command leaves of a half's memories and links -/

/-- What every command leaves keeps a half's Cellar, Attic, calibration, links, modes and keys at rest. -/
theorem half_of_deep {d e : Dev} (h : d.deep = e.deep) (s : Side) : (d.half s).deep = (e.half s).deep := by
  cases s
  · have hw := congrArg Dev.west h
    exact hw
  · have he := congrArg Dev.east h
    exact he

theorem cel_of_deep {d e : Dev} (h : d.deep = e.deep) (s : Side) : (d.half s).cel = (e.half s).cel := by
  have hcel := congrArg Half.cel (half_of_deep h s)
  exact hcel

theorem att_of_deep {d e : Dev} (h : d.deep = e.deep) (s : Side) : (d.half s).att = (e.half s).att := by
  have hatt := congrArg Half.att (half_of_deep h s)
  exact hatt

theorem stw_of_deep {d e : Dev} (h : d.deep = e.deep) (s : Side) : (d.half s).stw = (e.half s).stw := by
  have hstw := congrArg Half.stw (half_of_deep h s)
  exact hstw

/-- A row of a running module leaves what its effect does of the memories and links. -/
theorem yields_deeply {c : Instr} {s : State} {f : Life → Dev → Dev} {e : Dev} {p : Dev → Prop} (hc : exec c s = running f s)
    (hpow : s.dev.powered = true) (hf : f s.fuse.life s.dev.mute = e) (hp : ∀ d, Leaves e d → p d) : Yields c s p := by
  subst hf
  exact yields_running hc hpow hp

/-! ## A suspect line that is read back (R298) -/

section

/-- A half whose Cellar's line was read back and found good. -/
def Half.readBack (h : Half) (line : Nat) : Half :=
  (h.celTouch line 1).modCel fun c => { c with suspect := c.suspect.filter fun x => decide (x ≠ line) }

/-- A half whose Attic's line was read back and found good. -/
def Half.readAttic (h : Half) (line : Nat) : Half :=
  { h with att := { h.att with suspect := h.att.suspect.filter fun x => decide (x ≠ line) } }

theorem remap_celTouch (h : Half) (line : Nat) : (h.celTouch line 1).cel.remap = h.cel.remap
    ∧ (h.celTouch line 1).cel.suspect = h.cel.suspect := by
  constructor <;> simp [Half.celTouch, Half.modCel, CelSt.access]

variable {d : Dev} {s : Side} {line : Nat} {e : Faults}

theorem lineReadback_cellar {ch : Fin 4} (hsuspect : (d.half s).cel.suspect.contains line = true) (hch : line % 4 = ch) :
    lineReadback s (.cellar ch) line e d = if cellarClass e = .clean then d.mod s fun h => h.readBack line
      else if ((d.half s).cel.remap.filter fun r => decide (r.1 = ch.val)).length < 16 then
        ((d.mod s fun h => h.readBack line).mod s fun h => h.modCel fun c => { c with
          remap := c.remap ++ [(ch.val, line, decide (cellarClass e = .uncorr))] }).journalRemap (16 * s.code + ch.val)
      else (d.mod s fun h => h.readBack line).raise s blkCel 6 := by
  unfold lineReadback
  dsimp only
  rw [if_neg (by simp only [hsuspect, hch]; simp)]
  by_cases hclean : cellarClass e = .clean
  · rw [if_pos (by simp [hclean]), if_pos hclean]
    rfl
  · rw [if_neg (by simp [hclean]), if_neg hclean]
    rfl

theorem lineReadback_attic {bank : Fin 16} (hsuspect : (d.half s).att.suspect.contains line = true) (hbank : line % 16 = bank) :
    lineReadback s (.attic bank) line e d = if atticClass e = .clean then d.mod s fun h => h.readAttic line
      else if ((d.half s).att.spare.filter fun r => decide (r.1 = bank.val)).length < 8 then
        ((d.mod s fun h => h.readAttic line).mod s fun h => { h with att := { h.att with
          spare := h.att.spare ++ [(bank.val, line, decide (atticClass e = .uncorr))] } }).journalRemap (16 * s.code + 8)
      else (d.mod s fun h => h.readAttic line).raise s blkAtt 4 := by
  unfold lineReadback
  dsimp only
  rw [if_neg (by simp only [hsuspect, hbank]; simp)]
  by_cases hclean : atticClass e = .clean
  · rw [if_pos (by simp [hclean]), if_pos hclean]
    rfl
  · rw [if_neg (by simp [hclean]), if_neg hclean]
    rfl

end
/-- Settles O22: what the row leaves of the Cellar and the Attic, every command leaves. -/
theorem remaps : Obligations.Remaps := by
  unfold Obligations.Remaps
  intro s side line e hpow hcalm _
  have hmute : s.dev.mute.half side = s.dev.half side := half_mute ..
  have hsrc (b i : Nat) (f : Half → Half) (hsrc : srcClass b i ≠ none) (hi : i < 16) (htwo : twOnly b = false)
      (hen : (s.dev.page side b).enable.getLsbD i = true) :
      (((s.dev.mute.mod side f).raise side b i).page side b).src.getLsbD i = true :=
    raise_src _ _ _ _ (by simp [htwo]) hsrc hi (by rw [page_mod]; exact hen)
  refine ⟨fun ch hsuspect hch => ?_, fun bank hsuspect hbank => ?_⟩
  · have hrow := lineReadback_cellar (d := s.dev.mute) (s := side) (e := e) (by rw [hmute]; exact hsuspect) hch
    obtain ⟨hremap, -⟩ := remap_celTouch (s.dev.half side) line
    refine ⟨fun hclean => ?_, fun hfault hfree => ?_, fun hfault hfree _ hen => ?_⟩
    · rw [if_pos hclean] at hrow
      refine yields_deeply (f := fun _ d => lineReadback side (.cellar ch) line e d) rfl hpow hrow fun d hd => ?_
      rw [cel_of_deep hd.deep, half_mod_same, hmute]
      rfl
    · rw [if_neg hfault, hmute, if_pos (of_decide_eq_true hfree)] at hrow
      refine yields_deeply (f := fun _ d => lineReadback side (.cellar ch) line e d) rfl hpow hrow fun d hd => ?_
      rw [cel_of_deep (hd.deep.trans (deep_ldrAppend ..)), half_mod_same, half_mod_same, hmute, ← hremap]
      rfl
    · rw [if_neg hfault, hmute, if_neg (of_decide_eq_false hfree)] at hrow
      refine yields_deeply (f := fun _ d => lineReadback side (.cellar ch) line e d) rfl hpow hrow fun d hd => ⟨?_, ?_⟩
      · rw [cel_of_deep (hd.deep.trans (deep_raise ..)), half_mod_same, hmute]
        rfl
      · exact (hd.grows.1 side blkCel).2.2 6 (hsrc _ _ _ (by decide) (by decide) rfl hen)
  · have hrow := lineReadback_attic (d := s.dev.mute) (s := side) (e := e) (by rw [hmute]; exact hsuspect) hbank
    refine ⟨fun hclean => ?_, fun hfault hfree => ?_, fun hfault hfree _ hen => ?_⟩
    · rw [if_pos hclean] at hrow
      refine yields_deeply (f := fun _ d => lineReadback side (.attic bank) line e d) rfl hpow hrow fun d hd => ?_
      rw [att_of_deep hd.deep, half_mod_same, hmute]
      rfl
    · rw [if_neg hfault, hmute, if_pos (of_decide_eq_true hfree)] at hrow
      refine yields_deeply (f := fun _ d => lineReadback side (.attic bank) line e d) rfl hpow hrow fun d hd => ?_
      rw [att_of_deep (hd.deep.trans (deep_ldrAppend ..)), half_mod_same, half_mod_same, hmute]
      rfl
    · rw [if_neg hfault, hmute, if_neg (of_decide_eq_false hfree)] at hrow
      refine yields_deeply (f := fun _ d => lineReadback side (.attic bank) line e d) rfl hpow hrow fun d hd => ⟨?_, ?_⟩
      · rw [att_of_deep (hd.deep.trans (deep_raise ..)), half_mod_same, hmute]
        rfl
      · exact (hd.grows.1 side blkAtt).2.2 4 (hsrc _ _ _ (by decide) (by decide) rfl hen)

end Sys2Proof.Machine
end

section
/-! PROOFS. Requests of fabric ports, their responses, timers and errors (chapter 15). -/
namespace Sys2Proof.Machine
open Sys2Proof.Safety

/-! ## Requests of fabric ports (R236, R405 to R408) -/

/-- What happens at one end of the Stairwell leaves the module calm unless the end's state changes. -/
theorem quiet_modStw {d : Dev} {s : Side} {f : StwSt → StwSt} (h : (f (d.half s).stw).state = (d.half s).stw.state) :
    d.quiet (d.mod s fun h => h.modStw f) := by
  have hcut : (d.mod s fun h => h.modStw f).pathCut = d.pathCut := by
    let g (n : Nat) (b : Bool) : Bool := d.cfg.load.any fun l => l.cutOff (decide (n = 4) || !b)
    have key (w e : Half) : Dev.pathCut { d with west := w, east := e } = g w.stw.state e.tsk.started := rfl
    cases s
    · exact (key (d.west.modStw f) d.east).trans (congrArg (g · d.east.tsk.started) h)
    · rfl
  refine ⟨fun h => ?_, by cases s <;> rfl, fun h => hcut ▸ h, fun s' h => ?_⟩
  · rwa [wanted_of_eq (d := d) (by cases s <;> rfl) (by cases s <;> rfl)] at h
  · cases s <;> cases s' <;> exact h

theorem attic_of_deep {d e : Dev} (h : d.deep = e.deep) (s : Side) : (d.half s).attic = (e.half s).attic := by
  have hattic := congrArg Half.attic (half_of_deep h s)
  exact hattic

/-- A request waits at its half for its response. -/
def Dev.joins (d : Dev) (s : Side) (p : NocPend) : Dev := d.mod s fun h => h.modStw fun x => { x with pend := x.pend ++ [p] }

theorem pend_joins (d : Dev) (s : Side) (p : NocPend) : ((d.joins s p).half s).stw.pend = (d.half s).stw.pend ++ [p] := by
  rw [Dev.joins, half_mod_same]
  rfl

/-- What every command leaves of a request that joined. -/
theorem pend_of_joins {d e : Dev} {s : Side} {p : NocPend} {l : List NocPend} (h : Leaves (e.joins s p) d)
    (hl : (e.half s).stw.pend = l) : (d.half s).stw.pend = l ++ [p] := by
  rw [stw_of_deep h.deep, pend_joins, hl]

theorem attic_joins (d : Dev) (s : Side) (p : NocPend) : ((d.joins s p).half s).attic = (d.half s).attic := by
  rw [Dev.joins, half_mod_same]
  rfl

theorem addrSide_code {a : Nat} {s : Side} (h : a / 2 ^ 40 = s.code) : addrSide a = some s := by
  cases s <;> simp_all [addrSide, Side.code]

/-- A request to its own half is carried out there, and its response waits. -/
theorem nocPortRequest_own {d e : Dev} {die port : Nat} {packet : List Byte} {line : LineOutcome} {r : NocReq} {st : Nat} {l : List Byte}
    (hlive : d.portLive die port = true) (hparse : NocReq.parse packet = some r) (hown : r.addr / 2 ^ 40 = (dieSide die).code)
    (hdoes : d.nocAccess (dieSide die) r line = (st, l, e)) : nocPortRequest die port packet line d
      = e.joins (dieSide die) { die := die, port := port, req := r, line := line, ready := some (st, l) } := by
  have hne : (dieSide die).code ≠ (dieSide die).other.code := by cases dieSide die <;> decide
  have hcross (p : NocPend) (hd : p.die = die) (hr : p.req = r) : p.cross = false := by
    rw [NocPend.cross, hd, hr, hown]
    exact decide_eq_false hne
  unfold nocPortRequest
  simp only [hlive, hparse, addrSide_code hown, Dev.nocPerform, hdoes, NocPend.remote, hcross]
  rfl

/-- A request that breaks the layout is BAD_ARG. -/
theorem nocAccess_unlawful {d : Dev} {s : Side} {r : NocReq} (line : LineOutcome) (h : r.lawful = false) :
    d.nocAccess s r line = (stBadArg, [], d) := if_pos (by simp [h])

section
variable {d : Dev} {s : Side} {r : NocReq} {a : Nat} (haddr : r.addr = s.code * 2 ^ 40 + 0x100000000 + a) (hlawful : r.lawful = true)
  (hlen : 0 < r.len) (hline : r.addr % 64 + r.len ≤ 64) (hlo : d.stageSize s ≤ a) (hhi : a + r.len ≤ 0x680000)

include haddr hhi in
theorem addr_own : r.addr / 2 ^ 40 = s.code ∧ r.addr % 2 ^ 40 = 0x100000000 + a := by
  have hcode : s.code < 2 := by cases s <;> decide
  omega

include haddr hlo hhi in
theorem freeAttic_own : addrSide r.addr = some s ∧ d.freeAttic s (r.addr % 2 ^ 40) r.len = some a := by
  obtain ⟨hside, hoff⟩ := addr_own haddr hhi
  refine ⟨addrSide_code hside, ?_⟩
  rw [hoff, Dev.freeAttic, if_pos (by omega), Nat.add_sub_cancel_left]

include haddr hlawful hlen hline hlo hhi

/-- A request of a legal length for the half's own free Attic space. -/
theorem nocAccess_legal (line : LineOutcome) (hkey : r.keyed = false) (hdata : r.write = true → r.data.length = r.len) :
    d.nocAccess s r line = if r.write then (stOk, [], d.mod s fun h => { h with
        attic := memWrite h.attic a (r.data.take r.len)
        att := h.att.cleanse fun l => decide (r.len = 64) && decide (64 * l = a) })
      else if line ≠ .pass || (d.half s).att.poison (a / 64) then (stIntegrity, [], d.attUncorr s (a / 64))
      else (stOk, memRead (d.half s).attic a r.len, d) := by
  obtain ⟨hside, hfree⟩ := freeAttic_own haddr hlo hhi
  have h0 : decide (r.len = 0) = false := decide_eq_false hlen.ne'
  have h64 : decide (64 < r.len) = false := decide_eq_false (Nat.not_lt.mpr (le_trans (Nat.le_add_left ..) hline))
  have hend : decide (64 < r.addr % 64 + r.len) = false := decide_eq_false (Nat.not_lt.mpr hline)
  have hwhole : (r.write && decide (r.data.length ≠ r.len)) = false := by
    cases hw : r.write
    · rfl
    · rw [hdata hw]
      simp
  unfold Dev.nocAccess
  rw [hlawful, h0, h64, hend, hwhole]
  rw [if_neg (by decide), hside]
  dsimp only
  rw [hfree]
  dsimp only
  rw [hkey]
  rfl

/-- A read of the half's own free Attic space. -/
theorem nocAccess_read (hkey : r.keyed = false) (hwrite : r.write = false) (hpoison : (d.half s).att.poison (a / 64) = false) :
    d.nocAccess s r .pass = (stOk, memRead (d.half s).attic a r.len, d) := by
  rw [nocAccess_legal haddr hlawful hlen hline hlo hhi .pass hkey fun h => absurd h (by simp [hwrite]), hwrite, hpoison]
  rfl

/-- The half after a write of its free Attic space. -/
def Half.nocWrite (h : Half) (r : NocReq) (a : Nat) : Half := { h with
  attic := memWrite h.attic a (r.data.take r.len)
  att := h.att.cleanse fun l => decide (r.len = 64) && decide (64 * l = a) }

theorem nocAccess_write (line : LineOutcome) (hkey : r.keyed = false) (hwrite : r.write = true) (hdata : r.data.length = r.len) :
    d.nocAccess s r line = (stOk, [], d.mod s fun h => h.nocWrite r a) := by
  rw [nocAccess_legal haddr hlawful hlen hline hlo hhi line hkey fun _ => hdata, hwrite]
  rfl

end

/-- Across a link that is DOWN a request waits for its answer DEGRADED (R400). -/
theorem nocPortRequest_down {d : Dev} {die port : Nat} {packet : List Byte} {line : LineOutcome} {r : NocReq}
    (hlive : d.portLive die port = true) (hparse : NocReq.parse packet = some r) (hfar : r.addr / 2 ^ 40 = (dieSide die).other.code)
    (hdown : (d.half (dieSide die)).stw.state = 4)
    (hmiss : d.nocHit (dieSide die) { die := die, port := port, req := r, line := line } = false) :
    nocPortRequest die port packet line d
      = d.joins (dieSide die) { die := die, port := port, req := r, line := line, ready := some (stDegraded, []) } := by
  have hne : (dieSide die).other ≠ dieSide die := by cases dieSide die <;> decide
  unfold nocPortRequest
  simp only [hlive, hparse, addrSide_code hfar, hdown, hmiss, hne]
  rfl

/-! ## Their responses, timers and errors (R405, R408) -/

theorem takeTxn_first (p : NocPend) (rest : List NocPend) : takeTxn p.req.txn (p :: rest) = some (p, rest) := if_pos rfl

theorem pend_setPend (d : Dev) (s : Side) (l : List NocPend) : ((d.setPend s l).half s).stw.pend = l := by
  rw [Dev.setPend, half_mod_same]
  rfl

theorem half_emit (d : Dev) (o : Out) (s : Side) : (d.emit o).half s = d.half s := by cases s <;> rfl

theorem stw_mod (d : Dev) (s : Side) (f : Half → Half) (h : ∀ x, (f x).stw = x.stw) (s' : Side) :
    ((d.mod s f).half s').stw = (d.half s').stw := by
  by_cases hs : s' = s
  · rw [hs, half_mod_same, h]
  · rw [half_mod_ne d f hs]

/-- A response at its port is sent, and the half's link stays. -/
theorem deliver_spec (d : Dev) (p : NocPend) (st : Nat) (l : List Byte) : Out.noc p.die p.port (p.packet st l) ∈ (d.deliver p st l).out
    ∧ (∀ s, ((d.deliver p st l).half s).stw = (d.half s).stw) ∧ (d.deliver p st l).regs = d.regs
    ∧ d.quiet (d.deliver p st l) := by
  unfold Dev.deliver
  dsimp only
  split
  · refine ⟨List.mem_append_right _ (List.mem_singleton_self _), fun s => ?_, by rw [Dev.emit_regs, Dev.mod_regs],
      (quiet_mod rfl rfl fun _ h => h).trans (quiet_emit ..)⟩
    rw [half_emit]
    exact stw_mod _ _ _ (by intro x; rfl) s
  · exact ⟨List.mem_append_right _ (List.mem_singleton_self _), fun s => by cases s <;> rfl, rfl, quiet_emit ..⟩

variable {d : Dev} {s : Side} {p : NocPend} {rest : List NocPend}

theorem nocResponse_first (hpend : (d.half s).stw.pend = p :: rest) (hcross : p.cross = false) (hreset : (d.half s).reset = 0) {st : Nat}
    {l : List Byte} (hready : p.ready = some (st, l)) (hkept : p.dropped = false) (hwaits : d.writeWaits p = false) :
    nocResponse s p.req.txn d = (d.setPend s rest).deliver p st l := by
  unfold nocResponse
  simp [hpend, takeTxn_first, hready, hkept, hwaits, hcross, hreset]

/-- The half's link after the timer of the first request ended. -/
def StwSt.timedOut (x : StwSt) (p : NocPend) (rest : List NocPend) : StwSt :=
  { x with pend := rest, late := if p.ready.isSome && !p.dropped then x.late ++ [p.req.txn] else x.late }

/-- The module after the timer of the first request ended, before it is raised and answered. -/
def Dev.timedOut (d : Dev) (s : Side) (p : NocPend) (rest : List NocPend) : Dev :=
  (d.mod s fun h => h.modStw fun x => x.timedOut p rest).bump s.code .nocTimeoutCnt

theorem timedOut_spec (d : Dev) (s : Side) (p : NocPend) (rest : List NocPend) : d.quiet (d.timedOut s p rest)
    ∧ (d.timedOut s p rest).pages = d.pages ∧ ((d.timedOut s p rest).half s).stw = (d.half s).stw.timedOut p rest
    ∧ (d.timedOut s p rest).regs = (d.bump s.code .nocTimeoutCnt).regs := by
  refine ⟨Dev.quiet.trans (e := d.mod s fun h => h.modStw fun x => x.timedOut p rest) ?_ (quiet_bump ..), by cases s <;> rfl, ?_,
    by cases s <;> rfl⟩
  · exact quiet_modStw rfl
  · rw [Dev.timedOut, half_bump, half_mod_same]
    rfl

theorem nocTimeout_first (hpend : (d.half s).stw.pend = p :: rest) (hcross : p.cross = false) (hreset : (d.half s).reset = 0)
    (hgo : p.held = false) : nocTimeout s p.req.txn d
      = ((d.timedOut s p rest).raise s blkStw 3).deliver p stTimeout [] := by
  unfold nocTimeout
  simp only [hpend, takeTxn_first]
  rw [if_neg (by simp [hgo, hcross, hreset])]
  rfl

theorem flitError_first (hpend : (d.half s).stw.pend = p :: rest) : flitError s p.req.txn d
    = (d.setPend s ({ p with dropped := true } :: rest)).raise s blkStw 5 := by
  unfold flitError
  simp only [hpend, takeTxn_first]

/-- What a write of n bytes leaves, byte for byte. -/
theorem tget_written (t : Tbl Byte) (a k : Nat) {l : List Byte} {n : Nat} (h : l.length = n) : tget 0 (memWrite t a l) k
    = if a ≤ k ∧ k < a + n then l.getD (k - a) 0 else tget 0 t k := by
  subst h
  split
  · next hin =>
    obtain ⟨i, rfl⟩ := Nat.exists_eq_add_of_le hin.1
    have hi : i < l.length := by omega
    rw [memWrite, tget_tblit_in _ _ _ _ _ hi, Nat.add_sub_cancel_left, List.getD_eq_getElem _ _ hi]
  · exact tget_tblit_out _ _ _ _ _ (by omega)

/-- Settles O43: what the rows leave of links and Attics, every command leaves. -/
theorem nocRows : Obligations.NocRows := by
  unfold Obligations.NocRows
  intro s hpow hcalm
  refine ⟨fun die port packet line r hlive hparse => ?_, fun side p rest hpend hcross => ⟨fun hreset => ⟨fun st l hready hkept hwaits => ?_,
    fun hgo hmild => ?_⟩, ?_⟩, fun side txn hlate hmild => ?_⟩
  · have hmute : s.dev.mute.half (dieSide die) = s.dev.half (dieSide die) := half_mute ..
    refine ⟨fun hown hlawful => ?_, fun a haddr hlawful hlen hline hlo hhi hkey => ⟨fun hread hpass hpoison => ?_, fun hwrite hdata => ?_⟩,
      fun hfar hdown hmiss => ?_⟩
    · refine yields_deeply (f := fun _ d => nocPortRequest die port packet line d) rfl hpow
        (nocPortRequest_own (d := s.dev.mute) hlive hparse hown (nocAccess_unlawful line hlawful))
        fun d hd => ⟨pend_of_joins hd (by rw [hmute]), ?_⟩
      rw [attic_of_deep hd.deep, attic_joins, hmute]
    · refine yields_deeply (f := fun _ d => nocPortRequest die port packet line d) rfl hpow
        (nocPortRequest_own (d := s.dev.mute) hlive hparse (addr_own haddr hhi).1
          (hpass ▸ nocAccess_read (d := s.dev.mute) haddr hlawful hlen hline hlo hhi hkey hread (by rw [hmute]; exact hpoison)))
        fun d hd => ⟨?_, ?_⟩
      · rw [hmute] at hd
        exact pend_of_joins hd (by rw [hmute])
      · rw [attic_of_deep hd.deep, attic_joins, hmute]
    · refine yields_deeply (f := fun _ d => nocPortRequest die port packet line d) rfl hpow
        (nocPortRequest_own (d := s.dev.mute) hlive hparse (addr_own haddr hhi).1
          (nocAccess_write (d := s.dev.mute) haddr hlawful hlen hline hlo hhi line hkey hwrite hdata)) fun d hd => ⟨pend_of_joins hd ?_, fun k => ?_⟩
      · rw [half_mod_same, hmute]
        rfl
      · rw [attic_of_deep hd.deep, attic_joins, half_mod_same, hmute]
        show tget 0 (memWrite _ a (r.data.take r.len)) k = _
        rw [List.take_of_length_le (Nat.le_of_eq hdata)]
        exact tget_written _ _ _ hdata
    · exact yields_deeply (f := fun _ d => nocPortRequest die port packet line d) rfl hpow
        (nocPortRequest_down (d := s.dev.mute) hlive hparse hfar (by rw [hmute]; exact hdown) hmiss)
        fun d hd => pend_of_joins hd (by rw [hmute])
  · have hmute : s.dev.mute.half side = s.dev.half side := half_mute ..
    obtain ⟨hout, hstw, -, -⟩ := deliver_spec (s.dev.mute.setPend side rest) p st l
    refine yields_deeply (f := fun _ d => nocResponse side p.req.txn d) rfl hpow (nocResponse_first (d := s.dev.mute)
      (by rw [hmute]; exact hpend) hcross (by rw [hmute]; exact hreset) hready hkept hwaits) fun d hd => ⟨?_, hd.grows.2 _ hout⟩
    rw [stw_of_deep hd.deep, hstw, pend_setPend]
  · have hmute : s.dev.mute.half side = s.dev.half side := half_mute ..
    obtain ⟨htimed, hpages, hlink, hcount⟩ := timedOut_spec s.dev.mute side p rest
    obtain ⟨hout, hstw, hregs, hquiet⟩ := deliver_spec ((s.dev.mute.timedOut side p rest).raise side blkStw 3) p stTimeout []
    have hmild' : (s.dev.mute.timedOut side p rest).mild side blkStw 3 :=
      mild_of_severity (by rw [page_of_pages (d := s.dev) hpages]) (by rw [page_of_pages (d := s.dev) hpages]) hmild
    refine yields_quiet (f := fun _ d => nocTimeout side p.req.txn d) rfl hpow hcalm (nocTimeout_first (d := s.dev.mute)
      (by rw [hmute]; exact hpend) hcross (by rw [hmute]; exact hreset) hgo) ((htimed.trans (quiet_mildRaise hmild')).trans hquiet)
      fun d hd hg => ?_
    have hleft : (d.half side).stw = (s.dev.half side).stw.timedOut p rest := by
      rw [stw_of_deep (deep_of_bare hd), hstw, stw_of_deep (deep_raise ..), hlink, hmute]
    refine ⟨by rw [hleft]; rfl, hg.2 _ hout, ?_, fun hr hkept => ?_⟩
    · rw [rg_of_bare hd, rg_of_regs hregs, rg_of_bare (bare_raise ..), rg_of_regs hcount]
      rfl
    · rw [hleft]
      simp [StwSt.timedOut, hr, hkept]
  · refine yields_deeply (f := fun _ d => flitError side p.req.txn d) rfl hpow (flitError_first (d := s.dev.mute)
      (by rw [half_mute]; exact hpend)) fun d hd => ?_
    rw [stw_of_deep (hd.deep.trans (deep_raise ..)), pend_setPend]
  · have hmute : s.dev.mute.half side = s.dev.half side := half_mute ..
    refine yields_quiet (f := fun _ d => nocLate side txn d) (e := (Dev.bump (s.dev.mute.mod side fun h => h.modStw fun x =>
        { x with late := x.late.erase txn }) side.code .nocLateCnt).raise side blkStw 4) rfl hpow hcalm
      (if_neg (by rw [hmute, hlate]; decide)) ?_ fun d hd _ => ⟨?_, ?_⟩
    · exact ((quiet_modStw rfl).trans (quiet_bump ..)).trans
        (quiet_mildRaise (mild_of_severity (by cases side <;> rfl) (by cases side <;> rfl) hmild))
    · rw [stw_of_deep (deep_of_bare (hd.trans (bare_raise ..))), half_bump, half_mod_same, hmute]
      rfl
    · rw [rg_of_bare (hd.trans (bare_raise ..))]
      cases side <;> rfl

end Sys2Proof.Machine
end

section
/-! PROOFS. Registers of TW that no reset keeps from a writer; the Larder: appends and compaction (chapter 11). -/
namespace Sys2Proof.Machine
open Sys2Proof.Safety

/-! ## A register of TW that no block in reset keeps from a writer (R23, R449) -/

/-- What a register of TW's own blocks says: it is found, lies in a block that RESET_PART does not name, is no copy, and the burst
lock holds none of its fields. -/
def ownReg (r : Rg) (x : RegDesc) : Bool :=
  decide (descOf r = some x) && decide (x.reg = r) && decide ((Place.reg 0 x 0).bit = none) && !idleCopy 0 x && !x.fields.any fun f => f.burst

theorem writeTo_own {d : Dev} {r : Rg} {x : RegDesc} (life : Life) (w : Writer) (v : Word) (h : ownReg r x = true) :
    d.writeTo life w (.reg 0 x 0) (decide (sideOf 0 = .e)) v = d.hookWrite life w 0 x 0 v := by
  simp only [ownReg, Bool.and_eq_true, decide_eq_true_eq, Bool.not_eq_true'] at h
  obtain ⟨⟨⟨⟨-, -⟩, hbit⟩, hcopy⟩, hburst⟩ := h
  have hfar : decide (sideOf 0 = .e) = false := rfl
  have hreach : d.unreached (.reg 0 x 0) false = none := by simp [Dev.unreached, hbit]
  have hlock : d.changesLocked 0 x 0 v = false := by
    simp only [List.any_eq_false] at hburst
    simp only [Dev.changesLocked, List.any_eq_false]
    exact fun f hf => by simp [hburst f hf]
  simp [Dev.writeTo, hfar, hreach, Dev.writePlace, Dev.writeReg, hcopy, hlock]

theorem ldrCtrl_own : ∃ x, ownReg .ldrCtrl x = true := ⟨(descOf .ldrCtrl).get (by decide), by decide⟩
theorem safeCtrl_own : ∃ x, ownReg .safeCtrl x = true := ⟨(descOf .safeCtrl).get (by decide), by decide⟩

theorem ldr_of_bare {d e : Dev} (h : d.bare = e.bare) : d.ldr = e.ldr := by
  have hldr := congrArg Dev.ldr h
  exact hldr

theorem dbg_of_bare {d e : Dev} (h : d.bare = e.bare) : d.dbg = e.dbg := by
  have hdbg := congrArg Dev.dbg h
  exact hdbg

/-! ## Appends of the Larder (R303, R306) -/

/-- Where the next record of so many codewords starts. -/
def LdrSt.place (l : LdrSt) (cw : Nat) : Nat × Nat := if l.used + cw ≤ 1872 then (l.sector, l.used) else (l.sector + 1, 0)

/-- An append that has room. -/
theorem ldrAppend_room {d : Dev} (type key : Nat) (data : LdrData) (hhold : d.ldr.hold = false) (hroom : d.ldr.sector < 479) :
    let r : LdrRec := { seq := (d.ldr.seq + 1) % 2 ^ 32, type := type, key := key, data := data }
    let at_ := d.ldr.place (ldrCodewords (data.length type key))
    ∃ (e : Dev) (fill : Bool), d.ldrAppend type key data = (if fill then e.raise .w blkAon 11 else e) ∧ d.quiet e ∧ e.pages = d.pages
      ∧ e.ldr.seq = r.seq ∧ e.ldr.records = ldrInsert d.ldr.records r ∧ e.ldr.hold = false ∧ e.ldr.sector = at_.1
      ∧ e.dbg.flash = flashWrite d.dbg.flash (sectorBase d.ldr.active at_.1 + 35 * at_.2) r.coded := by
  intro r at_
  unfold Dev.ldrAppend
  extract_lets l cw fits sector used r' fill now rest b d1 l2 d2
  have hplace : at_ = (sector, used) := by
    simp only [at_, LdrSt.place, sector, used, fits, decide_eq_true_eq]
    split <;> rfl
  have hsector : ¬ 480 ≤ sector := by
    have hle : sector ≤ l.sector + 1 := by
      simp only [sector]
      split <;> omega
    have hlt : l.sector < 479 := hroom
    omega
  rw [if_neg (by rw [hhold]; decide), if_neg hsector, hplace]
  exact ⟨d2, fill && l.hostMode, rfl, quiet_setLarder .., rfl, rfl, rfl, hhold, rfl, rfl⟩

theorem find_insert {l : List LdrRec} {r : LdrRec} (h : r.type ≠ 6) (t k : Nat) :
    ((ldrInsert l r).find? fun x => decide (x.type = t) && decide (x.key = k)).map (·.data)
      = if (t, k) = (r.type, r.key) then some r.data
        else (l.find? fun x => decide (x.type = t) && decide (x.key = k)).map (·.data) := by
  rw [ldrInsert, if_neg h, List.find?_append, List.find?_filter]
  by_cases hkey : (t, k) = (r.type, r.key)
  · obtain ⟨rfl, rfl⟩ := Prod.mk.inj hkey
    rw [if_pos rfl, List.find?_eq_none.mpr (by simp; tauto)]
    simp
  · have hsame (x : LdrRec) : decide ((!(decide (x.type = r.type) && decide (x.key = r.key))) = true
        ∧ (decide (x.type = t) && decide (x.key = k)) = true) = (decide (x.type = t) && decide (x.key = k)) := by
      by_cases hx : x.type = t ∧ x.key = k
      · obtain ⟨rfl, rfl⟩ := hx
        have hother : ¬(x.type = r.type ∧ x.key = r.key) := fun h => hkey (Prod.ext h.1 h.2)
        simpa using not_and_or.mp hother
      · have hno : (decide (x.type = t) && decide (x.key = k)) = false := by simpa using fun h => (not_and.mp hx) h
        simp [hno]
    have hlast : (decide (r.type = t) && decide (r.key = k)) = false := by
      have hother : ¬(r.type = t ∧ r.key = k) := fun h => hkey (Prod.ext h.1.symm h.2.symm)
      simpa using not_and.mp hother
    simp only [hsame, if_neg hkey, List.find?_singleton, hlast]
    simp

/-- What firmware writes is an event of the log for type 6 alone. -/
theorem snapshot_not_entry {d : Dev} {type key n : Nat} {data : LdrData} (h : d.ldrSnapshot type key n = some data) (ht : type ≠ 6) (e : Event) :
    data ≠ .entry e := by
  rintro rfl
  unfold Dev.ldrSnapshot at h
  split at h
  case h_2 => split at h <;> simp at h
  all_goals simp_all [Option.map_eq_some_iff, Dev.safeValues, Dev.remapData]

/-- LARDER_APPEND of a record that is no event appends it, and does no more but on a page's journal. -/
theorem larderAppend_eq {d : Dev} {type key n : Nat} {data : LdrData} (h : d.ldrSnapshot type key n = some data) (ht : type ≠ 6) :
    (d.ldrAppend type key data).quiet (larderAppend type key n d) ∧ (larderAppend type key n d).bare = (d.ldrAppend type key data).bare := by
  unfold larderAppend
  simp only [h]
  split
  · next e => exact absurd rfl (snapshot_not_entry h ht e)
  · split
    · exact ⟨quiet_setPage _ _ _ _ fun h => h, rfl⟩
    · exact ⟨.refl _, rfl⟩

/-- What compaction moves keeps its order and content. -/
theorem ldrPack_content (l : List LdrRec) (sec used seq : Nat) (acc : List (Nat × Nat × LdrRec)) :
    ((ldrPack l sec used seq acc).2.map fun p => (p.2.2.type, p.2.2.key, p.2.2.data))
      = (acc.reverse.map fun p => (p.2.2.type, p.2.2.key, p.2.2.data)) ++ l.map fun r => (r.type, r.key, r.data) := by
  induction l generalizing sec used seq acc with
  | nil => simp [ldrPack]
  | cons r l ih =>
    unfold ldrPack
    dsimp only
    split <;> simp [ih]

/-- Records that are put change the flash and the texts alone. -/
theorem quiet_ldrMove (d : Dev) (l : List LdrRec) : d.quiet (d.ldrMove l) := by
  have hputs (l : List (Nat × Nat × LdrRec)) (area : Nat) (d : Dev) : d.quiet (l.foldl (fun d p => d.ldrPut area p.1 p.2.1 p.2.2) d) :=
    quiet_foldl _ _ (fun d p => quiet_setLarder ..) d
  unfold Dev.ldrMove
  extract_lets old other
  split
  extract_lets d1 d2
  exact (hputs ..).trans (quiet_setLarder ..)

/-- The Larder after its records moved: the other area is in force, one generation on, with the same records. -/
theorem ldr_ldrMove (d : Dev) (l : List LdrRec) : (d.ldrMove l).ldr.active = 1 - d.ldr.active
    ∧ (d.ldrMove l).ldr.generation = d.ldr.generation + 1 ∧ (d.ldrMove l).ldr.compacting = false
    ∧ ((d.ldrMove l).ldr.records.map fun r => (r.type, r.key, r.data)) = l.map fun r => (r.type, r.key, r.data) := by
  refine ⟨rfl, rfl, rfl, ?_⟩
  have hrecords : (d.ldrMove l).ldr.records = (ldrPack l 0 0 d.ldr.seq []).2.map fun p => p.2.2 := rfl
  rw [hrecords, List.map_map]
  exact (ldrPack_content l 0 0 d.ldr.seq []).trans (List.nil_append _)

/-- Settles O24: an append by what it puts, a compaction by what it moves. -/
theorem larderRows : Obligations.LarderRows := by
  unfold Obligations.LarderRows
  intro s hpow hcalm
  refine ⟨fun type key n data hsnap ht hhold hroom hmild => ?_, fun w v hv hhost hidle hopen => ?_, fun hcompact => ?_⟩
  · obtain ⟨hq, hbare⟩ := larderAppend_eq (d := s.dev.mute) hsnap ht
    obtain ⟨e, fill, heq, hquiet, hpages, hseq, hrecords, -, -, hflash⟩ := ldrAppend_room (d := s.dev.mute) type key data hhold hroom
    have hmild' : e.mild .w blkAon 11 := mild_of_severity (by rw [page_of_pages (d := s.dev) hpages]) (by rw [page_of_pages (d := s.dev) hpages]) hmild
    have hfill : (s.dev.mute.ldrAppend type key data).bare = e.bare ∧ Dev.quiet s.dev.mute (s.dev.mute.ldrAppend type key data) := by
      rw [heq]
      split
      · exact ⟨bare_raise .., hquiet.trans (quiet_mildRaise hmild')⟩
      · exact ⟨rfl, hquiet⟩
    refine yields_quiet (f := fun _ d => larderAppend type key n d) rfl hpow hcalm rfl (hfill.2.trans hq) fun d hd _ => ?_
    have hleft := (hd.trans hbare).trans hfill.1
    have hldr : d.ldr = e.ldr := ldr_of_bare hleft
    have hdbg : d.dbg = e.dbg := dbg_of_bare hleft
    have hfind (t k : Nat) : d.ldr.find t k = if (t, k) = (type, key) then some data else s.dev.ldr.find t k := by
      rw [LdrSt.find, hldr, hrecords]
      exact find_insert ht t k
    refine ⟨by rw [hfind, if_pos rfl], by rw [hldr, hseq]; rfl, ?_, fun t k hne => by rw [hfind, if_neg hne]⟩
    rw [hdbg, hflash]
    have hplace : s.dev.mute.ldr.place (ldrCodewords (data.length type key))
        = if s.dev.ldr.used + ldrCodewords (data.length type key) ≤ 1872 then (s.dev.ldr.sector, s.dev.ldr.used)
          else (s.dev.ldr.sector + 1, 0) := rfl
    rw [hplace]
    by_cases hfits : s.dev.ldr.used + ldrCodewords (data.length type key) ≤ 1872
    · simp only [hfits, if_true, decide_true]
      rfl
    · simp only [hfits, if_false, decide_false]
      rfl
  · obtain ⟨x, hx⟩ := ldrCtrl_own
    have hdesc : descOf .ldrCtrl = some x ∧ x.reg = .ldrCtrl := by
      simp only [ownReg, Bool.and_eq_true, decide_eq_true_eq] at hx
      obtain ⟨⟨⟨⟨hdesc, hreg⟩, -⟩, -⟩, -⟩ := hx
      exact ⟨hdesc, hreg⟩
    refine writes_reg rfl hdesc.1 hpow ((writeTo_own _ _ _ hx).trans ?_) (Dev.calm.quiet (d := s.dev.mute) hcalm (quiet_setLarder ..)) rfl
    have hmute : s.dev.mute.ldr = s.dev.ldr := rfl
    have hcompact : s.dev.mute.compactWrite v = (stOk, s.dev.mute.startCompaction) := by
      simp [Dev.compactWrite, hv, hmute, hhost, hidle]
    unfold Dev.hookWrite
    rw [hdesc.2]
    exact hcompact
  · refine yields_quiet (f := fun _ d => larderCompactionComplete d) (e := s.dev.mute.ldrMove s.dev.ldr.records) rfl hpow hcalm
      (if_neg (by rw [show s.dev.mute.ldr.compacting = true from hcompact]; decide)) (quiet_ldrMove ..) fun d hd _ => ?_
    rw [ldr_of_bare hd]
    exact ldr_ldrMove ..

end Sys2Proof.Machine
end

section
/-! PROOFS. Writes and reads of plain registers by every way (R32, R357, R358, R491). -/
namespace Sys2Proof.Machine
open Sys2Proof.Safety

/-! ## Writes of plain registers (R8, R32) -/

/-- An address that names a register is no broadcast one. -/
theorem not_broadcast {addr die i : Nat} {x : RegDesc} (h : placeOf addr = .reg die x i) : addr / 2 ^ 40 ≠ 15 := by
  intro h15
  unfold placeOf at h
  dsimp only at h
  rw [h15] at h
  simp at h

/-- A register that no hook and no page is behind takes the fields of a write. -/
theorem hookWrite_plain {d : Dev} {life : Life} {w : Writer} {die i : Nat} {x : RegDesc} {v : Word} (h : plainReg x = true) :
    d.hookWrite life w die x i v = (stOk, d.plainWrite die x i v) := by
  simp only [plainReg, Bool.and_eq_true, Bool.not_eq_true', decide_eq_true_eq] at h
  obtain ⟨⟨hhook, hpage⟩, hclear⟩ := h
  unfold Dev.hookWrite
  dsimp only
  split
  case h_32 =>
    rw [if_neg hpage]
    simp only [hclear]
  all_goals
    rename_i hreg
    rw [hreg] at hhook
    exact absurd hhook (by decide)

/-- The module with a plain register written. -/
def Dev.setsPlain (d : Dev) (die : Nat) (x : RegDesc) (i : Nat) (v : Word) : Dev := d.setRg die x.reg i (written x i (d.rg die x.reg i) v)

section
variable {d : Dev} {addr die i : Nat} {x : RegDesc} (hplace : placeOf addr = .reg die x i) (hplain : plainReg x = true)
  (hcopy : idleCopy die x = false) (hlock : d.lockHolds die x.reg = false) (hreach : d.unreached (.reg die x i) (farAddr addr) = none)
include hplace hplain hcopy hlock hreach

/-- A write of a plain register that no lock holds and that is reached. -/
theorem writeWord_plain (life : Life) (w : Writer) (v : Word) : d.writeWord life w addr v = (stOk, d.setsPlain die x i v) := by
  have hwrite : d.writeReg life w die x i v = (stOk, d.setsPlain die x i v) := by
    unfold Dev.writeReg
    rw [if_neg (by rw [hcopy]; decide), if_neg (by rw [hlock]; simp), hookWrite_plain hplain]
    rfl
  rw [Dev.writeWord, if_neg (not_broadcast hplace), hplace]
  simp [Dev.writeTo, hreach, Dev.writePlace, hwrite]

theorem writeWords_plain (life : Life) (v : Word) : writeWords life addr [v] d = (stOk, 1, d.setsPlain die x i v) := by
  simp [writeWords, writeWord_plain hplace hplain hcopy hlock hreach]

end

theorem quiet_setsPlain (d : Dev) (die : Nat) (x : RegDesc) (i : Nat) (v : Word) : d.quiet (d.setsPlain die x i v) := quiet_setRg ..

/-- Four bytes of block data are the word that they write. -/
theorem wordsOf_word (v : Word) : wordsOf (leBytes 4 v.toNat) = [v] := by
  have hlt : v.toNat < 2 ^ 32 := v.isLt
  have hword : BitVec.ofNat 32 (rdLE (fun i => (leBytes 4 v.toNat).getD i 0) 0 4) = v := by
    apply BitVec.eq_of_toNat_eq
    simp [leBytes, rdLE]
    omega
  have hone : (leBytes 4 v.toNat).length / 4 = 1 := by simp [leBytes]
  simp only [wordsOf, hone, List.range_one, List.map_cons, List.map_nil, Nat.mul_zero, hword]

theorem bare_setsPlain {d e : Dev} (h : d.bare = e.bare) (die : Nat) (x : RegDesc) (i : Nat) (v : Word) :
    (d.setsPlain die x i v).bare = (e.setsPlain die x i v).bare := by
  have hset := congrArg (fun d : Dev => d.setsPlain die x i v) h
  exact hset

theorem unreached_accepted (d : Dev) (h : Hdr) (p : Place) (far : Bool) : (d.accepted h).unreached p far = d.unreached p far := by
  unfold Dev.accepted
  cases h.sealed <;> rfl

theorem lockHolds_accepted (d : Dev) (h : Hdr) (die : Nat) (r : Rg) : (d.accepted h).lockHolds die r = d.lockHolds die r := by
  unfold Dev.accepted
  cases h.sealed <;> rfl

theorem farAccess_reg {addr die i : Nat} {x : RegDesc} (h : placeOf addr = .reg die x i) (write : Bool) :
    farAccess addr write = farAddr addr := by
  rw [farAccess, decide_eq_false (not_broadcast h), Bool.and_false, Bool.or_false]

/-- A request that writes a plain register and says what it did. -/
theorem answers_setsPlain {c : Instr} {s : State} {h : Hdr} {op die i : Nat} {x : RegDesc} {v : Word} {required fw far : Bool} {body : Body}
    {pl : List Byte} (hc : exec c s = running (fun life d => hoist { code := op, required := required, fw := fw } far h body life d) s)
    (k : Admits s h op required fw far) (hb : body s.fuse.life (s.dev.replyTo op h) (s.dev.accepted h)
      = ((s.dev.accepted h).setsPlain die x i v).finish s.fuse.life (s.dev.replyTo op h) stOk pl) :
    Answers c s h op stOk pl ((s.dev.accepted h).setsPlain die x i v) :=
  answers_of_finish (o := { code := op, required := required, fw := fw }) hc k hb rfl
    ((calm_accepted k).quiet (quiet_setsPlain ..))
    (reaches_of_hst (reaches_accepted _ k.takes) rfl rfl) (by decide)

/-- Settles O30: by every way of writing, the word reaches the register's own fields. -/
theorem plainWrites : Obligations.PlainWrites := by
  unfold Obligations.PlainWrites
  intro s h addr die x i v hplace hplain hcopy hlock hreach
  have hwords : writeWords s.fuse.life addr [v] (s.dev.accepted h) = (stOk, 1, (s.dev.accepted h).setsPlain die x i v) :=
    writeWords_plain hplace hplain hcopy ((lockHolds_accepted ..).trans hlock) ((unreached_accepted ..).trans hreach) ..
  refine ⟨fun w hpow hcalm => ?_, fun k => ?_, fun k halign => ?_, fun hpow hcalm hg hpatch hsec crc ht => ?_⟩
  · have hrow : registerWrite w addr v s.fuse.life s.dev.mute = (s.dev.mute.setsPlain die x i v).emit (.wrote stOk) := by
      rw [registerWrite, writeWord_plain (d := s.dev.mute) hplace hplain hcopy hlock hreach]
    refine yields_quiet (f := registerWrite w addr v) rfl hpow hcalm hrow ((quiet_setsPlain ..).trans (quiet_emit ..)) fun d hd hg => ⟨hd, ?_⟩
    exact hg.2 _ (List.mem_append_right _ (List.mem_singleton_self _))
  · rw [← farAccess_reg hplace true] at k
    exact answers_setsPlain rfl k (by simp [writeRegBody, hwords, stOk, stBusy])
  · rw [← farAccess_reg hplace true] at k
    refine answers_setsPlain rfl k ?_
    rw [writeBlockBody, wordsOf_word, if_neg (by simp [halign, leBytes])]
    simp only [hwords]
    exact refuse_eq _ _ _ (by decide)
  · have hrow : poke s.fuse.life addr v s.dev.mute = (s.dev.mute.setsPlain die x i v).answer stOk [] := by
      rw [poke, hpatch, if_neg (by decide : ¬ false = true)]
      rw [under_mute _ hg, if_neg (by simpa using hsec), writeWord_plain (d := s.dev.mute) hplace hplain hcopy hlock hreach]
    exact yields_answered (f := fun life d => poke life addr v d) rfl hpow hcalm ht hrow (quiet_setsPlain ..) fun d hd _ ho => ⟨hd, ho⟩

/-! ## Reads of registers and of files (R357, R358, R491) -/

/-- A read of a silent register, ordinary or as a peek, shows it and changes nothing. -/
theorem readReg_silent {x : RegDesc} (h : silentReg x = true) (d : Dev) (f : Fuse) (peek : Bool) (die i : Nat) :
    d.readReg f peek die x i = (d.view f die x i, d) := by
  simp only [silentReg, Bool.and_eq_true, Bool.not_eq_true', decide_eq_true_eq] at h
  obtain ⟨⟨⟨⟨hhi, hof⟩, hpeek⟩, hreg⟩, hrc⟩ := h
  have heffect : d.readEffect die x i = d := by
    unfold Dev.readEffect
    dsimp only
    split
    case h_6 => rw [if_neg (by rw [hrc]; decide)]
    case h_5 hr => rw [hr] at hreg; exact absurd hreg (by decide)
    all_goals
      rename_i hr
      rw [hr] at hpeek
      exact absurd hpeek (by decide)
  simp [Dev.readReg, hhi, hof, hpeek, heffect]

theorem readWord_silent {d : Dev} {addr die i : Nat} {x : RegDesc} (hplace : placeOf addr = .reg die x i) (hsilent : silentReg x = true)
    (hreach : d.unreached (.reg die x i) (farAddr addr) = none) (f : Fuse) (peek : Bool) :
    d.readWord f peek addr = (stOk, d.view f die x i, d) := by
  simp [Dev.readWord, hplace, hreach, readReg_silent hsilent]

/-- Settles O29: a silent register is shown as it stands, a closed file line by line. -/
theorem reads : Obligations.Reads := by
  unfold Obligations.Reads
  intro s h
  refine ⟨fun addr die x i hplace hsilent hreach => ?_, ?_⟩
  · have hword := readWord_silent (d := s.dev.accepted h) hplace hsilent ((unreached_accepted ..).trans hreach) s.fuse false
    have hwords : readWords s.fuse addr 1 (s.dev.accepted h) = (stOk, [(s.dev.accepted h).view s.fuse die x i], s.dev.accepted h) := by
      simp [readWords, hword, stOk]
    refine ⟨fun k hfits => ?_, fun k halign hfits => ?_, fun hpow hcalm hg hsec crc ht => ?_⟩
    · rw [← farAccess_reg hplace false] at k
      exact answers_query rfl k (by simp [readRegBody, hfits, hwords, stOk])
    · rw [← farAccess_reg hplace false] at k
      exact answers_query rfl k (by simp [readBlockBody, hfits, halign, hwords, stOk])
    · have hrow : peek s.fuse addr s.dev.mute = s.dev.mute.answer stOk (beBytes 4 (s.dev.mute.view s.fuse die x i).toNat) := by
        rw [peek, under_mute _ hg, if_neg (by simpa using hsec), readWord_silent (d := s.dev.mute) hplace hsilent hreach]
        rfl
      exact kept_answered (f := fun _ d => peek s.fuse addr d) rfl hpow hcalm ht hrow
  · intro id addr len f hid k hfile ha hl hlen hfits hopen hlive hretired hpoison
    have hfind : ((List.range (len / 64)).map fun k => addr / 64 + k).find?
        (fun k => ((s.dev.accepted h).half (fileSide id)).cel.poison (cellarLine (fileSide id) id k)) = none := by
      simp only [List.find?_eq_none, List.mem_map, List.mem_range]
      rintro _ ⟨k, hk, rfl⟩
      simp [hpoison k hk]
    refine answers_query rfl (by simpa [hid] using k) ?_
    simp [readBlockBody, readFileBody, hid, hfile, ha, hl, Nat.not_lt.mpr hlen, hfits, hopen, hlive, hretired, hfind]

end Sys2Proof.Machine
end

section
/-! PROOFS. The life cycle advances: sessions closed, records erased, a step taken or denied (chapter 12). -/
namespace Sys2Proof.Machine
open Sys2Proof.Safety

/-! ## The life cycle advances (R310, R311) -/

theorem sessions_raise (d : Dev) (s : Side) (b i : Nat) : (d.raise s b i).sessions = d.sessions := by
  unfold Dev.raise
  split
  · rfl
  · dsimp only
    split
    · rfl
    · split
      · exact sessions_raiseQuiet ..
      · have hpost (e : BitVec 64) := (sessions_post (d.raiseQuiet s b i) s b e).trans (sessions_raiseQuiet ..)
        split
        · exact hpost _
        · exact hpost _

theorem sessions_ldrAppend (d : Dev) (type key : Nat) (x : LdrData) : (d.ldrAppend type key x).sessions = d.sessions := by
  unfold Dev.ldrAppend
  extract_lets l cw fits sector used r fill now rest b d1 src d2
  split
  · rfl
  · split
    · exact sessions_raise ..
    · split
      · exact sessions_raise ..
      · rfl

/-- Every session is ended (R348). -/
theorem sessions_closeAll (d : Dev) (reason : Nat) : (d.closeAll reason).sessions = [] := by
  have hstep (l : List Session) (e : Dev) : (l.foldl (fun d x => d.closeSession x.id reason true) e).sessions
      = e.sessions.filter fun x => l.all fun y => decide (x.id ≠ y.id) := by
    induction l generalizing e with
    | nil => simp
    | cons y l ih =>
      rw [List.foldl_cons, ih, sessions_closeSession, List.filter_filter]
      refine List.filter_congr fun x _ => ?_
      rw [List.all_cons, Bool.and_comm]
  rw [Dev.closeAll, hstep, List.filter_eq_nil_iff]
  intro x hx hall
  exact of_decide_eq_true (List.all_eq_true.mp hall x hx) rfl

theorem grows_closeAll (d : Dev) (reason : Nat) : d.grows (d.closeAll reason) := by
  have hstep (l : List Session) (e : Dev) (h : d.grows e) : d.grows (l.foldl (fun d x => d.closeSession x.id reason true) e) := by
    induction l generalizing e with
    | nil => exact h
    | cons x l ih => exact ih _ (h.trans (grows_closeSession ..))
  exact hstep _ _ (.refl d)

theorem quiet_closeAll (d : Dev) (reason : Nat) : d.quiet (d.closeAll reason) :=
  quiet_foldl _ _ (fun _ _ => quiet_closeSession ..) d

theorem quiet_ldrErase (d : Dev) (gone : LdrRec → Bool) : d.quiet (d.ldrErase gone) :=
  (((quiet_setLarder ..).trans (quiet_ldrMove ..)).trans (quiet_setLarder ..))

/-- What is erased leaves of the records those that stay, in their order. -/
theorem records_ldrErase (d : Dev) (gone : LdrRec → Bool) : ((d.ldrErase gone).ldr.records.map fun r => (r.type, r.key, r.data))
    = (d.ldr.records.filter fun r => !gone r).map fun r => (r.type, r.key, r.data) :=
  (ldr_ldrMove (d.startCompaction) (d.ldr.records.filter fun r => !gone r)).2.2.2

/-- A record that is left is of a kind that was not to go. -/
theorem mem_ldrErase {d : Dev} {gone : LdrRec → Bool} {r : LdrRec} (h : r ∈ (d.ldrErase gone).ldr.records) :
    ∃ q ∈ d.ldr.records, gone q = false ∧ q.type = r.type ∧ q.key = r.key := by
  have hmem := List.mem_map_of_mem (f := fun r : LdrRec => (r.type, r.key, r.data)) h
  rw [records_ldrErase] at hmem
  obtain ⟨q, hq, heq⟩ := List.mem_map.mp hmem
  obtain ⟨hold, hkept⟩ := List.mem_filter.mp hq
  simp only [Prod.mk.injEq] at heq
  exact ⟨q, hold, by simpa using hkept, heq.1, heq.2.1⟩

/-- An erasure changes the Larder and the flash alone. -/
theorem ldrErase_eq (d : Dev) (gone : LdrRec → Bool) : ∃ l g, d.ldrErase gone = { d with ldr := l, dbg := { d.dbg with flash := g } } := by
  have hputs (ps : List (Nat × Nat × LdrRec)) (area : Nat) (d : Dev) :
      ∃ l g, ps.foldl (fun d p => d.ldrPut area p.1 p.2.1 p.2.2) d = { d with ldr := l, dbg := { d.dbg with flash := g } } := by
    induction ps generalizing d with
    | nil => exact ⟨_, _, rfl⟩
    | cons p ps ih =>
      obtain ⟨l, g, h⟩ := ih (d.ldrPut area p.1 p.2.1 p.2.2)
      exact ⟨l, g, h⟩
  have hmove (d : Dev) (recs : List LdrRec) : ∃ l g, d.ldrMove recs = { d with ldr := l, dbg := { d.dbg with flash := g } } := by
    unfold Dev.ldrMove
    dsimp only
    obtain ⟨l, g, h⟩ := hputs (ldrPack recs 0 0 d.ldr.seq []).2 (1 - d.ldr.active) d
    rw [h]
    exact ⟨_, _, rfl⟩
  obtain ⟨l, g, h⟩ := hmove d.startCompaction (d.ldr.records.filter fun r => !gone r)
  unfold Dev.ldrErase
  dsimp only
  rw [h]
  exact ⟨_, _, rfl⟩

/-- The step of the life cycle changes key material, the Larder and the flash, and no session. -/
structure Dev.Stepped (d e : Dev) : Prop where
  quiet : d.quiet e
  sessions : e.sessions = d.sessions
  linkUp : e.hst.linkUp = d.hst.linkUp
  powered : e.powered = d.powered

theorem Dev.Stepped.refl (d : Dev) : d.Stepped d := ⟨.refl d, rfl, rfl, rfl⟩

theorem Dev.Stepped.trans {d e f : Dev} (h : d.Stepped e) (k : e.Stepped f) : d.Stepped f :=
  ⟨h.quiet.trans k.quiet, k.sessions.trans h.sessions, k.linkUp.trans h.linkUp, k.powered.trans h.powered⟩

theorem stepped_setSec (d : Dev) (x : SecSt) : d.Stepped { d with sec := x } := ⟨⟨id, rfl, id, fun _ => id⟩, rfl, rfl, rfl⟩

theorem stepped_draw (d : Dev) : d.Stepped d.draw := ⟨⟨id, rfl, id, fun _ => id⟩, rfl, rfl, rfl⟩

theorem stepped_ldrErase (d : Dev) (gone : LdrRec → Bool) : d.Stepped (d.ldrErase gone) := by
  have hquiet := quiet_ldrErase d gone
  obtain ⟨l, g, h⟩ := ldrErase_eq d gone
  rw [h] at hquiet ⊢
  exact ⟨hquiet, rfl, rfl, rfl⟩

theorem sec_ldrErase (d : Dev) (gone : LdrRec → Bool) : (d.ldrErase gone).sec = d.sec := by
  obtain ⟨l, g, h⟩ := ldrErase_eq d gone
  rw [h]

theorem stepped_ldrAppend {d : Dev} (type key : Nat) (x : LdrData) (h : d.meek) : d.Stepped (d.ldrAppend type key x) := by
  have hsans := sans_ldrAppend d type key x
  refine ⟨(quiet_ldrAppend type key x h).1, sessions_ldrAppend .., ?_, ?_⟩
  · have hst := congrArg (fun d : Dev => d.hst.linkUp) hsans
    exact hst
  · have hpow := congrArg Dev.powered hsans
    exact hpow

theorem sec_ldrAppend (d : Dev) (type key : Nat) (x : LdrData) : (d.ldrAppend type key x).sec = d.sec := by
  have hsec := congrArg Dev.sec (sans_ldrAppend d type key x)
  exact hsec

/-- Every slot is zeroised; what else a step changes is as it was (R310). -/
theorem stepped_zeroiseAll (d : Dev) (regions : Bool) : d.Stepped (d.zeroiseAll regions) := (stepped_setSec ..).trans (stepped_ldrErase ..)

theorem sec_zeroiseAll (d : Dev) (regions : Bool) : (d.zeroiseAll regions).sec = { d.sec with slots := [] } := sec_ldrErase ..

theorem meek_zeroiseAll {d : Dev} (regions : Bool) (h : d.meek) : (d.zeroiseAll regions).meek := by
  obtain ⟨l, g, heq⟩ := ldrErase_eq { d with sec := { d.sec with slots := [] } }
    fun r => (decide (r.type = 2) && decide (r.key ≠ 1024)) || regions && (decide (r.type = 3) || decide (r.type = 4))
  rw [Dev.zeroiseAll, heq]
  exact h

/-- The root that stands in place of every slot (R310). -/
theorem stepped_installSlot {d : Dev} (n : Nat) (k : KeySlot) (h : d.meek) : d.Stepped (d.installSlot n k) := by
  unfold Dev.installSlot
  dsimp only
  split
  · exact (stepped_setSec ..).trans (stepped_ldrAppend (d := d.setSlot n k) _ _ _ h)
  · exact stepped_setSec ..

theorem sec_installSlot (d : Dev) (n : Nat) (k : KeySlot) : (d.installSlot n k).sec = (d.setSlot n k).sec := by
  unfold Dev.installSlot
  dsimp only
  split
  · exact sec_ldrAppend ..
  · rfl

theorem quiet_newNonce (d : Dev) : d.quiet d.newNonce := ⟨id, rfl, id, fun _ => id⟩

/-- What completion does: the Trapdoor's grant ends, the request is answered, and every session is closed (R310, R485). -/
def Dev.completes (e : Dev) (l : Life) (r : Reply) : Dev :=
  ((({ e with dbg := { e.dbg with scope := none } } : Dev).finish l r stOk []).closeAll 5).newNonce

section
variable {s : State} {h : Hdr} {target key : Nat} {auth : List Byte}

/-- A step of the life cycle that is taken. -/
theorem lifecycle_advances {l : Life} {e : Dev} {p : Dev → Prop} (hpow : s.dev.powered = true) (hcalm : s.dev.calm) (htakes : s.dev.takes h)
    (henter : Dev.enter s.dev.mute { code := 0xF0 } target false false h s.fuse.life = .ok (s.dev.accepted h))
    (hadv : (s.dev.accepted h).advance s.fuse.life target key ((s.dev.accepted h).authorised s.fuse auth) = .ok (l, e))
    (he : (s.dev.accepted h).Stepped e)
    (hp : ∀ t : Dev, { t.sec with nonce := 0 } = { e.sec with nonce := 0 } → t.ldr = e.ldr → p t) :
    ∃ t, exec (.lifecycleAdvance h target key auth) s = .next t ∧ t.pending = s.pending ∧ t.fuse = { s.fuse with life := l }
      ∧ t.dev.hst.sessions = [] ∧ t.dev.tells (s.dev.replyTo 0xF0 h) stOk [] ∧ p t.dev := by
  let r := s.dev.replyTo 0xF0 h
  have hrow : exec (.lifecycleAdvance h target key auth) s
      = .next { s with fuse := { s.fuse with life := l }, dev := (e.completes l r).settle l } := by
    show lifecycleRow h target key auth s = _
    unfold lifecycleRow
    dsimp only
    rw [if_neg (by simp [hpow]), show ({ s.dev with out := [] } : Dev) = s.dev.mute from rfl, henter]
    simp only [lifecycleBody, hadv, replyTo_accepted _ htakes]
    rfl
  have hreach : ({ e with dbg := { e.dbg with scope := none } } : Dev).reaches r :=
    reaches_of_hst (reaches_accepted _ htakes) he.linkUp he.sessions
  let e0 : Dev := (({ e with dbg := { e.dbg with scope := none } } : Dev).finish l r stOk []).closeAll 5
  have hbare : e0.bare = ({ e with dbg := { e.dbg with scope := none } } : Dev).bare :=
    (bare_closeAll ..).trans (bare_finish _ _ _ _ _ (by decide))
  have hquiet : e.quiet (e.completes l r) :=
    ((quiet_setDbg ..).trans (quiet_finishWith _ _ _ _ _ (by decide))).trans ((quiet_closeAll ..).trans (quiet_newNonce _))
  have hcalm' : (e.completes l r).calm := ((hcalm.quiet (quiet_accepted ..)).quiet he.quiet).quiet hquiet
  have hpow' : (e.completes l r).powered = true := by
    exact (powered_of_bare hbare).trans <| (he.powered.trans (powered_of_bare (accepted_bare ..))).trans hpow
  have htells : (e.completes l r).tells r stOk [] := tells_grows (grows_closeAll ..) (tells_finish _ _ _ hreach (by decide))
  have hend := bare_settle (e.completes l r) l hcalm'
  refine ⟨_, hrow, rfl, rfl, ?_, tells_grows (grows_settle ..) htells, hp _ ?_ ?_⟩
  · refine List.eq_nil_iff_forall_not_mem.mpr fun x hx => ?_
    have hin := (mem_settle l hpow' hcalm').1 x hx
    rw [show (e.completes l r).sessions = [] from sessions_closeAll ..] at hin
    exact List.not_mem_nil hin
  · have hsec := congrArg (fun d : Dev => ({ d.sec with nonce := 0 } : SecSt)) hend
    have hsame := congrArg (fun d : Dev => ({ d.sec with nonce := 0 } : SecSt)) hbare
    exact hsec.trans hsame
  · have hldr := congrArg Dev.ldr hbare
    exact (ldr_of_bare hend).trans hldr

/-- A step of the life cycle that is denied: its attempt uses the nonce up (R311). -/
theorem lifecycle_denied (k : Admits s h 0xF0 true true false)
    (hadv : (s.dev.accepted h).advance s.fuse.life target key ((s.dev.accepted h).authorised s.fuse auth) = .error stDenied) :
    Yields (.lifecycleAdvance h target key auth) s fun e =>
      e.tells (s.dev.replyTo 0xF0 h) stDenied [] ∧ { e.sec with nonce := 0 } = { s.dev.sec with nonce := 0 } := by
  let d := s.dev.accepted h
  let r := s.dev.replyTo 0xF0 h
  let e := (d.finish s.fuse.life r stDenied []).newNonce
  have hrow : exec (.lifecycleAdvance h target key auth) s = .next { s with dev := e.settle s.fuse.life } := by
    show lifecycleRow h target key auth s = _
    unfold lifecycleRow
    dsimp only
    rw [if_neg (by simp [k.powered]), enter_of_admits (o := { code := 0xF0 }) target k]
    simp only [lifecycleBody, hadv, replyTo_accepted _ k.takes]
    rfl
  have hcalm : e.calm := (calm_accepted k).quiet ((quiet_finishWith _ _ _ _ _ (by decide)).trans (quiet_newNonce _))
  have htells : e.tells r stDenied [] := tells_finish _ _ _ (reaches_accepted _ k.takes) (by decide)
  have hbare : (d.finish s.fuse.life r stDenied []).bare = s.dev.bare := (bare_finish _ _ _ _ _ (by decide)).trans (accepted_bare ..)
  refine ⟨_, hrow, rfl, rfl, tells_grows (grows_settle ..) htells, ?_⟩
  have hsec := congrArg (fun d : Dev => ({ d.sec with nonce := 0 } : SecSt)) (bare_settle e s.fuse.life hcalm)
  have hsame := congrArg (fun d : Dev => ({ d.sec with nonce := 0 } : SecSt)) hbare
  exact hsec.trans hsame

end

theorem pages_accepted (d : Dev) (h : Hdr) : (d.accepted h).pages = d.pages := by
  unfold Dev.accepted
  cases h.sealed <;> rfl

/-- Settles O32: each step by its actions, or by its refusal. -/
theorem lifeCycleSteps : Obligations.LifeCycleSteps := by
  unfold Obligations.LifeCycleSteps
  intro s h key auth
  dsimp only
  intro hw he
  let d := s.dev.accepted h
  have hlocked : (d.west.locked || d.east.locked) = false := by
    have hside (x : Side) : (d.half x).locked = (s.dev.half x).locked := congrArg Half.locked (half_accepted ..)
    rw [show d.west.locked = false from (hside .w).trans hw, show d.east.locked = false from (hside .e).trans he]
    rfl
  have hsec : d.sec = s.dev.sec := by
    have hsame := congrArg Dev.sec (accepted_bare s.dev h)
    exact hsame
  refine ⟨fun hlife hpow hcalm htakes hsession hsealed hnone hstate hfw => ?_, fun k hmeek => ⟨fun hlife => ?_, fun hlife => ?_, fun hlife => ?_⟩⟩
  · refine lifecycle_advances (e := ({ d with sec := { d.sec with idKey := some (Config.random d.free) } } : Dev).draw)
      (p := fun e => e.sec.idKey.isSome = true ∧ e.sec.slots = d.sec.slots) hpow hcalm htakes ?_ ?_
      ((stepped_setSec ..).trans (stepped_draw _)) fun t ht _ => ?_
    · refine enter_of_takes (d := s.dev.mute) _ _ _ _ _ htakes ?_ (fun _ hb => absurd hlife hb) hstate hfw rfl
      simp [hlife, lifeRefuses, hsession, hsealed, Life.code]
    · simp [Dev.advance, hlife, hlocked, Life.code, d]
    · have hid := congrArg SecSt.idKey ht
      have hslots := congrArg SecSt.slots ht
      exact ⟨by rw [show t.sec.idKey = _ from hid]; rfl, hslots⟩
  · split
    · next hcert =>
      have hkept : d.sec.cert.isNone = false := by rw [hsec]; cases hc : s.dev.sec.cert <;> simp_all
      refine lifecycle_advances (e := (d.zeroiseAll false).installSlot 0 { kind := .root, key := key })
        (p := fun e => e.sec.cert = s.dev.sec.cert ∧ ∀ k, e.slot k = if k = 0 then { kind := .root, key := key } else {})
        k.powered k.calm k.takes (enter_of_admits (o := { code := 0xF0 }) _ k) ?_ ?_ fun t ht _ => ?_
      · simp [Dev.advance, hlife, hlocked, Life.code, d, hkept]
      · exact (stepped_zeroiseAll ..).trans (stepped_installSlot _ _ (meek_zeroiseAll false (meek_of_pages (pages_accepted ..) hmeek)))
      · rw [sec_installSlot, Dev.setSlot, sec_zeroiseAll, hsec] at ht
        have hcertKept := congrArg SecSt.cert ht
        have hslots := congrArg SecSt.slots ht
        refine ⟨hcertKept, fun n => ?_⟩
        rw [Dev.slot, show t.sec.slots = _ from hslots]
        by_cases hn : n = 0
        · rw [hn, tget_tset_same, if_pos rfl]
        · rw [tget_tset_ne _ _ _ hn, if_neg hn, tget_nil]
    · next hcert =>
      have hgone : d.sec.cert.isNone = true := by rw [hsec]; cases hc : s.dev.sec.cert <;> simp_all
      exact lifecycle_denied k (by simp [Dev.advance, hlife, hlocked, Life.code, d, hgone])
  · split
    · next hauth =>
      refine lifecycle_advances (e := d.zeroiseAll true) (p := fun e => e.sec.slots = [] ∧ e.sec.idKey = s.dev.sec.idKey
          ∧ ∀ r ∈ e.ldr.records, r.type ≠ 3 ∧ r.type ≠ 4 ∧ (r.type = 2 → r.key = 1024))
        k.powered k.calm k.takes (enter_of_admits (o := { code := 0xF0 }) _ k) ?_ (stepped_zeroiseAll ..) fun t ht hl => ?_
      · simp [Dev.advance, hlife, hlocked, Life.code, d, hauth]
      · rw [sec_zeroiseAll, hsec] at ht
        have hid := congrArg SecSt.idKey ht
        have hslots := congrArg SecSt.slots ht
        refine ⟨hslots, hid, fun r hr => ?_⟩
        rw [hl] at hr
        obtain ⟨q, -, hq, htype, hkey⟩ := mem_ldrErase hr
        rw [← htype, ← hkey]
        simp at hq
        exact ⟨hq.2.1, hq.2.2, hq.1⟩
    · next hauth =>
      exact lifecycle_denied k (by simp [Dev.advance, hlife, hlocked, Life.code, d, hauth])
  · split
    · next hauth =>
      refine lifecycle_advances (e := Dev.ldrErase { d with sec := { d.sec with idKey := none, cert := none } } fun r =>
          decide (r.type = 2) && decide (r.key = 1024))
        (p := fun e => e.sec.idKey = none ∧ e.sec.cert = none ∧ ∀ r ∈ e.ldr.records, r.type = 2 → r.key ≠ 1024)
        k.powered k.calm k.takes (enter_of_admits (o := { code := 0xF0 }) _ k) ?_ ((stepped_setSec ..).trans (stepped_ldrErase ..)) fun t ht hl => ?_
      · simp [Dev.advance, hlife, hlocked, Life.code, d, hauth]
      · rw [sec_ldrErase] at ht
        have hid := congrArg SecSt.idKey ht
        have hcert := congrArg SecSt.cert ht
        refine ⟨hid, hcert, fun r hr => ?_⟩
        rw [hl] at hr
        obtain ⟨q, -, hq, htype, hkey⟩ := mem_ldrErase hr
        rw [← htype, ← hkey]
        simpa using hq
    · next hauth =>
      exact lifecycle_denied k (by simp [Dev.advance, hlife, hlocked, Life.code, d, hauth])

end Sys2Proof.Machine
end

section
/-! PROOFS. Modes, sweeps asked for, calibration tables set and journaled (chapters 1, 7, 16). -/
namespace Sys2Proof.Machine
open Sys2Proof.Safety

/-! ## Commands on units whose shadows agree, and requests that name halves -/

theorem touching_clear {units : List Unit34} {d : Dev} (h : ∀ u ∈ units, d.diverges u = false) (life : Life) (r : Reply) (body : Body) :
    touching units body life r d = body life r d := by
  have hnone : (units.filter fun u => d.reconciles [(unitSource u).1]).any d.diverges = false := by
    simp only [List.any_eq_false]
    intro u hu
    simp [h u (List.mem_of_mem_filter hu)]
  unfold touching
  dsimp only
  rw [hnone]
  rfl

/-- HALVES names one half or both. -/
theorem named_cases {v : Nat} (hlow : 1 ≤ v) (hhigh : v ≤ 3) : namedHalves v = [.w] ∨ namedHalves v = [.e] ∨ namedHalves v = [.w, .e] := by
  interval_cases v
  · exact .inl rfl
  · exact .inr (.inl rfl)
  · exact .inr (.inr rfl)

/-! ## MODE_SET (R37, R425) -/

theorem diverges_map {unit : Side → Unit34} {l : List Side} {d : Dev} (h : ∀ s ∈ l, d.diverges (unit s) = false) :
    ∀ u ∈ l.map unit, d.diverges u = false := by
  intro u hu
  obtain ⟨s, hs, rfl⟩ := List.mem_map.mp hu
  exact h s hs

/-- A half's modes. -/
theorem quiet_setMode (l : List Side) (f mode : Nat) (d : Dev) : d.quiet (l.foldl (fun d s => d.mod s fun h => h.setMode f mode) d) :=
  quiet_foldl _ _ (fun _ _ => quiet_mod rfl rfl fun _ h => h) d

theorem hst_setMode (l : List Side) (f mode : Nat) (d : Dev) : (l.foldl (fun d s => d.mod s fun h => h.setMode f mode) d).hst = d.hst := by
  induction l generalizing d with
  | nil => rfl
  | cons s l ih => exact (ih _).trans (hst_mod ..)

theorem reaches_event {d : Dev} {r : Reply} (h : d.reaches r) (code src arg : Nat) : (d.event code src arg).reaches r := by
  refine reaches_of_hst h ?_ ?_ <;> simp only [Dev.event]

/-- A MODE_SET that nothing refuses: the mode is set, told and answered. -/
theorem yields_modeSet {s : State} {h : Hdr} {f halves mode : Nat} {e : Dev} {p : Dev → Prop}
    (k : Admits s h 0x80 true true (decide (f < 8) && farHalves halves))
    (hdiv : f < 8 → ∀ side ∈ namedHalves halves, (s.dev.accepted h).diverges (.mode side) = false)
    (hb : modeSetBody f halves mode s.fuse.life (s.dev.replyTo 0x80 h) (s.dev.accepted h)
      = (e.event 0xA (evSrc .w blkTsk) (f * 256 + (if f < 8 then halves else 3) * 16 + mode)).finish s.fuse.life (s.dev.replyTo 0x80 h) stOk [])
    (hq : (s.dev.accepted h).quiet e) (hst : e.hst = (s.dev.accepted h).hst)
    (hp : ∀ t, t.bare = e.bare → t.tells (s.dev.replyTo 0x80 h) stOk [] → p t) : Yields (.modeSet h f halves mode) s p := by
  refine yields_finishWith (o := { code := 0x80 }) rfl k ((touching_clear ?_ ..).trans hb) (((calm_accepted k).quiet hq).quiet (quiet_event ..))
    (reaches_event (reaches_of_hst (reaches_accepted _ k.takes) (by rw [hst]) (by rw [hst])) ..) (by decide)
    fun t ht htells => hp t (ht.trans (bare_event ..)) htells
  split
  · next hf => exact diverges_map (hdiv hf)
  · exact fun u hu => absurd hu List.not_mem_nil

section
variable {d : Dev} {f halves mode : Nat} (life : Life) (r : Reply) (hlow : 1 ≤ halves) (hhigh : halves ≤ 3) (hm : mode ≤ 1)
  (hidle : ∀ side ∈ namedHalves halves, d.modeIdle f side = true) (hdown : Side.e ∈ namedHalves halves → d.stwDown = false)
include hlow hhigh hm hidle hdown

/-- A function of halves. -/
theorem modeSetBody_half (hf : f < 8) (hquar : ∀ side ∈ namedHalves halves, f = 5 → mode = 0 → (d.half side).fab.quarantined = false) :
    let x := (namedHalves halves).foldl (fun d side => d.mod side fun h => h.setMode f mode) d
    modeSetBody f halves mode life r d = ((if f = 1 then (x.staleAll .w).staleAll .e else x).event 0xA (evSrc .w blkTsk)
      (f * 256 + (if f < 8 then halves else 3) * 16 + mode)).finish life r stOk [] := by
  dsimp only
  unfold modeSetBody
  have hany : ((namedHalves halves).any fun s => !d.modeIdle f s) = false := by
    simp only [List.any_eq_false]
    intro side hs
    simp [hidle side hs]
  have hreach : (decide (f < 8) && (namedHalves halves).contains .e && d.stwDown) = false := by
    cases hc : (namedHalves halves).contains Side.e with
    | false => simp
    | true => simp [hdown (List.contains_iff_mem.mp hc)]
  have hfree : (decide (f = 5) && decide (mode = 0) && (namedHalves halves).any fun s => (d.half s).fab.quarantined) = false := by
    by_cases h5 : f = 5
    · by_cases h0 : mode = 0
      · have : ((namedHalves halves).any fun s => (d.half s).fab.quarantined) = false := by
          simp only [List.any_eq_false]
          intro side hs
          simp [hquar side hs h5 h0]
        simp [this]
      · simp [h0]
    · simp [h5]
  rw [if_neg (by simp [halvesOk, hlow, hhigh]; omega)]
  simp only [if_pos hf, hany, hreach, hfree, Bool.false_eq_true, if_false]
  interval_cases f <;> rfl

end

theorem farModule {f halves : Nat} (h : ¬ f < 8) : (decide (f < 8) && farHalves halves) = false := by simp [h]

theorem farHalf {f halves : Nat} (h : f < 8) : (decide (f < 8) && farHalves halves) = farHalves halves := by simp [h]

/-- No channel of a half that runs no burst is anchored any longer (R202). -/
theorem staleAll_idle {d : Dev} {s : Side} (h : (d.half s).face.bursting = false) :
    d.staleAll s = d.mod s fun h => { h with cal := { h.cal with anchored := 0 } } := by
  rw [Dev.staleAll, Dev.recheckCal, half_mod_same, h]
  rfl

/-- What the mode of calibration leaves of a half. -/
theorem half_setMode (l : List Side) (f mode : Nat) (d : Dev) (side : Side) :
    (l.foldl (fun d s => d.mod s fun h => h.setMode f mode) d).half side
      = if side ∈ l then (d.half side).setMode f mode else d.half side := by
  have htwice (h : Half) : (h.setMode f mode).setMode f mode = h.setMode f mode := by
    unfold Half.setMode bitSet bitClear
    split <;> simp [BitVec.or_assoc, BitVec.and_assoc]
  induction l generalizing d with
  | nil => rfl
  | cons s l ih =>
    rw [List.foldl_cons, ih]
    by_cases hs : side = s
    · subst hs
      rw [half_mod_same, htwice, ite_self, if_pos (List.mem_cons_self ..)]
    · rw [half_mod_ne _ _ hs]
      simp [hs]

/-! ## CAL_RUN (R201, R479) -/

theorem quiet_abandon (d : Dev) (s : Side) : d.quiet (d.abandon s) := ⟨id, rfl, id, fun _ => id⟩

theorem half_abandon (l : List Side) (d : Dev) (s : Side) : (l.foldl Dev.abandon d).half s = d.half s := by
  induction l generalizing d with
  | nil => rfl
  | cons x l ih => exact (ih _).trans (by cases s <;> rfl)

theorem hst_abandon (l : List Side) (d : Dev) : (l.foldl Dev.abandon d).hst = d.hst := by
  induction l generalizing d with
  | nil => rfl
  | cons x l ih => exact ih _

/-! ## CAL_TABLE_SET and the journal (R192 to R194) -/

/-- Quiet but for whether one half has just ended. -/
structure Dev.quietBut (s : Side) (d e : Dev) : Prop where
  wanted : e.safeWanted = true → d.safeWanted = true
  asserted : e.safe.asserted = d.safe.asserted
  cut : e.pathCut = true → d.pathCut = true
  other : ∀ s', s' ≠ s → e.justEnded s' = true → d.justEnded s' = true

theorem quietBut_of_quiet {s : Side} {d e : Dev} (h : d.quiet e) : d.quietBut s e :=
  ⟨h.1, h.2.1, h.2.2.1, fun s' _ => h.2.2.2 s'⟩

theorem Dev.quietBut.trans {s : Side} {d e f : Dev} (h : d.quietBut s e) (k : e.quietBut s f) : d.quietBut s f :=
  ⟨fun x => h.wanted (k.wanted x), k.asserted.trans h.asserted, fun x => h.cut (k.cut x), fun s' hs x => h.other s' hs (k.other s' hs x)⟩

theorem Dev.quietBut.quiet {s : Side} {d e : Dev} (h : d.quietBut s e) (hend : e.justEnded s = false) : d.quiet e := by
  refine ⟨h.wanted, h.asserted, h.cut, fun s' hs => ?_⟩
  by_cases k : s' = s
  · rw [k, hend] at hs
    exact absurd hs Bool.false_ne_true
  · exact h.other s' k hs

/-- Whether a half's tables have changed since the last journal. -/
def Half.setChanged (h : Half) (b : Bool) : Half := { h with cal := { h.cal with changed := b } }

theorem quietBut_setChanged (d : Dev) (s : Side) (b : Bool) : d.quietBut s (d.mod s fun h => h.setChanged b) := by
  refine ⟨fun h => ?_, ?_, fun h => ?_, fun s' hs h => ?_⟩
  · cases s <;> exact h
  · cases s <;> rfl
  · cases s <;> exact h
  · rw [justEnded_eq, half_mod_ne _ _ hs, hst_mod] at h
    exact h

theorem not_ended_setChanged (h : Half) (told : FaceState) : (h.setChanged false).ended told = false := by simp [Half.ended, Half.setChanged]

/-- The journal of changed tables leaves the module calm. -/
theorem quiet_journalCal {d : Dev} (s : Side) (h : d.meek) (hc : (d.half s).cal.changed = true) :
    d.quietBut s (d.journalCal s) ∧ (d.journalCal s).justEnded s = false := by
  unfold Dev.journalCal
  extract_lets c part d1
  rw [if_neg (by simp [c, hc])]
  obtain ⟨q1, m1⟩ := quiet_ldrAppend 1 (2 * s.code) (part 0) h
  obtain ⟨q2, m2⟩ := quiet_ldrAppend 1 (2 * s.code + 1) (part 128) m1
  refine ⟨(quietBut_of_quiet (q1.trans q2)).trans (quietBut_setChanged d1 s false), ?_⟩
  rw [justEnded_eq, half_mod_same]
  exact not_ended_setChanged ..

/-- What the journal leaves of the halves: all but whether tables have changed, and their task units. -/
theorem sans_journalCal (d : Dev) (s : Side) : (d.journalCal s).sans = d.sans := by
  have hchanged (e : Dev) : (e.mod s fun h => h.setChanged false).sans = e.sans := by cases s <;> rfl
  unfold Dev.journalCal
  dsimp only
  split
  · rfl
  · exact (hchanged _).trans ((sans_ldrAppend ..).trans (sans_ldrAppend ..))

theorem blocks_of_sans {d e : Dev} (h : d.sans = e.sans) (s : Side) :
    (d.half s).cal.blocks = (e.half s).cal.blocks ∧ (d.half s).files = (e.half s).files := by
  have hblocks := congrArg (fun d : Dev => ((d.half s).cal.blocks, (d.half s).files)) h
  cases s <;> exact ⟨congrArg Prod.fst hblocks, congrArg Prod.snd hblocks⟩

/-- The journal keeps whom the front end can answer. -/
theorem reaches_journalCal {d : Dev} {r : Reply} (h : d.reaches r) (s : Side) (hm : d.meek) : (d.journalCal s).reaches r := by
  unfold Dev.journalCal
  extract_lets c part d1
  split
  · exact h
  · have h1 := stepped_ldrAppend 1 (2 * s.code) (part 0) hm
    have h2 := stepped_ldrAppend 1 (2 * s.code + 1) (part 128) (quiet_ldrAppend 1 (2 * s.code) (part 0) hm).2
    have h12 := h1.trans h2
    exact reaches_of_hst h (by rw [hst_mod]; exact h12.linkUp) (by rw [hst_mod]; exact h12.sessions)

/-- A channel's block, as an image writes it, with the marks of its state (R193, R194). -/
def Half.writeChannel (h : Half) (img : List Byte) (k : Nat) : Half :=
  let rd (i : Nat) : Byte := img.getD i 0
  let first := rdLE rd 6 2
  let parts := rdLE rd 10 2
  let b := (tget {} h.cal.blocks (first + k)).write (fun i => rd (16 + 256 * k + i)) (decide (parts % 2 = 1)) (decide (2 ≤ parts)) h.cal.phi
  { h with cal := { h.cal with
      blocks := tset {} h.cal.blocks (first + k) b
      anchored := if parts % 2 = 1 then bitSet h.cal.anchored (first + k) else h.cal.anchored
      drifted := if parts % 2 = 1 then bitClear h.cal.drifted (first + k) else h.cal.drifted
      aged := if parts % 2 = 1 then bitClear h.cal.aged (first + k) else h.cal.aged } }

/-- A half with the first n channels of an image written. -/
def Half.writeImage (h : Half) (img : List Byte) (n : Nat) : Half := (List.range n).foldl (fun h k => h.writeChannel img k) h

theorem writeImage_succ (h : Half) (img : List Byte) (n : Nat) : h.writeImage img (n + 1) = (h.writeImage img n).writeChannel img n := by
  rw [Half.writeImage, List.range_succ, List.foldl_append]
  rfl

theorem writeImage_keeps (h : Half) (img : List Byte) (n : Nat) :
    (h.writeImage img n).stw = h.stw ∧ (h.writeImage img n).tsk = h.tsk ∧ (h.writeImage img n).files = h.files
      ∧ (h.writeImage img n).cal.phi = h.cal.phi := by
  induction n with
  | zero => exact ⟨rfl, rfl, rfl, rfl⟩
  | succ n ih =>
    rw [writeImage_succ]
    exact ih

/-- Channels below the n-th of an image are written, the others as they were. -/
theorem blocks_writeImage (h : Half) (img : List Byte) (n : Nat) :
    let first := rdLE (fun i => img.getD i 0) 6 2
    let parts := rdLE (fun i => img.getD i 0) 10 2
    (∀ k < n, tget {} (h.writeImage img n).cal.blocks (first + k) = (tget {} h.cal.blocks (first + k)).write
        (fun i => img.getD (16 + 256 * k + i) 0) (decide (parts % 2 = 1)) (decide (2 ≤ parts)) h.cal.phi)
    ∧ ∀ c, c < first ∨ first + n ≤ c → tget {} (h.writeImage img n).cal.blocks c = tget {} h.cal.blocks c := by
  intro first parts
  induction n with
  | zero => exact ⟨fun k hk => absurd hk (Nat.not_lt_zero k), fun _ _ => rfl⟩
  | succ n ih =>
    obtain ⟨hin, hout⟩ := ih
    obtain ⟨-, -, -, hphi⟩ := writeImage_keeps h img n
    rw [writeImage_succ]
    have hblocks : ((h.writeImage img n).writeChannel img n).cal.blocks = tset {} (h.writeImage img n).cal.blocks (first + n)
        ((tget {} (h.writeImage img n).cal.blocks (first + n)).write (fun i => img.getD (16 + 256 * n + i) 0) (decide (parts % 2 = 1))
          (decide (2 ≤ parts)) (h.writeImage img n).cal.phi) := rfl
    rw [hblocks, hphi]
    refine ⟨fun k hk => ?_, fun c hc => ?_⟩
    · by_cases hkn : k = n
      · subst hkn
        rw [tget_tset_same, hout _ (.inr (Nat.le_refl _))]
      · rw [tget_tset_ne _ _ _ (by omega), hin k (by omega)]
    · rw [tget_tset_ne _ _ _ (by omega), hout c (by omega)]

/-- A CAL_TABLE_SET that nothing refuses. -/
theorem tableSet_eq {d : Dev} {img : List Byte} (hl : (d.half (tableSide img)).locked = false)
    (hm : rdLE (fun i => img.getD i 0) 10 2 % 2 = 1 → (d.half (tableSide img)).assisted 1 = true)
    (hcheck : (d.half (tableSide img)).tableCheck img = none) :
    d.tableSet img = (stOk, d.mod (tableSide img) fun h => (h.writeImage img (rdLE (fun i => img.getD i 0) 8 2)).setChanged false) := by
  have hfold (n : Nat) : (List.range n).foldl (fun d k => d.mod (tableSide img) fun h => h.writeChannel img k) d
      = d.mod (tableSide img) fun h => h.writeImage img n := by
    induction n with
    | zero => exact (mod_id ..).symm
    | succ n ih =>
      rw [List.range_succ, List.foldl_append, ih]
      simp only [List.foldl_cons, List.foldl_nil, mod_mod, writeImage_succ]
  have hgo : ((d.half (tableSide img)).locked || (decide (rdLE (fun i => img.getD i 0) 10 2 % 2 = 1) && !(d.half (tableSide img)).assisted 1)) = false := by
    by_cases hp : rdLE (fun i => img.getD i 0) 10 2 % 2 = 1
    · rw [hl, hm hp, Bool.not_true, Bool.and_false, Bool.or_false]
    · rw [hl, decide_eq_false hp, Bool.false_and, Bool.or_false]
  unfold Dev.tableSet
  dsimp only
  rw [hgo, if_neg Bool.false_ne_true]
  simp only [hcheck]
  have hdone := congrArg (fun e : Dev => (stOk, e.mod (tableSide img) fun h => h.setChanged false))
    (hfold (rdLE (fun i => img.getD i 0) 8 2))
  simp only [mod_mod] at hdone
  exact hdone

/-- An append far from the end of the active area raises nothing (R306). -/
theorem ldrAppend_low {d : Dev} (type key : Nat) (data : LdrData) (hhold : d.ldr.hold = false) (hlow : d.ldr.sector < 359) :
    ∃ q, d.quiet (d.ldrAppend type key data) ∧ (d.ldrAppend type key data).ldr.hold = false
      ∧ (d.ldrAppend type key data).ldr.sector ≤ d.ldr.sector + 1
      ∧ (d.ldrAppend type key data).ldr.records = ldrInsert d.ldr.records { seq := q, type := type, key := key, data := data } := by
  unfold Dev.ldrAppend
  extract_lets l cw fits sector used r fill now rest b d1 l2 d2
  have hsector : sector ≤ d.ldr.sector + 1 := by
    simp only [sector]
    split
    · exact Nat.le_succ _
    · exact Nat.le_refl _
  have hfill : (fill && l.hostMode) = false := by
    rw [show fill = false by simp only [fill]; rw [decide_eq_false (by omega : ¬ 360 ≤ sector), Bool.and_false, Bool.false_and], Bool.false_and]
  rw [if_neg (by rw [hhold]; decide), if_neg (by omega), hfill]
  exact ⟨_, quiet_setLarder .., hhold, hsector, rfl⟩

theorem hold_mod (d : Dev) (s : Side) (f : Half → Half) : (d.mod s f).ldr = d.ldr := by cases s <;> rfl

/-- The part of a table that one record of a half's pair holds (R192). -/
def CalSt.part (c : CalSt) (low : Nat) : Tbl CalBlock := c.blocks.filter fun kv => decide (low ≤ kv.1) && decide (kv.1 < low + 128)

/-- The two records of a half hold every channel's block (R192). -/
theorem tget_parts (c : CalSt) (n : Fin 256) : tget {} (c.part 0 ++ c.part 128) n = tget {} c.blocks n := by
  have hpart (low : Nat) (hlow : low ≤ n.val) (hhigh : n.val < low + 128) : tget {} (c.part low) n = tget {} c.blocks n := by
    rw [tget, CalSt.part, tgetF_filter _ _ (fun a => decide (low ≤ a) && decide (a < low + 128)), decide_eq_true hlow, decide_eq_true hhigh]
    rfl
  have hout (low : Nat) (h : n.val < low ∨ low + 128 ≤ n.val) : ∀ x ∈ c.part low, x.1 ≠ n.val := by
    intro x hx hn
    have hkept := (List.mem_filter.mp hx).2
    simp only [Bool.and_eq_true, decide_eq_true_eq] at hkept
    omega
  by_cases hn : n.val < 128
  · rw [tget, tgetF_append_left _ _ _ _ (hout 128 (.inl hn))]
    exact hpart 0 (Nat.zero_le _) (by omega)
  · rw [tget, tgetF_append _ _ _ _ (hout 0 (.inr (by omega)))]
    exact hpart 128 (by omega) (by omega)

theorem pages_mod (d : Dev) (s : Side) (f : Half → Half) : (d.mod s f).pages = d.pages := by cases s <;> rfl

/-- The two records of a journal are appended far from the end of the active area (R192, R303). -/
theorem journalCal_low {d : Dev} {s : Side} (hc : (d.half s).cal.changed = true) (hhold : d.ldr.hold = false) (hlow : d.ldr.sector < 357) :
    d.quiet (d.journalCal s) ∧ (d.journalCal s).ldr.find 1 (2 * s.code) = some (.table ((d.half s).cal.part 0))
      ∧ (d.journalCal s).ldr.find 1 (2 * s.code + 1) = some (.table ((d.half s).cal.part 128))
      ∧ ((d.journalCal s).half s).cal = { (d.half s).cal with changed := false } := by
  let a := d.ldrAppend 1 (2 * s.code) (.table ((d.half s).cal.part 0))
  let b := a.ldrAppend 1 (2 * s.code + 1) (.table ((d.half s).cal.part 128))
  have hjournal : d.journalCal s = b.mod s fun h => h.setChanged false := by
    unfold Dev.journalCal
    dsimp only
    rw [if_neg (by simp [hc])]
    rfl
  obtain ⟨q1, ha, hholdA, hsecA, hrecA⟩ := ldrAppend_low (d := d) 1 (2 * s.code) (.table ((d.half s).cal.part 0)) hhold (by omega)
  obtain ⟨q2, hb, -, -, hrecB⟩ := ldrAppend_low (d := a) 1 (2 * s.code + 1) (.table ((d.half s).cal.part 128)) hholdA
    (show a.ldr.sector < 359 by have := show a.ldr.sector ≤ d.ldr.sector + 1 from hsecA; omega)
  have hcal : ((b.half s).setChanged false).cal = { (d.half s).cal with changed := false } := by
    have hsans : b.sans = d.sans := (sans_ldrAppend ..).trans (sans_ldrAppend ..)
    have hhalf := congrArg (fun d : Dev => (d.half s).cal) hsans
    cases s <;> exact hhalf
  have hldr : (b.mod s fun h => h.setChanged false).ldr = b.ldr := by cases s <;> rfl
  rw [hjournal, half_mod_same, hldr]
  refine ⟨(ha.trans hb).trans (quiet_mod rfl rfl fun told hend => ?_), ?_, ?_, hcal⟩
  · rw [not_ended_setChanged] at hend
    exact absurd hend Bool.false_ne_true
  · rw [LdrSt.find, hrecB, find_insert (by simp), if_neg (by simp)]
    rw [hrecA, find_insert (by simp), if_pos rfl]
  · rw [LdrSt.find, hrecB, find_insert (by simp), if_pos rfl]

/-- Settles O35: modes by the halves named, a table by its blocks, the journal by its two records. -/
theorem modeAndTables : Obligations.ModeAndTables := by
  unfold Obligations.ModeAndTables
  intro s h
  refine ⟨fun f halves mode hf hne hlow hhigh hm k hidle hdown => ?_, fun halves mode hm => ⟨fun k hc => ?_, fun k hw he => ?_,
    fun hlow hhigh k hdown hburst hidle => ?_⟩, fun halves hlow hhigh k hall => ?_, fun img => ?_, fun side hpow hcalm hc hhold hlow => ?_⟩
  · refine yields_modeSet (e := (namedHalves halves).foldl (fun d side => d.mod side fun h => h.setMode f mode) (s.dev.accepted h))
      (by rwa [farHalf hf]) (fun _ side hs => (hidle side hs).2.1) ?_ (quiet_setMode ..) (hst_setMode ..) fun t ht htells => ⟨ht, htells⟩
    rw [modeSetBody_half _ _ hlow hhigh hm (fun side hs => (hidle side hs).1) hdown hf fun side hs => (hidle side hs).2.2, if_neg hne]
  · refine yields_modeSet (e := { s.dev.accepted h with ldr := { (s.dev.accepted h).ldr with hostMode := decide (mode = 1) } })
      k (fun h8 => absurd h8 (by decide)) ?_ (quiet_setLarder ..) rfl fun t ht htells => ⟨ht, htells⟩
    have hhm : ¬ 1 < mode := by omega
    simp [modeSetBody, hhm, Dev.modeIdle, hc, namedHalves]
  · refine yields_modeSet (e := { s.dev.accepted h with clk := { (s.dev.accepted h).clk with hostMode := decide (mode = 1) } })
      k (fun h8 => absurd h8 (by decide)) ?_ ⟨id, rfl, id, fun _ => id⟩ rfl fun t ht htells => ⟨ht, htells⟩
    have hhm : ¬ 1 < mode := by omega
    simp [modeSetBody, hhm, Dev.modeIdle, namedHalves, hw, he]
  · let x := (namedHalves halves).foldl (fun d side => d.mod side fun h => h.setMode 1 mode) (s.dev.accepted h)
    have hx (side : Side) := half_setMode (namedHalves halves) 1 mode (s.dev.accepted h) side
    have hface (side : Side) : (x.half side).face = ((s.dev.accepted h).half side).face := by
      rw [hx side]
      split <;> rfl
    have hstale : (x.staleAll .w).staleAll .e = (x.mod .w fun h => { h with cal := { h.cal with anchored := 0 } }).mod .e
        fun h => { h with cal := { h.cal with anchored := 0 } } := by
      rw [staleAll_idle (s := .w) (by rw [hface, hburst]), staleAll_idle (s := .e)]
      rw [half_mod_ne _ _ (by decide), hface, hburst]
    refine yields_modeSet (e := (x.staleAll .w).staleAll .e) k (fun _ side hs => (hidle side hs).2) ?_ ?_ ?_ fun t ht htells => ⟨htells, fun side => ?_⟩
    · rw [modeSetBody_half _ _ hlow hhigh hm (fun side hs => (hidle side hs).1) hdown (by decide) (fun _ _ h5 => absurd h5 (by decide)), if_pos rfl]
    · rw [hstale]
      exact ((quiet_setMode ..).trans (quiet_mod rfl rfl fun _ h => h)).trans (quiet_mod rfl rfl fun _ h => h)
    · rw [hstale, hst_mod, hst_mod]
      exact hst_setMode ..
    · rw [hstale] at ht
      obtain ⟨u, hu⟩ := half_eq_of_bare ht side
      rw [hu]
      have hxm : (x.half side).modes = if side ∈ namedHalves halves then (((s.dev.accepted h).half side).setMode 1 mode).modes
          else ((s.dev.accepted h).half side).modes := by
        rw [hx side]
        split <;> rfl
      rw [← hxm]
      cases side <;> exact ⟨rfl, rfl⟩
  · refine yields_hoist (o := { code := 0x60 }) rfl k fun t ht => ?_
    have hbody : calRunBody halves s.fuse.life (s.dev.replyTo 0x60 h) (s.dev.accepted h)
        = { (namedHalves halves).foldl Dev.abandon (s.dev.accepted h) with hst := {
          ((namedHalves halves).foldl Dev.abandon (s.dev.accepted h)).hst with cals := (s.dev.accepted h).hst.cals
          ++ [{ reply := s.dev.replyTo 0x60 h, w := (namedHalves halves).contains .w, e := (namedHalves halves).contains .e }] } } := by
      unfold calRunBody
      dsimp only
      rw [if_neg (by simp [halvesOk, hlow, hhigh])]
      split
      · next st hst =>
        obtain ⟨side, hs, hside⟩ := List.exists_of_findSome?_eq_some hst
        obtain ⟨hun, hcan, -⟩ := hall side hs
        simp [hun, hcan] at hside
      · rw [hst_abandon]
    rw [touching_clear (diverges_map fun side hs => (hall side hs).2.2), hbody] at ht
    have hq : (s.dev.accepted h).quiet ((namedHalves halves).foldl Dev.abandon (s.dev.accepted h)) := quiet_foldl _ _ quiet_abandon _
    have hbare := ht.bare (((calm_accepted k).quiet hq).quiet ⟨id, rfl, id, fun _ => id⟩)
    exact hbare
  · intro side first count parts k hun hlen hl hm hcheck hdiv hmeek
    let d := s.dev.accepted h
    let n := rdLE (fun i => img.getD i 0) 8 2
    let d1 := d.mod side fun h => (h.writeImage img n).setChanged false
    let d2 := d1.mod side fun h => h.setChanged true
    have hpages : d2.pages = s.dev.pages := by
      rw [← pages_accepted s.dev h]
      exact (pages_mod ..).trans (pages_mod ..)
    have hm2 : d2.meek := meek_of_pages hpages hmeek
    have hc2 : (d2.half side).cal.changed = true := by
      simp only [d2, half_mod_same]
      rfl
    have hd1 : d.quiet d1 := by
      obtain ⟨hstw, htsk, -, -⟩ := writeImage_keeps (d.half side) img n
      refine quiet_mod hstw (congrArg TskSt.started htsk) fun told hend => ?_
      rw [not_ended_setChanged] at hend
      exact absurd hend Bool.false_ne_true
    obtain ⟨hj, hend⟩ := quiet_journalCal side hm2 hc2
    have hquiet : d.quiet (d2.journalCal side) :=
      (((quietBut_of_quiet hd1).trans (quietBut_setChanged d1 side true)).trans hj).quiet hend
    have hreach : (d2.journalCal side).reaches (s.dev.replyTo 0x62 h) := by
      refine reaches_journalCal (reaches_of_hst (reaches_accepted _ k.takes) ?_ ?_) side hm2 <;> simp only [d2, d1, hst_mod] <;> rfl
    refine yields_finishWith (o := { code := 0x62 }) (dup := false) (st := stOk) (pl := []) (e := d2.journalCal side) rfl k ?_
      ((calm_accepted k).quiet hquiet) hreach (by decide) fun t ht htells => ⟨htells, ?_⟩
    · rw [touching_clear fun u hu => by rw [List.mem_singleton.mp hu]; exact hdiv]
      have hset := tableSet_eq (d := d) hl hm hcheck
      unfold calTableSetBody
      dsimp only
      rw [show (s.dev.accepted h).unavailable (tableSide img) 5 = none from hun]
      dsimp only
      rw [if_neg (by rw [hlen]; exact fun h => h rfl), hset]
      rfl
    · have hsans : t.sans = d2.sans := (sans_of_bare ht).trans (sans_journalCal ..)
      obtain ⟨hb, hf⟩ := blocks_of_sans hsans side
      have hhalf : d2.half side = ((d.half side).writeImage img n).setChanged true := by
        simp only [d2, d1, half_mod_same]
        rfl
      obtain ⟨hin, hout⟩ := blocks_writeImage (d.half side) img n
      rw [hb, hf, hhalf]
      exact ⟨hin, hout, (writeImage_keeps (d.half side) img n).2.2.1⟩
  · obtain ⟨hq, hfirst, hsecond, hcal⟩ := journalCal_low (d := s.dev.mute) (s := side) (by rwa [half_mute]) hhold hlow
    refine yields_quiet (f := fun _ d => calTableJournal side d) (e := s.dev.mute.journalCal side) rfl hpow hcalm rfl hq fun d hd _ => ?_
    obtain ⟨u, hu⟩ := half_eq_of_bare hd side
    rw [ldr_of_bare hd, hu]
    rw [half_mute] at hfirst hsecond hcal
    exact ⟨hcal, _, _, hfirst, hsecond, tget_parts _⟩

end Sys2Proof.Machine
end

section
/-! PROOFS. The task unit: ticks, posts and yields, and what every command leaves of it (chapter 16). -/
namespace Sys2Proof.Machine
open Sys2Proof.Safety

/-! ## The task unit: who is ready, who waits (R416 to R418) -/

namespace TskSt

theorem task_setTask (t : TskSt) (m n : Nat) (x : Task) : (t.setTask m x).task n = if n = m then x else t.task n := by
  unfold task setTask
  split
  · next h => rw [h, tget_tset_same]
  · next h => rw [tget_tset_ne _ _ _ h]

@[simp] theorem task_setCore (t : TskSt) (c n : Nat) (x : Core4) : (t.setCore c x).task n = t.task n := by
  unfold setCore task
  split <;> rfl

/-- A task is READY or runs. -/
def alive (t : TskSt) (n : Nat) : Prop := (t.task n).st = .ready ∨ (t.task n).st = .running

theorem alive_setTask {t : TskSt} {m n : Nat} {x : Task} (hx : n = m → x.st = .ready ∨ x.st = .running) (h : n ≠ m → t.alive n) :
    (t.setTask m x).alive n := by
  unfold alive
  rw [task_setTask]
  split
  · next k => exact hx k
  · next k => exact h k

theorem alive_congr {t u : TskSt} {n : Nat} (h : u.tasks = t.tasks) (k : t.alive n) : u.alive n := by
  unfold alive task at *
  rwa [h]

theorem tasks_setCore (t : TskSt) (c : Nat) (x : Core4) : (t.setCore c x).tasks = t.tasks := by
  unfold setCore
  split <;> rfl

theorem alive_enqueue_self (t : TskSt) (n : Nat) : (t.enqueue n).alive n :=
  alive_setTask (t := t) (x := { t.task n with st := .ready, wake := none, queue := none, since := t.tick })
    (fun _ => .inl rfl) fun h => absurd rfl h

theorem alive_enqueue {t : TskSt} {n : Nat} (m : Nat) (h : t.alive n) : (t.enqueue m).alive n :=
  alive_setTask (t := t) (x := { t.task m with st := .ready, wake := none, queue := none, since := t.tick })
    (fun _ => .inl rfl) fun _ => h

theorem alive_foldl {α : Type} {n : Nat} (l : List α) (f : TskSt → α → TskSt) (hf : ∀ t x, t.alive n → (f t x).alive n) {t : TskSt}
    (h : t.alive n) : (l.foldl f t).alive n := by
  induction l generalizing t with
  | nil => exact h
  | cons x l ih => exact ih (hf t x h)

theorem alive_serve {t : TskSt} {n : Nat} (c : Nat) (h : t.alive n) : (t.serve c).alive n := by
  unfold serve
  extract_lets x
  split
  · exact h
  · split
    · exact h
    · extract_lets p wait t1
      exact alive_congr (tasks_setCore ..) (alive_setTask (fun _ => .inr rfl) fun _ => h)

theorem alive_dispatch {t : TskSt} {n : Nat} (h : t.alive n) : t.dispatch.alive n := alive_foldl _ _ (fun _ c k => alive_serve c k) h

theorem alive_wakeUp_of_enqueued {t : TskSt} {n m : Nat} (h : (t.enqueue m).alive n) : (t.wakeUp m).alive n := by
  have hd := alive_dispatch h
  unfold wakeUp
  dsimp only
  split
  · exact hd
  · split
    · exact hd
    · split
      · exact hd
      · exact alive_dispatch (alive_enqueue _ (alive_congr (tasks_setCore ..) hd))

theorem alive_wakeUp {t : TskSt} {n : Nat} (m : Nat) (h : t.alive n) : (t.wakeUp m).alive n := alive_wakeUp_of_enqueued (alive_enqueue m h)

theorem alive_wakeUp_self (t : TskSt) (n : Nat) : (t.wakeUp n).alive n := alive_wakeUp_of_enqueued (alive_enqueue_self t n)

theorem alive_deliverQ {t : TskSt} {n : Nat} (q k : Nat) (h : t.alive n) : (t.deliverQ q k).alive n := by
  induction k generalizing t with
  | zero => exact h
  | succ k ih =>
    unfold deliverQ
    dsimp only
    split
    · exact ih (alive_wakeUp _ (alive_setTask (t := { t with queues := _ }) (fun e => by rw [← e]; exact h) fun _ => h))
    · exact h

theorem alive_deliver {t : TskSt} {n : Nat} (h : t.alive n) : t.deliver.alive n := by
  unfold deliver
  split
  · exact h
  · exact alive_foldl _ _ (fun t q k => alive_deliverQ q.1 256 k) h

/-- Of a list of tasks that are woken, each is READY or runs. -/
theorem alive_wakeAll {l : List Nat} {n : Nat} (h : n ∈ l) (t : TskSt) : (l.foldl wakeUp t).alive n := by
  induction l generalizing t with
  | nil => exact absurd h List.not_mem_nil
  | cons m l ih =>
    rw [List.foldl_cons]
    rcases List.mem_cons.mp h with rfl | hl
    · exact alive_foldl _ _ (fun _ m k => alive_wakeUp m k) (alive_wakeUp_self t _)
    · exact ih hl _

theorem mem_insertDue {w n : Nat} {x : Nat × Nat} (l : List (Nat × Nat)) : x ∈ insertDue w n l ↔ x = (w, n) ∨ x ∈ l := by
  induction l with
  | nil => simp [insertDue]
  | cons y l ih =>
    obtain ⟨v, m⟩ := y
    unfold insertDue
    split
    · exact List.mem_cons
    · rw [List.mem_cons, ih, List.mem_cons]
      tauto

/-- An entry of a table that does not read as the default is listed. -/
theorem mem_of_tget {α : Type} {d : α} {t : Tbl α} {k : Nat} (h : tget d t k ≠ d) : (k, tget d t k) ∈ t := by
  induction t with
  | nil => exact absurd rfl h
  | cons kv t ih =>
    obtain ⟨a, v⟩ := kv
    by_cases ha : a = k
    · subst ha
      have hv : tget d ((a, v) :: t) a = v := if_pos rfl
      rw [hv]
      exact List.mem_cons_self ..
    · have hv : tget d ((a, v) :: t) k = tget d t k := if_neg ha
      rw [hv] at h ⊢
      exact List.mem_cons_of_mem _ (ih h)

/-- A task whose delay has expired is due. -/
theorem mem_due {t : TskSt} {n w : Nat} (hst : (t.task n).st = .waiting) (hw : (t.task n).wake = some w) (hle : w ≤ t.tick) : n ∈ t.due := by
  have hmem : (n, t.task n) ∈ t.tasks := mem_of_tget fun hd => by
    rw [show t.task n = {} from hd] at hst
    exact absurd hst (by decide)
  have key (l : List (Nat × Task)) (a : List (Nat × Nat)) (h : (n, t.task n) ∈ l ∨ (w, n) ∈ a) :
      (w, n) ∈ l.foldl (fun l kv => match kv.2.wake with
        | some w => if kv.2.st = .waiting ∧ w ≤ t.tick then insertDue w kv.1 l else l
        | none => l) a := by
    induction l generalizing a with
    | nil => exact h.resolve_left List.not_mem_nil
    | cons kv l ih =>
      rw [List.foldl_cons]
      refine ih _ ?_
      rcases h with h | h
      · rcases List.mem_cons.mp h with rfl | h
        · right
          simp only [hw, hst, hle, and_self, if_true]
          exact (mem_insertDue a).mpr (.inl rfl)
        · exact .inl h
      · right
        split
        · split
          · exact (mem_insertDue a).mpr (.inr h)
          · exact h
        · exact h
  exact List.mem_map.mpr ⟨(w, n), key _ _ (.inl hmem), rfl⟩

/-! ## Queues on which no task waits -/

/-- No task waits on a queue. -/
def unwaited (t : TskSt) (q : Nat) : Prop := ∀ kv ∈ t.tasks, ¬ (kv.2.st = .waiting ∧ kv.2.queue = some q)

theorem foldl_none {α β : Type} {f : Option β → α → Option β} {P : α → Prop} (h : ∀ a x, f a x = none ↔ a = none ∧ ¬ P x) (l : List α)
    (a : Option β) : l.foldl f a = none ↔ a = none ∧ ∀ x ∈ l, ¬ P x := by
  induction l generalizing a with
  | nil => simp
  | cons x l ih => rw [List.foldl_cons, ih, h, List.forall_mem_cons, and_assoc]

theorem waiter_none {t : TskSt} {q : Nat} : t.waiter q = none ↔ t.unwaited q := by
  unfold waiter
  rw [Option.map_eq_none_iff, foldl_none (P := fun kv => kv.2.st = .waiting ∧ kv.2.queue = some q)]
  · simp [unwaited]
  · intro a kv
    by_cases hk : kv.2.st = .waiting ∧ kv.2.queue = some q
    · rw [if_neg (by simp [hk])]
      cases a with
      | none => simp [hk]
      | some p =>
        dsimp only
        split <;> simp
    · rw [if_pos (by tauto)]
      simp [hk]

theorem mem_tput {α : Type} {t : Tbl α} {k : Nat} {v : α} {x : Nat × α} (h : x ∈ tput t k v) : x ∈ t ∨ x = (k, v) := by
  induction t with
  | nil => exact .inr (List.mem_singleton.mp h)
  | cons y t ih =>
    unfold tput at h
    split at h
    · exact (List.mem_cons.mp h).symm
    · split at h
      · exact (List.mem_cons.mp h).symm.imp (List.mem_cons_of_mem _) id
      · rcases List.mem_cons.mp h with rfl | h
        · exact .inl (List.mem_cons_self ..)
        · exact (ih h).imp (List.mem_cons_of_mem _) id

theorem mem_tset {α : Type} [DecidableEq α] {d : α} {t : Tbl α} {k : Nat} {v : α} {x : Nat × α} (h : x ∈ tset d t k v) :
    x ∈ t ∨ x = (k, v) := by
  unfold tset tsetF at h
  split at h
  · exact .inl (List.mem_of_mem_filter h)
  · exact mem_tput h

/-- What a task reads as waits on no queue that none waits on. -/
theorem unwaited_task {t : TskSt} {q : Nat} (h : t.unwaited q) (n : Nat) : ¬ ((t.task n).st = .waiting ∧ (t.task n).queue = some q) := by
  intro hw
  refine h (n, t.task n) (mem_of_tget fun hd => ?_) hw
  rw [show t.task n = {} from hd] at hw
  exact absurd hw.1 (by decide)

theorem unwaited_setTask {t : TskSt} {q n : Nat} {x : Task} (h : t.unwaited q) (hx : ¬ (x.st = .waiting ∧ x.queue = some q)) :
    (t.setTask n x).unwaited q := by
  intro kv hkv
  rcases mem_tset hkv with hkv | rfl
  · exact h kv hkv
  · exact hx

theorem unwaited_congr {t u : TskSt} {q : Nat} (hu : u.tasks = t.tasks) (h : t.unwaited q) : u.unwaited q := by
  intro kv hkv
  rw [hu] at hkv
  exact h kv hkv

/-- No task waits on queue q, which stands as x. -/
def rests (t : TskSt) (q : Nat) (x : EvQueue) : Prop := t.unwaited q ∧ tget {} t.queues q = x

theorem queues_setCore (t : TskSt) (c : Nat) (x : Core4) : (t.setCore c x).queues = t.queues := by
  unfold setCore
  split <;> rfl

theorem rests_setCore {t : TskSt} {q : Nat} {x : EvQueue} (c : Nat) (y : Core4) (h : t.rests q x) : (t.setCore c y).rests q x :=
  ⟨unwaited_congr (tasks_setCore ..) h.1, by rw [queues_setCore]; exact h.2⟩

theorem rests_enqueue {t : TskSt} {q : Nat} {x : EvQueue} (n : Nat) (h : t.rests q x) : (t.enqueue n).rests q x :=
  ⟨unwaited_setTask (t := t) (x := { t.task n with st := .ready, wake := none, queue := none, since := t.tick }) h.1 (by simp), h.2⟩

theorem rests_foldl {α : Type} {q : Nat} {x : EvQueue} (l : List α) (f : TskSt → α → TskSt) (hf : ∀ t y, t.rests q x → (f t y).rests q x)
    {t : TskSt} (h : t.rests q x) : (l.foldl f t).rests q x := by
  induction l generalizing t with
  | nil => exact h
  | cons y l ih => exact ih (hf t y h)

theorem rests_serve {t : TskSt} {q : Nat} {x : EvQueue} (c : Nat) (h : t.rests q x) : (t.serve c).rests q x := by
  unfold serve
  extract_lets y
  split
  · exact h
  · split
    · exact h
    · extract_lets p wait t1
      exact rests_setCore _ _ ⟨unwaited_setTask (t := t1) h.1 (by simp), h.2⟩

theorem rests_dispatch {t : TskSt} {q : Nat} {x : EvQueue} (h : t.rests q x) : t.dispatch.rests q x :=
  rests_foldl _ _ (fun _ c k => rests_serve c k) h

theorem rests_wakeUp {t : TskSt} {q : Nat} {x : EvQueue} (n : Nat) (h : t.rests q x) : (t.wakeUp n).rests q x := by
  have hd := rests_dispatch (rests_enqueue n h)
  unfold wakeUp
  dsimp only
  split
  · exact hd
  · split
    · exact hd
    · split
      · exact hd
      · exact rests_dispatch (rests_enqueue _ (rests_setCore _ _ hd))

theorem deliverQ_unwaited {t : TskSt} {q : Nat} (k : Nat) (h : t.unwaited q) : t.deliverQ q k = t := by
  cases k with
  | zero => rfl
  | succ k =>
    unfold deliverQ
    dsimp only
    split
    · next hw =>
      rw [waiter_none.mpr h] at hw
      exact absurd hw nofun
    · rfl

theorem rests_deliverQ {t : TskSt} {q : Nat} {x : EvQueue} (q' k : Nat) (h : t.rests q x) : (t.deliverQ q' k).rests q x := by
  by_cases hq : q' = q
  · rw [hq, deliverQ_unwaited _ h.1]
    exact h
  · induction k generalizing t with
    | zero => exact h
    | succ k ih =>
      unfold deliverQ
      dsimp only
      split
      · exact ih (rests_wakeUp _ ⟨unwaited_setTask (t := { t with queues := _ }) h.1 (unwaited_task h.1 _),
          (tget_tset_ne _ _ _ (Ne.symm hq)).trans h.2⟩)
      · exact h

theorem rests_deliver {t : TskSt} {q : Nat} {x : EvQueue} (h : t.rests q x) : t.deliver.rests q x := by
  unfold deliver
  split
  · exact h
  · exact rests_foldl _ _ (fun _ q' k => rests_deliverQ q'.1 256 k) h

/-- Where no task waits on a queue, nothing is delivered. -/
theorem deliver_unwaited {t : TskSt} (h : ∀ q, t.unwaited q) : t.deliver = t := by
  have hfold (l : List (Nat × EvQueue)) : l.foldl (fun t q => t.deliverQ q.1 256) t = t := by
    induction l with
    | nil => rfl
    | cons y l ih => rw [List.foldl_cons, deliverQ_unwaited _ (h _), ih]
  unfold deliver
  split
  · rfl
  · exact hfold _

/-! ## What every command leaves of the queues -/

/-- A task unit whose queues of die s have taken entries while there was room. -/
def fed (s : Side) (t u : TskSt) : Prop :=
  ∃ qs, u = { t with queues := qs } ∧ ∀ q, (∃ more, (tget {} qs q).entries = (tget {} t.queues q).entries ++ more)
    ∧ (queueCap s q ≤ (tget {} t.queues q).entries.length → tget {} qs q = tget {} t.queues q)

theorem fed_refl (s : Side) (t : TskSt) : t.fed s t := ⟨t.queues, rfl, fun _ => ⟨⟨[], (List.append_nil _).symm⟩, fun _ => rfl⟩⟩

theorem fed_trans {s : Side} {t u v : TskSt} (h : t.fed s u) (k : u.fed s v) : t.fed s v := by
  obtain ⟨qs, rfl, hqs⟩ := h
  obtain ⟨ps, rfl, hps⟩ := k
  refine ⟨ps, rfl, fun q => ?_⟩
  obtain ⟨⟨m, hm⟩, hfull⟩ := hqs q
  obtain ⟨⟨m', hm'⟩, hfull'⟩ := hps q
  refine ⟨⟨m ++ m', ?_⟩, fun hcap => ?_⟩
  · rw [hm', hm, List.append_assoc]
  · have hsame := hfull hcap
    exact (hfull' (by rw [show tget {} ({ t with queues := qs } : TskSt).queues q = _ from hsame]; exact hcap)).trans hsame

end TskSt

/-- An entry that finds room joins its queue, and nothing else changes. -/
theorem post_room {d : Dev} {s : Side} {q : Nat} (e : BitVec 64) (h : (tget {} (d.half s).tsk.queues q).entries.length < queueCap s q) :
    ∃ x : EvQueue, x.entries = (tget {} (d.half s).tsk.queues q).entries ++ [e]
      ∧ (d.post s q e).1 = d.mod s fun h => { h with tsk := { h.tsk with queues := tset {} h.tsk.queues q x } } := by
  unfold Dev.post
  dsimp only
  rw [if_pos h]
  exact ⟨_, rfl, rfl⟩

theorem fed_post {d : Dev} {s : Side} {q : Nat} (e : BitVec 64) (h : (tget {} (d.half s).tsk.queues q).entries.length < queueCap s q) :
    (d.half s).tsk.fed s ((d.post s q e).1.half s).tsk := by
  obtain ⟨x, hx, hpost⟩ := post_room e h
  rw [hpost, half_mod_same]
  refine ⟨_, rfl, fun q' => ?_⟩
  by_cases hq : q' = q
  · subst hq
    rw [tget_tset_same]
    exact ⟨⟨[e], hx⟩, fun hcap => absurd hcap (Nat.not_le.mpr h)⟩
  · rw [tget_tset_ne _ _ _ hq]
    exact ⟨⟨[], (List.append_nil _).symm⟩, fun _ => rfl⟩

theorem half_setPage (d : Dev) (s s' : Side) (b : Nat) (p : Page) : (d.setPage s b p).half s' = d.half s' := by cases s' <;> rfl

theorem fed_foldl {α : Type} {s : Side} (l : List α) (f : Dev → α → Dev) (hf : ∀ (d : Dev) x, (d.half s).tsk.fed s ((f d x).half s).tsk)
    (d : Dev) : (d.half s).tsk.fed s ((l.foldl f d).half s).tsk := by
  induction l generalizing d with
  | nil => exact TskSt.fed_refl ..
  | cons x l ih => exact TskSt.fed_trans (hf d x) (ih _)

/-- Held entries that find room join their queues (R418). -/
theorem fed_retryHeld (d : Dev) (s : Side) : (d.half s).tsk.fed s ((d.retryHeld s).half s).tsk := by
  unfold Dev.retryHeld
  refine fed_foldl _ _ (fun d kv => ?_) d
  split
  · exact TskSt.fed_refl ..
  · refine fed_foldl _ _ (fun d i => ?_) d
    split
    · exact TskSt.fed_refl ..
    · split
      · next hroom =>
        rw [half_setPage]
        exact fed_post _ hroom
      · exact TskSt.fed_refl ..

/-- The entries of one die change nothing of the other. -/
theorem half_retryHeld {s s' : Side} (hs : s' ≠ s) (d : Dev) : (d.retryHeld s).half s' = d.half s' := by
  have hfold {α : Type} (l : List α) (f : Dev → α → Dev) (hf : ∀ (d : Dev) x, (f d x).half s' = d.half s') (d : Dev) :
      (l.foldl f d).half s' = d.half s' := by
    induction l generalizing d with
    | nil => rfl
    | cons x l ih => exact (ih _).trans (hf d x)
  unfold Dev.retryHeld
  refine hfold _ _ (fun d kv => ?_) d
  split
  · rfl
  · refine hfold _ _ (fun d i => ?_) d
    split
    · rfl
    · split
      · next hroom =>
        obtain ⟨x, -, hpost⟩ := post_room (s := s) (Config.faultEntry s.code (kv.1 % 32) i) hroom
        rw [half_setPage, hpost, half_mod_ne _ _ hs]
      · rfl

theorem half_event (d : Dev) (c n a : Nat) (s : Side) : (d.event c n a).half s = d.half s := by
  cases s <;> simp only [Dev.event, Dev.half]

theorem half_closeSession (d : Dev) (k reason : Nat) (frame : Bool) (s : Side) : (d.closeSession k reason frame).half s = d.half s := by
  have hsend (d : Dev) (f : Frame) : (d.send f).half s = d.half s := by
    have htransmit (d : Dev) (f : Frame) : (d.transmit f).half s = d.half s := by
      unfold Dev.transmit
      dsimp only
      split <;> cases s <;> rfl
    unfold Dev.send
    split
    · exact htransmit ..
    · split
      · rfl
      · exact (show (Dev.half _ s) = _ by cases s <;> rfl).trans (htransmit ..)
  unfold Dev.closeSession
  split
  · rfl
  · dsimp only
    rw [half_event]
    cases frame with
    | true => exact (show (Dev.half _ s) = _ by cases s <;> rfl).trans (hsend ..)
    | false => cases s <;> rfl

theorem half_spentSessions (d : Dev) (s : Side) : d.spentSessions.half s = d.half s := by
  have key (l : List Session) (e : Dev) :
      (l.foldl (fun d x => if 0xFFFFFFFF ≤ x.devSeq ∨ 0xFFFFFFFF ≤ x.high then d.closeSession x.id 4 true else d) e).half s = e.half s := by
    induction l generalizing e with
    | nil => rfl
    | cons x l ih =>
      rw [List.foldl_cons, ih]
      split
      · exact half_closeSession ..
      · rfl
  exact key _ d

theorem half_reportStates (d : Dev) (s : Side) : d.reportStates.half s = d.half s := by
  have hreport (d : Dev) (x : HstSt) (c n a : Nat) : (({ d with hst := x } : Dev).event c n a).half s = d.half s :=
    (half_event ..).trans (by cases s <;> rfl)
  unfold Dev.reportStates
  dsimp only
  split <;> split <;> split <;> simp only [hreport]

/-- What every command leaves of a task unit: held entries join their queues, and tasks that wait on one take them (R418). -/
theorem tsk_settle {d : Dev} (life : Life) (hpow : d.powered = true) (h : d.calm) (s : Side) :
    ∃ u, (d.half s).tsk.fed s u ∧ ((d.settle life).half s).tsk = u.deliver := by
  have hsafe : (d.safeNet life).half s = d.half s := by
    unfold Dev.safeNet
    split
    · rename_i hwanted hnet
      exact absurd (h.1 hwanted) (by simp [hnet])
    all_goals cases s <;> rfl
  have hmid : ((d.safeNet life).spentSessions.half s) = d.half s := (half_spentSessions ..).trans hsafe
  have hfed : (d.half s).tsk.fed s ((((d.safeNet life).spentSessions.retryHeld .w).retryHeld .e).half s).tsk := by
    cases s with
    | w =>
      rw [half_retryHeld (by decide), ← hmid]
      exact fed_retryHeld ..
    | e =>
      rw [← hmid, ← half_retryHeld (s := .w) (by decide)]
      exact fed_retryHeld ..
  refine ⟨_, hfed, ?_⟩
  unfold Dev.settle
  dsimp only
  rw [if_neg (by simp [hpow]), half_reportStates, pathLost_eq d life h, journalEnd_eq d h]
  cases s <;> rfl

/-- A row of a running module that leaves it calm: what it makes of a task unit, too. -/
theorem yields_tasks {c : Instr} {s : State} {f : Life → Dev → Dev} {e : Dev} {p : Dev → Prop} (side : Side) (hc : exec c s = running f s)
    (hpow : s.dev.powered = true) (hf : f s.fuse.life s.dev.mute = e) (he : e.powered = true) (hcalm : e.calm)
    (hp : ∀ d u, d.bare = e.bare → (e.half side).tsk.fed side u → (d.half side).tsk = u.deliver → p d) : Yields c s p := by
  subst hf
  rw [yields_running_iff hc hpow]
  obtain ⟨u, hu, ht⟩ := tsk_settle s.fuse.life he hcalm side
  exact hp _ u (bare_settle _ _ hcalm) hu ht

namespace TskSt

theorem core_setCore (t : TskSt) (c : Fin 4) (x : Core4) : (t.setCore c x).core c = x := by
  fin_cases c <;> rfl

theorem core_setCore_ne (t : TskSt) {c k : Fin 4} (x : Core4) (h : k ≠ c) : (t.setCore c x).core k = t.core k := by
  revert h
  fin_cases c <;> fin_cases k <;> simp [setCore, core]

/-- A core's watchdog n ticks on (R420). -/
def counted (x : Core4) (n : Nat) : Core4 := if x.on then { x with wdog := x.wdog - n } else x

/-- One core's watchdog of a unit n ticks on. -/
def countCore (t : TskSt) (n c : Nat) : TskSt :=
  if (t.core c).on then t.setCore c { (t.core c) with wdog := (t.core c).wdog - n } else t

theorem countCore_eq (t : TskSt) (n : Nat) (c : Fin 4) : t.countCore n c = t.setCore c (counted (t.core c) n) := by
  unfold countCore counted
  split
  · rfl
  · fin_cases c <;> rfl

/-- The watchdogs n ticks on. -/
def count (t : TskSt) (n : Nat) : TskSt := cores.foldl (fun t c => t.countCore n c) t

theorem count_eq (t : TskSt) (n : Nat) : t.count n
    = { t with core0 := counted t.core0 n, core1 := counted t.core1 n, core2 := counted t.core2 n, core3 := counted t.core3 n } := by
  have h0 (t : TskSt) : t.countCore n 0 = t.setCore 0 (counted t.core0 n) := countCore_eq t n 0
  have h1 (t : TskSt) : t.countCore n 1 = t.setCore 1 (counted t.core1 n) := countCore_eq t n 1
  have h2 (t : TskSt) : t.countCore n 2 = t.setCore 2 (counted t.core2 n) := countCore_eq t n 2
  have h3 (t : TskSt) : t.countCore n 3 = t.setCore 3 (counted t.core3 n) := countCore_eq t n 3
  unfold count cores
  simp only [List.foldl_cons, List.foldl_nil, h0, h1, h2, h3]
  rfl

theorem core_count (t : TskSt) (n : Nat) (c : Fin 4) : (t.count n).core c = counted (t.core c) n := by
  rw [count_eq]
  fin_cases c <;> rfl

theorem halted_count (t : TskSt) (n : Nat) : (t.count n).halted = t.halted := by
  have hcore (x : Core4) : (counted x n).halted = x.halted := by
    unfold counted
    split <;> rfl
  rw [count_eq]
  simp [halted, hcore]

/-! ## A task yields -/

theorem got_enqueue (t : TskSt) (m n : Nat) : ((t.enqueue m).task n).got = (t.task n).got := by
  have h := task_setTask t m n { t.task m with st := .ready, wake := none, queue := none, since := t.tick }
  rw [show (t.enqueue m).task n = _ from h]
  split
  · next k => rw [k]
  · rfl

theorem got_serve (t : TskSt) (c n : Nat) : ((t.serve c).task n).got = (t.task n).got := by
  unfold serve
  extract_lets x
  split
  · rfl
  · split
    · rfl
    · extract_lets p wait t1
      rw [task_setCore, task_setTask]
      split
      · next k => rw [k]; rfl
      · rfl

theorem got_dispatch (t : TskSt) (n : Nat) : (t.dispatch.task n).got = (t.task n).got := by
  have hfold (l : List Nat) (t : TskSt) : ((l.foldl serve t).task n).got = (t.task n).got := by
    induction l generalizing t with
    | nil => rfl
    | cons c l ih => exact (ih _).trans (got_serve ..)
  exact hfold ..

theorem got_wakeUp (t : TskSt) (m n : Nat) : ((t.wakeUp m).task n).got = (t.task n).got := by
  have hd := (got_dispatch (t.enqueue m) n).trans (got_enqueue t m n)
  unfold wakeUp
  dsimp only
  split
  · exact hd
  · split
    · exact hd
    · split
      · exact hd
      · rw [got_dispatch, got_enqueue, task_setCore]
        exact hd

/-- With no task READY no core takes one. -/
theorem dispatch_idle {t : TskSt} (h : t.ready = []) : t.dispatch = t := by
  have hserve (c : Nat) : t.serve c = t := by
    have hpick : t.pick c = none := by rw [pick, h]; rfl
    unfold serve
    dsimp only
    split
    · rfl
    · rw [hpick]
  unfold dispatch cores
  simp only [List.foldl_cons, List.foldl_nil, hserve]

/-- A core that is off, or runs a task, takes none. -/
theorem serve_busy {t : TskSt} {c : Nat} (h : (t.core c).on = false ∨ (t.core c).task.isSome = true) : t.serve c = t := by
  unfold serve
  dsimp only
  rw [if_pos]
  rcases h with h | h <;> simp [h]

/-- A free core takes the task that it picks. -/
theorem serve_free {t : TskSt} {c m : Nat} (hon : (t.core c).on = true) (hh : (t.core c).halted = false) (hfree : (t.core c).task = none)
    (hpick : t.pick c = some m) : ∃ u : TskSt, u.tasks = t.tasks ∧ (∀ k, u.core k = t.core k) ∧ u.queues = t.queues
      ∧ t.serve c = (u.setTask m { (u.task m) with st := .running }).setCore c { t.core c with task := some m, from_ := t.tick } := by
  unfold serve
  dsimp only
  rw [if_neg (by simp [hon, hh, hfree]), hpick]
  refine ⟨_, ?_, fun k => ?_, ?_, rfl⟩
  · rfl
  · unfold core
    split <;> rfl
  · rfl

/-- The core's task leaves it, and stands as x. -/
def leave (t : TskSt) (c n : Nat) (x : Task) : TskSt := (t.setTask n x).setCore c ((t.core c).free t.tick)

theorem task_leave (t : TskSt) (c n k : Nat) (x : Task) : (t.leave c n x).task k = if k = n then x else t.task k := by
  rw [leave, task_setCore, task_setTask]

theorem ready_leave (t : TskSt) (c n : Nat) (x : Task) : (t.leave c n x).ready = t.ready := by
  unfold leave setCore
  split <;> rfl

theorem queues_leave (t : TskSt) (c n : Nat) (x : Task) : (t.leave c n x).queues = t.queues := by
  unfold leave
  rw [queues_setCore]
  rfl

theorem tick_leave (t : TskSt) (c n : Nat) (x : Task) : (t.leave c n x).tick = t.tick := by
  unfold leave setCore
  split <;> rfl

theorem bare_leave (t : TskSt) (c n : Nat) (x : Task) : (t.leave c n x).bare = t.bare := by
  rw [leave, bare_setCore, bare_setTask]
  rw [core_setTask]
  rfl

theorem unwaited_leave {t : TskSt} {q : Nat} (c n : Nat) {x : Task} (h : t.unwaited q) (hx : ¬ (x.st = .waiting ∧ x.queue = some q)) :
    (t.leave c n x).unwaited q := unwaited_congr (tasks_setCore ..) (unwaited_setTask h hx)

/-- The cores other than one are off, or run tasks. -/
def crowded (t : TskSt) (c : Fin 4) : Prop := ∀ k : Fin 4, k ≠ c → (t.core k).on = false ∨ (t.core k).task.isSome = true

/-- Where the other cores take none, the free core takes the task that it picks (R416). -/
theorem dispatch_crowded {t : TskSt} {c : Fin 4} {m : Nat} (hc : t.crowded c) (hon : (t.core c).on = true) (hh : (t.core c).halted = false)
    (hfree : (t.core c).task = none) (hpick : t.pick c = some m) : t.dispatch = t.serve c := by
  obtain ⟨u, -, hcores, -, hserve⟩ := serve_free hon hh hfree hpick
  have hother (k : Fin 4) (hk : k ≠ c) : (t.serve c).core k = t.core k := by
    rw [hserve, core_setCore_ne _ _ hk, core_setTask, hcores]
  have hown : ((t.serve c).core c).task = some m := by rw [hserve, core_setCore]
  have hbefore (k : Fin 4) (hk : k ≠ c) : t.serve k = t := serve_busy (hc k hk)
  have hafter (k : Fin 4) : (t.serve c).serve k = t.serve c := by
    by_cases hk : k = c
    · subst hk
      exact serve_busy (.inr (by rw [hown]; rfl))
    · exact serve_busy (by rw [hother k hk]; exact hc k hk)
  have hstep (l : List (Fin 4)) : (l.map Fin.val).foldl serve (t.serve c) = t.serve c := by
    induction l with
    | nil => rfl
    | cons k l ih => rw [List.map_cons, List.foldl_cons, hafter, ih]
  have hall (l : List (Fin 4)) (hl : c ∈ l) : (l.map Fin.val).foldl serve t = t.serve c := by
    induction l with
    | nil => exact absurd hl List.not_mem_nil
    | cons k l ih =>
      rw [List.map_cons, List.foldl_cons]
      by_cases hk : k = c
      · rw [hk]
        exact hstep l
      · rw [hbefore k hk]
        exact ih ((List.mem_cons.mp hl).resolve_left (Ne.symm hk))
  exact hall [0, 1, 2, 3] (by fin_cases c <;> decide)

/-- What a core picks does not turn on a task that is in no queue. -/
theorem pick_leave {t : TskSt} {n : Nat} (c : Nat) (x : Task) (h : ∀ kv ∈ t.ready, n ∉ kv.2) : (t.leave c n x).pick c = t.pick c := by
  have hfind (l : List Nat) (hl : n ∉ l) : (l.find? fun m => ((t.leave c n x).task m).affinity.getLsbD c)
      = l.find? fun m => (t.task m).affinity.getLsbD c := by
    refine List.find?_congr fun m hm => ?_
    have hne : m ≠ n := fun k => hl (k ▸ hm)
    rw [task_leave, if_neg hne]
  have hsome (l : List (Nat × List Nat)) (hl : ∀ kv ∈ l, n ∉ kv.2) :
      (l.findSome? fun q => q.2.find? fun m => ((t.leave c n x).task m).affinity.getLsbD c)
      = l.findSome? fun q => q.2.find? fun m => (t.task m).affinity.getLsbD c := by
    induction l with
    | nil => rfl
    | cons kv l ih =>
      obtain ⟨hkv, hl⟩ := List.forall_mem_cons.mp hl
      rw [List.findSome?_cons, List.findSome?_cons, hfind _ hkv, ih hl]
  rw [pick, ready_leave]
  exact hsome _ h

/-- A task that is picked stands in a queue. -/
theorem mem_of_pick {t : TskSt} {c m : Nat} (h : t.pick c = some m) : ∃ kv ∈ t.ready, m ∈ kv.2 := by
  obtain ⟨kv, hkv, hm⟩ := List.exists_of_findSome?_eq_some h
  exact ⟨kv, hkv, List.mem_of_find?_eq_some hm⟩

theorem waiter_some {t : TskSt} {q m : Nat} (h : t.waiter q = some m) : ∃ x, (m, x) ∈ t.tasks ∧ x.st = .waiting ∧ x.queue = some q := by
  have key (l : List (Nat × Task)) (a : Option (Nat × Nat)) (r : Nat × Nat)
      (hr : l.foldl (fun (a : Option (Nat × Nat)) kv =>
        if kv.2.st ≠ .waiting ∨ kv.2.queue ≠ some q then a else
        match a with
        | none => some (kv.1, kv.2.prio)
        | some (_, p) => if kv.2.prio < p then some (kv.1, kv.2.prio) else a) a = some r) :
      a = some r ∨ ∃ x, (r.1, x) ∈ l ∧ x.st = .waiting ∧ x.queue = some q := by
    induction l generalizing a with
    | nil => exact .inl hr
    | cons kv l ih =>
      rw [List.foldl_cons] at hr
      rcases ih _ hr with hr | ⟨x, hx, hw⟩
      · split at hr
        · exact .inl hr
        · next hw =>
          have hwait : kv.2.st = .waiting ∧ kv.2.queue = some q := by tauto
          split at hr
          · cases hr
            exact .inr ⟨kv.2, List.mem_cons_self .., hwait⟩
          · split at hr
            · cases hr
              exact .inr ⟨kv.2, List.mem_cons_self .., hwait⟩
            · exact .inl hr
      · exact .inr ⟨x, List.mem_cons_of_mem _ hx, hw⟩
  obtain ⟨r, hr, rfl⟩ := Option.map_eq_some_iff.mp h
  exact (key _ _ r hr).resolve_left nofun

theorem tput_tput {α : Type} (t : Tbl α) (k : Nat) (v w : α) : tput (tput t k v) k w = tput t k w := by
  induction t with
  | nil => simp [tput]
  | cons y t ih =>
    obtain ⟨a, x⟩ := y
    by_cases hlt : k < a
    · simp [tput, hlt]
    · by_cases heq : k = a
      · simp [tput, heq]
      · simp [tput, hlt, heq, ih]

theorem filter_tput {α : Type} (t : Tbl α) (k : Nat) (v : α) :
    (tput t k v).filter (fun kv => decide (kv.1 ≠ k)) = t.filter fun kv => decide (kv.1 ≠ k) := by
  induction t with
  | nil => simp [tput]
  | cons y t ih =>
    obtain ⟨a, x⟩ := y
    by_cases hlt : k < a
    · simp [tput, hlt]
    · by_cases heq : k = a
      · simp [tput, heq]
      · rw [tput, if_neg hlt, if_neg heq, List.filter_cons, List.filter_cons, ih]

/-- The later of two writes at one key stands. -/
theorem tset_tset {α : Type} [DecidableEq α] {d : α} {t : Tbl α} {k : Nat} {v w : α} (hv : v ≠ d) :
    tset d (tset d t k v) k w = tset d t k w := by
  have hinner : tset d t k v = tput t k v := if_neg hv
  rw [hinner]
  unfold tset tsetF
  split
  · exact filter_tput ..
  · exact tput_tput ..

/-- A task that has an entry, is READY or runs, where no task waits on a queue. -/
structure served (t : TskSt) (n : Nat) (e : BitVec 64) : Prop where
  alive : t.alive n
  got : (t.task n).got = e
  unwaited : ∀ q, t.unwaited q

theorem served_deliverQ {t : TskSt} {n : Nat} {e : BitVec 64} (h : t.served n e) (q k : Nat) : (t.deliverQ q k).served n e := by
  rw [deliverQ_unwaited _ (h.unwaited q)]
  exact h

theorem unwaited_wakeUp {t : TskSt} {q : Nat} (n : Nat) (h : (t.enqueue n).unwaited q) : (t.wakeUp n).unwaited q := by
  have hd := (rests_dispatch (t := t.enqueue n) ⟨h, rfl⟩).1
  unfold wakeUp
  dsimp only
  split
  · exact hd
  · split
    · exact hd
    · split
      · exact hd
      · exact (rests_dispatch (rests_enqueue _ (rests_setCore _ _ ⟨hd, rfl⟩))).1

/-- The first entry of a queue goes to a task. -/
def hand (t : TskSt) (q n : Nat) (e : BitVec 64) (rest : List (BitVec 64)) : TskSt :=
  ({ t with queues := tset {} t.queues q { tget {} t.queues q with entries := rest } } : TskSt).setTask n { (t.task n) with got := e }

theorem tasks_hand (t : TskSt) (q n : Nat) (e : BitVec 64) (rest : List (BitVec 64)) :
    (t.hand q n e rest).tasks = tset {} t.tasks n { t.task n with got := e } := rfl

theorem tasks_enqueue (t : TskSt) (n : Nat) :
    (t.enqueue n).tasks = tset {} t.tasks n { t.task n with st := .ready, wake := none, queue := none, since := t.tick } := rfl

theorem deliverQ_hand {t : TskSt} {q n : Nat} {e : BitVec 64} {rest : List (BitVec 64)} (k : Nat) (hw : t.waiter q = some n)
    (he : (tget {} t.queues q).entries = e :: rest) : t.deliverQ q (k + 1) = ((t.hand q n e rest).wakeUp n).deliverQ q k := by
  rw [deliverQ]
  dsimp only
  rw [hw, he]
  rfl

section
variable {t : TskSt} {c n q : Nat} {x : Task} (hall : ∀ q, t.unwaited q) (hst : x.st = .waiting) (hq : x.queue = some q)
include hall hq

/-- Of the tasks after one goes to wait, it alone waits on a queue. -/
theorem leave_waits {y : Nat × Task} (hy : y ∈ (t.leave c n x).tasks) {q' : Nat} (hw : y.2.st = .waiting ∧ y.2.queue = some q') :
    y = (n, x) ∧ q' = q := by
  have hyx : y = (n, x) := (mem_tset (by rwa [leave, tasks_setCore] at hy)).resolve_left fun h => hall q' y h hw
  rw [hyx, hq] at hw
  exact ⟨hyx, (Option.some.inj hw.2).symm⟩

include hst

theorem waiter_leave : (t.leave c n x).waiter q = some n := by
  have hmem : (n, x) ∈ (t.leave c n x).tasks := by
    have htask : tget {} (t.leave c n x).tasks n = x := (task_leave ..).trans (if_pos rfl)
    have hlisted := mem_of_tget (d := ({} : Task)) (t := (t.leave c n x).tasks) (k := n) (by
      rw [htask]
      exact fun h => by rw [h] at hst; exact absurd hst (by decide))
    rwa [htask] at hlisted
  cases hw : (t.leave c n x).waiter q with
  | none => exact absurd ⟨hst, hq⟩ (waiter_none.mp hw (n, x) hmem)
  | some m =>
    obtain ⟨y, hy, hyw⟩ := waiter_some hw
    exact congrArg some (congrArg Prod.fst (leave_waits hall hq hy hyw).1)

omit hq in
/-- The task that took the first entry was the last that waited. -/
theorem unwaited_hand (e : BitVec 64) (rest : List (BitVec 64)) (q' : Nat) : (((t.leave c n x).hand q n e rest).enqueue n).unwaited q' := by
  have htask : (t.leave c n x).task n = x := (task_leave ..).trans (if_pos rfl)
  have hne : x ≠ {} := fun h => by rw [h] at hst; exact absurd hst (by decide)
  have hne' : ({ x with got := e } : Task) ≠ {} := fun h => by
    have hs := congrArg Task.st h
    rw [show ({ x with got := e } : Task).st = x.st from rfl, hst] at hs
    exact absurd hs (by decide)
  intro y hy hw
  rw [tasks_enqueue, tasks_hand, htask, leave, tasks_setCore, tset_tset hne', setTask, tset_tset hne] at hy
  rcases mem_tset hy with hy | rfl
  · exact hall q' y hy hw
  · exact absurd hw.1 nofun

/-- A task that goes to wait on a queue that has an entry takes it (R418). -/
theorem served_deliver {e : BitVec 64} {rest : List (BitVec 64)} (hh : t.halted = false)
    (he : (tget {} t.queues q).entries = e :: rest) : (t.leave c n x).deliver.served n e := by
  have hserve : ((t.leave c n x).deliverQ q (255 + 1)).served n e := by
    rw [deliverQ_hand 255 (waiter_leave hall hst hq) (by rwa [queues_leave])]
    refine served_deliverQ ⟨alive_wakeUp_self .., ?_, fun q' => unwaited_wakeUp n (unwaited_hand hall hst e rest q')⟩ ..
    rw [got_wakeUp, hand, task_setTask, if_pos rfl]
  have hpresent : ∃ y ∈ (t.leave c n x).queues, y.1 = q := by
    rw [queues_leave]
    refine ⟨_, mem_of_tget (d := {}) (k := q) fun h => ?_, rfl⟩
    rw [h] at he
    exact absurd he nofun
  have hkept (l : List (Nat × EvQueue)) {u : TskSt} (hu : u.served n e) : (l.foldl (fun t q => t.deliverQ q.1 256) u).served n e := by
    induction l generalizing u with
    | nil => exact hu
    | cons y l ih => exact ih (served_deliverQ hu ..)
  have hfold (l : List (Nat × EvQueue)) (hl : ∃ y ∈ l, y.1 = q) : (l.foldl (fun t q => t.deliverQ q.1 256) (t.leave c n x)).served n e := by
    induction l with
    | nil =>
      obtain ⟨y, hy, -⟩ := hl
      exact absurd hy List.not_mem_nil
    | cons y l ih =>
      rw [List.foldl_cons]
      by_cases hy : y.1 = q
      · rw [hy]
        exact hkept l hserve
      · rw [deliverQ_unwaited _ fun z hz hw => hy (leave_waits hall hq hz hw).2]
        refine ih ?_
        obtain ⟨z, hz, hzq⟩ := hl
        exact ⟨z, (List.mem_cons.mp hz).resolve_left fun h => hy (h ▸ hzq), hzq⟩
  unfold deliver
  rw [if_neg (by rw [halted_of_bare (bare_leave ..), hh]; decide)]
  exact hfold _ hpresent

end

end TskSt

/-- A task unit that changes but for whether firmware runs is bookkeeping. -/
theorem bare_putTsk {d : Dev} {s : Side} {t : TskSt} (h : t.started = (d.half s).tsk.started) :
    (d.mod s fun h => { h with tsk := t }).bare = d.bare := by
  cases s <;> simp only [Dev.mod, Dev.setHalf, Dev.half] at h ⊢ <;> simp only [Dev.bare, h]

/-- A row that changes a task unit, and not whether firmware runs. -/
theorem yields_unit {c : Instr} {s : State} {f : Life → Dev → Dev} {side : Side} {t : TskSt} {p : Dev → Prop} (hc : exec c s = running f s)
    (hpow : s.dev.powered = true) (hcalm : s.dev.calm)
    (hf : f s.fuse.life s.dev.mute = s.dev.mute.mod side fun h => { h with tsk := t }) (ht : t.started = (s.dev.half side).tsk.started)
    (hp : ∀ d u, d.bare = s.dev.bare → t.fed side u → (d.half side).tsk = u.deliver → p d) : Yields c s p := by
  have ht' : t.started = (s.dev.mute.half side).tsk.started := by rwa [half_mute]
  refine yields_tasks side hc hpow hf (by rw [powered_mod]; exact hpow) ?_ fun d u hd hu hdu => hp d u (hd.trans (bare_putTsk ht')) ?_ hdu
  · exact (show s.dev.mute.calm from hcalm).quiet (quiet_mod rfl ht' fun _ h => h)
  · rwa [half_mod_same] at hu

theorem started_of_bare {t u : TskSt} (h : t.bare = u.bare) : t.started = u.started := by
  have hstarted := congrArg TskSt.started h
  exact hstarted

theorem fed_bare {s : Side} {t u : TskSt} (h : t.fed s u) : u.bare = t.bare := by
  obtain ⟨qs, rfl, -⟩ := h
  rfl

theorem fed_tasks {s : Side} {t u : TskSt} (h : t.fed s u) : u.tasks = t.tasks := by
  obtain ⟨qs, rfl, -⟩ := h
  rfl

theorem fed_core {s : Side} {t u : TskSt} (h : t.fed s u) (c : Nat) : u.core c = t.core c := by
  obtain ⟨qs, rfl, -⟩ := h
  unfold TskSt.core
  split <;> rfl

theorem fed_entries {s : Side} {t u : TskSt} (h : t.fed s u) (q : Nat) : ∃ more, (tget {} u.queues q).entries = (tget {} t.queues q).entries ++ more := by
  obtain ⟨qs, rfl, hqs⟩ := h
  exact (hqs q).1

/-- A full queue takes no entry. -/
theorem fed_full {s : Side} {t u : TskSt} (h : t.fed s u) {q : Nat} (hfull : queueCap s q ≤ (tget {} t.queues q).entries.length) :
    tget {} u.queues q = tget {} t.queues q := by
  obtain ⟨qs, rfl, hqs⟩ := h
  exact (hqs q).2 hfull

/-- A task unit whose queues no task waits on is fed and delivers nothing. -/
theorem fed_deliver {s : Side} {t u : TskSt} (h : t.fed s u) (hall : ∀ q, t.unwaited q) : u.deliver = u :=
  TskSt.deliver_unwaited fun q => TskSt.unwaited_congr (fed_tasks h) (hall q)

theorem going_of_unhalted {t : TskSt} (h : t.halted = false) (c : Fin 4) : (t.core c).halted = false := by
  simp only [TskSt.halted, Bool.or_eq_false_iff] at h
  obtain ⟨⟨⟨h0, h1⟩, h2⟩, h3⟩ := h
  fin_cases c
  · exact h0
  · exact h1
  · exact h2
  · exact h3

theorem eventQueuePost_room {d : Dev} {s : Side} {q : Nat} (e : BitVec 64)
    (h : (tget {} (d.half s).tsk.queues q).entries.length < queueCap s q) :
    ∃ y : EvQueue, y.entries = (tget {} (d.half s).tsk.queues q).entries ++ [e] ∧ eventQueuePost s q e d
      = d.mod s fun h => { h with tsk := TskSt.deliver { (d.half s).tsk with queues := tset {} (d.half s).tsk.queues q y } } := by
  obtain ⟨y, hy, hpost⟩ := post_room e h
  refine ⟨y, hy, ?_⟩
  rw [eventQueuePost, hpost, mod_mod]
  rfl

/-- A full queue whose push-back is already raised counts it (R418). -/
theorem eventQueuePost_full {d : Dev} {s : Side} {q : Nat} (e : BitVec 64)
    (h : queueCap s q ≤ (tget {} (d.half s).tsk.queues q).entries.length) (hsrc : (d.page s blkTsk).src.getLsbD 5 = true) :
    ∃ y : EvQueue, y.entries = (tget {} (d.half s).tsk.queues q).entries
      ∧ y.push = min ((tget {} (d.half s).tsk.queues q).push + 1) (2 ^ 32 - 1) ∧ eventQueuePost s q e d
      = d.mod s fun h => { h with tsk := TskSt.deliver { (d.half s).tsk with queues := tset {} (d.half s).tsk.queues q y } } := by
  refine ⟨{ tget {} (d.half s).tsk.queues q with push := min ((tget {} (d.half s).tsk.queues q).push + 1) (2 ^ 32 - 1) }, rfl, rfl, ?_⟩
  unfold eventQueuePost Dev.post
  dsimp only
  rw [if_neg (Nat.not_lt.mpr h)]
  dsimp only
  rw [if_pos (by rw [page_mod]; exact hsrc), mod_mod]
  rfl

/-- Settles O47: ticks by what they count and wake, posts by the queue they join, yields by what the core takes next. -/
theorem taskUnit : Obligations.TaskUnit := by
  unfold Obligations.TaskUnit
  intro s side hpow hcalm t hh
  have ht : (s.dev.mute.half side).tsk = t := by rw [half_mute]
  refine ⟨fun tick => ?_, fun q e hw => ⟨fun hroom => ?_, fun hfull hsrc => ?_⟩, fun core n arg hrun hnone => ⟨fun hready => ⟨?_, fun e rest he => ?_⟩,
    fun hcrowd hon hqueue m hpick how hhow => ?_⟩⟩
  · let t1 : TskSt := { t with tick := max t.tick tick }
    let t2 := t1.count (tick - t.tick)
    have hh2 : t2.halted = false := (TskSt.halted_count ..).trans hh
    have hbare2 : t2.expire.bare = t2.bare := TskSt.bare_expire _
    have hrow : taskDelayExpire side tick s.dev.mute = s.dev.mute.mod side fun h => { h with tsk := t2.expire } := by
      unfold taskDelayExpire
      dsimp only
      rw [ht, if_neg (by simp [show ({ t with tick := max t.tick tick } : TskSt).halted = false from hh])]
      rfl
    have htick : t2.tick = max t.tick tick := by
      simp only [t2, TskSt.count_eq]
      rfl
    have htasks : t2.tasks = t.tasks := by
      simp only [t2, TskSt.count_eq]
      rfl
    have hstarted : t2.started = t.started := by
      simp only [t2, TskSt.count_eq]
      rfl
    refine yields_unit (f := fun _ d => taskDelayExpire side tick d) rfl hpow hcalm hrow ((started_of_bare hbare2).trans hstarted) fun d u hd hu hdu => ?_
    have hbare : (d.half side).tsk.bare = t2.bare := by
      rw [hdu, TskSt.bare_deliver, fed_bare hu, hbare2]
    refine ⟨hd, ?_, fun c => ?_, fun k w hst hwake hle => ?_⟩
    · have htk := congrArg TskSt.tick hbare
      exact htk.trans htick
    · rw [(core_of_bare hbare c).1, TskSt.core_count]
      have hcore : t1.core c = t.core c := by
        unfold TskSt.core
        split <;> rfl
      rw [hcore]
      unfold TskSt.counted
      split <;> rfl
    · have hdue : k ∈ t2.due := TskSt.mem_due (by rw [TskSt.task, htasks]; exact hst) (by rw [TskSt.task, htasks]; exact hwake) (by rwa [htick])
      have halive : t2.expire.alive k := by
        rw [TskSt.expire, if_neg (by rw [hh2]; decide)]
        exact TskSt.alive_wakeAll hdue t2
      rw [hdu]
      exact TskSt.alive_deliver (TskSt.alive_congr (fed_tasks hu) halive)
  · obtain ⟨y, hy, hrow⟩ := eventQueuePost_room (d := s.dev.mute) (s := side) e (by rwa [ht])
    rw [ht] at hy hrow
    have hrests : (TskSt.deliver { t with queues := tset {} t.queues q.val y }).rests q y :=
      TskSt.rests_deliver ⟨TskSt.waiter_none.mp hw, tget_tset_same ..⟩
    refine yields_unit (f := fun _ d => eventQueuePost side q e d) rfl hpow hcalm hrow (started_of_bare (TskSt.bare_deliver _)) fun d u hd hu hdu => ⟨hd, ?_⟩
    obtain ⟨more, hmore⟩ := fed_entries hu q
    have hend := (TskSt.rests_deliver ⟨TskSt.unwaited_congr (fed_tasks hu) hrests.1, rfl⟩ : u.deliver.rests q _).2
    rw [hdu, hend, hmore, hrests.2, hy]
    exact ⟨more, by simp⟩
  · obtain ⟨y, hy, hpush, hrow⟩ := eventQueuePost_full (d := s.dev.mute) (s := side) e (by rwa [ht]) hsrc
    rw [ht] at hy hpush hrow
    have hrests : (TskSt.deliver { t with queues := tset {} t.queues q.val y }).rests q y :=
      TskSt.rests_deliver ⟨TskSt.waiter_none.mp hw, tget_tset_same ..⟩
    refine yields_unit (f := fun _ d => eventQueuePost side q e d) rfl hpow hcalm hrow (started_of_bare (TskSt.bare_deliver _)) fun d u hd hu hdu => ⟨hd, ?_⟩
    have hfed : tget {} u.queues q = y := by
      rw [fed_full hu (by rw [hrests.2, hy]; exact hfull), hrests.2]
    have hend := (TskSt.rests_deliver ⟨TskSt.unwaited_congr (fed_tasks hu) hrests.1, rfl⟩ : u.deliver.rests q _).2
    rw [hdu, hend, hfed]
    exact ⟨hy, hpush⟩
  · have hall (q : Nat) : t.unwaited q := TskSt.waiter_none.mp (hnone q)
    let x : Task := { t.task n with st := .waiting, wake := some (t.tick + max 1 (arg % 2 ^ 24)), queue := none }
    have hidle : (t.leave core n x).deliver.dispatch = t.leave core n x := by
      rw [TskSt.deliver_unwaited fun q => TskSt.unwaited_leave _ _ (hall q) (by simp [x]), TskSt.dispatch_idle (by rw [TskSt.ready_leave, hready])]
    have hrow : taskYield side core 0 arg s.dev.mute = s.dev.mute.mod side fun h => { h with tsk := t.leave core n x } := by
      unfold taskYield
      dsimp only
      rw [ht]
      simp only [hrun]
      rw [if_neg (by rw [hh]; decide)]
      exact congrArg (fun u => s.dev.mute.mod side fun h => { h with tsk := u }) hidle
    refine yields_unit (f := fun _ d => taskYield side core 0 arg d) rfl hpow hcalm hrow (started_of_bare (TskSt.bare_leave ..)) fun d u hd hu hdu => ?_
    rw [hdu, fed_deliver hu fun q => TskSt.unwaited_leave _ _ (hall q) (by simp [x]), fed_core hu]
    refine ⟨by rw [TskSt.leave, TskSt.core_setCore]; rfl, ?_⟩
    rw [TskSt.task, fed_tasks hu]
    exact (TskSt.task_leave ..).trans (if_pos rfl)
  · have hall (q : Nat) : t.unwaited q := TskSt.waiter_none.mp (hnone q)
    let x : Task := { t.task n with st := .waiting, wake := none, queue := some (arg % 64) }
    have hrow : taskYield side core 1 arg s.dev.mute = s.dev.mute.mod side fun h => { h with tsk := (t.leave core n x).deliver.dispatch } := by
      unfold taskYield
      dsimp only
      rw [ht]
      simp only [hrun]
      rw [if_neg (by rw [hh]; decide)]
      rfl
    have hserved : (t.leave core n x).deliver.served n e := TskSt.served_deliver hall rfl rfl hh he
    have halive : (t.leave core n x).deliver.dispatch.alive n := TskSt.alive_dispatch hserved.alive
    refine yields_unit (f := fun _ d => taskYield side core 1 arg d) rfl hpow hcalm hrow
      (started_of_bare ((TskSt.bare_dispatch _).trans ((TskSt.bare_deliver _).trans (TskSt.bare_leave ..)))) fun d u hd hu hdu => ?_
    rw [hdu, fed_deliver hu fun q => (TskSt.rests_dispatch ⟨hserved.unwaited q, rfl⟩).1, TskSt.task, fed_tasks hu]
    refine ⟨(TskSt.got_dispatch ..).trans hserved.got, fun hwait => ?_⟩
    rcases halive with h | h
    · exact absurd (hwait.symm.trans h) nofun
    · exact absurd (hwait.symm.trans h) nofun
  · have hall (q : Nat) : t.unwaited q := TskSt.waiter_none.mp (hnone q)
    let x : Task := { t.task n with st := .dormant, wake := none, queue := none }
    have hunw (q : Nat) : (t.leave core n x).unwaited q := TskSt.unwaited_leave _ _ (hall q) (by simp [x])
    have hcores (k : Fin 4) (hk : k ≠ core) : (t.leave core n x).core k = t.core k := by
      rw [TskSt.leave, TskSt.core_setCore_ne _ _ hk, TskSt.core_setTask]
    have hfree : (t.leave core n x).core core = (t.core core).free t.tick := by rw [TskSt.leave, TskSt.core_setCore]
    have hgoing : (t.core core).halted = false := going_of_unhalted hh core
    have hpick' : (t.leave core n x).pick core = some m := (TskSt.pick_leave _ _ hqueue).trans hpick
    have hserve := TskSt.dispatch_crowded (t := t.leave core n x) (c := core) (m := m) (fun k hk => by rw [hcores k hk]; exact hcrowd k hk)
      (by rw [hfree]; exact hon) (by rw [hfree]; exact hgoing) (by rw [hfree]; rfl) hpick'
    obtain ⟨u, htasks, -, -, hend⟩ := TskSt.serve_free (t := t.leave core n x) (c := core) (m := m)
      (by rw [hfree]; exact hon) (by rw [hfree]; exact hgoing) (by rw [hfree]; rfl) hpick'
    have hm : m ≠ n := fun hmn => by
      obtain ⟨kv, hkv, hin⟩ := TskSt.mem_of_pick hpick
      exact hqueue kv hkv (hmn ▸ hin)
    have hrow : taskYield side core how arg s.dev.mute = s.dev.mute.mod side fun h => { h with tsk := (t.leave core n x).deliver.dispatch } := by
      unfold taskYield
      dsimp only
      rw [ht]
      simp only [hrun]
      rw [if_neg (by rw [hh]; decide)]
      obtain ⟨j, rfl⟩ := Nat.exists_eq_add_of_le hhow
      rw [Nat.add_comm]
      rfl
    rw [TskSt.deliver_unwaited hunw] at hrow
    have hunw' (q : Nat) := (TskSt.rests_dispatch (t := t.leave core n x) (q := q) ⟨hunw q, rfl⟩).1
    refine yields_unit (f := fun _ d => taskYield side core how arg d) rfl hpow hcalm hrow
      (started_of_bare ((TskSt.bare_dispatch _).trans (TskSt.bare_leave ..))) fun d v hd hv hdv => ⟨hd, ?_⟩
    rw [hdv, fed_deliver hv hunw', fed_core hv, TskSt.task, TskSt.task, fed_tasks hv]
    have hstands (k : Nat) : tget {} (t.leave core n x).dispatch.tasks k = (t.leave core n x).dispatch.task k := rfl
    rw [hstands, hstands, hserve, hend, TskSt.core_setCore, TskSt.task_setCore, TskSt.task_setCore, TskSt.task_setTask, if_pos rfl,
      TskSt.task_setTask, if_neg (Ne.symm hm)]
    refine ⟨rfl, rfl, ?_⟩
    rw [TskSt.task, htasks]
    exact congrArg Task.st ((TskSt.task_leave ..).trans (if_pos rfl))

end Sys2Proof.Machine
end

section
/-! PROOFS. Self-test: outcomes that every command keeps, tests and slices (chapter 18). -/
namespace Sys2Proof.Machine
open Sys2Proof.Safety

/-! ## Whom the front end can still answer -/

/-- What decides whom the front end reaches: its link and its sessions. -/
def Dev.front (d : Dev) : Bool × List Session := (d.hst.linkUp, d.sessions)

theorem reaches_of_front {d e : Dev} {r : Reply} (h : d.reaches r) (hf : e.front = d.front) : e.reaches r :=
  reaches_of_hst h (congrArg Prod.fst hf) (congrArg Prod.snd hf)

theorem front_mod (d : Dev) (s : Side) (f : Half → Half) : (d.mod s f).front = d.front := by cases s <;> rfl

theorem front_setRg (d : Dev) (n : Nat) (r : Rg) (i : Nat) (v : Word) : (d.setRg n r i v).front = d.front := rfl

theorem front_setRf (d : Dev) (n : Nat) (r : Rg) (i hi lo v : Nat) : (d.setRf n r i hi lo v).front = d.front := rfl

theorem front_bump (d : Dev) (n : Nat) (r : Rg) (i hi lo k : Nat) : (d.bump n r i hi lo k).front = d.front := rfl

theorem front_resetRg (d : Dev) (n : Nat) (r : Rg) : (d.resetRg n r).front = d.front := rfl

theorem front_raise (d : Dev) (s : Side) (b i : Nat) : (d.raise s b i).front = d.front := by
  have hlink := congrArg (fun d : Dev => d.hst.linkUp) (bare_raise d s b i)
  exact Prod.ext hlink (sessions_raise ..)

theorem front_ldrAppend (d : Dev) (type key : Nat) (x : LdrData) : (d.ldrAppend type key x).front = d.front := by
  have hlink := congrArg (fun d : Dev => d.hst.linkUp) (sans_ldrAppend d type key x)
  exact Prod.ext hlink (sessions_ldrAppend ..)

theorem front_foldl {α : Type} (l : List α) (f : Dev → α → Dev) (h : ∀ d x, (f d x).front = d.front) (d : Dev) :
    (l.foldl f d).front = d.front := by
  induction l generalizing d with
  | nil => rfl
  | cons x l ih => exact (ih _).trans (h d x)

/-- A new MODE leaves whom the front end can answer. -/
theorem front_quadRestart (d : Dev) (s : Side) (q mode : Nat) : (d.quadRestart s q mode).front = d.front := by
  have hdraw (d : Dev) : d.draw.front = d.front := rfl
  have hkeep (d : Dev) : (d.keepPrbs s q).front = d.front := by
    unfold Dev.keepPrbs
    rw [hdraw]
    exact front_foldl quads _ (fun d l => front_setRg ..) d
  have hdrop (d : Dev) : (d.dropLanes s q).front = d.front := by
    unfold Dev.dropLanes
    exact front_foldl quads _ (fun d l => (front_setRg ..).trans (front_setRg ..)) d
  have hleaves (d : Dev) : (d.quadLeaves s q).front = d.front := by
    unfold Dev.quadLeaves
    split
    · rw [front_raise]
      split
      · exact hkeep d
      · rfl
    · rfl
  exact (front_mod ..).trans ((hdrop _).trans (hleaves d))

theorem front_stwStart (d : Dev) (s : Side) (fresh : Bool) : (d.stwStart s fresh).front = d.front := by
  unfold Dev.stwStart
  split
  · rfl
  · exact front_mod ..

/-- No self-test changes whom the front end can answer (R474). -/
theorem front_bistEffect (d : Dev) (test arg : Nat) (agrees : Bool) : (d.bistEffect test arg agrees).front = d.front := by
  have hsoft (d : Dev) (s : Side) (line : Nat) : (d.softRepair s line).front = d.front := by
    unfold Dev.softRepair
    dsimp only
    split
    · exact (front_ldrAppend ..).trans ((front_mod ..).trans (front_raise ..))
    · exact (front_raise ..).trans (front_raise ..)
  have hclear (d : Dev) : d.clearArray.front = d.front := by
    unfold Dev.clearArray
    dsimp only
    rw [front_resetRg, front_resetRg, front_foldl _ _ (fun d f => front_resetRg ..), front_mod, front_mod]
    rfl
  have hfaulty (d : Dev) (memory die row : Nat) : (d.faultyRow memory die row).front = d.front := rfl
  have hseam (d : Dev) (seam : Nat) : (d.seamFault seam).front = d.front := by
    have hcond (d : Dev) (s : Side) (b i : Nat) : (d.condOn s b i).front = d.front := front_raise ..
    unfold Dev.seamFault
    dsimp only
    rw [hcond, front_setRf, front_setRf]
  have hdraw (d : Dev) : d.draw.front = d.front := rfl
  unfold Dev.bistEffect
  dsimp only
  split
  · split
    · rfl
    · split
      · exact (hsoft ..).trans (hfaulty ..)
      · exact (front_raise ..).trans (hfaulty ..)
  · split
    · exact hclear d
    · exact (hfaulty ..).trans (hclear d)
  · exact hclear d
  · split
    · rfl
    · exact hseam ..
  · split
    · exact (front_stwStart ..).trans (front_stwStart ..)
    · exact front_quadRestart ..
  · split
    · rfl
    · exact (hdraw _).trans (front_raise ..)
  · rfl
  · rfl

/-! ## The outcome of a self-test (R475, R480) -/

/-- The registers of an outcome, written. -/
def Dev.outcomeWords (d : Dev) (last lo hi : Word) : Dev :=
  Dev.setRg (Dev.setRg (d.setRg 0 .safeBistLast 0 last) 0 .safeBistSigLo 0 lo) 0 .safeBistSigHi 0 hi

/-- The outcome of a test or slice, written. -/
def Dev.logged (d : Dev) (side : Side) (kind unit pass : Nat) (signature : BitVec 64) : Dev :=
  d.outcomeWords (pack [(31, 1), (30, pass), (29, side.code), (25, kind), (0, unit)]) (signature.truncate 32)
    (BitVec.ofNat 32 (signature.toNat / 2 ^ 32))

theorem bare_outcomeWords {d e : Dev} (h : d.bare = e.bare) (last lo hi : Word) : (d.outcomeWords last lo hi).bare = (e.outcomeWords last lo hi).bare := by
  have houtcome := congrArg (fun d : Dev => d.outcomeWords last lo hi) h
  exact houtcome

theorem bare_bumped {d e : Dev} (h : d.bare = e.bare) (r : Rg) (i hi lo n : Nat) : (d.bump 0 r i hi lo n).bare = (e.bump 0 r i hi lo n).bare := by
  have hbump := congrArg (fun d : Dev => d.bump 0 r i hi lo n) h
  exact hbump

theorem pages_outcomeWords (d : Dev) (last lo hi : Word) : (d.outcomeWords last lo hi).pages = d.pages := by simp [Dev.outcomeWords]

theorem quiet_outcomeWords (d : Dev) (last lo hi : Word) : d.quiet (d.outcomeWords last lo hi) :=
  ((quiet_setRg ..).trans (quiet_setRg ..)).trans (quiet_setRg ..)

/-- What the outcome's registers show. -/
theorem stay_outcomeWords (d : Dev) (last lo hi : Word) : (d.outcomeWords last lo hi).stay.2 = (last, lo, hi) := by
  have hlast : (d.outcomeWords last lo hi).rg 0 .safeBistLast = last := by
    rw [Dev.outcomeWords, rg_setRg_ne, rg_setRg_ne, rg_setRg_same]
    · exact fun h => absurd ((regKey_inj (by decide) (by decide)).mp h).2.1 (by decide)
    · exact fun h => absurd ((regKey_inj (by decide) (by decide)).mp h).2.1 (by decide)
  have hlo : (d.outcomeWords last lo hi).rg 0 .safeBistSigLo = lo := by
    rw [Dev.outcomeWords, rg_setRg_ne, rg_setRg_same]
    exact fun h => absurd ((regKey_inj (by decide) (by decide)).mp h).2.1 (by decide)
  have hhi : (d.outcomeWords last lo hi).rg 0 .safeBistSigHi = hi := rg_setRg_same ..
  simp only [Dev.stay, hlast, hlo, hhi]

theorem bistLast_eq (d : Dev) (side : Side) (kind : Nat) {unit : Nat} (signature : BitVec 64) (pass : Bool) (h : unit < 65536) :
    d.bistLast (decide (side = .e)) kind unit signature pass
      = if pass then d.logged side kind unit 1 signature else ((d.logged side kind unit 0 signature).bump 0 .safeBistStatus 0 31 16).raise .w blkSafe 2 := by
  have hside : b1 (decide (side = .e)) = side.code := by cases side <;> rfl
  unfold Dev.bistLast Dev.logged Dev.outcomeWords
  rw [Nat.mod_eq_of_lt h, hside]
  cases pass <;> simp only [b1, if_true, Bool.false_eq_true, if_false]

theorem stay_logged (d e : Dev) (side : Side) (kind unit pass : Nat) (signature : BitVec 64) :
    (d.logged side kind unit pass signature).stay.2 = (e.logged side kind unit pass signature).stay.2 :=
  (stay_outcomeWords ..).trans (stay_outcomeWords ..).symm

theorem front_outcomeWords (d : Dev) (last lo hi : Word) : (d.outcomeWords last lo hi).front = d.front :=
  (front_setRg ..).trans ((front_setRg ..).trans (front_setRg ..))

theorem front_bistLast (d : Dev) (side : Side) (kind : Nat) {unit : Nat} (signature : BitVec 64) (pass : Bool) (h : unit < 65536) :
    (d.bistLast (decide (side = .e)) kind unit signature pass).front = d.front := by
  rw [bistLast_eq d side kind signature pass h]
  cases pass with
  | true => exact front_outcomeWords ..
  | false =>
    rw [if_neg Bool.false_ne_true]
    exact (front_raise ..).trans ((front_bump ..).trans (front_outcomeWords ..))

theorem stay_bistLast (d : Dev) (side : Side) (kind : Nat) {unit : Nat} (signature : BitVec 64) (pass : Bool) (h : unit < 65536) :
    (d.bistLast (decide (side = .e)) kind unit signature pass).stay = (d.logged side kind unit (b1 pass) signature).stay := by
  rw [bistLast_eq d side kind signature pass h]
  cases pass with
  | true => rfl
  | false =>
    have hbump (d : Dev) : (d.bump 0 .safeBistStatus 0 31 16).firm = d.firm := firm_bump _ _ _ _ _ (by decide) (by decide)
    rw [if_neg Bool.false_ne_true]
    exact stay_of_firm ((firm_raise ..).trans (hbump _))

/-- The registers of an outcome, read from what every command keeps. -/
theorem outcome_of_stay {d e : Dev} (h : d.stay.2 = e.stay.2) : ∀ r ∈ [Rg.safeBistLast, .safeBistSigLo, .safeBistSigHi], d.rg 0 r = e.rg 0 r := by
  simp only [Dev.stay, Prod.mk.injEq] at h
  obtain ⟨hlast, hlo, hhi⟩ := h
  simp [hlast, hlo, hhi]

theorem bistArg_bound {test arg : Nat} (h : bistArgOk test arg = true) : test < 65536 := by
  unfold bistArgOk at h
  split at h
  case h_11 => exact absurd h Bool.false_ne_true
  all_goals decide

section
variable {s : State} {h : Hdr} {test arg : Nat} {signature : BitVec 64} {agrees : Bool}

/-- A test that nothing refuses is run, logged and answered (R473 to R475). -/
theorem bistRunBody_eq {d : Dev} {life : Life} {r : Reply} (hlife : life.open = true) (harg : bistArgOk test arg = true)
    (hw : d.west.locked = false) (he : d.east.locked = false) (hrw : d.west.reset = 0) (hre : d.east.reset = 0)
    (hcfg : test = 3 ∨ test = 4 → d.cfg.state = 0) (hreleased : test = 5 → d.released = false)
    (hlink : test = 7 → if arg = 8 then d.west.stw.state ≠ 2 else d.quadMode (bistSide test arg) (arg % 4) = 0) :
    let pass := agrees && (test ≠ 10 || (d.bistEffect test arg agrees).safe.faulty.isEmpty)
    bistRunBody test arg signature agrees life r d
      = ((d.bistEffect test arg agrees).bistLast (decide (bistSide test arg = .e)) 0 test signature pass).finish life r stOk
          (beBytes 1 (b1 pass) ++ beBytes 7 0 ++ beBytes 8 signature.toNat) := by
  intro pass
  have hreset (x : Side) : (d.half x).reset = 0 := by
    cases x
    · exact hrw
    · exact hre
  unfold bistRunBody
  dsimp only
  rw [if_neg (by simp [hlife]), if_neg (by simp [harg])]
  have hnone (m : BitVec 12) : ¬ ((d.half (bistSide test arg)).reset &&& m ≠ 0 ∨ test = 9 ∧ d.east.reset ≠ 0) := by
    rw [hreset, hre]
    simp
  rw [if_neg, if_neg (hnone _)]
  · rw [hw, he, Bool.false_or, Bool.false_or, Bool.not_eq_true]
    split
    · exact decide_eq_false fun h => h (hcfg (.inl rfl))
    · exact decide_eq_false fun h => h (hcfg (.inr rfl))
    · exact hreleased rfl
    · have hl := hlink rfl
      split
      · next h8 =>
        rw [if_pos h8] at hl
        exact decide_eq_false hl
      · next h8 =>
        rw [if_neg h8] at hl
        exact decide_eq_false fun h => h hl
    · rfl

end

/-- A request that ends in a response: what every command keeps of the outcome, too. -/
theorem yields_finishStaying {c : Instr} {s : State} {h : Hdr} {o : OpRow} {far : Bool} {body : Body} {st : Nat} {pl : List Byte} {e : Dev}
    {p : Dev → Prop} (hc : exec c s = running (fun life d => hoist o far h body life d) s) (k : Admits s h o.code o.required o.fw far)
    (hb : body s.fuse.life (s.dev.replyTo o.code h) (s.dev.accepted h) = e.finish s.fuse.life (s.dev.replyTo o.code h) st pl)
    (hr : e.reaches (s.dev.replyTo o.code h)) (hs : st ≠ stWrong)
    (hp : ∀ t, t.stay = e.stay → t.tells (s.dev.replyTo o.code h) st pl → p t) : Yields c s p := by
  refine yields_staying (hc.trans (running_eq_commit _ k.powered)) fun t ht hstay => ?_
  have hrow := (hoist_of_admits body k).trans hb
  rw [show ({ s.dev with out := [] } : Dev) = s.dev.mute from rfl, hrow] at ht hstay
  exact hp t (hstay.trans (stay_of_firm (firm_finish ..))) (tells_grows ht.grows (tells_finish _ _ _ hr hs))

/-- A slice that ends: it is in progress no longer, and its outcome is logged (R480). -/
theorem bistSlice_ends {d : Dev} {life : Life} {side : Side} {kind unit : Nat} {agrees : Bool} (signature : BitVec 64)
    (hslice : d.slice side = some { side := side, kind := kind, unit := unit }) (hunit : unit < 65536) (hk : agrees = true ∨ kind ≠ 5) :
    bistSlice life side kind unit (some { signature := signature, agrees := agrees }) d
      = if agrees then (d.abandon side).logged side kind unit 1 signature
        else (((d.abandon side).logged side kind unit 0 signature).bump 0 .safeBistStatus 0 31 16).raise .w blkSafe 2 := by
  have hsame : (decide (kind = 5) && !agrees) = false := by
    rcases hk with hk | hk
    · rw [hk, Bool.not_true, Bool.and_false]
    · rw [decide_eq_false hk, Bool.false_and]
  unfold bistSlice
  dsimp only
  rw [if_neg (by rw [hslice]; exact fun h => h rfl), hsame, bistLast_eq _ _ _ _ _ hunit]
  rfl

/-- A slice that ends and agrees. -/
theorem slice_agrees {s : State} {side : Side} {kind unit : Nat} {signature : BitVec 64} (hpow : s.dev.powered = true) (hcalm : s.dev.calm)
    (hslice : s.dev.slice side = some { side := side, kind := kind, unit := unit }) (hunit : unit < 65536) :
    Yields (.bistSlice side kind unit (some { signature := signature })) s fun d =>
      d.bare = ((s.dev.abandon side).logged side kind unit 1 signature).bare := by
  have hrow := bistSlice_ends (d := s.dev.mute) (life := s.fuse.life) (agrees := true) signature hslice hunit (.inl rfl)
  rw [if_pos rfl] at hrow
  refine yields_quiet (f := fun life d => bistSlice life side kind unit (some { signature := signature }) d) rfl hpow hcalm hrow
    ((quiet_abandon ..).trans (quiet_outcomeWords ..)) fun d hd _ => ?_
  exact hd.trans (bare_outcomeWords rfl ..)

theorem page_bump (d : Dev) (n : Nat) (r : Rg) (i hi lo k : Nat) (s : Side) (b : Nat) : (d.bump n r i hi lo k).page s b = d.page s b := rfl

theorem quiet_counted {d : Dev} (h : d.mild .w blkSafe 2) : d.quiet ((d.bump 0 .safeBistStatus 0 31 16).raise .w blkSafe 2) :=
  (quiet_bump ..).trans (quiet_mildRaise (mild_of_severity (by rw [page_bump]) (by rw [page_bump]) h))

/-- What differs is counted and raised (R480). -/
theorem yields_counted {c : Instr} {s : State} {f : Life → Dev → Dev} {d e : Dev} (hc : exec c s = running f s) (hpow : s.dev.powered = true)
    (hcalm : s.dev.calm) (hf : f s.fuse.life s.dev.mute = (d.bump 0 .safeBistStatus 0 31 16).raise .w blkSafe 2) (hq : s.dev.mute.quiet d)
    (hbare : d.bare = e.bare) (hpages : d.pages = s.dev.pages) (hmild : s.dev.mild .w blkSafe 2)
    (hen : (s.dev.page .w blkSafe).enable.getLsbD 2 = true) :
    Yields c s fun t => t.bare = (e.bump 0 .safeBistStatus 0 31 16).bare ∧ (t.page .w blkSafe).src.getLsbD 2 = true := by
  have hm : d.mild .w blkSafe 2 :=
    mild_of_severity (congrArg Page.severity (page_of_pages hpages ..)) (congrArg Page.severity (page_of_pages hpages ..)) hmild
  refine yields_quiet hc hpow hcalm hf (hq.trans (quiet_counted hm)) fun t ht hg => ⟨ht.trans ((bare_raise ..).trans (bare_bumped hbare ..)), ?_⟩
  refine (hg.1 .w blkSafe).2.2 2 (raise_src _ _ _ _ nofun (by decide) (by decide) ?_)
  rw [page_bump, page_of_pages hpages]
  exact hen

/-- A slice that ends and differs is counted and raised. -/
theorem slice_differs {s : State} {side : Side} {kind unit : Nat} {signature : BitVec 64} (hpow : s.dev.powered = true) (hcalm : s.dev.calm)
    (hslice : s.dev.slice side = some { side := side, kind := kind, unit := unit }) (hunit : unit < 65536) (hkind : kind ≠ 5)
    (hmild : s.dev.mild .w blkSafe 2) (hen : (s.dev.page .w blkSafe).enable.getLsbD 2 = true) :
    Yields (.bistSlice side kind unit (some { signature := signature, agrees := false })) s fun d =>
      d.bare = (((s.dev.abandon side).logged side kind unit 0 signature).bump 0 .safeBistStatus 0 31 16).bare
        ∧ (d.page .w blkSafe).src.getLsbD 2 = true := by
  have hrow := bistSlice_ends (d := s.dev.mute) (life := s.fuse.life) (agrees := false) signature hslice hunit (.inr hkind)
  rw [if_neg Bool.false_ne_true] at hrow
  exact yields_counted (f := fun life d => bistSlice life side kind unit (some { signature := signature, agrees := false }) d) rfl hpow hcalm
    hrow ((quiet_abandon ..).trans (quiet_outcomeWords ..)) (bare_outcomeWords (d := s.dev.mute.abandon side) (e := s.dev.abandon side) rfl ..)
    (pages_outcomeWords ..) hmild hen

/-- Settles O56: each test by its outcome, a slice by its start and its end. -/
theorem selfTest : Obligations.SelfTest := by
  unfold Obligations.SelfTest
  intro s signature
  refine ⟨fun h test arg k hlife harg hw he hrw hre hcfg hreleased hlink => ?_, fun side kind unit hpow hcalm => ?_⟩
  · let d := s.dev.accepted h
    have hhalf (x : Side) : d.half x = s.dev.half x := half_accepted ..
    have hwest : d.west = s.dev.west := hhalf .w
    have heast : d.east = s.dev.east := hhalf .e
    have hbare : d.bare = s.dev.bare := accepted_bare ..
    have hsafe : d.safe.repair = s.dev.safe.repair := by
      show (s.dev.accepted h).safe.repair = _
      unfold Dev.accepted
      cases h.sealed <;> rfl
    have hcfg' : d.cfg = s.dev.cfg := by
      have hc := congrArg Dev.cfg hbare
      exact hc
    have hreleased' : d.released = s.dev.released := by
      have hr := congrArg Dev.released hbare
      exact hr
    have hmode (x : Side) (q : Nat) : d.quadMode x q = s.dev.quadMode x q := by
      have hr := congrArg (fun d : Dev => d.quadMode x q) hbare
      exact hr
    have hbody (agrees : Bool) := bistRunBody_eq (signature := signature) (agrees := agrees) (d := d) (r := s.dev.replyTo 0x90 h)
      hlife harg (by rw [hwest]; exact hw) (by rw [heast]; exact he) (by rw [hwest]; exact hrw) (by rw [heast]; exact hre)
      (by rw [hcfg']; exact hcfg) (by rw [hreleased']; exact hreleased) (by rw [hwest, hmode]; exact hlink)
    refine ⟨fun agrees => ?_, fun htest => ?_⟩
    · have hpass : (agrees && (test ≠ 10 || (d.bistEffect test arg agrees).safe.faulty.isEmpty))
          = (agrees && (decide (test ≠ 10) || s.dev.safe.repair.faulty.isEmpty)) := by
        by_cases h10 : test = 10
        · subst h10
          rw [← hsafe]
          rfl
        · simp [h10]
      have hb := hbody agrees
      rw [hpass, show beBytes 7 0 = List.replicate 7 0#8 by decide] at hb
      refine yields_finishStaying (o := { code := 0x90 }) rfl k hb ?_ (by decide) fun t ht htells => ⟨htells, ?_⟩
      · exact reaches_of_front (reaches_accepted _ k.takes)
          ((front_bistLast _ _ _ _ _ (bistArg_bound harg)).trans (front_bistEffect d test arg agrees))
      · refine outcome_of_stay ?_
        rw [ht, stay_bistLast _ _ _ _ _ (bistArg_bound harg)]
        exact stay_logged ..
    · have hkeep : d.bistEffect test arg true = d := by
        simp only [List.mem_cons, List.not_mem_nil, or_false] at htest
        rcases htest with rfl | rfl | rfl | rfl | rfl | rfl <;> rfl
      have hpass : (true && (test ≠ 10 || (d.bistEffect test arg true).safe.faulty.isEmpty)) = true := by
        have h10 : test ≠ 10 := by
          rintro rfl
          exact absurd htest (by decide)
        simp [h10]
      have hb := hbody true
      rw [hpass, hkeep] at hb
      dsimp only at hb
      rw [bistLast_eq _ _ _ _ _ (bistArg_bound harg), if_pos rfl, show beBytes 7 0 = List.replicate 7 0#8 by decide,
        show beBytes 1 (b1 true) = [1#8] by decide] at hb
      exact answers_of_finish (o := { code := 0x90 }) rfl k hb (bare_outcomeWords (d := d) rfl ..)
        ((calm_accepted k).quiet (quiet_outcomeWords ..)) (reaches_of_front (reaches_accepted _ k.takes) (front_outcomeWords ..)) (by decide)
  · refine ⟨fun hlife hst hgo hq hflush hsweep hcals hreset hsafe hslice hunit => ?_, fun hslice hunit => ⟨?_, fun hkind hmild hen => ?_⟩⟩
    · have hallowed : s.dev.mute.sliceAllowed s.fuse.life side = true := by
        have hnone : s.dev.mute.slice side = none := hslice
        simp [Dev.sliceAllowed, half_mute, hlife, hst, hgo, hq, hflush, hsweep, hreset, hnone]
        exact ⟨hcals, hsafe⟩
      have hrow : bistSlice s.fuse.life side kind unit none s.dev.mute
          = { s.dev.mute with safe := { s.dev.mute.safe with slices := { side := side, kind := kind, unit := unit } :: s.dev.mute.safe.slices } } := by
        unfold bistSlice
        dsimp only
        rw [hallowed, hunit]
        rfl
      exact yields_quiet (f := fun life d => bistSlice life side kind unit none d) rfl hpow hcalm hrow ⟨id, rfl, id, fun _ => id⟩ fun d hd _ => hd
    · exact slice_agrees hpow hcalm hslice hunit
    · exact slice_differs hpow hcalm hslice hunit hkind hmild hen

end Sys2Proof.Machine
end

section
/-! PROOFS. The SAFE net: what its assertion leaves of the sequencers, its own page, and its release (chapter 18). -/
namespace Sys2Proof.Machine
open Sys2Proof.Safety

/-! ## What every command leaves of the SAFE net's own page -/

/-- The sources and requests that the SAFE net's page shows. -/
def Dev.safeMarks (d : Dev) : BitVec 16 × BitVec 16 := ((d.page .w blkSafe).src, (d.page .w blkSafe).req)

theorem safeMarks_of_pages {d e : Dev} (h : e.pages = d.pages) : e.safeMarks = d.safeMarks := by
  simp only [Dev.safeMarks, page_of_pages h]

@[simp] theorem safeMarks_event (d : Dev) (c s a : Nat) : (d.event c s a).safeMarks = d.safeMarks :=
  safeMarks_of_pages (by simp only [Dev.event])

@[simp] theorem safeMarks_send (d : Dev) (f : Frame) : (d.send f).safeMarks = d.safeMarks := by
  have htransmit (d : Dev) (f : Frame) : (d.transmit f).safeMarks = d.safeMarks := by
    unfold Dev.transmit
    extract_lets keys
    split <;> rfl
  unfold Dev.send
  split
  · exact htransmit ..
  · split
    · rfl
    · exact htransmit ..

@[simp] theorem safeMarks_closeSession (d : Dev) (i r : Nat) (f : Bool) : (d.closeSession i r f).safeMarks = d.safeMarks := by
  unfold Dev.closeSession
  split
  · rfl
  · dsimp only
    rw [safeMarks_event]
    split
    · exact safeMarks_send d _
    · rfl

theorem safeMarks_setPage {d : Dev} {s : Side} {b : Nat} {p : Page}
    (h : pageKey .w blkSafe = pageKey s b → p.src = (d.page s b).src ∧ p.req = (d.page s b).req) :
    (d.setPage s b p).safeMarks = d.safeMarks := by
  by_cases hk : pageKey .w blkSafe = pageKey s b
  · obtain ⟨hsrc, hreq⟩ := h hk
    simp only [Dev.safeMarks, page_setPage_key _ _ _ _ _ _ hk, page_congr d hk, hsrc, hreq]
  · simp only [Dev.safeMarks, page_setPage_ne _ _ _ _ _ _ hk]

theorem safeMarks_mod (d : Dev) (s : Side) (f : Half → Half) : (d.mod s f).safeMarks = d.safeMarks :=
  safeMarks_of_pages (by cases s <;> rfl)

/-- A full queue raises a source of its own page, which is not the net's. -/
theorem safeMarks_post (d : Dev) (s : Side) (q : Nat) (e : BitVec 64) : (d.post s q e).1.safeMarks = d.safeMarks := by
  have hraise (d : Dev) : (d.raiseQuiet s blkTsk 5).safeMarks = d.safeMarks := by
    have hset (d : Dev) (p : Page) : (d.setPage s blkTsk p).safeMarks = d.safeMarks :=
      safeMarks_setPage fun h => by cases s <;> exact absurd h (by decide)
    unfold Dev.raiseQuiet
    split
    · rfl
    · dsimp only
      split
      · rfl
      · split <;> simp [hset]
  unfold Dev.post
  dsimp only
  split
  · exact safeMarks_mod ..
  · dsimp only
    split
    · exact safeMarks_mod ..
    · rw [hraise, safeMarks_mod]

theorem safeMarks_foldl {α : Type} (l : List α) (f : Dev → α → Dev) (h : ∀ d x, (f d x).safeMarks = d.safeMarks) (d : Dev) :
    (l.foldl f d).safeMarks = d.safeMarks := by
  induction l generalizing d with
  | nil => rfl
  | cons x l ih => rw [List.foldl_cons, ih, h]

@[simp] theorem safeMarks_retryHeld (d : Dev) (s : Side) : (d.retryHeld s).safeMarks = d.safeMarks := by
  unfold Dev.retryHeld
  refine safeMarks_foldl _ _ (fun d kv => ?_) d
  split
  · rfl
  · refine safeMarks_foldl _ _ (fun d i => ?_) d
    split
    · rfl
    · split
      · refine (safeMarks_setPage fun _ => ?_).trans (safeMarks_post ..)
        exact ⟨rfl, rfl⟩
      · rfl

@[simp] theorem safeMarks_reportStates (d : Dev) : d.reportStates.safeMarks = d.safeMarks := by
  have hhst (d : Dev) (x : HstSt) : ({ d with hst := x } : Dev).safeMarks = d.safeMarks := rfl
  unfold Dev.reportStates
  dsimp only
  split <;> split <;> split <;> simp [hhst]

theorem pages_safeNet {d : Dev} (life : Life) (h : d.calm) : (d.safeNet life).pages = d.pages := by
  unfold Dev.safeNet
  split
  next hw ha => exact absurd (h.1 hw) (by simp [ha])
  all_goals rfl

/-- What a calm module's commands leave in order raises nothing on the net's page. -/
theorem safeMarks_settle {d : Dev} (life : Life) (h : d.calm) : (d.settle life).safeMarks = d.safeMarks := by
  have hspent (d : Dev) : d.spentSessions.safeMarks = d.safeMarks := by
    unfold Dev.spentSessions
    refine safeMarks_foldl _ _ (fun d x => ?_) d
    split <;> simp
  unfold Dev.settle
  split
  · rfl
  · dsimp only
    rw [safeMarks_reportStates, safeMarks_mod, safeMarks_mod, safeMarks_retryHeld, safeMarks_retryHeld, hspent, pathLost_eq d life h,
      journalEnd_eq d h, safeMarks_of_pages (pages_safeNet life h)]

/-! ## The assertion of the net -/

/-- What the net's assertion leaves of a sequencer: no ARM work, no burst and no arming, and a burst or an arming that no ARM work
stood for is ABORTED (R130, R135, R465). -/
def FaceSt.stilled (f g : FaceSt) : Prop :=
  g.arming = false ∧ g.active = false ∧ (f.active = true → f.arming = false → g.state = .aborted)

theorem Half.aborted_of_active {h : Half} (hactive : h.face.active = true) : (h.abort 9).face.state = .aborted := by
  unfold Half.abort
  dsimp only
  split
  · rfl
  next hb =>
    have harmed : h.face.state = .armed := by simpa [FaceSt.active, hb] using hactive
    rw [if_neg (by simp [FaceSt.flushing, hactive]), if_pos ⟨harmed, .inr rfl⟩]

theorem Half.state_abort_idle {h : Half} (cause : Nat) (hidle : h.face.active = false) : (h.abort cause).face.state = h.face.state := by
  obtain ⟨harmed, hb⟩ : h.face.state ≠ .armed ∧ h.face.bursting = false := by simpa [FaceSt.active] using hidle
  unfold Half.abort
  dsimp only
  rw [if_neg (by simp [hb])]
  split
  · rfl
  · rw [if_neg fun hc => harmed hc.1]

theorem Half.arming_abort (h : Half) (cause : Nat) : (h.abort cause).face.arming = h.face.arming := by
  unfold Half.abort
  dsimp only
  split
  · rfl
  · split
    · rfl
    · split <;> rfl

theorem Half.stopped_arming (h : Half) : (h.stopArming true).face.arming = false ∧ (h.stopArming true).face.active = false := by
  unfold Half.stopArming
  exact ⟨rfl, rfl⟩

/-- An abort with cause SAFE leaves no burst and no arming. -/
theorem Half.idle_abort (h : Half) : (h.abort 9).face.active = false := by
  by_cases hactive : h.face.active = true
  · simp [FaceSt.active, FaceSt.bursting, h.aborted_of_active hactive]
  · have hstate := h.state_abort_idle 9 (Bool.eq_false_iff.mpr hactive)
    rw [FaceSt.active, FaceSt.bursting, hstate]
    exact Bool.eq_false_iff.mpr hactive

/-- A half as the net's assertion leaves its sequencer. -/
def Half.safed (h : Half) : Half :=
  let k := if h.face.active || h.face.burst.unwritten then h.abort 9 else h
  if h.face.arming then k.stopArming true else k

theorem Half.stilled_safed (h : Half) : h.face.stilled h.safed.face := by
  have habort : (if h.face.active || h.face.burst.unwritten then h.abort 9 else h).face.active = false := by
    split
    · exact h.idle_abort
    next hidle => exact (by simpa using hidle : h.face.active = false ∧ _).1
  unfold Half.safed
  dsimp only
  split
  next harm =>
    obtain ⟨hstop, hidle⟩ := Half.stopped_arming (if h.face.active || h.face.burst.unwritten then h.abort 9 else h)
    exact ⟨hstop, hidle, fun _ hno => absurd hno (by simp [harm])⟩
  next harm =>
    refine ⟨?_, habort, fun hactive _ => ?_⟩
    · split
      · rw [h.arming_abort]; simpa using harm
      · simpa using harm
    · rw [if_pos (by simp [hactive])]
      exact h.aborted_of_active hactive

theorem firm_safeHalf (d : Dev) (life : Life) (s : Side) : (d.safeHalf life s).firm = (d.mod s Half.safed).firm := by
  have hmod : (d.mod s Half.safed) = d.mod s fun _ => (d.half s).safed := mod_congr rfl
  unfold Dev.safeHalf
  dsimp only
  rw [hmod]
  unfold Half.safed Dev.abort
  dsimp only
  by_cases harm : (d.half s).face.arming = true
  · rw [if_pos harm, if_pos harm, firm_armPart]
    split
    · rw [mod_mod, mod_congr (g := fun _ => ((d.half s).abort 9).stopArming true) rfl]
    · exact congrArg Dev.firm (mod_congr rfl)
  · rw [if_neg harm, if_neg harm]
    split
    · exact congrArg Dev.firm (mod_congr rfl)
    · rw [mod_congr (g := fun h => h) rfl, mod_id]

theorem safe_of_firm {d e : Dev} (h : d.firm = e.firm) : d.safe = e.safe ∧ d.dbg.pins = e.dbg.pins := by
  simp only [Dev.firm, Prod.mk.injEq] at h
  exact ⟨h.2.1, h.2.2.1⟩

theorem face_of_firm {d e : Dev} (h : d.firm = e.firm) (s : Side) : (d.half s).face = (e.half s).face := by
  simp only [Dev.firm, Prod.mk.injEq] at h
  cases s
  · exact h.2.2.2.1
  · exact h.2.2.2.2

/-- The net's assertion stills both sequencers, ends slices and pin access, and changes no more of the net. -/
theorem safeAssert_firm (d : Dev) (life : Life) : (d.safeAssert life).safe = { d.safe with asserted := true, releasing := false, slices := [] }
    ∧ (d.safeAssert life).dbg.pins = false ∧ ∀ s, (d.half s).face.stilled ((d.safeAssert life).half s).face := by
  let d1 : Dev := Dev.abandon (Dev.abandon { d with safe := { d.safe with asserted := true, releasing := false } } .w) .e
  let d2 := d1.safeHalf life .w
  have hslices (l : List Slice) : ((l.filter fun x => decide (x.side ≠ .w)).filter fun x => decide (x.side ≠ .e)) = [] := by
    rw [List.filter_filter, List.filter_eq_nil_iff]
    intro x _
    cases x.side <;> simp
  have h1 : d1.safe = { d.safe with asserted := true, releasing := false, slices := [] } := by
    show ({ d.safe with asserted := true, releasing := false, slices := ((d.safe.slices.filter _).filter _) } : SafeSt) = _
    rw [hslices]
  have h2 := firm_safeHalf d1 life .w
  have h3 := firm_safeHalf d2 life .e
  have hafter : (d.safeAssert life).firm = ((d2.safeHalf life .e).truncateLoad life).pinsOff.firm := by
    unfold Dev.safeAssert
    exact (firm_journalEnd ..).trans (firm_journalEnd ..)
  have hpinsOff (d : Dev) : d.pinsOff.safe = d.safe ∧ d.pinsOff.dbg.pins = false ∧ ∀ s, (d.pinsOff.half s).face = (d.half s).face :=
    ⟨rfl, rfl, fun s => by cases s <;> rfl⟩
  obtain ⟨hsafe, hpins⟩ := safe_of_firm hafter
  obtain ⟨hsafeP, hpinsP, hfaceP⟩ := hpinsOff ((d2.safeHalf life .e).truncateLoad life)
  refine ⟨?_, hpins.trans hpinsP, fun s => ?_⟩
  · rw [hsafe, hsafeP, (safe_of_firm (firm_truncateLoad ..)).1, (safe_of_firm h3).1]
    exact ((safe_of_firm h2).1).trans h1
  · rw [face_of_firm hafter, hfaceP, face_of_firm (firm_truncateLoad ..), face_of_firm h3]
    cases s with
    | w =>
      have hother : ((d2.mod .e Half.safed).half .w).face = (d2.half .w).face := rfl
      rw [hother, face_of_firm h2]
      exact Half.stilled_safed _
    | e =>
      have hsame : (d2.half .e).face = (d.half .e).face := face_of_firm h2 .e
      rw [← hsame]
      exact Half.stilled_safed _

theorem safeNet_asserts {d : Dev} (life : Life) (hw : d.safeWanted = true) (ha : d.safe.asserted = false) :
    d.safeNet life = d.safeAssert life := by
  unfold Dev.safeNet
  rw [hw, ha]

theorem safeNet_rests {d : Dev} (life : Life) (hw : d.safeWanted = false) (ha : d.safe.asserted = false) : d.safeNet life = d := by
  unfold Dev.safeNet
  rw [hw, ha]

/-- A load that nothing cuts off goes on, and halves that did not end journal nothing, whatever the net does. -/
theorem settled_first {d : Dev} (life : Life) (hcut : d.pathCut = false) (hend : ∀ s, d.justEnded s = false) :
    ((d.pathLost life).journalEnd .w).journalEnd .e = d := by
  have hpath : d.pathLost life = d := by
    unfold Dev.pathLost
    unfold Dev.pathCut at hcut
    split
    · rfl
    next l hl =>
      rw [hl] at hcut
      rw [if_neg (by simpa using hcut)]
  have hjournal (s : Side) : d.journalEnd s = d := by simp [Dev.journalEnd, hend s]
  rw [hpath, hjournal, hjournal]

theorem told_raise (d : Dev) (s : Side) (b i : Nat) : (d.raise s b i).told = d.told := by
  have hquiet (d : Dev) (s : Side) (b i : Nat) : (d.raiseQuiet s b i).told = d.told := by
    have hset (d : Dev) (p : Page) : (d.setPage s b p).told = d.told := rfl
    unfold Dev.raiseQuiet
    split
    · rfl
    · dsimp only
      split
      · rfl
      · split <;> simp only [told_event, hset]
  have hpost (d : Dev) (q : Nat) (e : BitVec 64) : (d.post s q e).1.told = d.told := by
    have hmod (d : Dev) (f : Half → Half) : (d.mod s f).told = d.told := by cases s <;> rfl
    unfold Dev.post
    dsimp only
    split
    · exact hmod ..
    · dsimp only
      split
      · exact hmod ..
      · rw [hquiet, hmod]
  unfold Dev.raise
  split
  · rfl
  · dsimp only
    split
    · rfl
    · split
      · exact hquiet ..
      · split
        · exact (hpost ..).trans (hquiet ..)
        · exact (hpost ..).trans (hquiet ..)

theorem told_condOn (d : Dev) (s : Side) (b i : Nat) : (d.condOn s b i).told = d.told := by
  unfold Dev.condOn
  rw [told_raise]
  rfl

/-! ## Frames that a quad sends -/

/-- What a quad sends leaves the module calm, and the net as it is. -/
structure Dev.Posted (d e : Dev) : Prop where
  quiet : d.quiet e
  safe : e.safe = d.safe
  powered : e.powered = d.powered

theorem Dev.Posted.trans {d e f : Dev} (h : d.Posted e) (k : e.Posted f) : d.Posted f :=
  ⟨h.quiet.trans k.quiet, k.safe.trans h.safe, k.powered.trans h.powered⟩

theorem posted_modQuad (d : Dev) (s : Side) (q : Nat) (f : Quad → Quad) : d.Posted (d.modQuad s q f) :=
  ⟨quiet_mod rfl rfl fun _ h => h, by cases s <;> rfl, powered_mod ..⟩

theorem posted_haulOut (d : Dev) (s : Side) (q ft : Nat) (fields : List Nat) : d.Posted (d.haulOut s q ft fields) :=
  (posted_modQuad d s q _).trans ⟨⟨id, rfl, id, fun _ => id⟩, rfl, rfl⟩

theorem posted_haulSend (d : Dev) (s : Side) (q ft : Nat) (fields : List Nat) : d.Posted (d.haulSend s q ft fields).1 := by
  unfold Dev.haulSend
  split
  · exact ⟨.refl d, rfl, rfl⟩
  · exact (posted_modQuad ..).trans (posted_haulOut ..)

theorem posted_haulHeld (d : Dev) (s : Side) (q n : Nat) : d.Posted (d.haulHeld s q n) := by
  induction n generalizing d with
  | zero => exact ⟨.refl d, rfl, rfl⟩
  | succ n ih =>
    unfold Dev.haulHeld
    split
    · exact ⟨.refl d, rfl, rfl⟩
    next ft fields rest hhold =>
      have hsend := posted_haulSend d s q ft fields
      split
      · exact ⟨.refl d, rfl, rfl⟩
      next e heq =>
        rw [heq] at hsend
        exact (hsend.trans (posted_modQuad ..)).trans (ih _)

theorem posted_foldl {α : Type} (l : List α) (f : Dev → α → Dev) (h : ∀ (d : Dev) x, d.Posted (f d x)) (d : Dev) : d.Posted (l.foldl f d) := by
  induction l generalizing d with
  | nil => exact ⟨.refl d, rfl, rfl⟩
  | cons x l ih => exact (h d x).trans (ih _)

/-- The module with the net as it is when it is released (R470). -/
def Dev.freed (d : Dev) : Dev :=
  { d with safe := { d.safe with asserted := false, releasing := false, alive := d.safe.aliveEn } }

/-- Persistent key slots come back (R325). -/
def Dev.reslotted (d : Dev) : Dev :=
  if d.sec.reinstall then { d with sec := { d.loadSlots.sec with cert := d.sec.cert } } else d

theorem safeRelease_eq {d : Dev} (hrel : d.safe.releasing = true) (hw : d.safeWanted = false) :
    safeRelease d = quads.foldl (fun d q => (d.haulFlush .w q).haulFlush .e q) d.freed.reslotted :=
  if_neg (by simp [hrel, hw])

/-- The release lets held frames leave and brings persistent key slots back; nothing requests the net again (R325, R470). -/
theorem safeRelease_posted {d : Dev} (hrel : d.safe.releasing = true) (hw : d.safeWanted = false) : d.freed.Posted (safeRelease d) := by
  have hslots (d : Dev) : d.Posted d.reslotted := by
    unfold Dev.reslotted
    split
    · exact ⟨⟨id, rfl, id, fun _ => id⟩, rfl, rfl⟩
    · exact ⟨.refl d, rfl, rfl⟩
  rw [safeRelease_eq hrel hw]
  exact (hslots _).trans (posted_foldl _ _ (fun d q => (posted_haulHeld ..).trans (posted_haulHeld ..)) _)

/-! ## The SAFE net's rows -/

theorem own_desc {r : Rg} {x : RegDesc} (h : ownReg r x = true) : descOf r = some x ∧ x.reg = r := by
  simp only [ownReg, Bool.and_eq_true, decide_eq_true_eq] at h
  obtain ⟨⟨⟨⟨hdesc, hreg⟩, -⟩, -⟩, -⟩ := h
  exact ⟨hdesc, hreg⟩

/-- The module with SAFE_N at a level. -/
def Dev.pinned (d : Dev) (low : Bool) : Dev := { d with safe := { d.safe with safeNLow := low } }

theorem half_pinned (d : Dev) (low : Bool) (s : Side) : (d.pinned low).half s = d.half s := by cases s <;> rfl

theorem settle_asserts {d : Dev} (life : Life) (hpow : d.powered = true) (hcut : d.pathCut = false) (hend : ∀ s, d.justEnded s = false)
    (hw : d.safeWanted = true) (ha : d.safe.asserted = false) : (d.settle life).firm = (d.safeAssert life).firm := by
  rw [firm_settle life hpow, settled_first life hcut hend, safeNet_asserts life hw ha]

/-- SAFE_N low asserts a net that was released. -/
theorem yields_safeN {s : State} (hpow : s.dev.powered = true) (hcalm : s.dev.calm) (ha : s.dev.safe.asserted = false) :
    Yields .safeN s fun d => d.safe.safeNLow = true ∧ d.safe.asserted = true ∧ d.safe.releasing = false ∧ d.safe.slices = []
      ∧ d.dbg.pins = false ∧ d.deep = Dev.deep { s.dev with safe := { s.dev.safe with safeNLow := true } }
      ∧ ∀ side, (s.dev.half side).face.stilled (d.half side).face := by
  let e : Dev := (s.dev.mute.pinned true).condOn .w blkSafe 0
  have hfirm : e.firm = (s.dev.mute.pinned true).firm := firm_condOn ..
  have hsafe : e.safe = (s.dev.mute.pinned true).safe := (safe_of_firm hfirm).1
  have hbare : e.bare = (s.dev.mute.pinned true).bare := bare_condOn ..
  have hpow' : e.powered = true := by
    rw [← bare_powered, hbare]
    exact hpow
  have hcut : e.pathCut = false := (pathCut_of_bare hbare).trans hcalm.2.1
  have hend (side : Side) : e.justEnded side = false := by
    rw [justEnded_of_bare hbare (told_condOn ..)]
    cases side
    · exact hcalm.2.2.1
    · exact hcalm.2.2.2
  have hw : e.safeWanted = true := by
    rw [Dev.safeWanted, hsafe]
    rfl
  have ha' : e.safe.asserted = false := by
    rw [hsafe]
    exact ha
  have hsettle := settle_asserts s.fuse.life hpow' hcut hend hw ha'
  obtain ⟨hsafeT, hpinsT⟩ := safe_of_firm hsettle
  obtain ⟨hnet, hpins, hface⟩ := safeAssert_firm e s.fuse.life
  rw [hnet, hsafe] at hsafeT
  have heff : s.dev.after s.fuse.life (fun _ d => Machine.safeN d) = e.settle s.fuse.life :=
    congrArg (Dev.settle · s.fuse.life) (if_pos hpow : Machine.safeN s.dev.mute = e)
  refine ⟨_, rfl, rfl, rfl, ?_⟩
  show (Dev.after s.dev s.fuse.life fun _ d => Machine.safeN d).safe.safeNLow = true ∧ _
  rw [heff, hsafeT, hpinsT, hpins, deep_settle, deep_condOn]
  refine ⟨rfl, rfl, rfl, rfl, rfl, rfl, fun side => ?_⟩
  have h := hface side
  rw [face_of_firm hfirm, half_pinned, half_mute] at h
  rw [face_of_firm hsettle]
  exact h

/-- SAFE_N high withdraws the pin's request, and that alone. -/
theorem yields_safeNHigh {s : State} (hcalm : s.dev.calm) : Yields .safeNHigh s fun d =>
    d.bare = Dev.bare { s.dev with safe := { s.dev.safe with safeNLow := false } }
      ∧ d.safe.asserted = s.dev.safe.asserted ∧ (d.page .w blkSafe).active.getLsbD 0 = false
      ∧ (d.page .w blkSafe).req.getLsbD 0 = false ∧ (d.page .w blkSafe).src = (s.dev.page .w blkSafe).src := by
  let e : Dev := (s.dev.mute.pinned false).condOff .w blkSafe 0
  have hpin : s.dev.quiet (s.dev.mute.pinned false) := by
    refine ⟨fun h => ?_, rfl, id, fun _ => id⟩
    simp only [Dev.safeWanted, Bool.or_eq_true] at h ⊢
    exact h.elim (fun h => absurd h Bool.false_ne_true) .inr
  have hq : (s.dev.mute.pinned false).quiet e := by
    refine quiet_setPage _ _ _ _ fun h => ?_
    simp only [Page.requests, Bool.or_eq_true, decide_eq_true_eq] at h ⊢
    refine h.imp_left fun hreq hzero => hreq ?_
    rw [hzero]
    decide
  have hcalm' : e.calm := Dev.calm.quiet hcalm (hpin.trans hq)
  have hbare : (e.settle s.fuse.life).bare = Dev.bare { s.dev with safe := { s.dev.safe with safeNLow := false } } :=
    (bare_settle _ s.fuse.life hcalm').trans (bare_condOff ..)
  have hoff : e.safeMarks = ((s.dev.page .w blkSafe).src, bitClear (s.dev.page .w blkSafe).req 0) := by
    simp only [e, Dev.safeMarks, Dev.condOff, page_setPage_same]
    rfl
  have hmarks := (safeMarks_settle s.fuse.life hcalm').trans hoff
  simp only [Dev.safeMarks, Prod.mk.injEq] at hmarks
  obtain ⟨hsrc, hreq⟩ := hmarks
  obtain ⟨hactive, -, -⟩ := (grows_settle e s.fuse.life).1 .w blkSafe
  refine ⟨_, rfl, rfl, rfl, hbare, ?_, ?_, ?_, hsrc⟩
  · exact asserted_of_bare (d := s.dev.pinned false) hbare
  · exact (congrArg (·.getLsbD 0) hactive).trans (active_condOff ..)
  · exact (congrArg (·.getLsbD 0) hreq).trans (getLsbD_bitClear ..)

/-- The release ends the assertion, and ALIVE starts with a high level. -/
theorem yields_safeRelease {s : State} (hpow : s.dev.powered = true) (hcalm : s.dev.calm) (hrel : s.dev.safe.releasing = true)
    (hw : s.dev.safeWanted = false) : Yields .safeRelease s fun d => d.safe = s.dev.freed.safe := by
  have hposted := safeRelease_posted (d := s.dev.mute) hrel hw
  have hw' : (Machine.safeRelease s.dev.mute).safeWanted = false :=
    Bool.eq_false_iff.mpr fun h => Bool.eq_false_iff.mp hw (hposted.quiet.1 h)
  have hcut : (Machine.safeRelease s.dev.mute).pathCut = false :=
    Bool.eq_false_iff.mpr fun h => Bool.eq_false_iff.mp hcalm.2.1 (hposted.quiet.2.2.1 h)
  have hend (side : Side) : (Machine.safeRelease s.dev.mute).justEnded side = false := by
    refine Bool.eq_false_iff.mpr fun h => ?_
    have hended := hposted.quiet.2.2.2 side h
    cases side
    · exact Bool.eq_false_iff.mp hcalm.2.2.1 hended
    · exact Bool.eq_false_iff.mp hcalm.2.2.2 hended
  have hpow' : (Machine.safeRelease s.dev.mute).powered = true := hposted.powered.trans hpow
  have hoff : (Machine.safeRelease s.dev.mute).safe.asserted = false := by rw [hposted.safe]; rfl
  refine ⟨_, (running_eq_commit _ hpow : exec .safeRelease s = _), rfl, rfl, ?_⟩
  have hfirm := firm_settle s.fuse.life hpow'
  rw [settled_first _ hcut hend, safeNet_rests _ hw' hoff] at hfirm
  exact (safe_of_firm hfirm).1.trans hposted.safe

theorem aliveEdge_quiet (d : Dev) : d.quiet (Machine.aliveEdge d) := ⟨id, rfl, id, fun _ => id⟩

/-- Settles O55: the net follows its pin and its requests. -/
theorem safeNet : Obligations.SafeNet := by
  unfold Obligations.SafeNet
  intro s hpow hcalm
  refine ⟨yields_safeN hpow hcalm, yields_safeNHigh hcalm, yields_safeRelease hpow hcalm, fun hw => ?_, ?_, fun v => ?_, fun w v hfw hopen => ?_⟩
  · refine yields_quiet (f := fun _ d => Machine.safeRelease d) (e := s.dev.mute) rfl hpow hcalm (if_pos ?_) (.refl _) fun d hd _ => ⟨hd, ?_⟩
    · have hmute : s.dev.mute.safeWanted = true := hw
      simp [hmute]
    · exact (asserted_of_bare hd).trans (hcalm.1 hw)
  · exact yields_quiet (f := fun _ d => Machine.aliveEdge d) rfl hpow hcalm rfl (aliveEdge_quiet _) fun d hd _ => hd
  · obtain ⟨x, hx⟩ := safeCtrl_own
    obtain ⟨hdesc, hreg⟩ := own_desc hx
    refine writes_reg rfl hdesc hpow ((writeTo_own _ _ _ hx).trans ?_) (e := { s.dev.mute with safe := { s.dev.safe with aliveEn := v.getLsbD 0 } })
      (Dev.calm.quiet (d := s.dev.mute) hcalm ⟨id, rfl, id, fun _ => id⟩) rfl
    unfold Dev.hookWrite
    rw [hreg]
    rfl
  · obtain ⟨x, hx⟩ := safeCtrl_own
    obtain ⟨hdesc, hreg⟩ := own_desc hx
    have hdenied : s.dev.mute.hookWrite s.fuse.life w 0 x 0 v = (stDenied, s.dev.mute) := by
      unfold Dev.hookWrite
      rw [hreg]
      exact if_pos hfw
    exact yields_reg rfl hdesc hpow ((writeTo_own _ _ _ hx).trans hdenied) fun t ht =>
      ⟨ht.bare (Dev.calm.quiet (d := s.dev.mute) hcalm (quiet_emit ..)), ht.grows.2 _ (by simp [Dev.emit])⟩

end Sys2Proof.Machine
end

section
/-! PROOFS. The remote-data cache: hits, misses and fills, writes into a file of the other half, invalidations and reports (chapter 10). -/
namespace Sys2Proof.Machine
open Sys2Proof.Safety

/-! ## What a flit leaves -/

/-- The module but for the ends of the Stairwell, what was sent, and the model's counter. -/
def Dev.unlinked (d : Dev) : Dev :=
  { d with out := [], free := 0, west := { d.west with stw := {} }, east := { d.east with stw := {} } }

theorem unlinked_stwSendFlit (d : Dev) (s : Side) (vn : Nat) (flit : Flit) : (d.stwSendFlit s vn flit).unlinked = d.unlinked := by
  have hmod (d : Dev) (f : StwSt → StwSt) : (d.mod s fun h => h.modStw f).unlinked = d.unlinked := by cases s <;> rfl
  unfold Dev.stwSendFlit
  dsimp only
  split
  · rfl
  · split
    · exact hmod ..
    · exact hmod ..

/-- A flit that is sent, or waits, changes nothing else (R394). -/
@[simp] theorem unlinked_stwSend (d : Dev) (s : Side) (vn : Nat) : (d.stwSend s vn).unlinked = d.unlinked :=
  unlinked_stwSendFlit ..

theorem quiet_stwSend (d : Dev) (s : Side) (vn : Nat) : d.quiet (d.stwSend s vn) := by
  have hdraw : d.quiet d.draw := ⟨id, rfl, id, fun _ => id⟩
  unfold Dev.stwSend Dev.stwSendFlit
  dsimp only
  split
  · exact hdraw
  · split
    · exact hdraw.trans (Dev.quiet.trans ⟨id, rfl, id, fun _ => id⟩ (quiet_modStw rfl))
    · exact hdraw.trans (quiet_modStw rfl)

section
variable {d e : Dev} (h : e.unlinked = d.unlinked)
include h

theorem clk_of_unlinked : e.clk = d.clk := by
  have hclk := congrArg Dev.clk h
  exact hclk

theorem regs_of_unlinked : e.regs = d.regs := by
  have hregs := congrArg Dev.regs h
  exact hregs

/-- The halves as they are but for the Stairwell. -/
theorem half_of_unlinked (s : Side) : { e.half s with stw := {} } = { d.half s with stw := {} } := by
  cases s
  · have hw := congrArg Dev.west h
    exact hw
  · have he := congrArg Dev.east h
    exact he

theorem att_of_unlinked (s : Side) : (e.half s).att = (d.half s).att := by
  have hatt := congrArg Half.att (half_of_unlinked h s)
  exact hatt

theorem cel_of_unlinked (s : Side) : (e.half s).cel = (d.half s).cel := by
  have hcel := congrArg Half.cel (half_of_unlinked h s)
  exact hcel

theorem files_of_unlinked (s : Side) : (e.half s).files = (d.half s).files := by
  have hfiles := congrArg Half.files (half_of_unlinked h s)
  exact hfiles

theorem uncached_of_unlinked (s : Side) (line : Nat) : e.uncached s line = d.uncached s line := by
  have key (d : Dev) : d.uncached s line = d.unlinked.uncached s line := by cases s <;> rfl
  rw [key e, key d, h]

end

/-! ## The remote-data cache (R285 to R288) -/

/-- A counter counts to its end and stays there. -/
theorem rf_bump_word (d : Dev) (n : Nat) (r : Rg) : (d.bump n r).rf n r 0 31 0 = min (d.rf n r 0 31 0 + 1) (2 ^ 32 - 1) := by
  unfold Dev.bump
  rw [rf_setRf_same _ _ _ _ _ _ _ (by decide) (by decide)]
  omega

theorem clk_bump (d : Dev) (n : Nat) (r : Rg) (i hi lo k : Nat) : (d.bump n r i hi lo k).clk = d.clk := rfl

theorem stwDown_bump (d : Dev) (n : Nat) (r : Rg) (i hi lo k : Nat) : (d.bump n r i hi lo k).stwDown = d.stwDown := rfl

theorem uncached_bump (d : Dev) (n : Nat) (r : Rg) (i hi lo k : Nat) (s : Side) (line : Nat) :
    (d.bump n r i hi lo k).uncached s line = d.uncached s line := by
  unfold Dev.uncached
  rw [half_bump]

theorem att_celTouch (h : Half) (line n : Nat) : (h.celTouch line n).att = h.att := rfl

section
variable {d : Dev} {s : Side} {line key : Nat}

/-- A half whose miss starts a fill. -/
def Half.fetches (h : Half) (f : Fill) : Half := h.modAtt fun a => { a with fills := a.fills ++ [f] }

/-- A home that notes a line which the other half caches. -/
def Half.notes (h : Half) (line : Nat) : Half :=
  h.modAtt fun a => { a with dir := if a.dir.contains line then a.dir else a.dir ++ [line] }

/-- A miss asks the home, which notes the line unless it serves it uncached. -/
theorem remoteRead_miss (hmiss : (d.half s).att.copy line key = none) (hup : d.stwDown = false) (hcel : (d.half s.other).cel.state = 3)
    (hgood : (d.half s.other).cel.poison line = false) : remoteRead s line key d
      = let u := d.uncached s.other line
        let e := (((d.bump s.code .attRcMiss).stwSend s vnReq).mod s fun h => h.fetches { line := line, key := key, stale := u, since := d.clk.cycles }).mod
          s.other fun h => h.celTouch line 1
        if u then e else e.mod s.other fun h => h.notes line := by
  have hlink := unlinked_stwSend (d.bump s.code .attRcMiss) s vnReq
  have hhalf : (d.bump s.code .attRcMiss).half s.other = d.half s.other := half_bump ..
  have hpoison : (((d.bump s.code .attRcMiss).stwSend s vnReq).half s.other).cel.poison line = false := by
    rw [cel_of_unlinked hlink, hhalf, hgood]
  have huncached : ((d.bump s.code .attRcMiss).stwSend s vnReq).uncached s.other line = d.uncached s.other line := by
    rw [uncached_of_unlinked hlink, uncached_bump]
  have hclk : ((d.bump s.code .attRcMiss).stwSend s vnReq).clk = d.clk := (clk_of_unlinked hlink).trans (clk_bump ..)
  unfold remoteRead
  dsimp only
  rw [hmiss]
  dsimp only
  have hup' : (d.bump s.code .attRcMiss).stwDown = false := (stwDown_bump ..).trans hup
  rw [if_neg (by simp [hhalf, hcel, hup'])]
  simp only [hpoison, huncached, hclk, Bool.or_false, Bool.false_eq_true, if_false]
  rfl

/-- A cache whose line was read: it is the most recently used of its set (R285). -/
def AttSt.hit (a : AttSt) (line : Nat) (x : RLine) : AttSt :=
  { a with cache := tset [] a.cache (line % 1024) (x :: (a.ways line).filter fun w => decide (w ≠ x)) }

theorem remoteRead_hit {x : RLine} (hhit : (d.half s).att.copy line key = some x) : remoteRead s line key d
    = (d.mod s fun h => h.modAtt fun a => a.hit line x).bump s.code .attRcHit := by
  unfold remoteRead
  dsimp only
  rw [hhit]
  rfl

end

/-- What changes one half's caches alone leaves the module calm. -/
theorem quiet_modAtt (d : Dev) (s : Side) (f : AttSt → AttSt) : d.quiet (d.mod s fun h => h.modAtt f) := quiet_mod rfl rfl fun _ h => h

theorem quiet_modCel (d : Dev) (s : Side) (f : CelSt → CelSt) : d.quiet (d.mod s fun h => h.modCel f) := quiet_mod rfl rfl fun _ h => h

theorem other_ne (s : Side) : s.other ≠ s := by cases s <;> decide

theorem ne_other (s : Side) : s ≠ s.other := by cases s <;> decide

theorem rf_of_regs {d e : Dev} (h : e.regs = d.regs) (n : Nat) (r : Rg) (i hi lo : Nat) : e.rf n r i hi lo = d.rf n r i hi lo :=
  congrArg (fld · hi lo) (rg_of_regs h n r i)

theorem regs_of_bare {d e : Dev} (h : d.bare = e.bare) : d.regs = e.regs := by
  have hregs := congrArg Dev.regs h
  exact hregs

/-- A miss starts a fill, is counted, and is noted by a home that lets the line be cached. -/
theorem yields_miss {s : State} {side : Side} {line key : Nat} (hpow : s.dev.powered = true) (hcalm : s.dev.calm)
    (hmiss : (s.dev.half side).att.copy line key = none) (hup : s.dev.stwDown = false) (hcel : (s.dev.half side.other).cel.state = 3)
    (hgood : (s.dev.half side.other).cel.poison line = false) : Yields (.remoteRead side line key) s fun d =>
      (d.half side).att = { (s.dev.half side).att with fills := (s.dev.half side).att.fills
        ++ [{ line := line, key := key, stale := s.dev.uncached side.other line, since := s.dev.clk.cycles }] }
      ∧ (∀ l, l ∈ (d.half side.other).att.dir ↔ l ∈ (s.dev.half side.other).att.dir
        ∨ (l = line ∧ s.dev.uncached side.other line = false))
      ∧ d.rf side.code .attRcMiss 0 31 0 = min (s.dev.rf side.code .attRcMiss 0 31 0 + 1) (2 ^ 32 - 1) := by
  have hrow := remoteRead_miss (d := s.dev.mute) (s := side) (line := line) (key := key) (by rwa [half_mute]) hup (by rwa [half_mute]) (by rwa [half_mute])
  have hu : s.dev.mute.uncached side.other line = s.dev.uncached side.other line := by cases side <;> rfl
  dsimp only at hrow
  rw [hu] at hrow
  generalize s.dev.uncached side.other line = u at hrow ⊢
  let f : Fill := { line := line, key := key, stale := u, since := s.dev.clk.cycles }
  let sent := (s.dev.mute.bump side.code .attRcMiss).stwSend side vnReq
  let e := (sent.mod side fun h => h.fetches f).mod side.other fun h => h.celTouch line 1
  have hlink : sent.unlinked = (s.dev.mute.bump side.code .attRcMiss).unlinked := unlinked_stwSend ..
  have hatt (x : Side) : (sent.half x).att = (s.dev.half x).att := by
    rw [att_of_unlinked hlink, half_bump, half_mute]
  have hquiet : s.dev.mute.quiet e :=
    (((quiet_bump ..).trans (quiet_stwSend ..)).trans (quiet_modAtt ..)).trans (quiet_modCel ..)
  have hregs : e.regs = (s.dev.mute.bump side.code .attRcMiss).regs := by
    rw [← regs_of_unlinked hlink]
    cases side <;> rfl
  have hcount (d : Dev) (h : d.regs = e.regs) :
      d.rf side.code .attRcMiss 0 31 0 = min (s.dev.rf side.code .attRcMiss 0 31 0 + 1) (2 ^ 32 - 1) := by
    rw [rf_of_regs (h.trans hregs), rf_bump_word]
    rfl
  have hown : (e.half side).att = { (s.dev.half side).att with fills := (s.dev.half side).att.fills ++ [f] } := by
    rw [half_mod_ne _ _ (ne_other side), half_mod_same, Half.fetches, Half.modAtt, hatt]
  have hdir : (e.half side.other).att = (s.dev.half side.other).att := by
    rw [half_mod_same, att_celTouch, half_mod_ne _ _ (other_ne side), hatt]
  cases u with
  | true =>
    refine yields_quiet (f := fun _ d => remoteRead side line key d) (e := e) rfl hpow hcalm (hrow.trans (if_pos rfl)) hquiet fun d hd _ => ⟨?_, fun l => ?_, ?_⟩
    · rw [att_of_deep (deep_of_bare hd)]
      exact hown
    · rw [att_of_deep (deep_of_bare hd)]
      simp [hdir]
    · exact hcount d (regs_of_bare hd)
  | false =>
    refine yields_quiet (f := fun _ d => remoteRead side line key d) (e := e.mod side.other fun h => h.notes line) rfl hpow hcalm
      (hrow.trans (if_neg Bool.false_ne_true)) (hquiet.trans (quiet_modAtt ..)) fun d hd _ => ⟨?_, fun l => ?_, ?_⟩
    · rw [att_of_deep (deep_of_bare hd)]
      exact (congrArg Half.att (half_mod_ne e _ (ne_other side))).trans hown
    · rw [att_of_deep (deep_of_bare hd)]
      have hnoted : (((e.mod side.other fun h => h.notes line).half side.other)).att.dir
          = if (s.dev.half side.other).att.dir.contains line then (s.dev.half side.other).att.dir
            else (s.dev.half side.other).att.dir ++ [line] := by
        rw [half_mod_same, Half.notes, Half.modAtt, hdir]
      rw [hnoted]
      split
      next hin =>
        have hmem : line ∈ (s.dev.half side.other).att.dir := by simpa using hin
        refine ⟨.inl, ?_⟩
        rintro (h | ⟨rfl, -⟩)
        · exact h
        · exact hmem
      · simp
    · refine hcount d ((regs_of_bare hd).trans ?_)
      cases side <;> rfl

/-! ### Fills -/

/-- One of sixteen ways is free while fifteen lines at most are kept. -/
theorem way_free (kept : List RLine) (h : kept.length ≤ 15) :
    ∃ way < 16, ((List.range 16).find? fun k => kept.all fun c => decide (c.way ≠ k)) = some way ∧ ∀ c ∈ kept, c.way ≠ way := by
  have hfree : ∃ k ∈ List.range 16, (kept.all fun c => decide (c.way ≠ k)) = true := by
    by_contra hall
    push Not at hall
    have hsub : List.range 16 ⊆ kept.map RLine.way := by
      intro k hk
      have hused := hall k hk
      simp only [ne_eq, List.all_eq_true, decide_eq_true_eq, not_forall, not_not] at hused
      obtain ⟨c, hc, hway⟩ := hused
      exact List.mem_map.mpr ⟨c, hc, hway⟩
    have hlen := (List.nodup_range (n := 16)).subperm hsub |>.length_le
    simp only [List.length_range, List.length_map] at hlen
    omega
  obtain ⟨way, hway⟩ := Option.isSome_iff_exists.mp (List.find?_isSome.mpr hfree)
  refine ⟨way, List.mem_range.mp (List.mem_of_find?_eq_some hway), hway, fun c hc => ?_⟩
  have hp := List.find?_some hway
  simp only [List.all_eq_true, decide_eq_true_eq] at hp
  exact hp c hc

/-- A half that a fill reaches. -/
def AttSt.filled (a : AttSt) (line key : Nat) (stale : Bool) : AttSt :=
  let a := { a with fills := a.fills.filter fun g => !(decide (g.line = line) && decide (g.key = key)) }
  if stale then a else
  let kept := ((a.ways line).filter fun w => decide (w.line ≠ line)).take 15
  let way := ((List.range 16).find? fun k => kept.all fun c => decide (c.way ≠ k)).getD 0
  { a with cache := tset [] a.cache (line % 1024) ({ line := line, key := key, way := way } :: kept) }

theorem remoteFill_eq {d : Dev} {s : Side} {line key : Nat} {f : Fill}
    (hf : (d.half s).att.fills.find? (fun f => decide (f.line = line) && decide (f.key = key)) = some f) : remoteFill s line key d
      = ((d.stwSend s.other vnRsp).completed s.other 2 f.since).mod s fun h => h.modAtt fun a => a.filled line key f.stale := by
  have hatt : (((d.stwSend s.other vnRsp).completed s.other 2 f.since).half s).att = (d.half s).att := by
    rw [half_completed, att_of_unlinked (unlinked_stwSend ..)]
  unfold remoteFill
  dsimp only
  rw [hf]
  refine mod_congr ?_
  unfold Half.modAtt AttSt.filled
  rw [hatt]

/-- A fill is delivered, and installed unless it is stale. -/
theorem yields_fill {s : State} {side : Side} {line key : Nat} {f : Fill} (hpow : s.dev.powered = true) (hcalm : s.dev.calm)
    (hf : (s.dev.half side).att.fills.find? (fun f => decide (f.line = line) && decide (f.key = key)) = some f) :
    Yields (.remoteFill side line key) s fun d => (d.half side).att = (s.dev.half side).att.filled line key f.stale := by
  refine yields_quiet (f := fun _ d => remoteFill side line key d) rfl hpow hcalm (remoteFill_eq (by rwa [half_mute]))
    (((quiet_stwSend ..).trans (quiet_completed ..)).trans (quiet_modAtt ..)) fun d hd _ => ?_
  rw [att_of_deep (deep_of_bare hd), half_mod_same, Half.modAtt, half_completed, att_of_unlinked (unlinked_stwSend ..), half_mute]

/-! ### Writes into a file of the other half -/

theorem caches_forget (a : AttSt) (line l : Nat) : (a.forget line).caches l = (a.caches l && decide (l ≠ line)) := by
  by_cases hset : l % 1024 = line % 1024
  · have hways : (a.forget line).ways l = (a.ways l).filter fun w => decide (w.line ≠ line) := by
      simp only [AttSt.ways, AttSt.forget, hset, tget_tset_same]
    rw [AttSt.caches, hways, AttSt.caches, List.any_filter]
    by_cases hl : l = line
    · subst hl
      simp
    · simp only [hl, ne_eq, not_false_eq_true, decide_true, Bool.and_true]
      congr 1
      funext w
      by_cases hw : w.line = l
      · simp [hw, hl]
      · simp [hw]
  · have hways : (a.forget line).ways l = a.ways l := tget_tset_ne _ _ _ hset
    have hl : l ≠ line := fun h => hset (by rw [h])
    simp [AttSt.caches, hways, hl]

theorem caches_forgotten (lines : List Nat) (a : AttSt) (l : Nat) (h : l ∈ lines ∨ a.caches l = false) :
    (lines.foldl AttSt.forget a).caches l = false := by
  induction lines generalizing a with
  | nil => exact h.resolve_left List.not_mem_nil
  | cons x lines ih =>
    refine ih _ ?_
    rw [caches_forget]
    rcases h with h | h
    · rcases List.mem_cons.mp h with rfl | h
      · exact .inr (by simp)
      · exact .inl h
    · exact .inr (by simp [h])

/-- A file of a half that changes keeps its place. -/
theorem file_modFile (h : Half) {id : Nat} {f : FileRec} (g : FileRec → FileRec) (hf : h.file id = some f) (hid : ∀ x, (g x).id = x.id) :
    (h.modFile id g).file id = some (g f) := by
  have hfid : f.id = id := by simpa using List.find?_some hf
  have hkey : ((fun x : FileRec => decide (x.id = id)) ∘ fun r => if r.id = id then g r else r) = fun x => decide (x.id = id) := by
    funext x
    by_cases hx : x.id = id <;> simp [hx, hid]
  have hfound : h.files.find? (fun x => decide (x.id = id)) = some f := hf
  unfold Half.file Half.modFile
  rw [List.find?_map, hkey, hfound]
  simp [hfid]

/-- A file that bytes are written into while no counter is near its end (R328). -/
def FileRec.rewritten (f : FileRec) (host : Bool) (off : Nat) (bs : List Byte) : FileRec :=
  { ((if host then f else (sectorsOf off bs.length).foldl FileRec.takeAhead f).put off bs) with refused := false }

theorem put_content (f : FileRec) (off : Nat) (bs : List Byte) : (f.put off bs).id = f.id
    ∧ (f.put off bs).data = if bs.isEmpty then f.data else memWrite f.data off bs := by
  have hcount (l : List Nat) (g : FileRec → Nat → Nat) (v : FileRec → Nat → Nat) (f : FileRec) :
      (l.foldl (fun f k => f.count (g f k) (v f k)) f).id = f.id ∧ (l.foldl (fun f k => f.count (g f k) (v f k)) f).data = f.data := by
    induction l generalizing f with
    | nil => exact ⟨rfl, rfl⟩
    | cons k l ih => exact ih (f.count (g f k) (v f k))
  unfold FileRec.put
  split
  · exact ⟨rfl, rfl⟩
  · exact hcount _ (fun _ k => off / 4096 + k) (fun f k => tget 0 f.wc (off / 4096 + k) + 1) _

theorem takeAhead_content (l : List Nat) (f : FileRec) : (l.foldl FileRec.takeAhead f).id = f.id ∧ (l.foldl FileRec.takeAhead f).data = f.data := by
  induction l generalizing f with
  | nil => exact ⟨rfl, rfl⟩
  | cons k l ih =>
    obtain ⟨hid, hdata⟩ := ih (f.takeAhead k)
    rw [List.foldl_cons, hid, hdata]
    unfold FileRec.takeAhead
    split <;> exact ⟨rfl, rfl⟩

theorem rewritten_content (f : FileRec) (host : Bool) (off : Nat) (bs : List Byte) : (f.rewritten host off bs).id = f.id
    ∧ (f.rewritten host off bs).data = if bs.isEmpty then f.data else memWrite f.data off bs := by
  obtain ⟨hid, hdata⟩ := put_content (if host then f else (sectorsOf off bs.length).foldl FileRec.takeAhead f) off bs
  have hahead : (if host then f else (sectorsOf off bs.length).foldl FileRec.takeAhead f).id = f.id
      ∧ (if host then f else (sectorsOf off bs.length).foldl FileRec.takeAhead f).data = f.data := by
    cases host
    · exact takeAhead_content ..
    · exact ⟨rfl, rfl⟩
  exact ⟨hid.trans hahead.1, hdata.trans (by rw [hahead.2])⟩

/-- A half whose Cellar took a write of bytes into a file. -/
def Half.lineWrite (h : Half) (s : Side) (f : FileRec) (off n : Nat) : Half :=
  (h.celTouch (cellarLine s f.id (64 * (off / 4096))) (64 * (sectorsOf off n).length)).modCel fun c =>
    c.cleanse fun l => (sectorsOf off n).contains (f.lineIn s l / 64)

theorem writeRegion_plain {d : Dev} {s : Side} {id off : Nat} {bs : List Byte} {f : FileRec} (hf : (d.half s).file id = some f)
    (hopen : f.refused = false) (htorn : (d.half s).tornLine s f off bs.length = none)
    (hlow : ∀ k ∈ sectorsOf off bs.length, tget 0 f.wc k + 1 < rekeyAt) : d.writeRegion s id off bs
      = (stOk, (d.mod s fun h => h.modFile id fun f => f.rewritten ((d.half s).assisted 7) off bs).mod s
        fun h => h.lineWrite s f off bs.length) := by
  have hhit : ((sectorsOf off bs.length).any fun k => decide (rekeyAt ≤ tget 0 f.wc k + 1)) = false := by
    rw [List.any_eq_false]
    intro k hk
    have := hlow k hk
    simp only [decide_eq_true_eq]
    omega
  have hid : f.id = id := by simpa using List.find?_some hf
  unfold Dev.writeRegion
  rw [hf]
  dsimp only
  rw [if_neg (by simp [hopen]), htorn]
  dsimp only
  rw [hhit]
  simp only [Bool.false_and, Bool.false_eq_true, if_false, Bool.and_false, Bool.not_false, if_true]
  rw [← hid]
  rfl

/-- Bytes that were written read as written (R328). -/
theorem memRead_memWrite (m : Tbl Byte) (a : Nat) (bs : List Byte) : memRead (memWrite m a bs) a bs.length = bs := by
  refine List.ext_getElem (memRead_length ..) fun k hk _ => ?_
  rw [memRead_getElem]
  exact tget_tblit_in 0 m a bs k (by rwa [memRead_length] at hk)

section
variable {d : Dev} {s : Side} {id off : Nat} {bs : List Byte} {f : FileRec}

theorem tornLine_of_unlinked {d e : Dev} (h : e.unlinked = d.unlinked) (s : Side) (f : FileRec) (off n : Nat) :
    (e.half s).tornLine s f off n = (d.half s).tornLine s f off n := by
  unfold Half.tornLine
  rw [cel_of_unlinked h]

theorem fileLocked_of_unlinked {d e : Dev} (h : e.unlinked = d.unlinked) (s : Side) (f : FileRec) :
    (e.half s).fileLocked f = (d.half s).fileLocked f := by
  have key (h : Half) : h.fileLocked f = ({ h with stw := {} } : Half).fileLocked f := rfl
  rw [key (e.half s), key (d.half s), half_of_unlinked h]

theorem file_of_unlinked {d e : Dev} (h : e.unlinked = d.unlinked) (s : Side) (id : Nat) : (e.half s).file id = (d.half s).file id := by
  rw [Half.file, files_of_unlinked h]
  rfl

theorem quiet_modFile (d : Dev) (s : Side) (id : Nat) (g : FileRec → FileRec) : d.quiet (d.mod s fun h => h.modFile id g) :=
  quiet_mod rfl rfl fun _ h => h

theorem quiet_lineWrite (d : Dev) (s : Side) (f : FileRec) (off n : Nat) : d.quiet (d.mod s fun h => h.lineWrite s f off n) :=
  quiet_mod rfl rfl fun _ h => h

/-- A write that no entry of the directory and no earlier write holds is performed (R269, R286). -/
theorem homeWrite_free (hfree : ∀ l ∈ touched s id off bs.length, (d.half s).att.dir.contains l = false
    ∧ ∀ w ∈ (d.half s).att.held, w.touches s l = false) : d.homeWrite s id off bs = d.writeRegion s id off bs := by
  unfold Dev.homeWrite
  refine if_neg ?_
  rw [Bool.not_eq_true, List.any_eq_false]
  intro l hl
  obtain ⟨hdir, hheld⟩ := hfree l hl
  simp only [Bool.or_eq_true, hdir, Bool.false_eq_true, false_or, List.any_eq_true, not_exists, not_and, Bool.not_eq_true]
  exact hheld

end

/-- A half that drops its own copies of the lines it writes. -/
def Half.drops (h : Half) (lines : List Nat) : Half := h.modAtt fun a => lines.foldl AttSt.forget a

/-- The writer's copies go, and its request leaves. -/
def Dev.asks (d : Dev) (s : Side) (id off n : Nat) : Dev := (d.mod s fun h => h.drops (touched s.other id off n)).stwSend s vnReq

theorem unlinked_asks (d : Dev) (s : Side) (id off n : Nat) :
    (d.asks s id off n).unlinked = (d.mod s fun h => h.drops (touched s.other id off n)).unlinked := unlinked_stwSend ..

theorem quiet_asks (d : Dev) (s : Side) (id off n : Nat) : d.quiet (d.asks s id off n) := (quiet_modAtt ..).trans (quiet_stwSend ..)

theorem remoteWrite_asks {d : Dev} {s : Side} {id off : Nat} {bs : List Byte} {f : FileRec} (hup : d.stwDown = false)
    (hf : ((d.asks s id off bs.length).half s.other).file id = some f)
    (hopen : ((d.asks s id off bs.length).half s.other).fileLocked f = false) :
    remoteWrite s id off bs d = ((d.asks s id off bs.length).homeWrite s.other id off bs).2 := by
  have hup' : (d.mod s fun h => h.drops (touched s.other id off bs.length)).stwDown = false := by
    rw [← hup]
    cases s <;> rfl
  have hdrops : (d.mod s fun h => h.modAtt fun a => (touched s.other id off bs.length).foldl AttSt.forget a)
      = d.mod s fun h => h.drops (touched s.other id off bs.length) := rfl
  unfold remoteWrite
  dsimp only
  rw [hdrops, if_neg (by rw [hup']; exact Bool.false_ne_true)]
  unfold Dev.asks at hf hopen
  rw [hf]
  dsimp only
  rw [if_neg (by rw [hopen]; exact Bool.false_ne_true)]
  rfl

/-- A write reaches a file of the other half that is neither locked nor waits for anything. -/
theorem remoteWrite_eq {d : Dev} {s : Side} {id off : Nat} {bs : List Byte} {f : FileRec} (hup : d.stwDown = false)
    (hf : (d.half s.other).file id = some f) (hopen : (d.half s.other).fileLocked f = false) (href : f.refused = false)
    (hfree : ∀ l ∈ touched s.other id off bs.length, (d.half s.other).att.dir.contains l = false
      ∧ ∀ w ∈ (d.half s.other).att.held, w.touches s.other l = false)
    (hlow : ∀ k ∈ sectorsOf off bs.length, tget 0 f.wc k + 1 < rekeyAt)
    (htorn : (d.half s.other).tornLine s.other f off bs.length = none) : remoteWrite s id off bs d
      = ((d.asks s id off bs.length).mod s.other fun h =>
        h.modFile id fun f => f.rewritten ((d.half s.other).assisted 7) off bs).mod s.other fun h => h.lineWrite s.other f off bs.length := by
  have hlink := unlinked_asks d s id off bs.length
  have hother : (d.mod s fun h => h.drops (touched s.other id off bs.length)).half s.other = d.half s.other := half_mod_ne _ _ (other_ne s)
  have hfile : ((d.asks s id off bs.length).half s.other).file id = some f := by rw [file_of_unlinked hlink, hother, hf]
  have hhost : ((d.asks s id off bs.length).half s.other).assisted 7 = (d.half s.other).assisted 7 := by
    have key (h : Half) : h.assisted 7 = ({ h with stw := {} } : Half).assisted 7 := rfl
    rw [key, half_of_unlinked hlink, hother]
    rfl
  have hwrite := writeRegion_plain hfile href (by rw [tornLine_of_unlinked hlink, hother, htorn]) hlow
  rw [hhost] at hwrite
  rw [remoteWrite_asks hup hfile (by rw [fileLocked_of_unlinked hlink, hother, hopen]),
    homeWrite_free (by rwa [att_of_unlinked hlink, hother]), hwrite]

/-- A write drops the writer's own copies and reaches its file. -/
theorem yields_remoteWrite {s : State} {side : Side} {id off : Nat} {f : FileRec} {bs : List Byte} (hpow : s.dev.powered = true)
    (hcalm : s.dev.calm) (hup : s.dev.stwDown = false) (hf : (s.dev.half side.other).file id = some f)
    (hopen : (s.dev.half side.other).fileLocked f = false) (href : f.refused = false) (hbs : bs ≠ [])
    (hfree : ∀ l ∈ touched side.other id off bs.length, (s.dev.half side.other).att.dir.contains l = false
      ∧ ∀ w ∈ (s.dev.half side.other).att.held, w.touches side.other l = false)
    (hlow : ∀ k ∈ sectorsOf off bs.length, tget 0 f.wc k + 1 < rekeyAt)
    (htorn : (s.dev.half side.other).tornLine side.other f off bs.length = none) : Yields (.remoteWrite side id off bs) s fun d =>
      (∀ l ∈ touched side.other id off bs.length, (d.half side).att.caches l = false) ∧ (d.half side).files = (s.dev.half side).files
      ∧ ∃ g, (d.half side.other).file id = some g ∧ memRead g.data off bs.length = bs
        ∧ ∀ k, k < off ∨ off + bs.length ≤ k → tget 0 g.data k = tget 0 f.data k := by
  have hlink := unlinked_asks s.dev.mute side id off bs.length
  have hown : (s.dev.mute.mod side fun h => h.drops (touched side.other id off bs.length)).half side
      = (s.dev.half side).drops (touched side.other id off bs.length) := by
    rw [half_mod_same, half_mute]
  have hother : (s.dev.mute.mod side fun h => h.drops (touched side.other id off bs.length)).half side.other = s.dev.half side.other := by
    rw [half_mod_ne _ _ (other_ne side), half_mute]
  have hrow := remoteWrite_eq (d := s.dev.mute) (s := side) hup (by rwa [half_mute]) (by rwa [half_mute]) href (by rwa [half_mute]) hlow
    (by rwa [half_mute])
  refine yields_quiet (f := fun _ d => remoteWrite side id off bs d) rfl hpow hcalm hrow
    (((quiet_asks ..).trans (quiet_modFile ..)).trans (quiet_lineWrite ..)) fun d hd _ => ⟨fun l hl => ?_, ?_, ?_⟩
  · rw [att_of_deep (deep_of_bare hd), half_mod_ne _ _ (ne_other side), half_mod_ne _ _ (ne_other side),
      att_of_unlinked hlink, hown]
    exact caches_forgotten _ _ _ (.inl hl)
  · obtain ⟨t, ht⟩ := half_eq_of_bare hd side
    rw [ht, half_mod_ne _ _ (ne_other side), half_mod_ne _ _ (ne_other side)]
    exact (files_of_unlinked hlink side).trans (by rw [hown]; rfl)
  · obtain ⟨t, ht⟩ := half_eq_of_bare hd side.other
    have hfile : ((s.dev.mute.asks side id off bs.length).half side.other).file id = some f := by rw [file_of_unlinked hlink, hother, hf]
    obtain ⟨-, hdata⟩ := rewritten_content f ((s.dev.mute.half side.other).assisted 7) off bs
    rw [if_neg (by simpa using hbs)] at hdata
    refine ⟨f.rewritten ((s.dev.mute.half side.other).assisted 7) off bs, ?_, ?_, fun k hk => ?_⟩
    · rw [ht, half_mod_same, half_mod_same]
      exact file_modFile _ _ hfile fun x => (rewritten_content ..).1
    · rw [hdata, memRead_memWrite]
    · rw [hdata, tget_written _ _ _ rfl, if_neg (by omega)]

/-! ### Invalidations and reports -/

/-- A half whose copy of a line is invalidated. -/
def AttSt.dropped (a : AttSt) (line : Nat) : AttSt :=
  { a.forget line with fills := a.fills.map fun f => if f.line = line then { f with stale := true } else f }

theorem snoopInvalidate_eq {d : Dev} {s : Side} {line : Nat} (hdir : (d.half s).att.dir.contains line = true)
    (hheld : ∃ w ∈ (d.half s).att.held, (touched s w.file w.offset w.data.length).contains line = true) : snoopInvalidate s line d
      = ((d.stwSend s vnSnp).mod s.other fun h => h.modAtt fun a => a.dropped line).bump s.other.code .attRcInv := by
  have hany : ((d.half s).att.held.any fun w => (touched s w.file w.offset w.data.length).contains line) = true := List.any_eq_true.mpr hheld
  unfold snoopInvalidate
  dsimp only
  rw [if_neg (by simp only [hdir, hany]; decide)]
  rfl

/-- What the held writes of a half change leaves its caches and its directory, and the other half's. -/
theorem att_writeRegion (d : Dev) (s s' : Side) (id off : Nat) (bs : List Byte) :
    ((d.writeRegion s id off bs).2.half s').att = (d.half s').att := by
  have hmod (d : Dev) (f : Half → Half) (hf : ∀ h, (f h).att = h.att) : ((d.mod s f).half s').att = (d.half s').att := by
    cases s <;> cases s' <;> simp [Dev.mod, Dev.setHalf, Dev.half, hf]
  have hraise (d : Dev) (b i : Nat) : ((d.raise s b i).half s').att = (d.half s').att := att_of_deep (deep_raise ..) s'
  have hbump (d : Dev) (r : Rg) : ((d.bump s.code r).half s').att = (d.half s').att := att_of_deep (deep_bump ..) s'
  have hset (d : Dev) (r : Rg) (v : Word) : ((d.setRg s.code r 0 v).half s').att = (d.half s').att := att_of_deep (deep_setRg ..) s'
  have hstale (d : Dev) : ((d.markStale s id).half s').att = (d.half s').att := by
    unfold Dev.markStale
    split
    · rfl
    · split
      · rfl
      · exact (hraise ..).trans (hmod _ _ fun _ => rfl)
  have hfails (d : Dev) (sector line : Nat) : ((d.lineFails s id sector line .uncorrectable false).half s').att = (d.half s').att := by
    have hrecord (d : Dev) (k : Nat) : ((d.recordFail s id sector k).half s').att = (d.half s').att := by
      unfold Dev.recordFail
      dsimp only
      split
      · exact hbump ..
      · rw [hset, hset, hset, hbump]
    have hlost (d : Dev) (l : Nat) : ((d.celUncorr s l).half s').att = (d.half s').att := by
      unfold Dev.celUncorr
      rw [hraise, hset]
      exact hmod _ _ fun _ => rfl
    unfold Dev.lineFails
    simp only [if_true, Bool.false_and, Bool.false_eq_true, if_false]
    rw [hstale, hraise, hlost, hrecord]
  have hrekey (d : Dev) : ((d.rekeyStart s id).half s').att = (d.half s').att := by
    unfold Dev.rekeyStart
    split
    · rfl
    · split
      · rfl
      · refine (hraise ..).trans (Eq.trans (b := ((d.ldrAppend _ _ _).half s').att) (hmod _ _ fun _ => rfl) ?_)
        exact att_of_deep (deep_ldrAppend ..) s'
  unfold Dev.writeRegion
  split
  · rfl
  · extract_lets secs hit
    split
    · rfl
    · split
      · exact hfails ..
      · split
        · exact hraise ..
        next d1 d2 _ _ _ _ =>
          have hboth : (d2.half s').att = (d.half s').att :=
            Eq.trans (b := (d1.half s').att) (hmod _ _ fun _ => rfl) (hmod _ _ fun _ => rfl)
          clear_value d2
          split
          · exact hboth
          · split
            · rw [hraise, hboth]
            · rw [hrekey, hboth]

/-- Held writes that go on leave the caches, the fills and the directories. -/
theorem att_freeFrom (home s' : Side) (l kept : List HeldWrite) (d : Dev) :
    { ((d.freeFrom home l kept).half s').att with held := [] } = { (d.half s').att with held := [] }
      ∧ (s' ≠ home → ((d.freeFrom home l kept).half s').att = (d.half s').att) := by
  induction l generalizing kept d with
  | nil =>
    unfold Dev.freeFrom
    by_cases hs : s' = home
    · rw [hs, half_mod_same]
      exact ⟨rfl, fun h => absurd rfl h⟩
    · rw [half_mod_ne _ _ hs]
      exact ⟨rfl, fun _ => rfl⟩
  | cons w t ih =>
    have hdone : (((d.writeRegion home w.file w.offset w.data).2.completed home 2 w.since).half s').att = (d.half s').att := by
      rw [half_completed, att_writeRegion]
    unfold Dev.freeFrom
    split
    · exact ih ..
    · rw [← hdone]
      exact ih ..

/-- The home's entry of a line is cleared, and what it held goes on. -/
def Dev.cleared (d : Dev) (s : Side) (line : Nat) : Dev :=
  (d.mod s fun h => h.modAtt fun a => { a with dir := a.dir.filter fun l => decide (l ≠ line) }).freeWrites s

theorem att_cleared (d : Dev) (s : Side) (line : Nat) : ((d.cleared s line).half s).att.dir = (d.half s).att.dir.filter (fun l => decide (l ≠ line))
    ∧ ((d.cleared s line).half s.other).att = (d.half s.other).att := by
  unfold Dev.cleared Dev.freeWrites
  constructor
  · have hdir := congrArg AttSt.dir (att_freeFrom s s ((d.mod s fun h => h.modAtt fun a => { a with
      dir := a.dir.filter fun l => decide (l ≠ line) }).half s).att.held [] (d.mod s fun h => h.modAtt fun a => { a with
      dir := a.dir.filter fun l => decide (l ≠ line) })).1
    refine Eq.trans hdir ?_
    rw [half_mod_same]
    rfl
  · rw [(att_freeFrom s s.other _ [] _).2 (other_ne s), half_mod_ne _ _ (other_ne s)]

theorem yields_cleared {c : Instr} {s : State} {side : Side} {line vn : Nat} {from_ : Side} {f : Life → Dev → Dev} (hc : exec c s = running f s)
    (hpow : s.dev.powered = true) (hf : f s.fuse.life s.dev.mute = (s.dev.mute.stwSend from_ vn).cleared side line) : Yields c s fun d =>
      (d.half side).att.dir = (s.dev.half side).att.dir.filter (fun l => decide (l ≠ line))
      ∧ (d.half side.other).att = (s.dev.half side.other).att := by
  obtain ⟨hown, hother⟩ := att_cleared (s.dev.mute.stwSend from_ vn) side line
  have hsent (x : Side) : ((s.dev.mute.stwSend from_ vn).half x).att = (s.dev.half x).att := by
    rw [att_of_unlinked (unlinked_stwSend ..), half_mute]
  refine yields_deeply hc hpow hf fun d hd => ⟨?_, ?_⟩
  · rw [att_of_deep hd.deep, hown, hsent]
  · rw [att_of_deep hd.deep, hother, hsent]

theorem mute_mod (d : Dev) (s : Side) (f : Half → Half) : d.mute.mod s f = (d.mod s f).mute := by cases s <;> rfl

theorem mute_bump (d : Dev) (n : Nat) (r : Rg) : d.mute.bump n r = (d.bump n r).mute := rfl

theorem quiet_mutes {d e : Dev} (h : d.quiet e) : d.mute.quiet e.mute := h

theorem bare_mute (d : Dev) : d.mute.bare = d.bare := rfl

/-- Settles O23: each row by what it leaves of the two caches. -/
theorem remoteCache : Obligations.RemoteCache := by
  unfold Obligations.RemoteCache
  dsimp only
  intro s side line key hpow hcalm
  refine ⟨fun x hhit => ?_, yields_miss hpow hcalm, fun f hf => ?_, fun id off f bs hup hf hopen href hbs hfree hlow htorn =>
    yields_remoteWrite hpow hcalm hup hf hopen href hbs hfree hlow htorn, fun hdir => ⟨fun hheld => ?_, fun hnone => ?_⟩, fun hnone => ?_⟩
  · have hrow := remoteRead_hit (d := s.dev.mute) (s := side) (line := line) (key := key) (x := x) (by rwa [half_mute])
    rw [mute_mod, mute_bump] at hrow
    refine yields_quiet (f := fun _ d => remoteRead side line key d) rfl hpow hcalm hrow ?_ fun d hd _ => hd.trans ?_
    · exact quiet_mutes ((quiet_modAtt ..).trans (quiet_bump ..))
    rw [bare_mute]
    exact congrArg (fun d : Dev => (d.bump side.code .attRcHit).bare) (mod_congr rfl)
  · refine yields_mono (yields_fill hpow hcalm hf) fun d hd => ?_
    rw [hd]
    unfold AttSt.filled
    dsimp only
    split
    · exact ⟨rfl, rfl⟩
    · obtain ⟨way, hlt, hfind, hfree⟩ := way_free (((s.dev.half side).att.ways line |>.filter fun w => decide (w.line ≠ line)).take 15)
        (List.length_take_le ..)
      refine ⟨rfl, way, hlt, hfree, ?_⟩
      have hways : AttSt.ways { (s.dev.half side).att with
        fills := (s.dev.half side).att.fills.filter fun g => !(decide (g.line = line) && decide (g.key = key)) } line
          = (s.dev.half side).att.ways line := rfl
      rw [hways, hfind]
      rfl
  · have hrow := snoopInvalidate_eq (d := s.dev.mute) (s := side) (line := line) (by rwa [half_mute]) (by rwa [half_mute])
    refine yields_quiet (f := fun _ d => snoopInvalidate side line d) rfl hpow hcalm hrow
      (((quiet_stwSend ..).trans (quiet_modAtt ..)).trans (quiet_bump ..)) fun d hd _ => ?_
    have hatt (x : Side) := att_of_deep (deep_of_bare hd) x
    have hsent (x : Side) : ((s.dev.mute.stwSend side vnSnp).half x).att = (s.dev.half x).att := by
      rw [att_of_unlinked (unlinked_stwSend ..), half_mute]
    have hother : (d.half side.other).att = (s.dev.half side.other).att.dropped line := by
      rw [hatt, half_bump, half_mod_same, Half.modAtt, hsent]
    have hown : (d.half side).att = (s.dev.half side).att := by
      rw [hatt, half_bump, half_mod_ne _ _ (ne_other side), hsent]
    refine ⟨?_, fun f hf hline => ?_, hown⟩
    · rw [hother]
      exact (caches_forget ..).trans (by simp)
    · rw [hother] at hf
      obtain ⟨g, -, rfl⟩ := List.mem_map.mp hf
      by_cases hg : g.line = line
      · rw [if_pos hg]
      · rw [if_neg hg] at hline
        exact absurd hline hg
  · refine yields_cleared (f := fun _ d => invalidateAck side line d) rfl hpow (if_neg ?_)
    simp only [half_mute, hdir, hnone]
    decide
  · refine yields_cleared (f := fun _ d => evictionReport side line d) rfl hpow (if_neg ?_)
    rw [half_mute, hnone]
    decide

end Sys2Proof.Machine
end

section
/-! PROOFS. The loader: requests of a load, and when they are answered (R253, R255, R359). -/
namespace Sys2Proof.Machine
open Sys2Proof.Safety

/-! ## The loader and its answers (R253, R255, R359) -/

/-- The configuration block alone changes, and no load that it holds lacks the Stairwell it needs. -/
theorem quiet_setCfg {d : Dev} {c : CfgSt} (h : (c.load.any fun l => l.cutOff d.stwDown) = true → d.pathCut = true) :
    d.quiet { d with cfg := c } := ⟨id, rfl, h, fun s => by cases s <;> exact id⟩

/-- Two loads of one kind and one progress need the same of the Stairwell. -/
theorem quiet_setLoad {d : Dev} {l m : Load} (hload : d.cfg.load = some l) (hstore : m.store = l.store) (hpassed : m.passed = l.passed) :
    d.quiet { d with cfg := { d.cfg with load := some m } } :=
  quiet_setCfg fun h => by
    simp only [Option.any_some, Load.cutOff, hstore, hpassed] at h
    simpa [Dev.pathCut, hload, Load.cutOff] using h

theorem quiet_finish_ok (d : Dev) (life : Life) (r : Reply) (pl : List Byte) : d.quiet (d.finish life r stOk pl) :=
  quiet_finishWith _ _ _ _ _ (by decide)

/-- Data that the loader has taken: what waited for it is answered. -/
theorem answerData_hungry {d : Dev} (life : Life) {l : Load} (hload : d.cfg.load = some l) (h : l.hungry (d.imageKey l).bodyKey = true) :
    d.answerData life = (l.replies.filter fun x => decide (x.2.op = 0x21)).foldl (fun d x => d.finish life x.2 stOk (beBytes 8 x.1))
      { d with cfg := { d.cfg with load := some { l with replies := l.replies.filter fun x => decide (x.2.op ≠ 0x21) } } } := by
  unfold Dev.answerData
  simp only [hload, h, Bool.not_true, Bool.false_eq_true, if_false]

theorem answerData_busy {d : Dev} (life : Life) {l : Load} (hload : d.cfg.load = some l) (h : l.hungry (d.imageKey l).bodyKey = false) :
    d.answerData life = d := by
  unfold Dev.answerData
  simp only [hload, h, Bool.not_false, if_true]

/-- The load as the loader leaves it when it has answered what it took. -/
def Load.answered (l : Load) (key : Nat) : Load :=
  { l with replies := if l.hungry key = true then l.replies.filter fun x => decide (x.2.op ≠ 0x21) else l.replies }

/-- Answers change the load's list of those who wait, and nothing else. -/
theorem answerData_spec {d : Dev} (life : Life) {l : Load} (hload : d.cfg.load = some l) :
    (d.answerData life).bare = ({ d with cfg := { d.cfg with load := some (l.answered (d.imageKey l).bodyKey) } } : Dev).bare
      ∧ d.quiet (d.answerData life) := by
  unfold Load.answered
  cases h : l.hungry (d.imageKey l).bodyKey with
  | false =>
    rw [answerData_busy life hload h, if_neg Bool.false_ne_true, ← hload]
    exact ⟨rfl, .refl d⟩
  | true =>
    rw [answerData_hungry life hload h, if_pos rfl]
    exact ⟨bare_foldl _ _ (fun d x => bare_finish_ok ..) _,
      (quiet_setLoad hload rfl rfl).trans (quiet_foldl _ _ (fun d x => quiet_finish_ok ..) _)⟩

/-- The module with a load as its load. -/
def Dev.holding (d : Dev) (l : Load) : Dev := { d with cfg := { d.cfg with load := some l } }

/-- A load that more data has come for, and the request that brought it. -/
def Load.grown (l : Load) (data : List Byte) (r : Reply) : Load :=
  { l with image := l.image ++ data.map BitVec.toNat, replies := l.replies ++ [(l.received + data.length, r)] }

theorem sec_accepted (d : Dev) (h : Hdr) : (d.accepted h).sec = d.sec := by
  unfold Dev.accepted
  cases h.sealed <;> rfl

theorem reasonStatus_ne_wrong (n : Nat) : reasonStatus n ≠ stWrong := by
  unfold reasonStatus
  split <;> decide

theorem imageKey_accepted (d : Dev) (h : Hdr) (l m : Load) : ((d.accepted h).holding m).imageKey l = d.imageKey l := by
  unfold Dev.imageKey
  rw [show ((d.accepted h).holding m).sec = d.sec from sec_accepted d h]

/-- Data in its order: it is kept, and its request waits with the others. -/
theorem configData_appends {d : Dev} (life : Life) (r : Reply) {l : Load} {data : List Byte} (hload : d.cfg.load = some l)
    (hsource : l.source = 3) (hsession : l.session = r.session) (hgoing : l.finished = false) (hsome : 0 < data.length)
    (hwords : data.length % 4 = 0) (hfits : l.received + data.length ≤ l.length) :
    d.configData life r l.received data = (d.holding (l.grown data r)).answerData life := by
  have h1 : ¬(l.source ≠ 3 ∨ l.session ≠ r.session ∨ l.finished = true) := by simp [hsource, hsession, hgoing]
  have h2 : ¬(data.length = 0 ∨ data.length % 4 ≠ 0) := by omega
  have h3 : ¬l.received + data.length ≤ l.received := by omega
  unfold Dev.configData
  simp only [hload, h1, h2, h3, Nat.not_lt.mpr hfits, if_false, ne_eq, not_true_eq_false]
  rfl

/-- CONFIG_END of data that has come whole waits with the others. -/
theorem configEnd_waits {d : Dev} (life : Life) (r : Reply) {l : Load} (hload : d.cfg.load = some l) (hsource : l.source = 3)
    (hsession : l.session = r.session) (hgoing : l.finished = false) (hwhole : l.length ≤ l.received) (hlong : l.passed = true ∨ 20 ≤ l.length) :
    d.configEnd life r = { d with cfg := { d.cfg with load := some { l with
      replies := l.replies ++ [(l.length + 1, r)], finished := true } } } := by
  have h1 : ¬(l.source ≠ 3 ∨ l.session ≠ r.session ∨ l.finished = true) := by simp [hsource, hsession, hgoing]
  have h2 : ¬(l.received < l.length ∨ ((!l.passed) = true ∧ l.length < 20)) := by
    rintro (h | ⟨h, hshort⟩)
    · omega
    · rcases hlong with hpassed | hlong
      · simp [hpassed] at h
      · omega
  unfold Dev.configEnd
  simp only [hload, h1, h2, if_false]

/-- Settles O17: each command by the branch of the loader's rule that its conditions choose. -/
theorem configCommands : Obligations.ConfigCommands := by
  unfold Obligations.ConfigCommands
  dsimp only
  intro s h
  refine ⟨fun target length k hsame hnone => ?_, fun l hload hsource hsession hgoing => ⟨fun data k hsome hwords hfits => ?_,
    fun k hwhole hlong => ?_⟩, fun reason at_ k hload hended => ?_⟩
  · refine answers_of_finish (o := { code := 0x20, required := true, fw := true }) (far := decide (target = 0))
      (body := touching [.cfg] (configBeginBody target length)) (e := (s.dev.accepted h).configBegin h.session target length)
      rfl k ?_ rfl ((calm_accepted k).quiet (quiet_setCfg ?_)) (reaches_of_hst (reaches_accepted _ k.takes) rfl rfl) (by decide)
    · rw [touching_clear (by simpa using hsame)]
      unfold configBeginBody
      rw [hnone, ← reply_session k]
    · simp [Load.cutOff]
  · have hload' : (s.dev.accepted h).cfg.load = some l := hload
    have hbody := configData_appends (d := s.dev.accepted h) s.fuse.life (s.dev.replyTo 0x21 h) hload' hsource
      (hsession.trans (reply_session k).symm) hgoing hsome hwords hfits
    refine yields_hoist (o := { code := 0x21, required := true, fw := true }) (body := configDataBody l.received data) rfl k fun t ht => ?_
    unfold configDataBody at ht
    rw [hbody] at ht
    have hspec := answerData_spec (d := (s.dev.accepted h).holding (l.grown data (s.dev.replyTo 0x21 h))) s.fuse.life rfl
    have hq : ((s.dev.accepted h).holding (l.grown data (s.dev.replyTo 0x21 h))).calm :=
      (calm_accepted k).quiet (quiet_setLoad hload' rfl rfl)
    refine ⟨?_, fun hhungry hempty => ?_⟩
    · rw [ht.bare (hq.quiet hspec.2), hspec.1]
      unfold Load.answered
      rw [imageKey_accepted]
      rfl
    · refine tells_grows ht.grows ?_
      rw [answerData_hungry _ rfl (by rw [imageKey_accepted]; exact hhungry)]
      rw [show (l.grown data (s.dev.replyTo 0x21 h)).replies = [(l.received + data.length, s.dev.replyTo 0x21 h)] by simp [Load.grown, hempty]]
      exact tells_finish _ _ _ (reaches_of_hst (reaches_accepted _ k.takes) rfl rfl) (by decide)
  · have hbody := configEnd_waits (d := s.dev.accepted h) s.fuse.life (s.dev.replyTo 0x22 h) hload hsource
      (hsession.trans (reply_session k).symm) hgoing hwhole hlong
    refine yields_hoist (o := { code := 0x22, required := true, fw := true }) (body := configEndBody) rfl k fun t ht => ?_
    unfold configEndBody at ht
    rw [hbody] at ht
    exact ht.bare ((calm_accepted k).quiet (quiet_setLoad hload rfl rfl))
  · refine answers_of_finish (o := { code := 0x22, required := true, fw := true }) (body := configEndBody)
      (e := { s.dev.accepted h with cfg := { (s.dev.accepted h).cfg with ended := none } }) rfl k ?_ rfl
      ((calm_accepted k).quiet (quiet_setCfg id)) (reaches_of_hst (reaches_accepted _ k.takes) rfl rfl) (reasonStatus_ne_wrong _)
    unfold configEndBody Dev.configEnd
    simp only [hload, hended, reply_session k, if_true]
    rfl

end Sys2Proof.Machine
end

section
/-! PROOFS. The commands on plans and bursts: what they leave of the sequencers, ABORT, ARM and FIRE (chapter 4). -/
namespace Sys2Proof.Machine
open Sys2Proof.Safety

/-! ## Steps that leave the sequencers as they are -/

/-- What decides whom the front end answers: its link, and which sessions are open. -/
theorem reaches_iff {d : Dev} {r : Reply} :
    d.reaches r ↔ d.hst.linkUp = true ∧ (r.session = 0 ∨ ∃ x ∈ d.sessions, x.id = r.session) := by
  unfold Dev.reaches
  rw [← Option.not_isNone, Bool.not_eq_true', ← Bool.not_eq_true, Option.isNone_iff_eq_none, session_none_iff]
  simp

theorem reaches_modSession {d : Dev} {r : Reply} (h : d.reaches r) (n : Nat) (f : Session → Session) (hf : ∀ x, (f x).id = x.id) :
    (d.modSession n f).reaches r := by
  rw [reaches_iff] at h ⊢
  obtain ⟨hlink, hopen⟩ := h
  refine ⟨hlink, hopen.imp id ?_⟩
  rintro ⟨x, hx, hid⟩
  refine ⟨if x.id = n then f x else x, List.mem_map.mpr ⟨x, hx, rfl⟩, ?_⟩
  split
  · rw [hf, hid]
  · exact hid

theorem reaches_send {d : Dev} {r : Reply} (h : d.reaches r) (f : Frame) : (d.send f).reaches r := by
  have htransmit (f : Frame) : (d.transmit f).reaches r := by
    unfold Dev.transmit
    dsimp only
    split
    · exact h
    · exact h
  unfold Dev.send
  split
  · exact htransmit f
  · split
    · exact h
    · exact reaches_modSession (htransmit _) _ _ fun _ => rfl

/-- From one state to a later one nothing but bookkeeping, registers of the front end, the hooks and the links, and raised sources. -/
structure Dev.Kept (d e : Dev) : Prop where
  quiet : d.quiet e
  halves : ∀ s, e.bare.half s = d.bare.half s
  severity : ∀ s b, (e.page s b).severity = (d.page s b).severity
  reaches : ∀ r, d.reaches r → e.reaches r
  powered : e.powered = d.powered
  aon : e.aon = d.aon
  slices : ∀ x ∈ e.safe.slices, x ∈ d.safe.slices
  tables : ∀ n i, i < 8192 → e.rg n .tchCfg i = d.rg n .tchCfg i

theorem Dev.Kept.refl (d : Dev) : d.Kept d := ⟨.refl d, fun _ => rfl, fun _ _ => rfl, fun _ h => h, rfl, rfl, fun _ h => h, fun _ _ _ => rfl⟩

theorem Dev.Kept.trans {d e f : Dev} (h : d.Kept e) (k : e.Kept f) : d.Kept f where
  quiet := h.quiet.trans k.quiet
  halves s := (k.halves s).trans (h.halves s)
  severity s b := (k.severity s b).trans (h.severity s b)
  reaches r x := k.reaches r (h.reaches r x)
  powered := k.powered.trans h.powered
  aon := k.aon.trans h.aon
  slices x hx := h.slices x (k.slices x hx)
  tables n i hi := (k.tables n i hi).trans (h.tables n i hi)

theorem Dev.Kept.mild {d e : Dev} (h : d.Kept e) {s : Side} {b i : Nat} (k : d.mild s b i) : e.mild s b i :=
  mild_of_severity (h.severity ..) (h.severity ..) k

/-- A fold leads where its every step leads, while what the steps ask for stays. -/
theorem foldl_rel {α : Type} {R : Dev → Dev → Prop} {p : Dev → Prop} (hrefl : ∀ d, R d d) (htrans : ∀ d e f, R d e → R e f → R d f)
    (hp : ∀ d e, R d e → p d → p e) (l : List α) (f : Dev → α → Dev) (h : ∀ d, ∀ x ∈ l, p d → R d (f d x)) (d : Dev) (hd : p d) :
    R d (l.foldl f d) := by
  induction l generalizing d with
  | nil => exact hrefl d
  | cons x l ih =>
    have hx := h d x (List.mem_cons_self ..) hd
    exact htrans _ _ _ hx (ih (fun d y hy => h d y (List.mem_cons_of_mem _ hy)) _ (hp _ _ hx hd))

theorem kept_foldl {α : Type} {p : Dev → Prop} (l : List α) (f : Dev → α → Dev) (hp : ∀ d e : Dev, d.Kept e → p d → p e)
    (h : ∀ d, ∀ x ∈ l, p d → d.Kept (f d x)) (d : Dev) (hd : p d) : d.Kept (l.foldl f d) :=
  foldl_rel .refl (fun _ _ _ h k => h.trans k) hp l f h d hd

theorem kept_of_bare {d e : Dev} (h : e.bare = d.bare) (hq : d.quiet e) (hpages : e.pages = d.pages) (hr : ∀ r, d.reaches r → e.reaches r) :
    d.Kept e where
  quiet := hq
  halves s := half_of_bare h s
  severity s b := by rw [page_of_pages hpages]
  reaches := hr
  powered := powered_of_bare h
  aon := by have haon := congrArg Dev.aon h; exact haon
  slices x hx := by have hslices := congrArg (fun d : Dev => d.safe.slices) h; exact hslices ▸ hx
  tables n i _ := rg_of_bare h n _ i

theorem kept_setRf (d : Dev) (n : Nat) {r : Rg} {i : Nat} (hi lo v : Nat) (hr : r ≠ .tchCfg) (hidx : i < 8192) : d.Kept (d.setRf n r i hi lo v) where
  quiet := quiet_setRg ..
  halves s := by cases s <;> rfl
  severity s b := by rw [page_of_pages (Dev.setRf_pages ..)]
  reaches r h := h
  powered := rfl
  aon := rfl
  slices _ h := h
  tables m j hj := rg_setRf_ne d hi lo v fun h => hr ((regKey_inj hj hidx).mp h).2.1.symm

theorem kept_bump (d : Dev) (n : Nat) {r : Rg} {i : Nat} (hi lo k : Nat) (hr : r ≠ .tchCfg) (hidx : i < 8192) : d.Kept (d.bump n r i hi lo k) :=
  kept_setRf d n hi lo _ hr hidx

theorem kept_event (d : Dev) (code src arg : Nat) : d.Kept (d.event code src arg) :=
  kept_of_bare (bare_event ..) (quiet_event ..) (by simp only [Dev.event]) fun _ h => reaches_event h ..

theorem reaches_raise {d : Dev} {r : Reply} (h : d.reaches r) (s : Side) (b i : Nat) : (d.raise s b i).reaches r :=
  reaches_of_front h (front_raise ..)

theorem kept_raise {d : Dev} {s : Side} {b i : Nat} (h : d.mild s b i) : d.Kept (d.raise s b i) where
  quiet := quiet_mildRaise h
  halves s' := half_of_bare (bare_raise ..) s'
  severity s' b' := severity_raise ..
  reaches r k := reaches_raise k ..
  powered := powered_of_bare (bare_raise ..)
  aon := by have haon := congrArg Dev.aon (bare_raise d s b i); exact haon
  slices x hx := by have hslices := congrArg (fun d : Dev => d.safe.slices) (bare_raise d s b i); exact hslices ▸ hx
  tables n j _ := rg_of_bare (bare_raise ..) n _ j

theorem pages_transmit (d : Dev) (f : Frame) : (d.transmit f).pages = d.pages := by
  unfold Dev.transmit
  dsimp only
  split
  · rfl
  · rfl

theorem pages_send (d : Dev) (f : Frame) : (d.send f).pages = d.pages := by
  unfold Dev.send
  split
  · exact pages_transmit ..
  · split
    · rfl
    · exact pages_transmit ..

theorem kept_send (d : Dev) (f : Frame) : d.Kept (d.send f) :=
  kept_of_bare (bare_send ..) (quiet_send ..) (pages_send ..) fun _ h => reaches_send h _

theorem kept_modSession (d : Dev) (n : Nat) (f : Session → Session) (hf : ∀ x, (f x).id = x.id) : d.Kept (d.modSession n f) :=
  kept_of_bare rfl (quiet_of_eq rfl rfl rfl rfl) rfl fun _ h => reaches_modSession h _ _ hf

/-- A final response leaves everything but bookkeeping, while a rejection is below severity 3 (R350, R351). -/
theorem kept_finish {d : Dev} (life : Life) (r : Reply) (st : Nat) (pl : List Byte) (h : st = stWrong → d.mild .w blkHst 2) :
    d.Kept (d.finish life r st pl) := by
  have hreject : d.Kept (if st = stWrong then d.rejected r.op else d) := by
    split
    · next hst =>
      have hbump : d.Kept (d.bump 0 .hstRejectCnt) := kept_bump d 0 31 0 1 (by decide) (by decide)
      have hlog := hbump.trans (kept_event _ 5 (evSrc .w blkHst) (r.op * 256 + d.state))
      exact hlog.trans (kept_raise (hlog.mild (h hst)))
    · exact .refl d
  unfold Dev.finish Dev.finishWith
  dsimp only
  exact (hreject.trans (kept_send ..)).trans (kept_modSession _ _ _ fun _ => rfl)

theorem kept_setHst (d : Dev) {h : HstSt} (hlink : h.linkUp = d.hst.linkUp) (hsessions : h.sessions = d.hst.sessions)
    (hface : ∀ s, h.face s = d.hst.face s) : d.Kept { d with hst := h } where
  quiet := ⟨id, rfl, id, fun s k => by rw [justEnded_eq] at k ⊢; rw [← hface s]; cases s <;> exact k⟩
  halves s := by cases s <;> rfl
  severity s b := rfl
  reaches r k := reaches_of_hst k hlink hsessions
  powered := rfl
  aon := rfl
  slices _ h := h
  tables _ _ _ := rfl

/-- A half's part of a CAL_RUN ends, and of an ARM (R201, R361). -/
theorem kept_calPart {d : Dev} (life : Life) (s : Side) (st : Nat) (h : st = stWrong → d.mild .w blkHst 2) : d.Kept (d.calPart life s st) := by
  unfold Dev.calPart
  dsimp only
  have hlist := kept_setHst d (h := { d.hst with cals := ((d.hst.cals.map fun c => (c, c.take s)).filter fun x =>
    !(x.1.waits s && (decide (st ≠ stOk) || !(x.2.w || x.2.e)))).map Prod.snd }) rfl rfl fun s => by cases s <;> rfl
  exact hlist.trans (kept_foldl (p := fun d => st = stWrong → d.mild .w blkHst 2) _ _ (fun _ _ hk hm hst => hk.mild (hm hst))
    (fun d x _ hm => kept_finish life _ _ _ hm) _ fun hst => hlist.mild (h hst))

theorem kept_armPart (d : Dev) (life : Life) (s : Side) (st : Nat) : d.Kept (d.armPart life s st) := by
  unfold Dev.armPart
  dsimp only
  exact (kept_setHst d (h := { d.hst with arms := (d.hst.arms.map fun a => a.take s st).filter fun a => !(a.w.isSome && a.e.isSome) })
    rfl rfl fun s => by cases s <;> rfl).trans (kept_foldl (p := fun _ => True) _ _ (fun _ _ _ h => h)
      (fun d a _ _ => kept_finish life _ _ _ fun h => absurd h (by decide)) _ trivial)

/-- From one state to a later one one half alone works, without ending. -/
structure Dev.Worked (s : Side) (d e : Dev) : Prop where
  quiet : d.quiet e
  other : e.bare.half s.other = d.bare.half s.other
  severity : ∀ s b, (e.page s b).severity = (d.page s b).severity
  reaches : ∀ r, d.reaches r → e.reaches r
  powered : e.powered = d.powered
  aon : e.aon = d.aon
  slices : ∀ x ∈ e.safe.slices, x ∈ d.safe.slices
  tables : ∀ n i, i < 8192 → e.rg n .tchCfg i = d.rg n .tchCfg i

theorem Dev.Kept.worked {d e : Dev} (h : d.Kept e) (s : Side) : Dev.Worked s d e :=
  ⟨h.quiet, h.halves _, h.severity, h.reaches, h.powered, h.aon, h.slices, h.tables⟩

theorem Dev.Worked.trans {s : Side} {d e f : Dev} (h : Dev.Worked s d e) (k : Dev.Worked s e f) : Dev.Worked s d f where
  quiet := h.quiet.trans k.quiet
  other := k.other.trans h.other
  severity s b := (k.severity s b).trans (h.severity s b)
  reaches r x := k.reaches r (h.reaches r x)
  powered := k.powered.trans h.powered
  aon := k.aon.trans h.aon
  slices x hx := h.slices x (k.slices x hx)
  tables n i hi := (k.tables n i hi).trans (h.tables n i hi)

theorem Dev.Worked.mild {side : Side} {d e : Dev} (h : Dev.Worked side d e) {s : Side} {b i : Nat} (k : d.mild s b i) : e.mild s b i :=
  mild_of_severity (h.severity ..) (h.severity ..) k

theorem worked_mod {d : Dev} {s : Side} {f : Half → Half} (hstw : (f (d.half s)).stw = (d.half s).stw)
    (htsk : (f (d.half s)).tsk.started = (d.half s).tsk.started)
    (hend : ∀ told, (f (d.half s)).ended told = true → (d.half s).ended told = true) : Dev.Worked s d (d.mod s f) where
  quiet := quiet_mod hstw htsk hend
  other := bareHalf_mod_other ..
  severity s' b := by rw [page_mod]
  reaches r h := reaches_of_front h (front_mod ..)
  powered := powered_mod ..
  aon := by cases s <;> rfl
  slices x hx := by cases s <;> exact hx
  tables n i _ := rg_mod ..

theorem engines_of_bareHalf {d e : Dev} {s : Side} (h : d.bare.half s = e.bare.half s) : (d.half s).engines = (e.half s).engines := by
  have hengines := congrArg Half.engines h
  cases s <;> exact hengines

/-! ## ABORT (R130, R135, R361) -/

/-- A half that runs no burst loses its plan. -/
def Half.dropPlan (h : Half) : Half := { h with face := { h.face with state := .idle, plan := none }, tch := { h.tch with cause := 0 } }

/-- A half that the host aborts. -/
def Half.hostAbort (h : Half) : Half :=
  if h.face.arming then h.stopArming false
  else if h.face.active then h.abort 1
  else if h.face.flushing then (h.abort 1).dropPlan
  else h.dropPlan

theorem Half.keeps_hostAbort (h : Half) : h.hostAbort.stw = h.stw ∧ h.hostAbort.tsk = h.tsk := by
  have hstop : (h.stopArming false).stw = h.stw := by
    unfold Half.stopArming
    dsimp only
    split
    · rfl
    · rfl
  have hdrop (h : Half) : h.dropPlan.stw = h.stw ∧ h.dropPlan.tsk = h.tsk := ⟨rfl, rfl⟩
  unfold Half.hostAbort
  split
  · exact ⟨hstop, h.tsk_stopArming false⟩
  · split
    · exact ⟨h.stw_abort 1, h.tsk_abort 1⟩
    · split
      · exact ⟨h.stw_abort 1, h.tsk_abort 1⟩
      · exact hdrop h

/-- A burst that the host ends is ABORTED by it, with its plan; its flush runs (R130, R135). -/
theorem Half.abort_host {h : Half} (hactive : h.face.active = true) : (h.abort 1).face.state = .aborted ∧ (h.abort 1).face.cause = 1
    ∧ (h.abort 1).face.plan = h.face.plan ∧ (h.face.bursting = true → (h.abort 1).qry.state = .flushing) := by
  unfold Half.abort
  dsimp only
  split
  · exact ⟨rfl, rfl, rfl, fun _ => rfl⟩
  next hb =>
    have harmed : h.face.state = .armed := by simpa [FaceSt.active, hb] using hactive
    rw [if_neg (by simp [FaceSt.flushing, hactive]), if_pos ⟨harmed, .inl rfl⟩]
    exact ⟨rfl, rfl, rfl, fun h => absurd h hb⟩

/-- What an ABORT makes of a half's sequencer, by what it did before. -/
def FaceSt.abortedTo (f : FaceSt) (h : Half) : Prop :=
  h.face.arming = false ∧
    if f.arming = false ∧ f.active = true then h.face.state = .aborted ∧ h.face.cause = 1 ∧ h.face.plan = f.plan
      ∧ (f.bursting = true → h.qry.state = .flushing)
    else h.face.state = .idle ∧ h.face.plan = none

theorem Half.hostAbort_spec (h : Half) : h.face.abortedTo h.hostAbort := by
  have harm := h.arming_abort 1
  have hdrop (k : Half) : k.dropPlan.face.arming = k.face.arming ∧ k.dropPlan.face.state = .idle ∧ k.dropPlan.face.plan = none := ⟨rfl, rfl, rfl⟩
  have hstop : (h.stopArming false).face.arming = false ∧ (h.stopArming false).face.state = .idle ∧ (h.stopArming false).face.plan = none :=
    ⟨rfl, rfl, rfl⟩
  unfold FaceSt.abortedTo Half.hostAbort
  by_cases ha : h.face.arming = true
  · rw [if_pos ha, if_neg (by simp [ha])]
    exact hstop
  · have ha' : h.face.arming = false := by simpa using ha
    rw [if_neg ha]
    by_cases hactive : h.face.active = true
    · rw [if_pos hactive, if_pos ⟨ha', hactive⟩, harm]
      exact ⟨ha', h.abort_host hactive⟩
    · rw [if_neg hactive, if_neg (show ¬(h.face.arming = false ∧ h.face.active = true) from fun k => hactive k.2)]
      split
      · exact ⟨((hdrop _).1.trans harm).trans ha', (hdrop _).2⟩
      · exact ⟨(hdrop h).1.trans ha', (hdrop h).2⟩

theorem abortedTo_of_engines {f : FaceSt} {h k : Half} (he : h.engines = k.engines) (hk : f.abortedTo k) : f.abortedTo h := by
  obtain ⟨hface, -, hqry, -⟩ := engines_iff.mp he
  unfold FaceSt.abortedTo
  rw [hface, hqry]
  exact hk

/-- ABORT of one half ends what it does, and answers an ARM that waited for it. -/
theorem kept_abortHalf (d : Dev) (life : Life) (s : Side) : (d.mod s Half.hostAbort).Kept (d.abortHalf life s) := by
  have hmod : d.mod s Half.hostAbort = d.mod s fun _ => (d.half s).hostAbort := mod_congr rfl
  have hdrop (d : Dev) : (d.mod s fun h => { h with face := { h.face with state := .idle, plan := none }, tch := { h.tch with cause := 0 } })
    = d.mod s Half.dropPlan := rfl
  unfold Dev.abortHalf Dev.abort
  rw [hmod]
  unfold Half.hostAbort
  dsimp only
  split
  · rw [show (d.mod s fun h => h.stopArming false) = d.mod s fun _ => (d.half s).stopArming false from mod_congr rfl]
    exact kept_armPart ..
  · split
    · rw [mod_congr (f := fun h => h.abort 1) (g := fun _ => (d.half s).abort 1) rfl]
      exact .refl _
    · split
      · rw [hdrop, mod_mod, mod_congr (g := fun _ => ((d.half s).abort 1).dropPlan) rfl]
        exact .refl _
      · rw [hdrop, mod_congr (g := fun _ => (d.half s).dropPlan) rfl]
        exact .refl _

/-- What ABORT of halves leaves: what each did is ended, the other goes on, and no request of the SAFE net is new. -/
structure Dev.HostEnded (l : List Side) (d e : Dev) : Prop where
  hush : d.hush e
  named : ∀ s ∈ l, (d.half s).face.abortedTo (e.half s)
  other : ∀ s ∉ l, (e.half s).engines = (d.half s).engines
  severity : ∀ s b, (e.page s b).severity = (d.page s b).severity
  reaches : ∀ r, d.reaches r → e.reaches r
  powered : e.powered = d.powered

theorem hostEnded_one (d : Dev) (life : Life) (s : Side) : Dev.HostEnded [s] d (d.abortHalf life s) := by
  have k := kept_abortHalf d life s
  obtain ⟨hstw, htsk⟩ := (d.half s).keeps_hostAbort
  refine ⟨(hush_mod hstw (congrArg TskSt.started htsk)).trans k.quiet.hush, fun x hx => ?_, fun x hx => ?_, fun x b => ?_, fun r h => ?_, ?_⟩
  · obtain rfl := List.mem_singleton.mp hx
    refine abortedTo_of_engines (engines_of_bareHalf (k.halves x)) ?_
    rw [half_mod_same]
    exact Half.hostAbort_spec _
  · have hne : x ≠ s := by simpa using hx
    rw [engines_of_bareHalf (k.halves x), half_mod_ne _ _ hne]
  · rw [k.severity, page_mod]
  · exact k.reaches r (reaches_of_front h (front_mod ..))
  · rw [k.powered, powered_mod]

theorem Dev.HostEnded.cons {s : Side} {l : List Side} {d e f : Dev} (hs : s ∉ l) (h : Dev.HostEnded [s] d e) (k : Dev.HostEnded l e f) :
    Dev.HostEnded (s :: l) d f := by
  have heng (x : Side) (hx : x ≠ s) : (e.half x).engines = (d.half x).engines := h.other x (by simpa using hx)
  refine ⟨h.hush.trans k.hush, fun x hx => ?_, fun x hx => ?_, fun x b => (k.severity x b).trans (h.severity x b),
    fun r hr => k.reaches r (h.reaches r hr), k.powered.trans h.powered⟩
  · by_cases hxs : x = s
    · subst hxs
      exact abortedTo_of_engines (k.other x hs) (h.named x (List.mem_singleton_self x))
    · obtain ⟨hface, -⟩ := engines_iff.mp (heng x hxs)
      rw [← hface]
      exact k.named x ((List.mem_cons.mp hx).resolve_left hxs)
  · obtain ⟨hxs, hxl⟩ := not_or.mp (mt List.mem_cons.mpr hx)
    exact (k.other x hxl).trans (heng x hxs)

theorem hostEnded_foldl (life : Life) {l : List Side} (hl : l.Nodup) (d : Dev) :
    Dev.HostEnded l d (l.foldl (fun d s => d.abortHalf life s) d) := by
  induction l generalizing d with
  | nil => exact ⟨(Dev.quiet.refl d).hush, fun s hs => absurd hs List.not_mem_nil, fun _ _ => rfl, fun _ _ => rfl, fun _ h => h, rfl⟩
  | cons s l ih =>
    obtain ⟨hs, hl⟩ := List.nodup_cons.mp hl
    exact (hostEnded_one d life s).cons hs (ih hl _)

/-! ## ARM (R131, R201) -/

theorem kept_setPage {d : Dev} {s : Side} {b : Nat} {p : Page} (hreq : p.requests = true → (d.page s b).requests = true)
    (hsev : p.severity = (d.page s b).severity) : d.Kept (d.setPage s b p) where
  quiet := quiet_setPage _ _ _ _ hreq
  halves s' := half_of_bare (bare_setPage ..) s'
  severity s' b' := by
    by_cases k : pageKey s' b' = pageKey s b
    · rw [page_setPage_key _ _ _ _ _ _ k, page_congr d k, hsev]
    · rw [page_setPage_ne _ _ _ _ _ _ k]
  reaches r h := h
  powered := rfl
  aon := rfl
  slices _ h := h
  tables _ _ _ := rfl

theorem kept_condOn {d : Dev} {s : Side} {b i : Nat} (h : d.mild s b i) : d.Kept (d.condOn s b i) := by
  have hset : d.Kept (d.setPage s b { d.page s b with active := bitSet (d.page s b).active i }) := kept_setPage id rfl
  exact hset.trans (kept_raise (hset.mild h))

theorem kept_condOff (d : Dev) (s : Side) (b i : Nat) : d.Kept (d.condOff s b i) := by
  refine kept_setPage (fun h => ?_) rfl
  simp only [Page.requests, Bool.or_eq_true, decide_eq_true_eq] at h ⊢
  refine h.imp (fun hreq hzero => hreq ?_) id
  rw [hzero]
  split <;> simp [bitClear]

/-- The power block's own values. -/
theorem kept_setClk (d : Dev) {c : ClkSt} (h : c.power = d.clk.power) : d.Kept { d with clk := c } where
  quiet := ⟨id, rfl, id, fun s => by cases s <;> exact id⟩
  halves s := by cases s <;> rfl
  severity _ _ := rfl
  reaches _ h := h
  powered := by simp only [Dev.powered, h]
  aon := rfl
  slices _ h := h
  tables _ _ _ := rfl

/-- The clocks of the fabric start: POWER_SHORT, at a severity below 3, is raised where no budget fits (R440). -/
theorem kept_startClocks {d : Dev} (adm : Option Side) (h : d.mild .w blkClk 4) : d.Kept (d.startClocks adm) := by
  have hend (d : Dev) : d.Kept d.endShort := by
    unfold Dev.endShort
    split
    · exact (kept_setClk d (c := { d.clk with short := false }) rfl).trans (kept_condOff ..)
    · exact .refl d
  have hk (d : Dev) (k : Nat) : d.Kept (d.applyK adm k) := by
    unfold Dev.applyK Dev.showPower
    exact kept_setClk d rfl
  have hfloors : d.Kept d.applyFloors := by
    unfold Dev.applyFloors
    extract_lets f c d1
    have h1 : d.Kept d1 := kept_setClk d rfl
    have h2 : d1.Kept { d1 with clk := { d1.clk with short := true } } := kept_setClk d1 rfl
    split
    · exact h1
    · exact (h1.trans h2).trans (kept_condOn ((h1.trans h2).mild h))
  unfold Dev.startClocks
  split
  · exact kept_setClk d rfl
  · split
    · exact (hk d _).trans (hend _)
    · exact hfloors

/-- A half whose ARM has begun: its work goes on with the plan kept, and nothing holds it or its pins back. -/
def FaceSt.armingOf (f : FaceSt) (h : Half) : Prop :=
  h.face.arming = true ∧ h.face.plan = f.plan ∧ h.tch.cause = 0 ∧ h.face.blocked = false

theorem armingOf_of_engines {f : FaceSt} {h k : Half} (he : h.engines = k.engines) (hk : f.armingOf k) : f.armingOf h := by
  obtain ⟨hface, htch, -⟩ := engines_iff.mp he
  unfold FaceSt.armingOf
  rw [hface, htch]
  exact hk

theorem worked_stopSweep {d : Dev} (life : Life) (s : Side) (h : d.mild .w blkHst 2) : Dev.Worked s d (d.stopSweep life s)
    ∧ (d.stopSweep life s).bare.half s = (d.mod s fun h => { h with cal := { h.cal with sweeping := false } }).bare.half s := by
  have hmod : Dev.Worked s d (d.mod s fun h => { h with cal := { h.cal with sweeping := false } }) := worked_mod rfl rfl fun _ h => h
  have hpart := kept_calPart (d := d.mod s fun h => { h with cal := { h.cal with sweeping := false } }) life s stWrong fun _ => hmod.mild h
  exact ⟨hmod.trans (hpart.worked s), hpart.halves s⟩

theorem kept_abandon (d : Dev) (s : Side) : d.Kept (d.abandon s) where
  quiet := quiet_abandon ..
  halves s' := by cases s' <;> rfl
  severity _ _ := rfl
  reaches _ h := h
  powered := rfl
  aon := rfl
  slices _ h := List.mem_of_mem_filter h
  tables _ _ _ := rfl

/-- Force values of every channel are withdrawn (R67). -/
theorem kept_unforce (d : Dev) (s : Side) (l : List Nat) (h : ∀ ch ∈ l, ch < 8192) :
    d.Kept (l.foldl (fun d ch => d.setRf s.code .tchForce ch 31 31 0) d) :=
  kept_foldl (p := fun _ => True) _ _ (fun _ _ _ h => h) (fun d ch hch _ => kept_setRf d _ 31 31 0 (by decide) (h ch hch)) _ trivial

/-- An ARM that nothing refuses starts the half's work (R131). -/
theorem startArm_spec {d : Dev} (life : Life) (s : Side) (h : d.mild .w blkHst 2) : Dev.Worked s d (d.startArm life s)
    ∧ (d.half s).face.armingOf ((d.startArm life s).half s) ∧ ∀ x ∈ (d.startArm life s).safe.slices, x.side ≠ s := by
  obtain ⟨hsweep, hhalf⟩ := worked_stopSweep life s h
  have hslice := kept_abandon (d.stopSweep life s) s
  have hnone : ∀ x ∈ ((d.stopSweep life s).abandon s).safe.slices, x.side ≠ s := fun x hx => by
    simpa using (List.mem_filter.mp hx).2
  unfold Dev.startArm
  extract_lets d1 d2
  have hforce : d1.Kept d2 := kept_unforce d1 s _ fun ch hch => (List.mem_range.mp hch).trans (by decide)
  have hface : (d2.half s).face = (d.half s).face := by
    obtain ⟨hf, -⟩ := engines_iff.mp (engines_of_bareHalf (((hslice.trans hforce).halves s).trans hhalf))
    rw [hf, half_mod_same]
  have hwork : Dev.Worked s d d2 := hsweep.trans ((hslice.trans hforce).worked s)
  clear_value d2
  refine ⟨hwork.trans (worked_mod ?_ ?_ fun told => ?_), ?_, fun x hx => hnone x (hforce.slices x ?_)⟩
  · dsimp only
    split
    · rfl
    · rfl
  · dsimp only
    split
    · rfl
    · rfl
  · dsimp only
    split
    · exact id
    · exact id
  · rw [half_mod_same, ← hface]
    dsimp only
    split
    · exact ⟨rfl, rfl, rfl, rfl⟩
    · exact ⟨rfl, rfl, rfl, rfl⟩
  · rwa [Dev.mod_safe] at hx

/-- What an ARM of halves leaves: the work of each has begun, and the other goes on. -/
structure Dev.ArmsBegun (l : List Side) (d e : Dev) : Prop where
  quiet : d.quiet e
  named : ∀ s ∈ l, (d.half s).face.armingOf (e.half s) ∧ ∀ x ∈ e.safe.slices, x.side ≠ s
  other : ∀ s ∉ l, (e.half s).engines = (d.half s).engines
  severity : ∀ s b, (e.page s b).severity = (d.page s b).severity
  slices : ∀ x ∈ e.safe.slices, x ∈ d.safe.slices

theorem armsBegun_foldl (life : Life) {l : List Side} (hl : l.Nodup) (d : Dev) (h : d.mild .w blkHst 2) :
    Dev.ArmsBegun l d (l.foldl (fun d s => d.startArm life s) d) := by
  induction l generalizing d with
  | nil => exact ⟨.refl d, fun s hs => absurd hs List.not_mem_nil, fun _ _ => rfl, fun _ _ => rfl, fun _ h => h⟩
  | cons s l ih =>
    obtain ⟨hs, hl⟩ := List.nodup_cons.mp hl
    obtain ⟨hwork, hbegun, hnone⟩ := startArm_spec life s h
    have k := ih hl (d.startArm life s) (hwork.mild h)
    have heng (x : Side) (hx : x ≠ s) : ((d.startArm life s).half x).engines = (d.half x).engines := by
      rw [Side.ne_iff_other.mp hx]
      exact engines_of_bareHalf hwork.other
    refine ⟨hwork.quiet.trans k.quiet, fun x hx => ?_, fun x hx => ?_, fun x b => (k.severity x b).trans (hwork.severity x b),
      fun x hx => hwork.slices x (k.slices x hx)⟩
    · by_cases hxs : x = s
      · subst hxs
        exact ⟨armingOf_of_engines (k.other x hs) hbegun, fun y hy => hnone y (k.slices y hy)⟩
      · obtain ⟨hface, -⟩ := engines_iff.mp (heng x hxs)
        rw [← hface]
        exact k.named x ((List.mem_cons.mp hx).resolve_left hxs)
    · obtain ⟨hxs, hxl⟩ := not_or.mp (mt List.mem_cons.mpr hx)
      exact (k.other x hxl).trans (heng x hxs)

/-! ## Fire (R132 to R134) -/

theorem kept_hookMissed {d : Dev} {s : Side} {hook : Nat} (hidx : hook < 8192) (h : d.mild s blkFab 0) : d.Kept (d.hookMissed s hook) := by
  have hbump := kept_bump d s.code (r := .fabHookLate) (i := hook) 15 0 1 (by decide) hidx
  exact hbump.trans (kept_raise (hbump.mild h))

/-- The hooks at a fire: no issue waits, and what was offered is late (R232). -/
theorem worked_hooksFire {d : Dev} {s : Side} (h : d.mild s blkFab 0) : Dev.Worked s d (d.hooksFire s)
    ∧ ((d.hooksFire s).half s).face = (d.half s).face := by
  refine foldl_rel (R := fun d e => Dev.Worked s d e ∧ (e.half s).face = (d.half s).face) (p := fun d => d.mild s blkFab 0)
    (fun d => ⟨(Dev.Kept.refl d).worked s, rfl⟩) (fun d e f h k => ⟨h.1.trans k.1, k.2.trans h.2⟩) (fun d e h k => h.1.mild k)
    _ _ (fun d k hk hm => ?_) d h
  dsimp only
  split
  · exact ⟨(Dev.Kept.refl d).worked s, rfl⟩
  · have hset : Dev.Worked s d (d.mod s fun h => h.setHook k { (d.half s).hook k with
        queue := [], offered := 0, out := ((d.half s).hook k).out.map fun o => (o.1, true) }) := worked_mod rfl rfl fun _ h => h
    have hmissed := kept_foldl (p := fun d => d.mild s blkFab 0) (List.replicate (((d.half s).hook k).out.filter fun o => !o.2).length ())
      (fun d _ => d.hookMissed s k) (fun _ _ hk hm => hk.mild hm)
      (fun d _ _ hm => kept_hookMissed ((List.mem_range.mp hk).trans (by decide)) hm) _ (hset.mild hm)
    refine ⟨hset.trans (hmissed.worked s), ?_⟩
    obtain ⟨hface, -⟩ := engines_iff.mp (engines_of_bareHalf (hmissed.halves s))
    rw [hface, half_mod_same]
    rfl

/-- A half's calibration without its sweep. -/
def CalSt.unswept (c : CalSt) : CalSt := { c with sweeping := false }

/-- The validity of a half's calibration lies in its tables, its mode, and the settings of its channels (R202, R203). -/
theorem calValid_congr {d e : Dev} {s : Side} (hcal : (e.half s).cal.unswept = (d.half s).cal.unswept) (hmodes : (e.half s).modes = (d.half s).modes)
    (htables : ∀ n i, i < 8192 → e.rg n .tchCfg i = d.rg n .tchCfg i) : e.calValid s = d.calValid s := by
  have field {α : Type} (f : CalSt → α) (hf : ∀ c, f c.unswept = f c) : f (e.half s).cal = f (d.half s).cal := by
    rw [← hf, hcal, hf]
  have hblocks : (e.half s).cal.blocks = (d.half s).cal.blocks := field CalSt.blocks fun _ => rfl
  have htemps : (e.half s).cal.temps = (d.half s).cal.temps := field CalSt.temps fun _ => rfl
  have hanchored : (e.half s).cal.anchored = (d.half s).cal.anchored := field CalSt.anchored fun _ => rfl
  have haged : (e.half s).cal.aged = (d.half s).cal.aged := field CalSt.aged fun _ => rfl
  have hphi : (e.half s).cal.phi = (d.half s).cal.phi := field CalSt.phi fun _ => rfl
  have hwitness : (e.half s).cal.witness = (d.half s).cal.witness := field CalSt.witness fun _ => rfl
  have hloaded : (e.half s).cal.loaded = (d.half s).cal.loaded := field CalSt.loaded fun _ => rfl
  have hcurrent (ch : Nat) (h : ch < 8192) : e.current s ch = d.current s ch := by
    unfold Dev.current Half.assisted
    dsimp only
    rw [hblocks, htemps, hanchored, haged, hmodes, htables _ _ h]
  have hxhalf : e.xhalfOk s = d.xhalfOk s := by
    cases s with
    | w => rfl
    | e =>
      have hdrift (ch : Nat) : e.east.cal.drift ch = d.east.cal.drift ch := by
        unfold CalSt.drift
        rw [show e.east.cal.blocks = _ from hblocks, show e.east.cal.phi = _ from hphi]
        rfl
      simp only [Dev.xhalfOk, hdrift]
  have hchans (ch : Nat) (h : ch ∈ List.range 256) : (decide (e.rf s.code .tchCfg ch 0 0 = 0) || e.current s ch)
      = (decide (d.rf s.code .tchCfg ch 0 0 = 0) || d.current s ch) := by
    have hch : ch < 8192 := (List.mem_range.mp h).trans (by decide)
    rw [hcurrent ch hch, Dev.rf, Dev.rf, htables _ _ hch]
  have hall : ∀ l : List Nat, (∀ ch ∈ l, ch ∈ List.range 256) →
      (l.all fun ch => decide (e.rf s.code .tchCfg ch 0 0 = 0) || e.current s ch)
        = l.all fun ch => decide (d.rf s.code .tchCfg ch 0 0 = 0) || d.current s ch := by
    intro l hl
    induction l with
    | nil => rfl
    | cons x l ih => rw [List.all_cons, List.all_cons, hchans x (hl x (List.mem_cons_self ..)), ih fun ch h => hl ch (List.mem_cons_of_mem _ h)]
  unfold Dev.calValid
  rw [hloaded, hwitness, hxhalf, hall _ fun _ h => h]

theorem calValid_of_bareHalf {d e : Dev} {s : Side} (h : e.bare.half s = d.bare.half s)
    (htables : ∀ n i, i < 8192 → e.rg n .tchCfg i = d.rg n .tchCfg i) : e.calValid s = d.calValid s := by
  have hcal := congrArg Half.cal h
  have hmodes := congrArg Half.modes h
  refine calValid_congr (congrArg CalSt.unswept ?_) ?_ htables
  · cases s <;> exact hcal
  · cases s <;> exact hmodes

/-- What a fire makes of a half's sequencer (R130, R132). -/
def FaceSt.firedTo (f : FaceSt) (src : Nat) (time : BitVec 64) (g : FaceSt) : Prop :=
  g.state = .running ∧ g.fires = f.fires + 1 ∧ g.lastFire = src ∧ g.burst.fireTime = time ∧ g.records = f.records

/-- A fire that starts a burst, with valid calibration (R132, R203). -/
theorem startBurst_spec {d : Dev} (life : Life) {s : Side} (src : Nat) (hvalid : d.calValid s = true) (hreject : d.mild .w blkHst 2)
    (hhook : d.mild s blkFab 0) : Dev.Worked s d (d.startBurst life s src)
    ∧ (d.half s).face.firedTo src d.aon.count ((d.startBurst life s src).half s).face := by
  obtain ⟨hsweep, hhalf⟩ := worked_stopSweep life s hreject
  have hvalid' : (d.stopSweep life s).calValid s = true := by
    have hcal := congrArg Half.cal hhalf
    have hmodes := congrArg Half.modes hhalf
    rw [calValid_congr ?_ ?_ hsweep.tables, hvalid]
    · have hunswept := congrArg CalSt.unswept hcal
      cases s <;> exact hunswept
    · cases s <;> exact hmodes
  have hface : ((d.stopSweep life s).half s).face = (d.half s).face := by
    obtain ⟨hf, -⟩ := engines_iff.mp (engines_of_bareHalf hhalf)
    rw [hf, half_mod_same]
  unfold Dev.startBurst
  extract_lets d1 valid time d2 d3
  have hvalid1 : valid = true := hvalid'
  have htime : time = d.aon.count := congrArg AonSt.count hsweep.aon
  have h2 : Dev.Worked s d1 d2 := worked_mod rfl rfl fun told h => absurd h (by simp [Half.ended])
  have hf2 : (d1.half s).face.firedTo src time (d2.half s).face := by
    simp only [d2, half_mod_same]
    exact ⟨rfl, rfl, rfl, rfl, rfl⟩
  have hflags : d2.Kept (d2.clearFlags s) := kept_setRf d2 s.code 7 0 0 (by decide) (by decide)
  have hpre : Dev.Worked s d (d2.clearFlags s) := (hsweep.trans h2).trans (hflags.worked s)
  obtain ⟨hhooks, hface3⟩ := worked_hooksFire (hpre.mild hhook)
  rw [if_pos hvalid1]
  refine ⟨hpre.trans hhooks, ?_⟩
  obtain ⟨hkept, -⟩ := engines_iff.mp (engines_of_bareHalf (hflags.halves s))
  rw [hface3, hkept, ← hface, ← htime]
  exact hf2

/-- What lets a FIRE over Hoist start a half's burst. -/
structure Dev.FireReady (d : Dev) (s : Side) : Prop where
  armed : (d.half s).face.state = .armed
  permits : (d.half s).permits 3 = true
  valid : d.calValid s = true
  unwritten : (d.half s).face.burst.unwritten = false
  reject : d.mild .w blkHst 2
  hook : d.mild s blkFab 0

theorem Dev.FireReady.idle {d : Dev} {s : Side} (h : d.FireReady s) : (d.half s).face.firedNow = false := by
  simp [FaceSt.firedNow, h.armed]

theorem Dev.FireReady.worked {d e : Dev} {s : Side} (h : d.FireReady s.other) (k : Dev.Worked s d e) : e.FireReady s.other := by
  have hface : (e.half s.other).face = (d.half s.other).face := by
    obtain ⟨hf, -⟩ := engines_iff.mp (engines_of_bareHalf k.other)
    exact hf
  have hattic : (e.half s.other).attic = (d.half s.other).attic := by
    have hattic := congrArg Half.attic k.other
    cases s <;> exact hattic
  refine ⟨hface ▸ h.armed, ?_, (calValid_of_bareHalf k.other k.tables).trans h.valid, hface ▸ h.unwritten, k.mild h.reject, k.mild h.hook⟩
  have hpermits := h.permits
  unfold Half.permits Half.planRd at hpermits ⊢
  rwa [hface, hattic]

theorem fireHalf_spec {d : Dev} (life : Life) {s : Side} (h : d.FireReady s) (hslots : d.slotsFree ≠ 0) : Dev.Worked s d (d.fireHalf life s 3)
    ∧ (d.half s).face.firedTo 3 d.aon.count ((d.fireHalf life s 3).half s).face := by
  have hstart : d.fireHalf life s 3 = d.startBurst life s 3 := by
    unfold Dev.fireHalf
    dsimp only
    rw [if_neg (by simp [h.idle]), if_neg (by simp [h.armed]), if_neg (by simp [h.permits]), if_neg hslots]
  rw [hstart]
  exact startBurst_spec life 3 h.valid h.reject h.hook

/-- A burst that starts takes one record slot. -/
theorem slotsFree_fired {d e : Dev} {time : BitVec 64} (hw : (d.half .w).face.firedTo 3 time (e.half .w).face)
    (he : (e.half .e).face = (d.half .e).face) (hopen : (d.half .e).face.burst.unwritten = false) (hslots : 2 ≤ d.slotsFree) : e.slotsFree ≠ 0 := by
  obtain ⟨-, -, -, -, hrecords⟩ := hw
  have hrecords' : e.west.face.records = d.west.face.records := hrecords
  have hface : e.east.face = d.east.face := he
  have hopen' : d.east.face.burst.unwritten = false := hopen
  have hbit (b : Bool) : b1 b ≤ 1 := by cases b <;> decide
  have hle := hbit e.west.face.burst.unwritten
  have hzero : b1 d.east.face.burst.unwritten = 0 := by rw [hopen']; rfl
  unfold Dev.slotsFree Dev.recordCount Dev.openBursts at hslots ⊢
  rw [hrecords', hface, hzero]
  omega

/-- FIRE of halves that are ready: each runs its burst, from the time of the always-on counter. -/
theorem fired_foldl {d : Dev} (life : Life) {l : List Side} (hl : l = [.w] ∨ l = [.e] ∨ l = [.w, .e]) (h : ∀ s ∈ l, d.FireReady s)
    (hslots : l.length ≤ d.slotsFree) : d.quiet (l.foldl (fun d s => d.fireHalf life s 3) d)
    ∧ (∀ r, d.reaches r → (l.foldl (fun d s => d.fireHalf life s 3) d).reaches r)
    ∧ ∀ s ∈ l, (d.half s).face.firedTo 3 d.aon.count ((l.foldl (fun d s => d.fireHalf life s 3) d).half s).face := by
  have hone (s : Side) (hs : d.FireReady s) (hfree : d.slotsFree ≠ 0) := fireHalf_spec life hs hfree
  rcases hl with rfl | rfl | rfl
  · obtain ⟨hwork, hfired⟩ := hone .w (h .w (by decide)) (Nat.one_le_iff_ne_zero.mp hslots)
    exact ⟨hwork.quiet, hwork.reaches, fun s hs => List.mem_singleton.mp hs ▸ hfired⟩
  · obtain ⟨hwork, hfired⟩ := hone .e (h .e (by decide)) (Nat.one_le_iff_ne_zero.mp hslots)
    exact ⟨hwork.quiet, hwork.reaches, fun s hs => List.mem_singleton.mp hs ▸ hfired⟩
  · have hslots' : 2 ≤ d.slotsFree := hslots
    obtain ⟨hwork, hfired⟩ := hone .w (h .w (by decide)) (by omega)
    have hready : (d.fireHalf life .w 3).FireReady .e := (h .e (by decide)).worked hwork
    have hface : ((d.fireHalf life .w 3).half .e).face = (d.half .e).face := by
      obtain ⟨hf, -⟩ := engines_iff.mp (engines_of_bareHalf hwork.other)
      exact hf
    obtain ⟨hwork2, hfired2⟩ := fireHalf_spec life hready (slotsFree_fired hfired hface (h .e (by decide)).unwritten hslots')
    refine ⟨hwork.quiet.trans hwork2.quiet, fun r hr => hwork2.reaches r (hwork.reaches r hr), fun s _ => ?_⟩
    cases s with
    | w =>
      obtain ⟨hf, -⟩ := engines_iff.mp (engines_of_bareHalf hwork2.other)
      have hkept : (((d.fireHalf life .w 3).fireHalf life .e 3).half .w).face = ((d.fireHalf life .w 3).half .w).face := hf
      exact hkept ▸ hfired
    | e =>
      rw [hface, congrArg AonSt.count hwork.aon] at hfired2
      exact hfired2

/-! ## The commands -/

theorem firstRefusal_none {l : List Side} {f : Side → Option Nat} (h : ∀ s ∈ l, f s = none) : firstRefusal l f = none :=
  List.findSome?_eq_none_iff.mpr h

theorem halvesOk_of {halves : Nat} (hlow : 1 ≤ halves) (hhigh : halves ≤ 3) : halvesOk halves = true := by
  simp [halvesOk, hlow, hhigh]

theorem nodup_named {halves : Nat} (hlow : 1 ≤ halves) (hhigh : halves ≤ 3) : (namedHalves halves).Nodup := by
  rcases named_cases hlow hhigh with h | h | h <;> rw [h] <;> decide

theorem contains_named {halves : Nat} (hhigh : halves ≤ 3) {s : Side} (hs : s ∈ namedHalves halves) :
    (s = .e ∧ (namedHalves halves).contains .w = true) ↔ (s = .e ∧ halves = 3) := by
  interval_cases halves <;> cases s <;> revert hs <;> decide

theorem mild_accepted {d : Dev} {h : Hdr} {s : Side} {b i : Nat} (k : d.mild s b i) : (d.accepted h).mild s b i :=
  mild_of_severity (by rw [page_of_pages (pages_accepted d h)]) (by rw [page_of_pages (pages_accepted d h)]) k

theorem face_of_bare {d e : Dev} (h : d.bare = e.bare) (s : Side) : (d.half s).face = (e.half s).face := by
  obtain ⟨hface, -⟩ := engines_iff.mp (engines_of_bareHalf (half_of_bare h s))
  exact hface

theorem yields_planLoad {s : State} {h : Hdr} {side : Side} {id : Nat} {f : FileRec} (k : Admits s h 0x50 true true (decide (side = .e)))
    (hlock : ((s.dev.accepted h).half side).locked = false) (hsame : (s.dev.accepted h).diverges (.face side) = false)
    (hreset : ((s.dev.accepted h).half side).reset = 0) (hcellar : (s.dev.accepted h).cellarRefusal side = none)
    (hfile : ((s.dev.accepted h).half side).file id = some f) (hclosed : f.isOpen = false) (hkept : (s.dev.accepted h).retired f = false) :
    Yields (.planLoad h side.code id) s fun e => e.bare = ((s.dev.accepted h).mod side fun x => { x with
      face := { x.face with loading := x.face.loading ++ [(id, s.dev.replyTo 0x50 h)] } }).bare := by
  have hside : (if side.code = 1 then Side.e else .w) = side := by cases side <;> rfl
  have hcode : ¬1 < side.code := by cases side <;> decide
  refine yields_hoist (o := { code := 0x50, required := true, fw := true }) (far := decide (side = .e))
    (body := touching [.face side] (planLoadBody side.code id)) ?_ k fun t ht => ?_
  · cases side <;> rfl
  rw [touching_clear (by simpa using hsame)] at ht
  unfold planLoadBody at ht
  dsimp only at ht
  rw [if_neg hcode, hside, if_neg (by simp [hlock]), if_neg (by simp [hreset]), hcellar, hfile] at ht
  dsimp only at ht
  rw [if_neg (by simp [hclosed]), if_neg (by simp [hkept]), setHalf_eq_mod] at ht
  rw [ht.bare ((calm_accepted k).quiet (quiet_mod rfl rfl fun _ h => h))]
  exact congrArg Dev.bare (mod_congr rfl)

theorem yields_arm {s : State} {h : Hdr} {halves : Nat} (hlow : 1 ≤ halves) (hhigh : halves ≤ 3) (k : Admits s h 0x51 true true (farHalves halves))
    (hpass : ∀ side ∈ namedHalves halves, (if side = .e ∧ halves = 3 then (s.dev.accepted h).mod .w fun x => { x with
      face := { x.face with arming := true } } else s.dev.accepted h).armRefusal side = none)
    (hsame : ∀ u ∈ (namedHalves halves).flatMap armUnits, (s.dev.accepted h).diverges u = false)
    (hreject : s.dev.mild .w blkHst 2) (hshort : s.dev.mild .w blkClk 4) :
    Yields (.arm h halves) s fun e => ∀ side, if side ∈ namedHalves halves then
      ((s.dev.accepted h).half side).face.armingOf (e.half side) ∧ e.slice side = none
      else (e.half side).face = ((s.dev.accepted h).half side).face := by
  refine yields_hoist (o := { code := 0x51, required := true, fw := true })
    (body := touching ((namedHalves halves).flatMap armUnits) (armBody halves)) rfl k fun t ht => ?_
  rw [touching_clear hsame] at ht
  have hbegun := armsBegun_foldl s.fuse.life (nodup_named hlow hhigh) (s.dev.accepted h) (mild_accepted hreject)
  unfold armBody at ht
  rw [if_neg (by simp [halvesOk_of hlow hhigh])] at ht
  extract_lets l pre at ht
  have hpre : firstRefusal l pre = none := firstRefusal_none fun side hs => by
    simp only [pre, l, contains_named hhigh hs]
    exact hpass side hs
  rw [hpre] at ht
  dsimp only at ht
  have hclocks := kept_startClocks (d := l.foldl (fun d s_1 => d.startArm s.fuse.life s_1) (s.dev.accepted h)) none
    (mild_of_severity (hbegun.severity ..) (hbegun.severity ..) (mild_accepted hshort))
  have hlist := hclocks.trans (kept_setHst _ (h := { (Dev.startClocks (l.foldl (fun d s_1 => d.startArm s.fuse.life s_1) (s.dev.accepted h)) none).hst with
    arms := _ }) rfl rfl fun s => by cases s <;> rfl)
  have hbare := ht.bare ((calm_accepted k).quiet (hbegun.quiet.trans hlist.quiet))
  intro side
  have heng := (engines_of_bareHalf (half_of_bare hbare side)).trans (engines_of_bareHalf (hlist.halves side))
  have hslices := congrArg (fun d : Dev => d.safe.slices) hbare
  split
  next hs =>
    obtain ⟨hnamed, hnone⟩ := hbegun.named side hs
    refine ⟨armingOf_of_engines heng hnamed, ?_⟩
    rw [Dev.slice, List.find?_eq_none]
    intro x hx
    have hx' : x ∈ t.bare.safe.slices := hx
    rw [show t.bare.safe.slices = _ from hslices] at hx'
    simpa using hnone x (hlist.slices x hx')
  next hs =>
    obtain ⟨hface, -⟩ := engines_iff.mp (heng.trans (hbegun.other side hs))
    exact hface

theorem yields_fire {s : State} {h : Hdr} {halves : Nat} (hlow : 1 ≤ halves) (hhigh : halves ≤ 3) (k : Admits s h 0x52 true false false)
    (hslots : (namedHalves halves).length ≤ (s.dev.accepted h).slotsFree)
    (havailable : ∀ side ∈ namedHalves halves, (s.dev.accepted h).unavailable side 2 = none)
    (hready : ∀ side ∈ namedHalves halves, (s.dev.accepted h).FireReady side) :
    Yields (.fire h halves) s fun e => e.tells (s.dev.replyTo 0x52 h) stOk [] ∧ ∀ side ∈ namedHalves halves,
      ((s.dev.accepted h).half side).face.firedTo 3 (s.dev.accepted h).aon.count (e.half side).face := by
  obtain ⟨hquiet, hreaches, hfired⟩ := fired_foldl s.fuse.life (named_cases hlow hhigh) hready hslots
  refine yields_finishWith (o := { code := 0x52, required := true, fw := false }) (body := fireBody halves) (st := stOk) (pl := []) (dup := false)
    (e := (namedHalves halves).foldl (fun d side => d.fireHalf s.fuse.life side 3) (s.dev.accepted h)) rfl k ?_
    ((calm_accepted k).quiet hquiet) (hreaches _ (reaches_accepted _ k.takes)) (by decide) fun t hbare htells => ⟨htells, fun side hs => ?_⟩
  · have hidle : ∀ side ∈ namedHalves halves, ((s.dev.accepted h).half side).face.firedNow = false := fun side hs => (hready side hs).idle
    unfold fireBody
    dsimp only
    rw [if_neg (by simp [halvesOk_of hlow hhigh]), firstRefusal_none havailable]
    dsimp only
    rw [if_neg, if_neg, if_neg]
    · rfl
    · exact Nat.not_lt.mpr ((List.length_filter_le ..).trans hslots)
    · simpa using fun side hs => (hready side hs).permits
    · simpa using fun side hs _ => (hready side hs).armed
  · rw [face_of_bare hbare]
    exact hfired side hs

theorem yields_abort {s : State} {h : Hdr} {halves : Nat} (hlow : 1 ≤ halves) (hhigh : halves ≤ 3) (k : Admits s h 0x53 true false false)
    (hmeek : s.dev.meek)
    (hopen : ∀ side ∈ namedHalves halves, (s.dev.accepted h).unavailable side 2 = none ∧ (s.dev.accepted h).diverges (.face side) = false)
    (hbusy : ∀ side ∈ namedHalves halves, ((s.dev.accepted h).half side).face.arming = false → ((s.dev.accepted h).half side).face.state ≠ .idle) :
    Yields (.abort h halves) s fun e => e.tells (s.dev.replyTo 0x53 h) stOk [] ∧ ∀ side ∈ namedHalves halves,
      ((s.dev.accepted h).half side).face.abortedTo (e.half side) := by
  have hended := hostEnded_foldl s.fuse.life (nodup_named hlow hhigh) (s.dev.accepted h)
  have hfinish := kept_finish (d := (namedHalves halves).foldl (fun d side => d.abortHalf s.fuse.life side) (s.dev.accepted h)) s.fuse.life
    (s.dev.replyTo 0x53 h) stOk [] fun h => absurd h (by decide)
  have hmeek' : ((namedHalves halves).foldl (fun d side => d.abortHalf s.fuse.life side) (s.dev.accepted h)).meek := by
    have hsev (s' : Side) (b : Nat) := (hended.severity s' b).trans (congrArg Page.severity (page_of_pages (pages_accepted s.dev h) s' b))
    exact ⟨mild_of_severity (hsev ..) (hsev ..) hmeek.1, mild_of_severity (hsev ..) (hsev ..) hmeek.2⟩
  refine yields_ending (f := fun life d => hoist { code := 0x53, required := true, fw := false } false h
      (touching ((namedHalves halves).map .face) (abortBody halves)) life d)
    (e := Dev.finish ((namedHalves halves).foldl (fun d side => d.abortHalf s.fuse.life side) (s.dev.accepted h)) s.fuse.life (s.dev.replyTo 0x53 h) stOk [])
    rfl k.powered k.calm ?_ ?_ ?_ ⟨hfinish.mild hmeek'.1, hfinish.mild hmeek'.2⟩ fun t hbare hgrows => ⟨?_, fun side hs => ?_⟩
  · refine (hoist_of_admits (o := { code := 0x53, required := true, fw := false }) _ k).trans ?_
    rw [touching_clear (diverges_map fun side hs => (hopen side hs).2)]
    unfold abortBody
    dsimp only
    rw [if_neg (by simp [halvesOk_of hlow hhigh]), firstRefusal_none fun side hs => (hopen side hs).1]
    dsimp only
    rw [if_neg]
    simpa using fun side hs hidle => Bool.not_eq_false _ ▸ fun harm => hbusy side hs harm hidle
  · rw [hfinish.powered, hended.powered, powered_of_bare (accepted_bare ..)]
    exact k.powered
  · exact ((quiet_accepted ..).hush.trans hended.hush).trans hfinish.quiet.hush
  · exact tells_grows hgrows (tells_finish _ _ _ (hended.reaches _ (reaches_accepted _ k.takes)) (by decide))
  · refine abortedTo_of_engines ?_ (hended.named side hs)
    exact (engines_of_sans ((sans_of_bare hbare).trans (sans_journaled _)) side).trans (engines_of_bareHalf (hfinish.halves side))

/-- Settles O33: each command by what it makes of the halves it names. -/
theorem burstCommands : Obligations.BurstCommands := by
  unfold Obligations.BurstCommands
  dsimp only
  intro s h
  refine ⟨fun side id f k hlock hsame hreset hcellar hfile hclosed hkept =>
      yields_planLoad k hlock hsame hreset hcellar hfile hclosed hkept,
    fun halves hlow hhigh k hpass hsame hreject hshort => ?_, fun halves hlow hhigh k hreject hslots hready => ?_,
    fun halves hlow hhigh k hmeek hopen hbusy => yields_abort hlow hhigh k hmeek hopen hbusy⟩
  · refine yields_mono (yields_arm hlow hhigh k hpass hsame hreject hshort) fun d hd side => ?_
    have hside := hd side
    split at hside
    next hs =>
      rw [if_pos hs]
      obtain ⟨⟨harm, hplan, hcause, hblocked⟩, hslice⟩ := hside
      exact ⟨harm, hplan, hcause, hblocked, hslice⟩
    next hs =>
      rw [if_neg hs]
      exact hside
  · refine yields_mono (yields_fire hlow hhigh k hslots (fun side hs => (hready side hs).1) fun side hs => ?_) fun d ⟨htells, hd⟩ =>
      ⟨htells, fun side hs => ?_⟩
    · obtain ⟨-, harmed, hpermits, hvalid, hunwritten, hhook⟩ := hready side hs
      exact ⟨harmed, hpermits, hvalid, hunwritten, mild_accepted hreject, mild_accepted hhook⟩
    · obtain ⟨hrun, hfires, hlast, htime, -⟩ := hd side hs
      exact ⟨hrun, hfires, hlast, htime⟩

end Sys2Proof.Machine
end

section
/-! PROOFS. RESET_PART, its end, and SLEEP; what every command leaves of a half at rest (chapter 17). -/
namespace Sys2Proof.Machine
open Sys2Proof.Safety

/-! ## What every command leaves of an idle half's sequencer and of its verify pipeline -/

/-- A half's sequencer, and the line checks that it waits for. -/
def Half.kern (h : Half) : FaceSt × XtsSt := (h.face, h.xts)

def Dev.kern (d : Dev) (s : Side) : FaceSt × XtsSt := (d.half s).kern

theorem kern_of_bare {d e : Dev} (h : d.bare = e.bare) (s : Side) : d.kern s = e.kern s := by
  have hkern := congrArg Half.kern (half_of_bare h s)
  cases s <;> exact hkern

theorem kern_of_sans {d e : Dev} (h : d.sans = e.sans) (s : Side) : d.kern s = e.kern s := by
  have hkern := congrArg (fun x : Dev => (x.half s).kern) h
  cases s <;> exact hkern

theorem kern_mod {d : Dev} {s : Side} {f : Half → Half} (h : (f (d.half s)).kern = (d.half s).kern) (s' : Side) : (d.mod s f).kern s' = d.kern s' := by
  unfold Dev.kern
  by_cases hs : s' = s
  · rw [hs, half_mod_same, h]
  · rw [half_mod_ne _ _ hs]

theorem kern_foldl {α : Type} (s : Side) (l : List α) (f : Dev → α → Dev) (h : ∀ d x, (f d x).kern s = d.kern s) (d : Dev) :
    (l.foldl f d).kern s = d.kern s := by
  induction l generalizing d with
  | nil => rfl
  | cons x l ih => exact (ih _).trans (h d x)

theorem kern_setRg (d : Dev) (n : Nat) (r : Rg) (i : Nat) (v : Word) (s : Side) : (d.setRg n r i v).kern s = d.kern s := by cases s <;> rfl
theorem kern_resetRg (d : Dev) (n : Nat) (r : Rg) (s : Side) : (d.resetRg n r).kern s = d.kern s := by cases s <;> rfl
theorem kern_bump (d : Dev) (n : Nat) (r : Rg) (i hi lo k : Nat) (s : Side) : (d.bump n r i hi lo k).kern s = d.kern s := kern_setRg ..
theorem kern_event (d : Dev) (c e a : Nat) (s : Side) : (d.event c e a).kern s = d.kern s := kern_of_bare (bare_event ..) s
theorem kern_raise (d : Dev) (t : Side) (b i : Nat) (s : Side) : (d.raise t b i).kern s = d.kern s := kern_of_bare (bare_raise ..) s

theorem kern_finish (d : Dev) (life : Life) (r : Reply) (st : Nat) (pl : List Byte) (s : Side) : (d.finish life r st pl).kern s = d.kern s := by
  by_cases h : st = stWrong
  · subst h
    rw [kern_of_bare (bare_finishWrong ..), kern_bump]
  · exact kern_of_bare (bare_finishWith _ _ _ _ _ _ h) s

theorem kern_clearArray (d : Dev) (s : Side) : d.clearArray.kern s = d.kern s := by
  have hidle (d : Dev) (t : Side) : (d.mod t fun h => { h with fab := { h.fab with
      hooks := [], ports := [], padOut := 0, padOe := 0, scrubBusy := false } }).kern s = d.kern s := kern_mod rfl s
  unfold Dev.clearArray
  dsimp only
  rw [kern_resetRg, kern_resetRg, kern_foldl s _ _ (fun d f => kern_resetRg ..), hidle, hidle]
  cases s <;> rfl

theorem kern_setCfg (d : Dev) (c : CfgSt) (s : Side) : Dev.kern { d with cfg := c } s = d.kern s := by cases s <;> rfl

theorem kern_endReplies (d : Dev) (life : Life) (l : Load) (r a : Nat) (who : List (Nat × Reply)) (s : Side) :
    (d.endReplies life l r a who).kern s = d.kern s := by
  induction who generalizing d with
  | nil => rfl
  | cons x who ih =>
    unfold Dev.endReplies
    split
    · rw [ih, kern_finish]
    · split
      · rw [ih, kern_finish]
      · rw [kern_foldl s _ _ (fun d x => kern_finish ..), kern_finish]

theorem kern_recordEnd (d : Dev) (life : Life) (l : Load) (r a : Nat) (s : Side) : (d.recordEnd life l r a).kern s = d.kern s := by
  unfold Dev.recordEnd
  extract_lets d1 d2 d3 d4 d5
  have h2 : d2.kern s = d.kern s := by
    simp only [d2]
    split
    · exact kern_setRg ..
    · rw [kern_setRg]
      exact kern_setRg ..
  have h4 : d4.kern s = d.kern s := by
    rw [show d4.kern s = d3.kern s from kern_event .., ← h2]
    simp only [d3]
    clear_value d2
    split
    · exact kern_setCfg ..
    · rfl
  have h5 : d5.kern s = d.kern s := by
    rw [← h4]
    simp only [d5]
    clear_value d4
    split
    · rfl
    · exact kern_raise ..
  clear_value d5
  split
  · exact (kern_setCfg ..).trans h5
  · rw [kern_endReplies, h5]

theorem kern_autoNext (d : Dev) (s : Side) : d.autoNext.kern s = d.kern s := by
  unfold Dev.autoNext
  split
  · rfl
  · dsimp only
    split
    · exact kern_setCfg ..
    · split
      · split
        · exact kern_setCfg ..
        · rw [kern_raise, kern_setCfg]
      · rw [kern_raise, kern_setCfg]

theorem kern_checkFail (d : Dev) (life : Life) (l : Load) (r a : Nat) (s : Side) : (d.checkFail life l r a).kern s = d.kern s := by
  have hafter (d : Dev) : (d.autoAfter l).kern s = d.kern s := by
    unfold Dev.autoAfter
    split
    · rfl
    · split
      · exact kern_raise ..
      · exact kern_autoNext ..
  unfold Dev.checkFail
  rw [hafter, kern_recordEnd, kern_setCfg]

theorem kern_loadFail (d : Dev) (life : Life) (l : Load) (r a : Nat) (s : Side) : (d.loadFail life l r a).kern s = d.kern s := by
  unfold Dev.loadFail
  dsimp only
  split
  · rw [kern_recordEnd, kern_setCfg]
  · rw [kern_recordEnd, kern_setCfg, kern_clearArray]

theorem kern_truncateLoad (d : Dev) (life : Life) (s : Side) : (d.truncateLoad life).kern s = d.kern s := by
  unfold Dev.truncateLoad Dev.failHere
  split
  · rfl
  · split
    · rfl
    · split
      · exact kern_loadFail ..
      · exact kern_checkFail ..

theorem kern_pathLost (d : Dev) (life : Life) (s : Side) : (d.pathLost life).kern s = d.kern s := by
  unfold Dev.pathLost
  split
  · rfl
  · split
    · exact kern_loadFail ..
    · rfl

theorem kern_journalEnd (d : Dev) (t s : Side) : (d.journalEnd t).kern s = d.kern s := kern_of_sans (sans_journalEnd ..) s

theorem kern_of_kept {d e : Dev} (h : d.Kept e) (s : Side) : e.kern s = d.kern s := by
  have hkern := congrArg Half.kern (h.halves s)
  cases s <;> exact hkern

theorem kern_armPart (d : Dev) (life : Life) (t : Side) (st : Nat) (s : Side) : (d.armPart life t st).kern s = d.kern s :=
  kern_of_kept (kept_armPart ..) s

/-- A sequencer that runs no burst, no flush and no ARM. -/
def FaceSt.atRest (f : FaceSt) : Bool := !f.arming && !f.active && !f.burst.unwritten

/-- The net's assertion leaves a half at rest. -/
theorem kern_safeHalf (d : Dev) (life : Life) (t s : Side) (h : (d.half s).face.atRest = true) : (d.safeHalf life t).kern s = d.kern s := by
  by_cases hts : s = t
  · subst hts
    obtain ⟨⟨harm, hactive⟩, hopen⟩ : ((d.half s).face.arming = false ∧ (d.half s).face.active = false) ∧ (d.half s).face.burst.unwritten = false := by
      simpa [FaceSt.atRest] using h
    unfold Dev.safeHalf
    dsimp only
    rw [harm, hactive, hopen]
    rfl
  · have hmod (d : Dev) (f : Half → Half) : (d.mod t f).kern s = d.kern s := by
      unfold Dev.kern
      rw [half_mod_ne _ _ hts]
    have habort : (if ((d.half t).face.active || (d.half t).face.burst.unwritten) = true then d.abort t 9 else d).kern s = d.kern s := by
      split
      · exact hmod ..
      · rfl
    unfold Dev.safeHalf
    dsimp only
    split
    · rw [kern_armPart, hmod, habort]
    · exact habort

theorem atRest_of_kern {d e : Dev} {s : Side} (h : e.kern s = d.kern s) (hd : (d.half s).face.atRest = true) : (e.half s).face.atRest = true := by
  rw [show (e.half s).face = (d.half s).face from congrArg Prod.fst h]
  exact hd

theorem kern_safeNet {d : Dev} (life : Life) {s : Side} (h : (d.half s).face.atRest = true) : (d.safeNet life).kern s = d.kern s := by
  have hflag (d : Dev) (f : SafeSt) : Dev.kern { d with safe := f } s = d.kern s := by cases s <;> rfl
  have hpins (d : Dev) : d.pinsOff.kern s = d.kern s := by cases s <;> rfl
  unfold Dev.safeNet
  split
  · let d1 : Dev := Dev.abandon (Dev.abandon { d with safe := { d.safe with asserted := true, releasing := false } } .w) .e
    have h1 : d1.kern s = d.kern s := by cases s <;> rfl
    have h2 : (d1.safeHalf life .w).kern s = d.kern s := (kern_safeHalf d1 life .w s (atRest_of_kern h1 h)).trans h1
    unfold Dev.safeAssert
    dsimp only
    rw [kern_journalEnd, kern_journalEnd, hpins, kern_truncateLoad, kern_safeHalf _ _ _ _ (atRest_of_kern h2 h)]
    exact h2
  · exact hflag ..
  · exact hflag ..
  · rfl

/-- What every command leaves in order leaves a half at rest, with its verify pipeline. -/
theorem kern_settle {d : Dev} (life : Life) {s : Side} (h : (d.half s).face.atRest = true) : (d.settle life).kern s = d.kern s := by
  have hpre : (((d.pathLost life).journalEnd .w).journalEnd .e).kern s = d.kern s := by
    rw [kern_journalEnd, kern_journalEnd, kern_pathLost]
  have hnet := (kern_safeNet life (atRest_of_kern hpre h)).trans hpre
  rw [← hnet]
  unfold Dev.settle
  split
  · exact hnet.symm
  · refine kern_of_bare ?_ s
    dsimp only
    rw [bare_reportStates, bare_modTsk _ _ _ TskSt.started_deliver, bare_modTsk _ _ _ TskSt.started_deliver, bare_retryHeld,
      bare_retryHeld, bare_spentSessions]

/-- Slices are only ever ended by it. -/
theorem slices_settle {d : Dev} (life : Life) : ∀ x ∈ (d.settle life).safe.slices, x ∈ d.safe.slices := by
  by_cases hpow : d.powered = true
  · obtain ⟨hsafe, -⟩ := safe_of_firm (firm_settle (d := d) life hpow)
    obtain ⟨hpre, -⟩ := safe_of_firm ((firm_journalEnd _ .e).trans ((firm_journalEnd _ .w).trans (firm_pathLost d life)))
    intro x hx
    rw [hsafe] at hx
    unfold Dev.safeNet at hx
    split at hx
    · obtain ⟨hassert, -⟩ := safeAssert_firm (((d.pathLost life).journalEnd .w).journalEnd .e) life
      rw [hassert] at hx
      exact absurd hx List.not_mem_nil
    all_goals exact hpre ▸ hx
  · unfold Dev.settle
    rw [if_pos (by simp [hpow])]
    exact fun x hx => hx

/-! ## RESET_PART (R446, R447) -/

/-- Of a half: its sequencer, its reset, its links, and its Attic. -/
def Half.stand (h : Half) : FaceSt × BitVec 12 × Option Reply × HaulSt × Tbl Byte × Tbl Nat :=
  (h.face, h.reset, h.resetReply, h.haul, h.attic, h.tags)

/-- That, whom the front end answers, and the slices that run. -/
def Dev.poise (d : Dev) (s : Side) : ((Bool × List Session) × List Slice) × FaceSt × BitVec 12 × Option Reply × HaulSt × Tbl Byte × Tbl Nat :=
  ((d.front, d.safe.slices), (d.half s).stand)

theorem stand_of_bare {d e : Dev} (h : d.bare = e.bare) (s : Side) : (d.half s).stand = (e.half s).stand := by
  have hstand := congrArg Half.stand (half_of_bare h s)
  cases s <;> exact hstand

theorem poise_mod {d : Dev} {s : Side} {f : Half → Half} (h : (f (d.half s)).stand = (d.half s).stand) (s' : Side) : (d.mod s f).poise s' = d.poise s' := by
  unfold Dev.poise
  rw [front_mod, Dev.mod_safe]
  by_cases hs : s' = s
  · rw [hs, half_mod_same, h]
  · rw [half_mod_ne _ _ hs]

theorem poise_foldl {α : Type} (s : Side) (l : List α) (f : Dev → α → Dev) (h : ∀ d x, (f d x).poise s = d.poise s) (d : Dev) :
    (l.foldl f d).poise s = d.poise s := by
  induction l generalizing d with
  | nil => rfl
  | cons x l ih => exact (ih _).trans (h d x)

theorem poise_setRg (d : Dev) (n : Nat) (r : Rg) (i : Nat) (v : Word) (s : Side) : (d.setRg n r i v).poise s = d.poise s := by cases s <;> rfl
theorem poise_resetRg (d : Dev) (n : Nat) (r : Rg) (s : Side) : (d.resetRg n r).poise s = d.poise s := by cases s <;> rfl
theorem poise_bump (d : Dev) (n : Nat) (r : Rg) (i hi lo k : Nat) (s : Side) : (d.bump n r i hi lo k).poise s = d.poise s := poise_setRg ..

theorem poise_raise (d : Dev) (t : Side) (b i : Nat) (s : Side) : (d.raise t b i).poise s = d.poise s := by
  have hslices := congrArg (fun d : Dev => d.safe.slices) (bare_raise d t b i)
  exact Prod.ext (Prod.ext (front_raise ..) hslices) (stand_of_bare (bare_raise ..) s)

theorem poise_ldrAppend (d : Dev) (type key : Nat) (x : LdrData) (s : Side) : (d.ldrAppend type key x).poise s = d.poise s := by
  have hslices := congrArg (fun d : Dev => d.safe.slices) (sans_ldrAppend d type key x)
  refine Prod.ext (Prod.ext (front_ldrAppend ..) hslices) ?_
  have hstand := congrArg Half.stand (half_ldrAppend d type key x s)
  cases s <;> exact hstand

theorem poise_markStale (d : Dev) (t : Side) (id : Nat) (s : Side) : (d.markStale t id).poise s = d.poise s := by
  unfold Dev.markStale
  split
  · rfl
  · split
    · rfl
    · rw [poise_raise]
      exact poise_mod rfl s

/-- A write into a file leaves sequencers, resets, links and Attics. -/
theorem poise_writeRegion (d : Dev) (t : Side) (id off : Nat) (bs : List Byte) (s : Side) : (d.writeRegion t id off bs).2.poise s = d.poise s := by
  have hrecord (d : Dev) (sector k : Nat) : (d.recordFail t id sector k).poise s = d.poise s := by
    unfold Dev.recordFail
    dsimp only
    split
    · exact poise_bump ..
    · rw [poise_setRg, poise_setRg, poise_setRg, poise_bump]
  have hlost (d : Dev) (l : Nat) : (d.celUncorr t l).poise s = d.poise s := by
    unfold Dev.celUncorr
    rw [poise_raise, poise_setRg]
    exact poise_mod rfl s
  have hfails (d : Dev) (sector line : Nat) : (d.lineFails t id sector line .uncorrectable false).poise s = d.poise s := by
    unfold Dev.lineFails
    simp only [if_true, Bool.false_and, Bool.false_eq_true, if_false]
    rw [poise_markStale, poise_raise, hlost, hrecord]
  have hrekey (d : Dev) : (d.rekeyStart t id).poise s = d.poise s := by
    unfold Dev.rekeyStart
    split
    · rfl
    · split
      · rfl
      · rw [poise_raise, poise_mod (by rfl), poise_ldrAppend]
  unfold Dev.writeRegion
  split
  · rfl
  · extract_lets secs hit
    split
    · rfl
    · split
      · exact hfails ..
      · split
        · exact poise_raise ..
        next d1 d2 _ _ _ _ =>
          have hboth : d2.poise s = d.poise s := Eq.trans (b := d1.poise s) (poise_mod rfl s) (poise_mod rfl s)
          clear_value d2
          split
          · exact hboth
          · split
            · rw [poise_raise, hboth]
            · rw [hrekey, hboth]

theorem poise_freeFrom (home : Side) (l kept : List HeldWrite) (d : Dev) (s : Side) : (d.freeFrom home l kept).poise s = d.poise s := by
  have hcompleted (d : Dev) (port since : Nat) : (d.completed home port since).poise s = d.poise s := by
    unfold Dev.completed
    split
    · exact poise_bump ..
    · rfl
  induction l generalizing kept d with
  | nil => exact poise_mod rfl s
  | cons w t ih =>
    unfold Dev.freeFrom
    split
    · exact ih ..
    · rw [ih, hcompleted, poise_writeRegion]

theorem poise_dropRemote (d : Dev) (s : Side) : d.dropRemote.poise s = d.poise s := by
  have hdrop (d : Dev) (t : Side) : (((d.mod t fun h => h.modAtt fun a => { a with
      cache := [], dir := [], fills := a.fills.map fun f => { f with stale := true } }).freeWrites t).raise t blkAtt 0).poise s = d.poise s := by
    rw [poise_raise, Dev.freeWrites, poise_freeFrom, poise_mod (by rfl)]
  unfold Dev.dropRemote
  exact (hdrop _ .e).trans (hdrop d .w)

theorem poise_staleAll (d : Dev) (t s : Side) : (d.staleAll t).poise s = d.poise s := by
  have hlose (d : Dev) : (d.loseCal t).poise s = d.poise s := by
    unfold Dev.loseCal
    split
    · rfl
    · rw [poise_raise, poise_mod (by rfl)]
  unfold Dev.staleAll Dev.recheckCal
  split
  · rw [hlose, poise_mod (by rfl)]
  · exact poise_mod rfl s

/-- What reset block b leaves of its half: what the reset takes stands at its reset value (R446). -/
structure Dev.TookBlock (s : Side) (b : Nat) (d e : Dev) : Prop where
  front : e.front = d.front
  slices : e.safe.slices = d.safe.slices
  other : (e.half s.other).stand = (d.half s.other).stand
  face : (e.half s).face = if b = 2 then { fires := (d.half s).face.fires } else (d.half s).face
  attic : (e.half s).attic = (if b = 7 then [] else (d.half s).attic) ∧ (e.half s).tags = if b = 7 then [] else (d.half s).tags
  xts : b = 8 → (e.half s).xts = {}
  xts_later : 8 < b → (e.half s).xts = (d.half s).xts
  haul : (e.half s).haul = if b = 9 then {} else (d.half s).haul

theorem slices_of_poise {d e : Dev} {s : Side} (h : e.poise s = d.poise s) : e.front = d.front ∧ e.safe.slices = d.safe.slices
    ∧ (e.half s).stand = (d.half s).stand := by
  simp only [Dev.poise, Prod.ext_iff] at h
  simpa [Prod.ext_iff, and_assoc] using h

theorem tookBlock_mod (d : Dev) (s : Side) (safe : BitVec 256) (modes : Half → BitVec 8) (b : Nat) (hb : b < 12) :
    Dev.TookBlock s b d (d.mod s fun h => { h.resetBlock safe b with modes := modes (h.resetBlock safe b) }) where
  front := front_mod ..
  slices := by rw [Dev.mod_safe]
  other := by rw [half_mod_ne _ _ (other_ne s)]
  face := by rw [half_mod_same]; interval_cases b <;> rfl
  attic := by rw [half_mod_same]; interval_cases b <;> exact ⟨rfl, rfl⟩
  xts := by rintro rfl; rw [half_mod_same]; rfl
  xts_later := by intro h; rw [half_mod_same]; interval_cases b <;> rfl
  haul := by rw [half_mod_same]; interval_cases b <;> rfl

theorem kern_staleAll (d : Dev) (t s : Side) : (d.staleAll t).kern s = d.kern s := by
  have hlose (d : Dev) : (d.loseCal t).kern s = d.kern s := by
    unfold Dev.loseCal
    split
    · rfl
    · rw [kern_raise, kern_mod (by rfl)]
  unfold Dev.staleAll Dev.recheckCal
  split
  · rw [hlose, kern_mod (by rfl)]
  · exact kern_mod rfl s

/-- What reads alike in every half and its verify pipeline. -/
structure Dev.Alike (d e : Dev) : Prop where
  poise : ∀ s, e.poise s = d.poise s
  kern : ∀ s, e.kern s = d.kern s

theorem Dev.Alike.trans {d e f : Dev} (h : d.Alike e) (k : e.Alike f) : d.Alike f :=
  ⟨fun s => (k.poise s).trans (h.poise s), fun s => (k.kern s).trans (h.kern s)⟩

theorem Dev.TookBlock.after {s : Side} {b : Nat} {d e f : Dev} (h : Dev.TookBlock s b d e) (k : e.Alike f) : Dev.TookBlock s b d f := by
  obtain ⟨hfront, hslices, hstand⟩ := slices_of_poise (k.poise s)
  obtain ⟨-, -, hother⟩ := slices_of_poise (k.poise s.other)
  have hkern := k.kern s
  simp only [Half.stand, Prod.mk.injEq] at hstand
  obtain ⟨hface, -, -, hhaul, hattic, htags⟩ := hstand
  have hxts : (f.half s).xts = (e.half s).xts := congrArg Prod.snd hkern
  exact ⟨hfront.trans h.front, hslices.trans h.slices, hother.trans h.other, hface.trans h.face, ⟨hattic.trans h.attic.1, htags.trans h.attic.2⟩,
    fun hb => hxts.trans (h.xts hb), fun hb => hxts.trans (h.xts_later hb), hhaul.trans h.haul⟩

/-- A reset takes its block (R446, R448). -/
theorem tookBlock_resetOne (d : Dev) (s : Side) {b : Nat} (hb : b < 12) : Dev.TookBlock s b d (d.resetOne s b) := by
  unfold Dev.resetOne
  extract_lets safe d1 d2 d3 d4 d5 d6
  have h1 (t : Side) : d1.poise t = d.poise t := by
    have hcut : (d.cutRekey s).poise t = d.poise t := by
      unfold Dev.cutRekey
      split
      · exact poise_markStale ..
      · rfl
    have hdrop (d : Dev) : (d.dropSchedules s).poise t = d.poise t := by
      unfold Dev.dropSchedules
      split
      · rfl
      · cases t <;> rfl
    simp only [d1]
    split
    · rw [hdrop, hcut]
    · split
      · exact poise_dropRemote ..
      · rfl
  have hlater : 8 < b → d1 = d := fun h => by
    simp only [d1]
    rw [if_neg (by omega), if_neg (by omega)]
  have h2 : Dev.TookBlock s b d d2 := by
    have hmod := tookBlock_mod d1 s safe (fun h => (resetModes b).foldl bitClear h.modes) b hb
    obtain ⟨hfront, hslices, hstand⟩ := slices_of_poise (h1 s)
    obtain ⟨-, -, hother⟩ := slices_of_poise (h1 s.other)
    simp only [Half.stand, Prod.mk.injEq] at hstand
    obtain ⟨hface, -, -, hhaul, hattic, htags⟩ := hstand
    exact ⟨hmod.front.trans hfront, hmod.slices.trans hslices, hmod.other.trans hother, hface ▸ hmod.face,
      ⟨hattic ▸ hmod.attic.1, htags ▸ hmod.attic.2⟩, hmod.xts, fun h => hlater h ▸ hmod.xts_later h, hhaul ▸ hmod.haul⟩
  refine h2.after ?_
  clear_value d2 d1
  have h3 : d2.Alike d3 := by
    refine ⟨fun t => poise_foldl t _ _ (fun d x => poise_resetRg ..) d2, fun t => kern_foldl t _ _ (fun d x => kern_resetRg ..) d2⟩
  have h4 : d3.Alike d4 := ⟨fun t => by cases t <;> rfl, fun t => by cases t <;> rfl⟩
  have h5 : d4.Alike d5 := by
    simp only [d5]
    clear_value d4
    split
    · exact ⟨fun t => by cases t <;> rfl, fun t => by cases t <;> rfl⟩
    · exact ⟨fun _ => rfl, fun _ => rfl⟩
  have h6 : d5.Alike d6 := by
    simp only [d6]
    clear_value d5
    split
    · exact ⟨fun t => poise_staleAll .., fun t => kern_staleAll ..⟩
    · exact ⟨fun _ => rfl, fun _ => rfl⟩
  have h7 : d6.Alike (d6.setPage s (resetPage b) ((d6.page s (resetPage b)).partReset (resetPage b))) :=
    ⟨fun t => by cases t <;> rfl, fun t => by cases t <;> rfl⟩
  exact (((h3.trans h4).trans h5).trans h6).trans h7

/-- What the blocks of a reset below n leave. -/
structure Dev.TookBlocks (s : Side) (b : BitVec 12) (n : Nat) (d e : Dev) : Prop where
  front : e.front = d.front
  slices : e.safe.slices = d.safe.slices
  other : (e.half s.other).stand = (d.half s.other).stand
  fires : (e.half s).face.fires = (d.half s).face.fires
  face : 2 < n → b.getLsbD 2 = true → (e.half s).face = { fires := (d.half s).face.fires }
  attic : 7 < n → b.getLsbD 7 = true → (e.half s).attic = [] ∧ (e.half s).tags = []
  xts : 8 < n → b.getLsbD 8 = true → (e.half s).xts = {}
  haul : 9 < n → b.getLsbD 9 = true → (e.half s).haul = {}

theorem tookBlocks_foldl (d : Dev) (s : Side) (b : BitVec 12) {n : Nat} (hn : n ≤ 12) :
    Dev.TookBlocks s b n d ((List.range n).foldl (fun d i => if b.getLsbD i then d.resetOne s i else d) d) := by
  induction n with
  | zero => exact ⟨rfl, rfl, rfl, rfl, fun h => absurd h (by omega), fun h => absurd h (by omega), fun h => absurd h (by omega),
      fun h => absurd h (by omega)⟩
  | succ n ih =>
    have k := ih (by omega)
    rw [List.range_succ, List.foldl_append, List.foldl_cons, List.foldl_nil]
    generalize (List.range n).foldl (fun d i => if b.getLsbD i then d.resetOne s i else d) d = e at k ⊢
    by_cases hbit : b.getLsbD n = true
    · rw [if_pos hbit]
      have h := tookBlock_resetOne e s (b := n) (by omega)
      refine ⟨h.front.trans k.front, h.slices.trans k.slices, h.other.trans k.other, ?_, fun hlt h2 => ?_, fun hlt h7 => ?_, fun hlt h8 => ?_,
        fun hlt h9 => ?_⟩
      · rw [← k.fires, h.face]
        split
        · rfl
        · rfl
      · rw [h.face, k.fires]
        split
        · rfl
        · exact k.face (by omega) h2
      · rw [h.attic.1, h.attic.2]
        split
        · exact ⟨rfl, rfl⟩
        · exact k.attic (by omega) h7
      · by_cases h : n = 8
        · exact Dev.TookBlock.xts ‹_› h
        · rw [Dev.TookBlock.xts_later (d := e) ‹_› (by omega)]
          exact k.xts (by omega) h8
      · rw [h.haul]
        split
        · rfl
        · exact k.haul (by omega) h9
    · rw [if_neg hbit]
      have hne {m : Nat} (hlt : m < n + 1) (hm : b.getLsbD m = true) : m < n := by
        refine lt_of_le_of_ne (by omega) fun h => hbit ?_
        rw [← h, hm]
      exact ⟨k.front, k.slices, k.other, k.fires, fun h h2 => k.face (hne h h2) h2, fun h h7 => k.attic (hne h h7) h7,
        fun h h8 => k.xts (hne h h8) h8, fun h h9 => k.haul (hne h h9) h9⟩

/-- What the end of a half's commands leaves, when its reset begins (R449). -/
structure Dev.CutFor (s : Side) (d e : Dev) : Prop where
  slices : ∀ x ∈ e.safe.slices, x ∈ d.safe.slices
  other : (e.half s.other).stand = (d.half s.other).stand
  fires : (e.half s).face.fires = (d.half s).face.fires

theorem Dev.CutFor.trans {s : Side} {d e f : Dev} (h : Dev.CutFor s d e) (k : Dev.CutFor s e f) : Dev.CutFor s d f :=
  ⟨fun x hx => h.slices x (k.slices x hx), k.other.trans h.other, k.fires.trans h.fires⟩

theorem Dev.Kept.cutFor {d e : Dev} (h : d.Kept e) (s : Side) : Dev.CutFor s d e := by
  have hstand (t : Side) : (e.half t).stand = (d.half t).stand := by
    have hstand := congrArg Half.stand (h.halves t)
    cases t <;> exact hstand
  exact ⟨h.slices, hstand _, congrArg (fun x => FaceSt.fires (Prod.fst x)) (hstand s)⟩

theorem cutFor_mod {d : Dev} {s : Side} {f : Half → Half} (h : (f (d.half s)).face.fires = (d.half s).face.fires) : Dev.CutFor s d (d.mod s f) :=
  ⟨fun x hx => by rwa [Dev.mod_safe] at hx, by rw [half_mod_ne _ _ (other_ne s)], by rw [half_mod_same, h]⟩

theorem fires_stopArming (h : Half) (plan : Bool) : (h.stopArming plan).face.fires = h.face.fires := by
  unfold Half.stopArming
  dsimp only
  split
  · rfl
  · rfl

theorem cutFor_cutCommands (d : Dev) (life : Life) (s : Side) (b : BitVec 12) : Dev.CutFor s d (d.cutCommands life s b) := by
  unfold Dev.cutCommands
  split
  · exact (Dev.Kept.refl d).cutFor s
  · extract_lets d1 d2
    have h1 : Dev.CutFor s d d1 := (kept_foldl (p := fun _ => True) _ _ (fun _ _ _ h => h)
      (fun d x _ _ => kept_finish life _ _ _ fun h => absurd h (by decide)) d trivial).cutFor s
    have h2 : Dev.CutFor s d1 d2 := by
      simp only [d2]
      clear_value d1
      split
      · exact (cutFor_mod (fires_stopArming _ true)).trans ((kept_armPart ..).cutFor s)
      · exact (Dev.Kept.refl d1).cutFor s
    clear_value d2
    exact (h1.trans h2).trans ((cutFor_mod rfl).trans ((kept_calPart _ _ _ fun h => absurd h (by decide)).cutFor s))

/-- What RESET_PART leaves of its half before what every command leaves in order. -/
theorem startReset_spec (d : Dev) (life : Life) (s : Side) (blocks : BitVec 12) (r : Reply) :
    let e := d.startReset life s blocks r
    let b := resetBlocks blocks
    (e.half s).reset = b ∧ (e.half s).resetReply = some r ∧ (e.half s.other).stand = (d.half s.other).stand
      ∧ (∀ x ∈ e.safe.slices, x.side ≠ s) ∧ (b.getLsbD 2 = true → (e.half s).face = { fires := (d.half s).face.fires })
      ∧ (b.getLsbD 7 = true → (e.half s).attic = [] ∧ (e.half s).tags = []) ∧ (b.getLsbD 8 = true → (e.half s).xts = {})
      ∧ (b.getLsbD 9 = true → (e.half s).haul = {}) := by
  intro e b
  let d1 := (d.abandon s).cutCommands life s b
  let d2 := (List.range 12).foldl (fun d i => if b.getLsbD i then d.resetOne s i else d) d1
  have he : e = d2.mod s fun h => { h.idleFabric with reset := b, resetReply := some r } := rfl
  have hcut : Dev.CutFor s (d.abandon s) d1 := cutFor_cutCommands ..
  have htook : Dev.TookBlocks s b 12 d1 d2 := tookBlocks_foldl d1 s b (le_refl 12)
  have hd (t : Side) : (d.abandon s).half t = d.half t := by cases t <;> rfl
  have hfires : (d1.half s).face.fires = (d.half s).face.fires := by rw [hcut.fires, hd]
  clear_value d2 d1
  rw [he, half_mod_same, half_mod_ne _ _ (other_ne s), Dev.mod_safe]
  refine ⟨rfl, rfl, ?_, fun x hx => ?_, fun h => ?_, fun h => htook.attic (by decide) h, fun h => htook.xts (by decide) h,
    fun h => htook.haul (by decide) h⟩
  · rw [htook.other, hcut.other, hd]
  · rw [htook.slices] at hx
    simpa using (List.mem_filter.mp (hcut.slices x hx)).2
  · rw [← hfires]
    exact htook.face (by decide) h

theorem resetBlocks_face {b : BitVec 12} (h : (resetBlocks b).getLsbD 8 = true) : (resetBlocks b).getLsbD 2 = true := by
  by_cases hz : b &&& 0x1FB = 0
  · have h8 : b.getLsbD 8 = false := by
      have hbit := congrArg (·.getLsbD 8) hz
      simpa using hbit
    simp only [resetBlocks, hz, ne_eq, not_true_eq_false, if_false] at h
    split at h <;> simp_all
  · simp only [resetBlocks, ne_eq, hz, not_false_eq_true, if_true]
    split <;> simp

/-- What every command leaves in order leaves of a half that a reset took. -/
theorem stand_settle {e : Dev} (life : Life) (s : Side) : ((e.settle life).half s).reset = (e.half s).reset
    ∧ ((e.settle life).half s).resetReply = (e.half s).resetReply ∧ ((e.settle life).half s).haul = (e.half s).haul
    ∧ ((e.settle life).half s).attic = (e.half s).attic ∧ ((e.settle life).half s).tags = (e.half s).tags := by
  have hdeep := half_of_deep (deep_settle e life) s
  have field {α : Type} (f : Half → α) (hf : ∀ h, f h.deep = f h) : f ((e.settle life).half s) = f (e.half s) := by
    rw [← hf, hdeep, hf]
  exact ⟨field Half.reset fun _ => rfl, field Half.resetReply fun _ => rfl, field Half.haul fun _ => rfl, field Half.attic fun _ => rfl,
    field Half.tags fun _ => rfl⟩

theorem stwDown_of_bare {d e : Dev} (h : d.bare = e.bare) : d.stwDown = e.stwDown := by
  have hdown := congrArg Dev.stwDown h
  exact hdown

theorem yields_resetPart {s : State} {h : Hdr} {half blocks : Nat} (k : Admits s h 0xA0 true true false) (hhalf : half < 2) (hpos : 0 < blocks)
    (hlt : blocks < 4096) {side : Side} (hside : (if half = 0 then Side.w else .e) = side) (hidle : (s.dev.half side).reset = 0)
    (hfar : half = 1 → s.dev.stwDown = false ∧ s.dev.east.tsk.halted = false) {b : BitVec 12} (hb : resetBlocks (BitVec.ofNat 12 blocks) = b) :
    Yields (.resetPart h half blocks) s fun d =>
      (d.half side).reset = b ∧ (d.half side).resetReply = some (s.dev.replyTo 0xA0 h)
      ∧ (d.half side.other).reset = (s.dev.half side.other).reset ∧ d.slice side = none
      ∧ (b.getLsbD 2 = true → (d.half side).face = { fires := (s.dev.half side).face.fires })
      ∧ (b.getLsbD 7 = true → (d.half side).attic = [] ∧ (d.half side).tags = [])
      ∧ (b.getLsbD 8 = true → (d.half side).xts = {})
      ∧ (b.getLsbD 9 = true → (d.half side).haul = {}) := by
  have hfw : s.dev.fwRefusal true (decide (half = 1)) false = none := by
    have hfirm := k.firmware
    unfold Dev.fwRefusal Dev.fwHalted at hfirm ⊢
    by_cases hone : half = 1
    · simpa [hone, (hfar hone).2] using hfirm
    · simpa [hone] using hfirm
  have hlife : lifeRefuses s.fuse.life 0xA0 0 h = false := by
    have := k.life
    cases hl : s.fuse.life <;> simp_all [lifeRefuses]
  have henter : Dev.enter { s.dev with out := [] } { code := 0xA0 } 0 (decide (half = 1)) false h s.fuse.life = .ok (s.dev.accepted h) :=
    enter_of_takes (d := { s.dev with out := [] }) { code := 0xA0 } 0 (decide (half = 1)) false _ k.takes hlife (fun a _ => k.session a) k.state
      hfw rfl
  have hbody : resetPartRow h half blocks s.fuse.life { s.dev with out := [] }
      = (s.dev.accepted h).startReset s.fuse.life side (BitVec.ofNat 12 blocks) (s.dev.replyTo 0xA0 h) := by
    unfold resetPartRow
    dsimp only
    rw [henter]
    dsimp only
    rw [replyTo_accepted _ k.takes]
    unfold resetPartBody
    rw [if_neg (by omega)]
    dsimp only
    rw [hside, half_accepted, if_neg (by simp [hidle]), if_neg]
    rintro ⟨rfl, hdown⟩
    have hone : half = 1 := by
      split at hside
      · exact absurd hside (by decide)
      · omega
    rw [stwDown_of_bare (accepted_bare ..), (hfar hone).1] at hdown
    exact absurd hdown (by decide)
  rw [yields_running_iff (f := resetPartRow h half blocks) rfl k.powered, Dev.after, hbody]
  obtain ⟨hreset, hreply, hother, hslices, hface, hattic, hxts, hhaul⟩ :=
    startReset_spec (s.dev.accepted h) s.fuse.life side (BitVec.ofNat 12 blocks) (s.dev.replyTo 0xA0 h)
  rw [hb] at hreset hface hattic hxts hhaul
  generalize (s.dev.accepted h).startReset s.fuse.life side (BitVec.ofNat 12 blocks) (s.dev.replyTo 0xA0 h) = e at *
  obtain ⟨sreset, sreply, shaul, sattic, stags⟩ := stand_settle (e := e) s.fuse.life side
  obtain ⟨soreset, -⟩ := stand_settle (e := e) s.fuse.life side.other
  have hkern (h2 : b.getLsbD 2 = true) : (e.settle s.fuse.life).kern side = e.kern side := by
    refine kern_settle s.fuse.life ?_
    rw [hface h2]
    rfl
  refine ⟨sreset.trans hreset, sreply.trans hreply, ?_, ?_, fun h2 => ?_, fun h7 => ?_, fun h8 => ?_, fun h9 => shaul.trans (hhaul h9)⟩
  · have hstand := congrArg (fun x => x.2.1) hother
    rw [soreset]
    exact hstand.trans (congrArg Half.reset (half_accepted ..))
  · rw [Dev.slice, List.find?_eq_none]
    intro x hx
    simpa using hslices x (slices_settle _ x hx)
  · have hsame : ((e.settle s.fuse.life).half side).face = (e.half side).face := congrArg Prod.fst (hkern h2)
    rw [hsame, hface h2, half_accepted]
  · obtain ⟨ha, ht⟩ := hattic h7
    exact ⟨sattic.trans ha, stags.trans ht⟩
  · have hsame : ((e.settle s.fuse.life).half side).xts = (e.half side).xts :=
      congrArg Prod.snd (hkern (by rw [← hb] at h8 ⊢; exact resetBlocks_face h8))
    rw [hsame, hxts h8]

/-! ## RESET_PART_COMPLETE (R446, R448) -/

theorem poise_checkerFails (d : Dev) (t : Side) (b : Nat) (s : Side) : (d.checkerFails t b).poise s = d.poise s := by
  unfold Dev.checkerFails
  rw [poise_raise, poise_mod (by rfl)]

theorem poise_loadTables (d : Dev) (t s : Side) : (d.loadTables t).poise s = d.poise s := by
  have hone (d : Dev) (k : Nat) : Dev.poise (match d.ldr.find 1 (2 * t.code + k) with
      | some (.table b) =>
        if b.all fun kv => kv.2.check.isNone then d.mod t fun h => { h with cal := { h.cal with blocks := h.cal.blocks ++ b } }
        else d.raise t blkCal 1
      | _ => d.raise t blkCal 1) s = d.poise s := by
    split
    · split
      · exact poise_mod rfl s
      · exact poise_raise ..
    · exact poise_raise ..
  unfold Dev.loadTables
  dsimp only
  rw [poise_mod (by rfl)]
  refine (hone _ 1).trans ((hone _ 0).trans (poise_mod rfl s))

theorem poise_loadSafe (d : Dev) (t : Side) (s : Side) : (d.loadSafe t false).poise s = d.poise s := by
  unfold Dev.loadSafe
  split
  · dsimp only
    rw [if_pos (show (!false) = true from rfl)]
    exact poise_foldl s _ _ (fun d n => poise_setRg ..) d
  · rfl

theorem poise_applyPatches (d : Dev) (t : Side) (set : Option (List (Nat × BitVec 64))) (s : Side) : (d.applyPatches t set).poise s = d.poise s := by
  have hclear : (((d.resetRg t.code .tskPatchAddr).resetRg t.code .tskPatchLo).resetRg t.code .tskPatchHi).poise s = d.poise s := by
    rw [poise_resetRg, poise_resetRg, poise_resetRg]
  unfold Dev.applyPatches
  dsimp only
  split
  · rw [poise_raise, hclear]
  · refine (poise_foldl s _ _ (fun d p => ?_) _).trans hclear
    rw [poise_setRg, poise_setRg, poise_setRg]

theorem poise_loadFirmware (d : Dev) (key : Nat) (t : Side) (slot : Nat) (s : Side) : (d.loadFirmware key t slot).poise s = d.poise s := by
  unfold Dev.loadFirmware
  dsimp only
  rw [poise_applyPatches, poise_mod (by rfl)]

theorem poise_restoreRoots (d : Dev) (t s : Side) : (d.restoreRoots t).poise s = d.poise s := by
  unfold Dev.restoreRoots
  refine poise_foldl s _ _ (fun d id => ?_) d
  unfold Dev.restoreRoot
  split
  · rfl
  · extract_lets fits
    split
    · rfl
    · exact poise_markStale ..

theorem poise_resendSchedules (d : Dev) (t s : Side) : (d.resendSchedules t).poise s = d.poise s := by
  unfold Dev.resendSchedules
  split
  · rfl
  · refine poise_foldl s _ _ (fun d n => ?_) d
    split
    · cases s <;> rfl
    · rfl

/-- What recovers leaves sequencers, resets, links and Attics as they are. -/
theorem poise_recoverOne (d : Dev) (key : Nat) (t : Side) (b : Nat) (s : Side) : (d.recoverOne key t b).poise s = d.poise s := by
  have hstart : (d.stwStart t true).poise s = d.poise s := by
    unfold Dev.stwStart
    split
    · rfl
    · refine Eq.trans (b := (d.mod t fun h => h.modStw fun x => { x with state := 1, attempts := 0, fresh := true, stop := d.stwHost }).poise s)
        ?_ (poise_mod rfl s)
      cases s <;> rfl
  unfold Dev.recoverOne
  split
  · exact hstart
  · split
    · exact (poise_mod rfl s).trans (poise_mod rfl s)
    · rfl
  · split
    · exact poise_loadFirmware ..
    · rfl
  · rw [poise_resendSchedules, poise_restoreRoots]
  · exact poise_loadTables ..
  · rw [poise_mod (by rfl), poise_loadSafe]
  · rfl

/-- Blocks whose checkers pass leave reset. -/
theorem stand_tested (h : Half) (l : List Nat) : (l.foldl (fun h b =>
    if h.reset.getLsbD b then { h with stuck := bitClear h.stuck (resetPage b) } else h) h).stand = h.stand := by
  induction l generalizing h with
  | nil => rfl
  | cons b l ih =>
    refine (ih _).trans ?_
    dsimp only
    split
    · rfl
    · rfl

/-- The end of a partial reset, as the response to its command. -/
theorem resetPartComplete_eq {d : Dev} (life : Life) (key : Nat) {s : Side} {r : Reply} (checkFail : List Nat) (hreset : (d.half s).reset ≠ 0)
    (hcel : (d.half s).reset.getLsbD 6 = true → (d.half s).cel.state ≠ 1) (hreply : (d.half s).resetReply = some r) :
    ∃ e : Dev, resetPartComplete life key s checkFail d = e.finish life r stOk [] ∧ e.front = d.front ∧ (e.half s).reset = 0
      ∧ (e.half s).resetReply = none := by
  have hgo : (decide ((d.half s).reset = 0) || ((d.half s).reset.getLsbD 6 && decide ((d.half s).cel.state = 1))) = false := by
    rw [decide_eq_false hreset, Bool.false_or, Bool.and_eq_false_imp]
    exact fun h6 => decide_eq_false (hcel h6)
  unfold resetPartComplete
  extract_lets h tested d1 d2 runs order d3 d4
  rw [if_neg (by simpa only [Bool.not_eq_true] using hgo), show h.resetReply = some r from hreply]
  have h1 : d1.poise s = d.poise s := by
    refine (poise_foldl s _ _ (fun d b => ?_) _).trans (poise_mod (stand_tested _ _) s)
    split
    · exact poise_checkerFails ..
    · rfl
  have h2 : d2.front = d.front ∧ (d2.half s).reset = 0 ∧ (d2.half s).resetReply = none := by
    obtain ⟨hfront, -⟩ := slices_of_poise h1
    have hfront2 : d2.front = d1.front := front_mod ..
    have hhalf2 : d2.half s = { d1.half s with reset := 0, resetReply := none } := half_mod_same ..
    rw [hfront2, hhalf2]
    exact ⟨hfront, rfl, rfl⟩
  have h3 : d3.poise s = d2.poise s := by
    refine poise_foldl s _ _ (fun d b => ?_) _
    split
    · exact poise_recoverOne ..
    · rfl
  have h4 : d4.poise s = d2.poise s := by
    rw [← h3]
    simp only [d4]
    clear_value d3
    split
    · exact poise_restoreRoots ..
    · rfl
  obtain ⟨hfront, hzero, hnone⟩ := h2
  obtain ⟨hfront4, -, hstand⟩ := slices_of_poise h4
  simp only [Half.stand, Prod.mk.injEq] at hstand
  obtain ⟨-, hreset4, hreply4, -⟩ := hstand
  exact ⟨d4, rfl, hfront4.trans hfront, hreset4.trans hzero, hreply4.trans hnone⟩

theorem yields_resetPartComplete {s : State} {side : Side} {r : Reply} (checkFail : List Nat) (hpow : s.dev.powered = true)
    (hlink : s.dev.hst.linkUp = true) (hreset : (s.dev.half side).reset ≠ 0)
    (hcel : (s.dev.half side).reset.getLsbD 6 = true → (s.dev.half side).cel.state ≠ 1) (hreply : (s.dev.half side).resetReply = some r)
    (hopen : r.session = 0 ∨ (s.dev.session r.session).isSome = true) : Yields (.resetPartComplete side checkFail) s fun d =>
      (d.half side).reset = 0 ∧ (d.half side).resetReply = none ∧ d.tells r stOk [] := by
  obtain ⟨e, heq, hfront, hzero, hnone⟩ := resetPartComplete_eq (d := s.dev.mute) s.fuse.life s.fuse.firmwareKey checkFail
    (by rwa [half_mute]) (by rwa [half_mute]) (by rwa [half_mute])
  have hreaches : e.reaches r := reaches_of_front (d := s.dev.mute) ⟨hlink, hopen⟩ hfront
  have hdone := kept_finish (d := e) s.fuse.life r stOk [] fun h => absurd h (by decide)
  rw [yields_running_iff (f := fun life d => resetPartComplete life s.fuse.firmwareKey side checkFail d) rfl hpow, Dev.after,
    show ({ s.dev with out := [] } : Dev) = s.dev.mute from rfl, heq]
  obtain ⟨sreset, sreply, -⟩ := stand_settle (e := e.finish s.fuse.life r stOk []) s.fuse.life side
  have hstand := congrArg Half.stand (hdone.halves side)
  have hstand' : ((e.finish s.fuse.life r stOk []).half side).stand = (e.half side).stand := by cases side <;> exact hstand
  simp only [Half.stand, Prod.mk.injEq] at hstand'
  obtain ⟨-, hreset', hreply', -⟩ := hstand'
  exact ⟨sreset.trans (hreset'.trans hzero), sreply.trans (hreply'.trans hnone),
    tells_grows (settle_leaves _ _).grows (tells_finish _ _ _ hreaches (by decide))⟩

/-! ## SLEEP (R450) -/

/-- Events that are journaled leave the always-on domain, keys, and what was sent. -/
theorem logEvents_keeps (d : Dev) : d.logEvents.deep = d.deep ∧ d.grows d.logEvents := by
  have happend (d : Dev) : (larderAppend 6 0 0 d).deep = d.deep ∧ d.grows (larderAppend 6 0 0 d) := by
    unfold larderAppend
    split
    · exact ⟨rfl, .refl d⟩
    · next data _ =>
      dsimp only
      split
      · exact ⟨deep_ldrAppend d 6 0 _, (grows_ldrAppend d 6 0 _).trans (grows_setHst ..)⟩
      · exact ⟨deep_ldrAppend d 6 0 data, grows_ldrAppend ..⟩
  unfold Dev.logEvents
  generalize (d.hst.events.filter fun e => decide (d.hst.logged ≤ e.seq)) = l
  exact ⟨deep_foldl _ _ (fun d _ => (happend d).1) d, grows_foldl _ _ (fun d _ => (happend d).2) d⟩

/-- A register of the always-on domain reads after a loss of power as before (R445, R452). -/
theorem rg_fresh (d : Dev) (p : PowerState) {r : Rg} (hr : r ∈ aonRegs) : (d.fresh p).rg 0 r = d.rg 0 r := by
  have hkey : regKey 0 r 0 / 8192 = r.ctorIdx := by
    unfold regKey
    omega
  have hkept : (decide (regKey 0 r 0 / 8192 < 512) && aonRegs.any fun q => decide (q.ctorIdx = regKey 0 r 0 / 8192)) = true := by
    rw [hkey, decide_eq_true (ctorIdx_lt r), Bool.true_and]
    exact List.any_eq_true.mpr ⟨r, hr, by simp⟩
  show tgetF regDefault (d.regs.filter fun kv => decide (kv.1 / 8192 < 512) && aonRegs.any fun q => decide (q.ctorIdx = kv.1 / 8192)) _ = _
  rw [tgetF_filter regDefault d.regs (fun k => decide (k / 8192 < 512) && aonRegs.any fun q => decide (q.ctorIdx = k / 8192)), hkept]
  rfl

/-- A module with an alarm of the always-on domain. -/
def Dev.alarmed (d : Dev) (wakeAt : BitVec 64) : Dev :=
  if wakeAt = 0 then d.setRf 0 .aonCfg 0 9 9 0 else
    ((d.setRg 0 .aonAlarmLo 0 (wakeAt.truncate 32)).setRg 0 .aonAlarmHi 0 (BitVec.ofNat 32 (wakeAt.toNat / 2 ^ 32))).setRf 0 .aonCfg 0 9 9 1

theorem alarmed_spec (d : Dev) (wakeAt : BitVec 64) : (d.alarmed wakeAt).deep = d.deep ∧ (d.alarmed wakeAt).out = d.out
    ∧ (d.alarmed wakeAt).rf 0 .aonCfg 0 9 9 = (if wakeAt = 0 then 0 else 1) ∧ (wakeAt ≠ 0 → (d.alarmed wakeAt).alarmAt = wakeAt.toNat) := by
  unfold Dev.alarmed
  split
  · exact ⟨deep_setRg .., Dev.setRf_out .., rf_setRf_same _ _ _ _ _ _ _ (by decide) (by decide), fun h => absurd ‹_› h⟩
  · refine ⟨(deep_setRg ..).trans ((deep_setRg ..).trans (deep_setRg ..)), by rw [Dev.setRf_out, Dev.setRg_out, Dev.setRg_out], rf_setRf_same _ _ _ _ _ _ _ (by decide) (by decide), fun _ => ?_⟩
    have hlt := wakeAt.isLt
    have hcfg (q : Rg) (hq : q ≠ .aonCfg) : regKey 0 q 0 ≠ regKey 0 .aonCfg 0 := fun h =>
      hq ((regKey_inj (by decide) (by decide)).mp h).2.1
    have hlo : regKey 0 Rg.aonAlarmLo 0 ≠ regKey 0 .aonAlarmHi 0 := fun h =>
      absurd ((regKey_inj (by decide) (by decide)).mp h).2.1 (by decide)
    unfold Dev.alarmAt
    rw [rg_setRf_ne _ _ _ _ (hcfg .aonAlarmHi (by decide)), rg_setRf_ne _ _ _ _ (hcfg .aonAlarmLo (by decide)), rg_setRg_same,
      rg_setRg_ne _ _ hlo, rg_setRg_same, BitVec.toNat_ofNat]
    simp only [BitVec.truncate_eq_setWidth, BitVec.toNat_setWidth]
    omega

theorem yields_sleep {s : State} {h : Hdr} {wakeAt : BitVec 64} (k : Admits s h 0xB0 true true false) (hw : s.dev.west.locked = false)
    (he : s.dev.east.locked = false) (hload : s.dev.cfg.load = none) (hwake : wakeAt = 0 ∨ s.dev.aon.count.toNat < wakeAt.toNat) :
    Yields (.sleep h wakeAt) s fun d =>
      d.tells (s.dev.replyTo 0xB0 h) stOk [] ∧ d.clk.power = .sleep ∧ d.aon = { s.dev.aon with sleeping := true }
      ∧ d.hst.sessions = [] ∧ d.west.attic = [] ∧ d.east.attic = [] ∧ d.sec.idKey = s.dev.sec.idKey
      ∧ d.rf 0 .aonCfg 0 9 9 = (if wakeAt = 0 then 0 else 1) ∧ (wakeAt ≠ 0 → d.alarmAt = wakeAt.toNat) := by
  let d1 := (((s.dev.accepted h).finish s.fuse.life (s.dev.replyTo 0xB0 h) stOk []).event 2 (evSrc .w blkHst) 9).logEvents
  let d2 := d1.alarmed wakeAt
  let d3 := (d2.setAon fun a => { a with sleeping := true }).fresh .sleep
  have hbody : hoist { code := 0xB0, required := true, fw := true } false h (sleepBody wakeAt) s.fuse.life { s.dev with out := [] } = d3 := by
    refine (hoist_of_admits (o := { code := 0xB0, required := true, fw := true }) _ k).trans ?_
    have hlocked (x : Side) : ((s.dev.accepted h).half x).locked = (s.dev.half x).locked := by rw [half_accepted]
    have hcfg : (s.dev.accepted h).cfg = s.dev.cfg := by
      have hcfg := congrArg Dev.cfg (accepted_bare s.dev h)
      exact hcfg
    have haon : (s.dev.accepted h).aon = s.dev.aon := by
      have haon := congrArg Dev.aon (accepted_bare s.dev h)
      exact haon
    unfold sleepBody
    rw [show (s.dev.accepted h).west.locked = false from (hlocked .w).trans hw, show (s.dev.accepted h).east.locked = false from (hlocked .e).trans he,
      hcfg, hload, haon, if_neg (by simp), if_neg]
    · rfl
    · rintro ⟨hne, hle⟩
      rcases hwake with hzero | hlt
      · exact hne hzero
      · omega
  have hoff : d3.settle s.fuse.life = d3 := by
    unfold Dev.settle
    exact if_pos rfl
  rw [yields_running_iff (f := fun life d => hoist { code := 0xB0, required := true, fw := true } false h (sleepBody wakeAt) life d) rfl k.powered,
    Dev.after, hbody, hoff]
  obtain ⟨hdeep, hgrows⟩ := logEvents_keeps (((s.dev.accepted h).finish s.fuse.life (s.dev.replyTo 0xB0 h) stOk []).event 2 (evSrc .w blkHst) 9)
  obtain ⟨hdeep2, hout, hcfg, halarm⟩ := alarmed_spec d1 wakeAt
  have hdeep1 : d2.deep = s.dev.deep := by
    rw [hdeep2, show d1.deep = _ from hdeep, deep_event, deep_finish]
    exact deep_of_bare (accepted_bare ..)
  have haon : d2.aon = s.dev.aon := aon_of_deep hdeep1
  have htells : d1.tells (s.dev.replyTo 0xB0 h) stOk [] := tells_grows ((grows_event ..).trans hgrows)
    (tells_finish _ _ _ (reaches_accepted _ k.takes) (by decide))
  have hreg {r : Rg} (hr : r ∈ aonRegs) : d3.rg 0 r = d2.rg 0 r := rg_fresh (d2.setAon fun a => { a with sleeping := true }) .sleep hr
  refine ⟨?_, rfl, ?_, rfl, rfl, rfl, ?_, ?_, fun hne => ?_⟩
  · obtain ⟨f, wire, hsent, hrest⟩ := htells
    have hfresh (d : Dev) : ((d.setAon fun a => { a with sleeping := true }).fresh .sleep).out = d.out := rfl
    refine ⟨f, wire, ?_, hrest⟩
    rw [show d3.out = d2.out from hfresh d2, show d2.out = d1.out from hout]
    exact hsent
  · have hfresh (d : Dev) : ((d.setAon fun a => { a with sleeping := true }).fresh .sleep).aon = { d.aon with sleeping := true } := rfl
    rw [← haon]
    exact hfresh d2
  · have hkey := congrArg (fun d : Dev => d.sec.idKey) hdeep1
    exact hkey
  · rw [Dev.rf, hreg (by decide)]
    exact hcfg
  · rw [← halarm hne, Dev.alarmAt, Dev.alarmAt, hreg (by decide), hreg (by decide)]

/-- Settles O48: a reset by the blocks that it takes, its end by what recovers, SLEEP by what a loss of power leaves. -/
theorem partialReset : Obligations.PartialReset := by
  unfold Obligations.PartialReset
  dsimp only
  exact ⟨fun s => ⟨fun h half blocks k hhalf hpos hlt hidle hfar => yields_resetPart k hhalf hpos hlt rfl hidle hfar rfl,
      fun side r checkFail hpow hlink hreset hcel hreply hopen => yields_resetPartComplete checkFail hpow hlink hreset hcel hreply hopen⟩,
    fun s h wakeAt k hw he hload hwake => yields_sleep k hw he hload hwake⟩

end Sys2Proof.Machine
end

section
/-! PROOFS. Files and key slots: opened, written, closed and dropped; installed and retired (chapters 12, 13). -/
namespace Sys2Proof.Machine
open Sys2Proof.Safety

/-! ## Files (R320, R359) -/

theorem files_of_bare {d e : Dev} (h : d.bare = e.bare) (s : Side) : (d.half s).files = (e.half s).files ∧ (d.half s).cel = (e.half s).cel := by
  have hfiles := congrArg Half.files (half_of_bare h s)
  have hcel := congrArg Half.cel (half_of_bare h s)
  cases s <;> exact ⟨hfiles, hcel⟩

theorem file_of_bare {d e : Dev} (h : d.bare = e.bare) (s : Side) (id : Nat) : (d.half s).file id = (e.half s).file id := by
  rw [Half.file, Half.file, (files_of_bare h s).1]

/-- A file of another id is not the one that changes. -/
theorem file_modFile_ne (h : Half) {id j : Nat} (g : FileRec → FileRec) (hj : j ≠ id) (hid : ∀ x, (g x).id = x.id) :
    (h.modFile id g).file j = h.file j := by
  have hkey : ((fun x : FileRec => decide (x.id = j)) ∘ fun r => if r.id = id then g r else r) = fun x => decide (x.id = j) := by
    funext x
    by_cases hx : x.id = id <;> simp [hx, hid]
  unfold Half.file Half.modFile
  rw [List.find?_map, hkey]
  cases hfound : h.files.find? (fun x => decide (x.id = j)) with
  | none => rfl
  | some f =>
    have hfid : f.id = j := by simpa using List.find?_some hfound
    rw [Option.map_some, if_neg (by rw [hfid]; exact hj)]

theorem fileOrRefusal_ok {d : Dev} {id : Nat} {f : FileRec} (h : d.fileOrRefusal id = .ok f) :
    (d.half (fileSide id)).file id = some f ∧ f.id = id := by
  unfold Dev.fileOrRefusal at h
  split at h
  · simp at h
  next g hg =>
    split at h
    · simp at h
    · obtain rfl := Except.ok.inj h
      exact ⟨hg, by simpa using List.find?_some hg⟩

theorem quiet_setSec (d : Dev) (x : SecSt) : d.quiet { d with sec := x } := (stepped_setSec d x).quiet

/-- FILE_OPEN makes an open file of its slot. -/
theorem answers_fileOpen {s : State} {h : Hdr} {side : Side} {slot length : Nat} (k : Admits s h 0x30 true true (decide (side = .e)))
    (hslot : slot ≤ 1023) (hcellar : (s.dev.accepted h).cellarRefusal side = none) (hkind : ((s.dev.accepted h).slot slot).kind = .file)
    (hunused : ((s.dev.accepted h).slot slot).used = false) (hfree : length ≤ (s.dev.accepted h).cellarFree side)
    (hte : side = .e → (s.dev.accepted h).teRefusal slot = none) :
    Answers (.fileOpen h side.code slot length) s h 0x30 stOk (beBytes 4 ((s.dev.accepted h).newFileId side))
      (((s.dev.accepted h).mod side fun x => { x with files := x.files ++ [{ id := (s.dev.accepted h).newFileId side, slot := slot, length := length
                                                                             isOpen := true, epoch := ((s.dev.accepted h).slot slot).epoch }] }).setSlot
        slot { (s.dev.accepted h).slot slot with used := true, inTe := ((s.dev.accepted h).slot slot).inTe || decide (side = .e) }) := by
  obtain ⟨hcode, hside⟩ := side_of_code side
  refine answers_of_finish (o := { code := 0x30, required := true, fw := true }) (far := decide (side = .e)) (body := fileOpenBody side.code slot length)
    (e := Dev.setSlot (Dev.draw ((s.dev.accepted h).mod side fun x => { x with
      files := x.files ++ [{ id := (s.dev.accepted h).newFileId side, slot := slot, length := length
                             isOpen := true, epoch := ((s.dev.accepted h).slot slot).epoch }] }))
      slot { (s.dev.accepted h).slot slot with used := true, inTe := ((s.dev.accepted h).slot slot).inTe || decide (side = .e) })
    (by cases side <;> rfl) k ?_ ?_ ?_ ?_ (by decide)
  · have hte' : (if side = .e then (s.dev.accepted h).teRefusal slot else none) = none := by
      split
      next he => exact hte he
      · rfl
    unfold fileOpenBody
    rw [if_neg (by omega)]
    dsimp only
    rw [hside, hcellar]
    dsimp only
    rw [if_neg (by simp [hkind]), if_neg (by simp [hunused]), if_neg (by omega), hte']
  · cases side <;> rfl
  · exact (calm_accepted k).quiet (((quiet_mod rfl rfl fun _ h => h).trans (stepped_draw _).quiet).trans (quiet_setSec ..))
  · exact reaches_of_front (reaches_accepted _ k.takes) (front_mod ..)

/-- A file whose bytes at RECEIVED have come. -/
def FileRec.receives (f : FileRec) (host : Bool) (data : List Byte) : FileRec :=
  { f.rewritten host f.received data with received := f.received + data.length }

/-- What FILE_WRITE at RECEIVED makes of its half. -/
def Half.receives (h : Half) (s : Side) (f : FileRec) (data : List Byte) : Half :=
  ((h.modFile f.id fun x => x.rewritten (h.assisted 7) f.received data).lineWrite s f f.received data.length).modFile f.id
    fun x => { x with received := f.received + data.length }

/-- A half that differs in its files and its Cellar at most. -/
def Half.Stores (h g : Half) : Prop := g = { h with files := g.files, cel := g.cel }

theorem Half.Stores.trans {h g k : Half} (h1 : h.Stores g) (h2 : g.Stores k) : h.Stores k := by
  unfold Half.Stores at *
  generalize g.files = x, g.cel = y at h1
  subst h1
  exact h2

theorem stores_modFile (h : Half) (id : Nat) (f : FileRec → FileRec) : h.Stores (h.modFile id f) := rfl

theorem stores_lineWrite (h : Half) (s : Side) (f : FileRec) (off n : Nat) : h.Stores (h.lineWrite s f off n) := rfl

theorem stores_receives (h : Half) (s : Side) (f : FileRec) (data : List Byte) : h.Stores (h.receives s f data) :=
  ((stores_modFile ..).trans (stores_lineWrite ..)).trans (stores_modFile ..)

theorem Half.Stores.same {h g : Half} (hs : h.Stores g) :
    g.stw = h.stw ∧ g.tsk = h.tsk ∧ ∀ told, g.ended told = h.ended told := by
  unfold Half.Stores at hs
  generalize g.files = x, g.cel = y at hs
  subst hs
  exact ⟨rfl, rfl, fun _ => rfl⟩

theorem file_receives {h : Half} {id : Nat} (s : Side) {f : FileRec} {data : List Byte} (hf : h.file id = some f) (hid : f.id = id) :
    (h.receives s f data).file id = some (f.receives (h.assisted 7) data) ∧ ∀ j ≠ id, (h.receives s f data).file j = h.file j := by
  subst hid
  have hrw : ∀ x : FileRec, (x.rewritten (h.assisted 7) f.received data).id = x.id := fun x => (rewritten_content ..).1
  have hline (k : Half) (j : Nat) : (k.lineWrite s f f.received data.length).file j = k.file j := rfl
  unfold Half.receives
  refine ⟨?_, fun j hj => ?_⟩
  · exact file_modFile _ (f := f.rewritten (h.assisted 7) f.received data) _ ((hline _ _).trans (file_modFile h _ hf hrw)) fun _ => rfl
  · exact (file_modFile_ne _ (fun x : FileRec => { x with received := f.received + data.length }) hj fun _ => rfl).trans ((hline ..).trans (file_modFile_ne _ _ hj hrw))

/-- FILE_WRITE at RECEIVED stores its bytes and no others. -/
theorem yields_fileWrite {s : State} {h : Hdr} {side : Side} {id : Nat} {f : FileRec} {data : List Byte} (hside : fileSide id = side)
    (hfile : (s.dev.accepted h).fileOrRefusal id = .ok f) (k : Admits s h 0x31 true true (farFile id)) (hopen : f.isOpen = true)
    (hlock : ((s.dev.accepted h).half side).fileLocked f = false) (hkept : (s.dev.accepted h).retired f = false)
    (hat : f.received % 64 = 0) (hlines : data.length % 64 = 0) (hsome : data ≠ []) (hfits : f.received + data.length ≤ f.length)
    (hfree : ∀ l ∈ touched side id f.received data.length, ((s.dev.accepted h).half side).att.dir.contains l = false
      ∧ ∀ w ∈ ((s.dev.accepted h).half side).att.held, w.touches side l = false) (href : f.refused = false)
    (htorn : ((s.dev.accepted h).half side).tornLine side f f.received data.length = none)
    (hlow : ∀ k ∈ sectorsOf f.received data.length, tget 0 f.wc k + 1 < rekeyAt) :
    Yields (.fileWrite h id f.received data) s fun e =>
      e.tells (s.dev.replyTo 0x31 h) stOk (beBytes 8 (f.received + data.length))
      ∧ e.bare = ((s.dev.accepted h).mod side fun x => { x with files := (e.half side).files, cel := (e.half side).cel }).bare
      ∧ (∀ j ≠ id, (e.half side).file j = ((s.dev.accepted h).half side).file j)
      ∧ ∃ g, (e.half side).file id = some g ∧ g.received = f.received + data.length ∧ memRead g.data f.received data.length = data
        ∧ ∀ k, k < f.received ∨ f.received + data.length ≤ k → tget 0 g.data k = tget 0 f.data k := by
  obtain ⟨hf, hid⟩ := fileOrRefusal_ok hfile
  rw [hside] at hf
  obtain ⟨hstw, htsk, hended⟩ := (stores_receives (s.dev.half side) side f data).same
  refine yields_finishMod (o := { code := 0x31, required := true, fw := true }) (body := fileWriteBody id f.received data) (st := stOk)
    (pl := beBytes 8 (f.received + data.length)) (dup := false) (side := side) (f := fun x => x.receives side f data) rfl k ?_ hstw
    (congrArg TskSt.started htsk) (fun told hend => (hended told) ▸ hend) (by decide) fun t hbare htells => ⟨htells, ?_, ?_⟩
  · have hlen : 0 < data.length := List.length_pos_iff.mpr hsome
    unfold fileWriteBody
    simp only [hside, hfile]
    rw [if_neg (by simp [hopen, hlock]), if_neg (by simp [hkept]), if_neg (by omega), if_neg (by omega), if_neg (by omega),
      homeWrite_free hfree, writeRegion_plain hf href htorn hlow]
    show Dev.finish _ _ _ _ _ = _
    rw [mod_mod, mod_mod, ← hid]
    exact congrArg (fun d : Dev => d.finish _ _ _ _) (mod_congr rfl)
  · obtain ⟨hfiles, hcel⟩ := files_of_bare hbare side
    rw [half_mod_same] at hfiles hcel
    rw [hbare, hfiles, hcel]
    exact congrArg Dev.bare (mod_congr (stores_receives ..))
  · obtain ⟨hsame, hother⟩ := file_receives side (data := data) hf hid
    obtain ⟨-, hdata⟩ := rewritten_content f (((s.dev.accepted h).half side).assisted 7) f.received data
    rw [if_neg (by simpa using hsome)] at hdata
    refine ⟨fun j hj => ?_, f.receives (((s.dev.accepted h).half side).assisted 7) data, ?_, rfl, ?_, fun n hn => ?_⟩
    · rw [file_of_bare hbare, half_mod_same, hother j hj]
    · rw [file_of_bare hbare, half_mod_same, hsame]
    · exact (congrArg (fun m => memRead m f.received data.length) hdata).trans (memRead_memWrite ..)
    · refine (congrArg (fun m => tget 0 m n) hdata).trans ?_
      rw [tget_written _ _ _ rfl, if_neg (by omega)]

/-- What leaves a half with a file that goes. -/
def Half.dropsFile (h : Half) (f : FileRec) : Half :=
  { h with
    files := h.files.filter fun g => decide (g.id ≠ f.id)
    xts := match h.xts.rekey with
      | some (i, _) => if i = f.id then { h.xts with rekey := none } else h.xts
      | none => h.xts
    haul := if h.haul.spoilRx = some f.id then { h.haul with spoilRx := none } else h.haul }

theorem dropFile_eq (d : Dev) (s : Side) (f : FileRec) : ∃ x : SecSt, d.dropFile s f = { d.mod s fun h => h.dropsFile f with sec := x } := by
  unfold Dev.dropFile
  extract_lets d1 k
  have h1 : d1 = d.mod s fun h => h.dropsFile f := rfl
  clear_value k
  rw [h1]
  split
  · exact ⟨_, rfl⟩
  · exact ⟨_, rfl⟩

theorem file_dropsFile (h : Half) (f : FileRec) : (h.dropsFile f).file f.id = none ∧ ∀ j ≠ f.id, (h.dropsFile f).file j = h.file j := by
  have hfiles : (h.dropsFile f).files = h.files.filter fun g => decide (g.id ≠ f.id) := rfl
  unfold Half.file
  rw [hfiles]
  refine ⟨?_, fun j hj => ?_⟩
  · simp [List.find?_eq_none]
  · rw [List.find?_filter]
    congr 1
    funext x
    by_cases hx : x.id = j <;> simp [hx, hj]

/-- A request whose file goes. -/
theorem yields_dropFile {c : Instr} {s : State} {h : Hdr} {o : OpRow} {far : Bool} {body : Body} {st : Nat} {side : Side} {f : FileRec}
    (hc : exec c s = running (fun life d => hoist o far h body life d) s) (k : Admits s h o.code o.required o.fw far)
    (hb : body s.fuse.life (s.dev.replyTo o.code h) (s.dev.accepted h)
      = ((s.dev.accepted h).dropFile side f).finish s.fuse.life (s.dev.replyTo o.code h) st []) (hs : st ≠ stWrong) :
    Yields c s fun e => e.tells (s.dev.replyTo o.code h) st [] ∧ (e.half side).file f.id = none
      ∧ (∀ j ≠ f.id, (e.half side).file j = ((s.dev.accepted h).half side).file j)
      ∧ (e.half side).face = ((s.dev.accepted h).half side).face := by
  obtain ⟨x, hx⟩ := dropFile_eq (s.dev.accepted h) side f
  have hmod : (s.dev.accepted h).quiet ((s.dev.accepted h).mod side fun h => h.dropsFile f) := quiet_mod rfl rfl fun _ h => h
  have hhalf : ((s.dev.accepted h).dropFile side f).half side = ((s.dev.accepted h).half side).dropsFile f := by
    rw [hx]
    exact half_mod_same (s.dev.accepted h) side _
  refine yields_finishWith (dup := false) hc k hb ((calm_accepted k).quiet ?_) ?_ hs fun t hbare htells => ?_
  · rw [hx]
    exact hmod.trans (quiet_setSec ..)
  · rw [hx]
    exact reaches_of_front (reaches_accepted _ k.takes) (front_mod ..)
  · obtain ⟨hgone, hother⟩ := file_dropsFile ((s.dev.accepted h).half side) f
    have hfile (j : Nat) : (t.half side).file j = (((s.dev.accepted h).half side).dropsFile f).file j := by
      rw [file_of_bare hbare, hhalf]
    refine ⟨htells, (hfile _).trans hgone, fun j hj => (hfile j).trans (hother j hj), ?_⟩
    rw [face_of_bare hbare, hhalf]
    rfl

/-- An append that no full Larder loses is found again (R306). -/
theorem find_ldrAppend {d : Dev} {type key : Nat} {x : LdrData} (ht : type ≠ 6) (hhold : d.ldr.hold = false) (hroom : d.ldr.sector < 479) :
    (d.ldrAppend type key x).ldr.find type key = some x := by
  obtain ⟨e, fill, heq, -, -, -, hrecords, -⟩ := ldrAppend_room (d := d) type key x hhold hroom
  have hldr : (d.ldrAppend type key x).ldr = e.ldr := by
    rw [heq]
    split
    · exact ldr_of_bare (bare_raise ..)
    · rfl
  rw [hldr, LdrSt.find, hrecords, find_insert (r := { seq := (d.ldr.seq + 1) % 2 ^ 32, type := type, key := key, data := x }) ht, if_pos rfl]

theorem yields_fileClose {s : State} {h : Hdr} {side : Side} {id : Nat} {f : FileRec} (hside : fileSide id = side)
    (hfile : (s.dev.accepted h).fileOrRefusal id = .ok f) (k : Admits s h 0x32 true true (farFile id)) (hopen : f.isOpen = true)
    (hkept : (s.dev.accepted h).retired f = false) (hmeek : (s.dev.accepted h).meek) :
    Yields (.fileClose h id) s fun e => (∀ j ≠ id, (e.half side).file j = ((s.dev.accepted h).half side).file j)
      ∧ if (s.dev.accepted h).contentOk f then e.tells (s.dev.replyTo 0x32 h) stOk [] ∧ (e.half side).file id = some { f with isOpen := false }
          ∧ ((s.dev.accepted h).ldr.hold = false → (s.dev.accepted h).ldr.sector < 479 → e.ldr.find 4 id = some (.root f.root))
        else e.tells (s.dev.replyTo 0x32 h) stIntegrity [] ∧ (e.half side).file id = none := by
  obtain ⟨hf, hid⟩ := fileOrRefusal_ok hfile
  rw [hside] at hf
  split
  next hok =>
    let d1 := (s.dev.accepted h).mod side fun x => x.modFile id fun g => { g with isOpen := false }
    have hstep : d1.Stepped (d1.ldrAppend 4 id (.root f.root)) := stepped_ldrAppend _ _ _ (meek_mod side _ hmeek)
    refine yields_finishWith (o := { code := 0x32, required := true, fw := true }) (body := fileCloseBody id) (st := stOk) (pl := []) (dup := false)
      (e := d1.ldrAppend 4 id (.root f.root)) rfl k ?_ ((calm_accepted k).quiet ((quiet_modFile ..).trans hstep.quiet)) ?_ (by decide)
      fun t hbare htells => ?_
    · unfold fileCloseBody
      simp only [hside, hfile]
      rw [if_neg (by simp [hopen]), if_neg (by simp [hkept]), if_neg (by simp [hok])]
      rfl
    · exact reaches_of_front (reaches_accepted _ k.takes) ((front_ldrAppend ..).trans (front_mod ..))
    · have hfiles (j : Nat) : (t.half side).file j = (((s.dev.accepted h).half side).modFile id fun g => { g with isOpen := false }).file j := by
        have hfiles := congrArg Half.files (half_ldrAppend d1 4 id (.root f.root) side)
        have hsame : ((d1.ldrAppend 4 id (.root f.root)).half side).files = (d1.half side).files := by
          generalize d1.ldrAppend 4 id (.root f.root) = e at hfiles ⊢
          generalize d1 = d at hfiles ⊢
          cases side <;> exact hfiles
        rw [file_of_bare hbare, Half.file, hsame, show d1.half side = _ from half_mod_same ..]
        rfl
      refine ⟨fun j hj => (hfiles j).trans (file_modFile_ne _ (fun g : FileRec => { g with isOpen := false }) hj fun _ => rfl), htells,
        (hfiles id).trans (file_modFile _ (fun g : FileRec => { g with isOpen := false }) hf fun _ => rfl), fun hhold hroom => ?_⟩
      have hldr : d1.ldr = (s.dev.accepted h).ldr := Dev.mod_ldr ..
      rw [ldr_of_bare hbare]
      exact find_ldrAppend (by decide) (hldr ▸ hhold) (hldr ▸ hroom)
  next hbad =>
    refine yields_mono (yields_dropFile (o := { code := 0x32, required := true, fw := true }) (body := fileCloseBody id) (st := stIntegrity)
      (side := side) (f := f) rfl k ?_ (by decide)) fun e ⟨htells, hgone, hother, _⟩ => ?_
    · unfold fileCloseBody
      simp only [hside, hfile]
      rw [if_neg (by simp [hopen]), if_neg (by simp [hkept]), if_pos (by simp [hbad])]
    · rw [hid] at hgone hother
      exact ⟨hother, htells, hgone⟩

theorem yields_fileDrop {s : State} {h : Hdr} {side : Side} {id : Nat} {f : FileRec} (hside : fileSide id = side)
    (hfile : (s.dev.accepted h).fileOrRefusal id = .ok f) (k : Admits s h 0x33 true true (farFile id))
    (hfree : ((s.dev.accepted h).half side).fileLocked f = false) :
    Yields (.fileDrop h id) s fun e => e.tells (s.dev.replyTo 0x33 h) stOk [] ∧ (e.half side).file id = none
      ∧ (∀ j ≠ id, (e.half side).file j = ((s.dev.accepted h).half side).file j) ∧ (e.half side).face = ((s.dev.accepted h).half side).face := by
  obtain ⟨hf, hid⟩ := fileOrRefusal_ok hfile
  have hdrop := yields_dropFile (c := .fileDrop h id) (o := { code := 0x33, required := true, fw := true }) (body := fileDropBody id) (st := stOk)
    (side := side) (f := f) rfl k ?_ (by decide)
  · rwa [hid] at hdrop
  · unfold fileDropBody
    simp only [hside, hfile]
    rw [if_neg (by simp [hfree])]

/-! ## Key slots (R317 to R323) -/

theorem slot_setSlot_same (d : Dev) (n : Nat) (k : KeySlot) : (d.setSlot n k).slot n = k := tget_tset_same ..

theorem slot_setSlot_ne (d : Dev) {n j : Nat} (k : KeySlot) (h : j ≠ n) : (d.setSlot n k).slot j = d.slot j := tget_tset_ne _ _ _ h

theorem slot_of_sec {d e : Dev} (h : d.sec = e.sec) (n : Nat) : d.slot n = e.slot n := by
  rw [Dev.slot, Dev.slot, h]

theorem front_installSlot (d : Dev) (n : Nat) (k : KeySlot) : (d.installSlot n k).front = d.front := by
  unfold Dev.installSlot
  dsimp only
  split
  · exact front_ldrAppend ..
  · rfl

/-- A request that is answered leaves key material as its body did. -/
theorem yields_finishSec {c : Instr} {s : State} {h : Hdr} {o : OpRow} {far : Bool} {body : Body} {st : Nat} {pl : List Byte} {e : Dev}
    (hc : exec c s = running (fun life d => hoist o far h body life d) s) (k : Admits s h o.code o.required o.fw far)
    (hb : body s.fuse.life (s.dev.replyTo o.code h) (s.dev.accepted h) = e.finish s.fuse.life (s.dev.replyTo o.code h) st pl)
    (hf : e.front = (s.dev.accepted h).front) (hs : st ≠ stWrong) :
    Yields c s fun t => t.tells (s.dev.replyTo o.code h) st pl ∧ t.sec = e.sec :=
  yields_hoist hc k fun t ht => by
    rw [hb] at ht
    have hsec := congrArg Dev.sec (ht.deep.trans (deep_finish ..))
    exact ⟨tells_grows ht.grows (tells_finish _ _ _ (reaches_of_front (reaches_accepted _ k.takes) hf) hs), hsec⟩

section
variable {s : State} {h : Hdr} {slot : Nat} (k : Admits s h 0x40 true true false) (hsame : (s.dev.accepted h).diverges (.keySlot slot) = false)
include k hsame

/-- KEY_INSTALL that is answered. -/
theorem yields_keyInstall {b : KeyBody} {st : Nat} {e : Dev} (hb : keyInstallBody s.fuse slot b s.fuse.life (s.dev.replyTo 0x40 h) (s.dev.accepted h)
      = e.finish s.fuse.life (s.dev.replyTo 0x40 h) st []) (hf : e.front = (s.dev.accepted h).front) (hs : st ≠ stWrong) :
    Yields (.keyInstall h slot b) s fun t => t.tells (s.dev.replyTo 0x40 h) st [] ∧ t.sec = e.sec :=
  yields_finishSec (o := { code := 0x40, required := true, fw := true }) (body := touching [.keySlot slot] (keyInstallBody s.fuse slot b)) rfl k
    ((touching_clear (by simpa using hsame) ..).trans hb) hf hs

/-- A slot that KEY_INSTALL fills, and no other (R317). -/
theorem yields_installs {b : KeyBody} {n : Nat} {key : KeySlot}
    (hb : keyInstallBody s.fuse slot b s.fuse.life (s.dev.replyTo 0x40 h) (s.dev.accepted h)
      = ((s.dev.accepted h).installSlot n key).finish s.fuse.life (s.dev.replyTo 0x40 h) stOk []) :
    Yields (.keyInstall h slot b) s fun t => (∀ j ≠ n, t.slot j = (s.dev.accepted h).slot j) ∧ t.tells (s.dev.replyTo 0x40 h) stOk [] ∧ t.slot n = key :=
  yields_mono (yields_keyInstall k hsame hb (front_installSlot ..) (by decide)) fun t ⟨htells, hsec⟩ => by
    have hslot (j : Nat) := slot_of_sec (hsec.trans (sec_installSlot ..)) j
    exact ⟨fun j hj => (hslot j).trans (slot_setSlot_ne _ _ hj), htells, (hslot n).trans (slot_setSlot_same ..)⟩

/-- A KEY_INSTALL that is denied leaves every slot. -/
theorem yields_denied {b : KeyBody} (hb : keyInstallBody s.fuse slot b s.fuse.life (s.dev.replyTo 0x40 h) (s.dev.accepted h)
      = (s.dev.accepted h).refuse s.fuse.life (s.dev.replyTo 0x40 h) stDenied) :
    Yields (.keyInstall h slot b) s fun t => t.tells (s.dev.replyTo 0x40 h) stDenied [] ∧ t.sec = (s.dev.accepted h).sec :=
  yields_keyInstall k hsame (hb.trans (refuse_eq _ _ _ (by decide))) rfl (by decide)

/-- A new root: the slot takes it, and every session ends (R317, R348). -/
theorem yields_root {key : Nat} {sig : List Byte} (hmeek : s.dev.meek) (hslot : slot = 0) (hroot : ((s.dev.accepted h).slot 0).kind = .root)
    (hok : verifies ((s.dev.accepted h).slot 0).key (beBytes 97 key ++ beBytes 32 (s.dev.accepted h).sec.nonce) sig = true) :
    Yields (.keyInstall h slot (.root key sig)) s fun t => (∀ j ≠ 0, t.slot j = (s.dev.accepted h).slot j) ∧ t.tells (s.dev.replyTo 0x40 h) stOk []
      ∧ t.slot 0 = { (s.dev.accepted h).slot 0 with key := key } ∧ t.hst.sessions = [] := by
  let e1 := (s.dev.accepted h).installSlot 0 { (s.dev.accepted h).slot 0 with key := key }
  let e2 := e1.finish s.fuse.life (s.dev.replyTo 0x40 h) stOk []
  have hbody : hoist { code := 0x40, required := true, fw := true } false h (touching [.keySlot slot] (keyInstallBody s.fuse slot (.root key sig)))
      s.fuse.life { s.dev with out := [] } = e2.closeAll 6 := by
    refine (hoist_of_admits (o := { code := 0x40, required := true, fw := true }) _ k).trans ((touching_clear (by simpa using hsame) ..).trans ?_)
    unfold keyInstallBody installRoot
    dsimp only
    rw [if_neg (by simp [hslot]), if_neg (by simp [hroot, hok])]
  have hstep : (s.dev.accepted h).Stepped e1 := stepped_installSlot _ _
    ⟨mild_accepted hmeek.1, mild_accepted hmeek.2⟩
  have hcalm : (e2.closeAll 6).calm := ((calm_accepted k).quiet hstep.quiet).quiet ((quiet_finish_ok ..).trans (quiet_closeAll ..))
  have hbare : (e2.closeAll 6).bare = e1.bare := (bare_closeAll ..).trans (bare_finish_ok ..)
  have hpow : (e2.closeAll 6).powered = true :=
    (powered_of_bare hbare).trans (hstep.powered.trans ((powered_of_bare (accepted_bare ..)).trans k.powered))
  have htells : (e2.closeAll 6).tells (s.dev.replyTo 0x40 h) stOk [] := tells_grows (grows_closeAll ..)
    (tells_finish _ _ _ (reaches_of_front (reaches_accepted _ k.takes) (front_installSlot ..)) (by decide))
  rw [yields_running_iff (f := fun life d => hoist { code := 0x40, required := true, fw := true } false h
    (touching [.keySlot slot] (keyInstallBody s.fuse slot (.root key sig))) life d) rfl k.powered, Dev.after, hbody]
  have hsec := congrArg Dev.sec ((bare_settle _ s.fuse.life hcalm).trans hbare)
  have hslots (j : Nat) : ((e2.closeAll 6).settle s.fuse.life).slot j = _ := slot_of_sec (Eq.trans hsec (sec_installSlot ..)) j
  refine ⟨fun j hj => (hslots j).trans (slot_setSlot_ne _ _ hj), tells_grows (grows_settle ..) htells, (hslots 0).trans (slot_setSlot_same ..), ?_⟩
  refine List.eq_nil_iff_forall_not_mem.mpr fun x hx => ?_
  have hin := (mem_settle s.fuse.life hpow hcalm).1 x hx
  rw [show (e2.closeAll 6).sessions = [] from sessions_closeAll ..] at hin
  exact List.not_mem_nil hin

end

/-- Slots that are zeroised, and no others (R323). -/
theorem slot_zeroSlots (l : List Nat) (d : Dev) (j : Nat) : (l.foldl Dev.zeroSlot d).slot j = if j ∈ l then {} else d.slot j := by
  have hone (d : Dev) (n : Nat) : (d.zeroSlot n).slot j = if j = n then {} else d.slot j := by
    have hsec : (d.zeroSlot n).sec = (d.setSlot n {}).sec := by
      unfold Dev.zeroSlot
      dsimp only
      split
      · exact sec_ldrAppend ..
      · rfl
    rw [slot_of_sec hsec]
    by_cases hj : j = n
    · rw [if_pos hj, hj, slot_setSlot_same]
    · rw [if_neg hj, slot_setSlot_ne _ _ hj]
  induction l generalizing d with
  | nil => simp
  | cons n l ih =>
    rw [List.foldl_cons, ih, hone]
    by_cases hl : j ∈ l
    · simp [hl]
    · by_cases hn : j = n <;> simp [hl, hn]

theorem front_zeroSlots (l : List Nat) (d : Dev) : (l.foldl Dev.zeroSlot d).front = d.front :=
  front_foldl _ _ (fun d n => by
    unfold Dev.zeroSlot
    dsimp only
    split
    · exact front_ldrAppend ..
    · rfl) d

theorem yields_keyRetire {s : State} {h : Hdr} {slot : Nat} (k : Admits s h 0x41 true true false)
    (hsame : (s.dev.accepted h).diverges (.keySlot slot) = false) (hne : slot ≠ 0) (hlt : slot ≤ 1023)
    (hfull : ((s.dev.accepted h).slot slot).kind ≠ .empty) (hplan : ∀ n ∈ (s.dev.accepted h).retiredWith slot, (s.dev.accepted h).inPlan n = false)
    (hte : (∃ n ∈ (s.dev.accepted h).retiredWith slot, ((s.dev.accepted h).slot n).inTe = true) → (s.dev.accepted h).stwUp = true) :
    Yields (.keyRetire h slot) s fun e => e.tells (s.dev.replyTo 0x41 h) stOk []
      ∧ (∀ n ∈ (s.dev.accepted h).retiredWith slot, e.slot n = {})
      ∧ ∀ n, n ∉ (s.dev.accepted h).retiredWith slot → e.slot n = (s.dev.accepted h).slot n := by
  refine yields_mono (yields_finishSec (c := .keyRetire h slot) (o := { code := 0x41, required := true, fw := true })
    (body := touching [.keySlot slot] (keyRetireBody slot)) (st := stOk) (pl := [])
    (e := ((s.dev.accepted h).retiredWith slot).foldl Dev.zeroSlot (s.dev.accepted h)) rfl k ?_ (front_zeroSlots ..) (by decide))
    fun e ⟨htells, hsec⟩ => ?_
  · have hany : (((s.dev.accepted h).retiredWith slot).any fun n => (s.dev.accepted h).inPlan n) = false := List.any_eq_false.mpr fun n hn => by
      simp [hplan n hn]
    have hup : ((((s.dev.accepted h).retiredWith slot).any fun n => ((s.dev.accepted h).slot n).inTe) && !(s.dev.accepted h).stwUp) = false := by
      refine Bool.and_eq_false_imp.mpr fun hin => ?_
      rw [hte (List.any_eq_true.mp hin)]
      rfl
    rw [touching_clear (by simpa using hsame)]
    unfold keyRetireBody
    rw [if_neg (by omega), if_neg hne, if_neg hfull]
    dsimp only
    rw [hany, hup]
    rfl
  · have hslots (n : Nat) := (slot_of_sec hsec n).trans (slot_zeroSlots ..)
    exact ⟨htells, fun n hn => (hslots n).trans (if_pos hn), fun n hn => (hslots n).trans (if_neg hn)⟩

section
variable {s : State} {h : Hdr} {slot : Nat} (k : Admits s h 0x40 true true false) (hsame : (s.dev.accepted h).diverges (.keySlot slot) = false)
include k hsame

/-- An owner blob fills its slot where its checks hold, and is denied elsewhere (R319). -/
theorem yields_blob {l : List Byte} {kind : SlotKind} (hkind : blobKind (blobNum l 4 1) = some kind) (hok : blobOk l kind = true)
    (hempty : ((s.dev.accepted h).slot (blobSlot l)).kind = .empty) : Yields (.keyInstall h slot (.blob l)) s fun t =>
      (∀ j ≠ blobSlot l, t.slot j = (s.dev.accepted h).slot j)
      ∧ if ((s.dev.accepted h).blobSecret l kind).isSome = true then t.tells (s.dev.replyTo 0x40 h) stOk [] ∧ t.slot (blobSlot l) = {
          kind := kind
          owner := blobOwner l
          key := ((s.dev.accepted h).blobSecret l kind).getD 0
          length := blobLength l
          hash := blobHash l
          pub := if kind = .image then ((s.dev.accepted h).slot (blobOwner l)).key else 0 }
        else t.tells (s.dev.replyTo 0x40 h) stDenied [] ∧ t.slot (blobSlot l) = (s.dev.accepted h).slot (blobSlot l) := by
  cases hsecret : (s.dev.accepted h).blobSecret l kind with
  | none =>
    refine yields_mono (yields_denied (b := .blob l) k hsame ?_) fun t ⟨htells, hsec⟩ =>
      ⟨fun j _ => slot_of_sec hsec j, by rw [if_neg (by simp)]; exact ⟨htells, slot_of_sec hsec _⟩⟩
    unfold keyInstallBody installBlob
    simp [hkind, hok, hempty, hsecret]
  | some secret =>
    refine yields_mono (yields_installs (b := .blob l) k hsame (n := blobSlot l) (key := {
        kind := kind
        owner := blobOwner l
        key := secret
        length := blobLength l
        hash := blobHash l
        pub := if kind = .image then ((s.dev.accepted h).slot (blobOwner l)).key else 0 }) ?_) fun t ⟨hother, htells, hslot⟩ =>
      ⟨hother, by rw [if_pos (show (some secret).isSome = true from rfl)]; exact ⟨htells, hslot⟩⟩
    unfold keyInstallBody installBlob
    simp [hkind, hok, hempty, hsecret]

/-- The identity certificate is kept where the device root signed it over the identity key, and is denied elsewhere (R313). -/
theorem yields_cert {der : List Byte} (hslot : slot = 0) (hsome : der ≠ []) (hlen : der.length ≤ 2048) (hlife : s.fuse.life = .manufacture)
    (hnone : (s.dev.accepted h).sec.cert = none) : Yields (.keyInstall h slot (.cert der)) s fun e =>
      if certSigned s.fuse.rootKey der = true ∧ (s.dev.accepted h).sec.idKey.map Config.pubKey = some (Config.certKey der) then
        e.tells (s.dev.replyTo 0x40 h) stOk [] ∧ e.sec = { (s.dev.accepted h).sec with cert := some der }
      else e.tells (s.dev.replyTo 0x40 h) stDenied [] ∧ e.sec = (s.dev.accepted h).sec := by
  split
  next hok =>
    refine yields_mono (yields_keyInstall (b := .cert der) k hsame (st := stOk)
      (e := Dev.ldrAppend { s.dev.accepted h with sec := { (s.dev.accepted h).sec with cert := some der } } 2 1024 (.cert der)) ?_
      (front_ldrAppend ..) (by decide)) fun t ⟨htells, hsec⟩ => ⟨htells, hsec.trans (sec_ldrAppend ..)⟩
    unfold keyInstallBody installCert
    simp [hslot, hsome, hlen, hlife, hnone, hok.1, hok.2]
  next hbad =>
    refine yields_denied (b := .cert der) k hsame ?_
    have hbad' : (!certSigned s.fuse.rootKey der || decide ((s.dev.accepted h).sec.idKey.map Config.pubKey ≠ some (Config.certKey der))) = true := by
      by_contra hno
      exact hbad (by simpa using hno)
    unfold keyInstallBody installCert
    dsimp only
    rw [if_neg (by simp [hslot, hsome, hlen]), if_pos]
    rcases Bool.or_eq_true_iff.mp hbad' with hsig | hkey
    · simp [hsig]
    · simp only [hkey, Bool.or_true]

end

/-- Settles O31: each command on files by what it makes of the file, each on keys by what it makes of the slots. -/
theorem files : Obligations.Files := by
  unfold Obligations.Files
  dsimp only
  refine ⟨fun s h side => ⟨fun slot length k hslot hcellar hkind hunused hfree hte =>
      answers_fileOpen k hslot hcellar hkind hunused hfree hte, fun id f hside hfile =>
      ⟨fun data k hopen hlock hkept hat hlines hsome hfits hfree href htorn hlow =>
        yields_fileWrite hside hfile k hopen hlock hkept hat hlines hsome hfits hfree href htorn hlow,
      fun k hopen hkept hmeek => yields_fileClose hside hfile k hopen hkept hmeek,
      fun k hfree => yields_fileDrop hside hfile k hfree⟩⟩,
    fun s h slot hmeek hsame k => ⟨fun key sig hslot hroot => ?_, fun key hne hlt hempty => ?_,
      fun l kind hkind hok hempty => yields_blob k hsame hkind hok hempty,
      fun der hslot hsome hlen hlife hnone => yields_cert k hsame hslot hsome hlen hlife hnone,
      fun k hne hlt hfull hplan hte => yields_keyRetire k hsame hne hlt hfull hplan hte⟩⟩
  · by_cases hok : verifies ((s.dev.accepted h).slot 0).key (beBytes 97 key ++ beBytes 32 (s.dev.accepted h).sec.nonce) sig = true
    · exact yields_mono (yields_root k hsame hmeek hslot hroot hok) fun t ⟨hother, htells, hnew, hclosed⟩ =>
        ⟨⟨hother, by rw [if_pos hok]; exact ⟨htells, hnew⟩⟩, fun _ => hclosed⟩
    · refine yields_mono (yields_denied (b := .root key sig) k hsame ?_) fun t ⟨htells, hsec⟩ =>
        ⟨⟨fun j _ => slot_of_sec hsec j, by rw [if_neg hok]; exact ⟨htells, slot_of_sec hsec _⟩⟩, fun h => absurd h hok⟩
      unfold keyInstallBody installRoot
      simp [hslot, hok]
  · refine yields_mono (yields_installs (b := .owner key) k hsame (n := slot) (key := { kind := .owner, key := key }) ?_) fun t ⟨hother, htells, hnew⟩ =>
      ⟨hother, by rw [if_pos trivial]; exact ⟨htells, hnew⟩⟩
    unfold keyInstallBody installOwner
    simp only
    rw [if_neg (by omega), if_neg (by simp [hempty])]

end Sys2Proof.Machine
end

section
/-! PROOFS. Haul quads: frames that leave, ACK, CREDIT_RESET, ECHO and its reply, a relay frame that closes (chapter 14). -/
namespace Sys2Proof.Machine
open Sys2Proof.Safety

/-! ## A quad after an operation -/

@[simp] theorem HaulSt.quad_setQuad (h : HaulSt) (q : Nat) (x : Quad) : (h.setQuad q x).quad q = x := by
  match q with
  | 0 | 1 | 2 | _ + 3 => rfl

theorem HaulSt.setQuad_quad (h : HaulSt) (q : Nat) : h.setQuad q (h.quad q) = h := by
  match q with
  | 0 | 1 | 2 | _ + 3 => rfl

theorem quad_modQuad (d : Dev) (s : Side) (q : Nat) (f : Quad → Quad) : (d.modQuad s q f).quad s q = f (d.quad s q) := by
  unfold Dev.modQuad Dev.quad
  rw [half_mod_same]
  exact HaulSt.quad_setQuad ..

theorem modQuad_id (d : Dev) (s : Side) (q : Nat) : (d.modQuad s q fun x => x) = d := by
  unfold Dev.modQuad
  simp only [HaulSt.setQuad_quad]
  exact mod_id d s

theorem bare_modQuad_mute (d : Dev) (s : Side) (q : Nat) (f : Quad → Quad) : (d.mute.modQuad s q f).bare = (d.modQuad s q f).bare := by
  cases s <;> rfl

theorem quad_mute (d : Dev) (s : Side) (q : Nat) : d.mute.quad s q = d.quad s q := by
  unfold Dev.quad
  rw [half_mute]

theorem quad_of_bare {d e : Dev} (h : d.bare = e.bare) (s : Side) (q : Nat) : d.quad s q = e.quad s q := by
  obtain ⟨t, ht⟩ := half_eq_of_bare h s
  unfold Dev.quad
  rw [ht]

/-! ## Frames that leave on a quad (R374 to R376) -/

/-- From one state of the module to a later one only more was sent, and the model's own counter moved on. -/
def Dev.Talks (d e : Dev) : Prop := ∃ (l : List Out) (n : Nat), e = { d with out := d.out ++ l, free := n }

theorem Dev.Talks.refl (d : Dev) : d.Talks d := ⟨[], d.free, by rw [List.append_nil]⟩

theorem Dev.Talks.trans {d e f : Dev} (h : d.Talks e) (k : e.Talks f) : d.Talks f := by
  obtain ⟨l, n, rfl⟩ := h
  obtain ⟨m, j, rfl⟩ := k
  exact ⟨l ++ m, j, by rw [← List.append_assoc]⟩

theorem Dev.Talks.bare {d e : Dev} (h : d.Talks e) : e.bare = d.bare := by
  obtain ⟨l, n, rfl⟩ := h
  rfl

theorem Dev.Talks.quiet {d e : Dev} (h : d.Talks e) : d.quiet e := by
  obtain ⟨l, n, rfl⟩ := h
  exact ⟨id, rfl, id, fun _ => id⟩

theorem Dev.Talks.quad {d e : Dev} (h : d.Talks e) (s : Side) (q : Nat) : e.quad s q = d.quad s q := by
  obtain ⟨l, n, rfl⟩ := h
  cases s <;> rfl

theorem Dev.Talks.out {d e : Dev} (h : d.Talks e) : ∀ o ∈ d.out, o ∈ e.out := by
  obtain ⟨l, n, rfl⟩ := h
  exact fun o ho => List.mem_append_left l ho

/-- A frame on a quad that injects no error leaves as it is. -/
theorem haulOut_plain (d : Dev) (s : Side) (q ft : Nat) (fields : List Nat) (h : (d.quad s q).inject = false) :
    d.Talks (d.haulOut s q ft fields) ∧ ∃ wire, Out.haul s q ft fields wire ∈ (d.haulOut s q ft fields).out := by
  unfold Dev.haulOut
  rw [h]
  simp only [Bool.false_and, Bool.false_eq_true, if_false, modQuad_id]
  exact ⟨⟨_, _, rfl⟩, _, List.mem_append_right _ (List.mem_singleton.mpr rfl)⟩

/-- The frames of a list leave in turn. -/
theorem haulOut_foldl (s : Side) (q : Nat) (l : List HFrame) (d : Dev) (h : (d.quad s q).inject = false) :
    let e := l.foldl (fun d f => d.haulOut s q f.2.1 (f.1 :: f.2.2)) d
    d.Talks e ∧ ∀ f ∈ l, ∃ wire, Out.haul s q f.2.1 (f.1 :: f.2.2) wire ∈ e.out := by
  dsimp only
  induction l generalizing d with
  | nil => exact ⟨.refl d, nofun⟩
  | cons f l ih =>
    obtain ⟨htalks, wire, hwire⟩ := haulOut_plain d s q f.2.1 (f.1 :: f.2.2) h
    obtain ⟨hrest, hall⟩ := ih (d.haulOut s q f.2.1 (f.1 :: f.2.2)) (by rw [htalks.quad]; exact h)
    refine ⟨htalks.trans hrest, fun g hg => ?_⟩
    rcases List.mem_cons.mp hg with rfl | hg
    · exact ⟨wire, hrest.out _ hwire⟩
    · exact hall g hg

/-- The replay sends every frame of the buffer again, unless the SAFE net stops it (R376, R465). -/
theorem replayFrames_spec (d : Dev) (s : Side) (q : Nat) (h : (d.quad s q).inject = false) :
    d.Talks (d.replayFrames s q) ∧ (d.safe.asserted = false → ∀ f ∈ (d.quad s q).replay,
      ∃ wire, Out.haul s q f.2.1 (f.1 :: f.2.2) wire ∈ (d.replayFrames s q).out) := by
  unfold Dev.replayFrames
  split
  next hsafe => exact ⟨.refl d, fun hno => by rw [hsafe] at hno; exact absurd hno (by decide)⟩
  · obtain ⟨htalks, hall⟩ := haulOut_foldl s q (d.quad s q).replay d h
    exact ⟨htalks, fun _ => hall⟩

theorem haulFlush_none {d : Dev} {s : Side} {q : Nat} (h : (d.quad s q).hold = []) : d.haulFlush s q = d := by
  unfold Dev.haulFlush
  rw [h]
  rfl

/-- A sequenced frame that can leave takes its number, a credit and a replay place (R376). -/
theorem haulSend_plain {d : Dev} {s : Side} {q : Nat} (ft : Nat) (fields : List Nat) (hcan : d.canSend s q = true)
    (h : (d.quad s q).inject = false) : ∃ e, d.haulSend s q ft fields = (e, true)
      ∧ (d.modQuad s q fun x => { x with
          tx := (x.tx + 1) % 256, credits := x.credits - 1, replay := x.replay ++ [(x.tx, ft, fields)] }).Talks e
      ∧ ∃ wire, Out.haul s q ft ((d.quad s q).tx :: fields) wire ∈ e.out := by
  let d1 := d.modQuad s q fun x => { x with
    tx := ((d.quad s q).tx + 1) % 256, credits := x.credits - 1, replay := x.replay ++ [((d.quad s q).tx, ft, fields)] }
  have hd1 : d1 = d.modQuad s q fun x => { x with
      tx := (x.tx + 1) % 256, credits := x.credits - 1, replay := x.replay ++ [(x.tx, ft, fields)] } := by
    exact mod_congr rfl
  have hinject : (d1.quad s q).inject = false := by
    rw [quad_modQuad]
    exact h
  obtain ⟨htalks, hout⟩ := haulOut_plain d1 s q ft ((d.quad s q).tx :: fields) hinject
  refine ⟨d1.haulOut s q ft ((d.quad s q).tx :: fields), ?_, hd1 ▸ htalks, hout⟩
  unfold Dev.haulSend
  rw [if_neg (by simp [hcan])]

/-! ## Control frames (R376, R378, R391) -/

section
variable {d : Dev} {s : Side} {q : Nat}

theorem haulAckFrame_spec (n credits : Nat) (nak : Bool) (hrx : d.receiving s q = true) (hhold : (d.quad s q).hold = [])
    (hinject : (d.quad s q).inject = false) :
    let l := afterAck n (d.quad s q).replay
    let e := haulAckFrame s q n credits nak d
    (d.modQuad s q fun x => { x with replay := afterAck n x.replay, credits := min 64 (x.credits + credits) }).Talks e
      ∧ (nak = true → d.safe.asserted = false → ∀ f ∈ l, ∃ wire, Out.haul s q f.2.1 (f.1 :: f.2.2) wire ∈ e.out) := by
  dsimp only
  unfold haulAckFrame
  rw [if_neg (by simp [hrx])]
  dsimp only
  generalize hd1 : (d.modQuad s q fun x => { x with replay := afterAck n x.replay, credits := min 64 (x.credits + credits) }) = d1
  have hquad : d1.quad s q = { d.quad s q with
      replay := afterAck n (d.quad s q).replay, credits := min 64 ((d.quad s q).credits + credits) } := by
    rw [← hd1, quad_modQuad]
  have hsafe : d1.safe = d.safe := by
    rw [← hd1]
    exact Dev.mod_safe ..
  obtain ⟨htalks, hall⟩ := replayFrames_spec d1 s q (by rw [hquad]; exact hinject)
  cases nak with
  | false =>
    rw [if_neg (by decide), haulFlush_none (by rw [hquad]; exact hhold)]
    exact ⟨.refl d1, nofun⟩
  | true =>
    rw [if_pos rfl, haulFlush_none (by rw [htalks.quad, hquad]; exact hhold)]
    refine ⟨htalks, fun _ hoff => ?_⟩
    have hframes := hall (hsafe ▸ hoff)
    rw [hquad] at hframes
    exact hframes

theorem haulCreditReset_spec (hrx : d.receiving s q = true) (hhold : (d.quad s q).hold = []) (hinject : (d.quad s q).inject = false) :
    let e := haulCreditReset s q d
    (d.modQuad s q fun x => { x with credits := 64 }).Talks e
      ∧ (d.safe.asserted = false → ∀ f ∈ (d.quad s q).replay, ∃ wire, Out.haul s q f.2.1 (f.1 :: f.2.2) wire ∈ e.out) := by
  dsimp only
  unfold haulCreditReset Dev.creditsReset
  rw [if_pos hrx]
  generalize hd1 : (d.modQuad s q fun x => { x with credits := 64 }) = d1
  have hquad : d1.quad s q = { d.quad s q with credits := 64 } := by rw [← hd1, quad_modQuad]
  have hsafe : d1.safe = d.safe := by
    rw [← hd1]
    exact Dev.mod_safe ..
  obtain ⟨htalks, hall⟩ := replayFrames_spec d1 s q (by rw [hquad]; exact hinject)
  rw [haulFlush_none (by rw [htalks.quad, hquad]; exact hhold)]
  refine ⟨htalks, fun hoff => ?_⟩
  have hframes := hall (hsafe ▸ hoff)
  rw [hquad] at hframes
  exact hframes

theorem haulEchoReplySend_spec {c : BitVec 64} {rest : List (BitVec 64)} (hrx : d.receiving s q = true)
    (hecho : (d.quad s q).echoes = c :: rest) (hinject : (d.quad s q).inject = false) :
    (d.modQuad s q fun x => { x with echoes := rest }).Talks (haulEchoReplySend s q d)
      ∧ ∃ wire, Out.haul s q ftEchoReply [c.toNat] wire ∈ (haulEchoReplySend s q d).out := by
  unfold haulEchoReplySend
  rw [if_neg (by simp [hrx]), hecho]
  exact haulOut_plain _ s q ftEchoReply [c.toNat] (by rw [quad_modQuad]; exact hinject)

theorem half_setRf (d : Dev) (n : Nat) (r : Rg) (i hi lo v : Nat) (s : Side) : (d.setRf n r i hi lo v).half s = d.half s := by cases s <;> rfl

theorem pages_setRf (d : Dev) (n : Nat) (r : Rg) (i hi lo v : Nat) : (d.setRf n r i hi lo v).pages = d.pages := rfl

theorem quiet_setRf (d : Dev) (n : Nat) (r : Rg) (i hi lo v : Nat) : d.quiet (d.setRf n r i hi lo v) := quiet_setRg ..

/-- An echo's reply measures the link; a change of the upstream latency loses the alignment (R378, R385). -/
theorem setMeasured_spec (d : Dev) {s : Side} {q : Nat} (n : Nat) (hq : q < 4) (hmild : d.mild .w blkHaul 4) :
    d.quiet (d.setMeasured s q n) ∧ (∀ j, (d.setMeasured s q n).quad s j = d.quad s j)
      ∧ (d.setMeasured s q n).rf s.code .haulRxLat q 11 0 = min ((n - 64) / 2) 4095 := by
  have hlost (e : Dev) (he : d.quiet e) (hpages : e.pages = d.pages) (hhalf : e.half s = d.half s) :
      d.quiet e.xmodLost ∧ (∀ j, e.xmodLost.quad s j = d.quad s j)
        ∧ e.xmodLost.rf s.code .haulRxLat q 11 0 = e.rf s.code .haulRxLat q 11 0 := by
    have hsame (j : Nat) : e.quad s j = d.quad s j := by
      unfold Dev.quad
      rw [hhalf]
    unfold Dev.xmodLost
    split
    · exact ⟨he, hsame, rfl⟩
    · have hbare := bare_raise (e.setRf 0 .haulXmod 0 16 16 0) .w blkHaul 4
      have hp : (e.setRf 0 .haulXmod 0 16 16 0).pages = d.pages := (pages_setRf ..).trans hpages
      have hm : (e.setRf 0 .haulXmod 0 16 16 0).mild .w blkHaul 4 :=
        mild_of_severity (by rw [page_of_pages hp]) (by rw [page_of_pages hp]) hmild
      refine ⟨(he.trans (quiet_setRf ..)).trans (quiet_mildRaise hm), fun j => ?_, ?_⟩
      · rw [quad_of_bare hbare]
        unfold Dev.quad
        rw [half_setRf]
        exact hsame j
      · rw [rf_of_regs (regs_of_bare hbare)]
        refine congrArg (fld · 11 0) (rg_setRf_ne _ _ _ _ fun hkey => ?_)
        obtain ⟨-, hr, -⟩ := (regKey_inj (by omega) (by decide)).mp hkey
        exact absurd hr (by decide)
  unfold Dev.setMeasured
  extract_lets m old d1
  have hq1 : d.quiet d1 := quiet_setRf ..
  have hp1 : d1.pages = d.pages := pages_setRf ..
  have hh1 : d1.half s = d.half s := half_setRf ..
  have hr1 : d1.rf s.code .haulRxLat q 11 0 = min m 4095 := by
    refine (rf_setRf_same _ _ _ _ _ _ _ (by decide) (by decide)).trans (Nat.mod_eq_of_lt ?_)
    omega
  clear_value d1
  split
  · obtain ⟨hquiet, hquad, hrf⟩ := hlost d1 hq1 hp1 hh1
    exact ⟨hquiet, hquad, hrf.trans hr1⟩
  · refine ⟨hq1, fun j => ?_, hr1⟩
    unfold Dev.quad
    rw [hh1]

/-! ## A relay frame that closes (R387, R389) -/

theorem relayClose_unkeyed {d : Dev} {s : Side} {q : Nat} (hsome : (d.quad s q).pack.isEmpty = false) (hkey : (d.quad s q).keyed = false) :
    d.relayClose s q = (d.modQuad s q fun x =>
      { x with pack := [], first := x.first + x.pack.length }).bump s.code .haulRelay 0 31 28 := by
  unfold Dev.relayClose
  dsimp only
  rw [if_neg (by simp [hsome]), if_pos (by simp [hkey])]

/-- A frame of a quad that holds the relay key leaves with the issues it holds, enciphered. -/
theorem relayClose_keyed {d : Dev} {s : Side} {q : Nat} (hsome : (d.quad s q).pack.isEmpty = false) (hkey : (d.quad s q).keyed = true)
    (hcan : d.canSend s q = true) (htag : (d.quad s q).tagged < 63) (hinject : (d.quad s q).inject = false) :
    let x := d.quad s q
    let e := d.relayClose s q
    d.quiet e ∧ (e.quad s q).pack = [] ∧ (e.quad s q).first = x.first + x.pack.length ∧ (e.quad s q).tx = (x.tx + 1) % 256
      ∧ (e.quad s q).credits = x.credits - 1 ∧ (e.quad s q).tagged = x.tagged + 1
      ∧ ∃ wire, Out.haul s q ftRelay (x.tx :: x.first :: x.pack.length
          :: x.pack.zipIdx.map fun v => v.1 ^^^ relayStream x.key (x.first + v.2)) wire ∈ e.out := by
  dsimp only
  unfold Dev.relayClose
  extract_lets x d1 cipher fields
  have hquad : d1.quad s q = { x with pack := [], first := x.first + x.pack.length } := quad_modQuad ..
  have hq1 : d.quiet d1 := (posted_modQuad ..).quiet
  have hcan1 : d1.canSend s q = true := by
    have hsafe : d1.safe = d.safe := Dev.mod_safe ..
    unfold Dev.canSend at hcan ⊢
    rw [hquad, hsafe]
    exact hcan
  obtain ⟨e, hsend, htalks, wire, hwire⟩ := haulSend_plain ftRelay fields hcan1 (by rw [hquad]; exact hinject)
  clear_value d1
  have hquad2 : e.quad s q = { x with
      pack := [], first := x.first + x.pack.length, tx := (x.tx + 1) % 256, credits := x.credits - 1
      replay := x.replay ++ [(x.tx, ftRelay, fields)] } := by
    rw [htalks.quad, quad_modQuad, hquad]
  rw [if_neg (by simp [x, hsome]), if_neg (by simp [x, hkey]), hsend]
  dsimp only
  rw [quad_modQuad, hquad2, if_pos (Nat.succ_lt_succ htag)]
  refine ⟨(hq1.trans ((posted_modQuad ..).quiet.trans htalks.quiet)).trans (posted_modQuad ..).quiet, ?_⟩
  rw [quad_modQuad, hquad2]
  refine ⟨rfl, rfl, rfl, rfl, rfl, wire, ?_⟩
  rw [hquad] at hwire
  have hout (e : Dev) (f : Quad → Quad) : (e.modQuad s q f).out = e.out := by cases s <;> rfl
  rw [hout]
  exact hwire

end

/-- Settles O38: each control frame by what it makes of its quad and what it sends. -/
theorem haulControl : Obligations.HaulControl := by
  unfold Obligations.HaulControl
  dsimp only
  intro s side q hpow hcalm
  have hquad := quad_mute s.dev side q
  have hpack (x : Quad) {issue : Nat} {rest : List Nat} (h : x.pack = issue :: rest) : x.pack.isEmpty = false := by rw [h]; rfl
  have hcanMute : s.dev.mute.canSend side q = s.dev.canSend side q := by
    unfold Dev.canSend
    rw [hquad]
    rfl
  have hrelay (hr : s.dev.relays side = true) : relayFrameClose side q s.dev.mute = s.dev.mute.relayClose side q := if_pos hr
  refine ⟨fun hrx => ?_, fun issue rest hrelays hsome => ⟨fun hkey => ?_, fun hkey hcan htag hinject => ?_⟩⟩
  · have hrx' : s.dev.mute.receiving side q = true := by
      unfold Dev.receiving
      rw [hquad]
      exact hrx
    refine ⟨fun n credits nak hhold hinject => ?_, fun hhold hinject => ?_, fun cookie => ?_, fun c rest hecho hinject => ?_,
      fun cookie n hmild => ?_⟩
    · obtain ⟨htalks, hframes⟩ := haulAckFrame_spec n credits nak hrx' (hquad ▸ hhold) (hquad ▸ hinject)
      rw [hquad] at hframes
      exact yields_quiet (f := fun _ d => haulAckFrame side q n credits nak d) rfl hpow hcalm rfl
        ((posted_modQuad ..).quiet.trans htalks.quiet) fun t hbare hgrows => ⟨(hbare.trans htalks.bare).trans (bare_modQuad_mute ..),
          fun hnak f hf hoff => (hframes hnak hoff f hf).imp fun wire => hgrows.2 _⟩
    · obtain ⟨htalks, hframes⟩ := haulCreditReset_spec hrx' (hquad ▸ hhold) (hquad ▸ hinject)
      rw [hquad] at hframes
      exact yields_quiet (f := fun _ d => haulCreditReset side q d) rfl hpow hcalm rfl
        ((posted_modQuad ..).quiet.trans htalks.quiet) fun t hbare hgrows => ⟨(hbare.trans htalks.bare).trans (bare_modQuad_mute ..),
          fun f hf hoff => (hframes hoff f hf).imp fun wire => hgrows.2 _⟩
    · exact yields_quiet (f := fun _ d => haulEcho side q cookie d)
        (e := s.dev.mute.modQuad side q fun x => { x with echoes := x.echoes ++ [cookie] }) rfl hpow hcalm
        (if_neg (by simp [hrx'])) (posted_modQuad ..).quiet fun t hbare _ => hbare.trans (bare_modQuad_mute ..)
    · obtain ⟨htalks, hwire⟩ := haulEchoReplySend_spec hrx' (hquad ▸ hecho) (hquad ▸ hinject)
      exact yields_quiet (f := fun _ d => haulEchoReplySend side q d) rfl hpow hcalm rfl
        ((posted_modQuad ..).quiet.trans htalks.quiet) fun t hbare hgrows => ⟨(hbare.trans htalks.bare).trans (bare_modQuad_mute ..),
          hwire.imp fun wire => hgrows.2 _⟩
    · obtain ⟨hquiet, hsame, hrf⟩ := setMeasured_spec s.dev.mute (s := side) n q.isLt hmild
      exact yields_quiet (f := fun _ d => haulEchoReply side q n d) (e := s.dev.mute.setMeasured side q n) rfl hpow hcalm (if_pos hrx')
        hquiet fun t hbare _ => ⟨(rf_of_regs (regs_of_bare hbare) ..).trans hrf,
          ((quad_of_bare hbare ..).trans (hsame q)).trans hquad⟩
  · refine yields_quiet (f := fun _ d => relayFrameClose side q d) rfl hpow hcalm
      ((hrelay hrelays).trans (relayClose_unkeyed (hquad ▸ hpack _ hsome) (hquad ▸ hkey)))
      ((posted_modQuad ..).quiet.trans (quiet_bump ..)) fun t hbare _ => ?_
    have hq := quad_of_bare hbare side q
    have hbump (d : Dev) : (d.bump side.code .haulRelay 0 31 28).quad side q = d.quad side q := by
      unfold Dev.quad
      rw [half_bump]
    rw [hbump, quad_modQuad, hquad] at hq
    refine ⟨by rw [hq], by rw [hq], by rw [hq], ?_⟩
    rw [rf_of_regs (regs_of_bare hbare), Dev.bump, rf_setRf_same _ _ _ _ _ _ _ (by decide) (by decide)]
    have hold : (s.dev.mute.modQuad side q fun x => { x with pack := [], first := x.first + x.pack.length }).rf side.code .haulRelay 0 31 28
        = s.dev.rf side.code .haulRelay 0 31 28 := rf_of_regs (by cases side <;> rfl) ..
    rw [hold]
    exact Nat.mod_eq_of_lt (by omega)
  · obtain ⟨hquiet, hkept⟩ := relayClose_keyed (d := s.dev.mute) (hquad ▸ hpack _ hsome) (hquad ▸ hkey) (hcanMute ▸ hcan) (hquad ▸ htag) (hquad ▸ hinject)
    rw [hquad] at hkept
    refine yields_quiet (f := fun _ d => relayFrameClose side q d) rfl hpow hcalm (hrelay hrelays) hquiet fun t hbare hgrows => ?_
    rw [quad_of_bare hbare]
    obtain ⟨h1, h2, h3, h4, h5, hwire⟩ := hkept
    exact ⟨h1, h2, h3, h4, h5, hwire.imp fun wire => hgrows.2 _⟩

end Sys2Proof.Machine
end

section
/-! PROOFS. Haul quads: the sequenced frames they take (chapter 14). -/
namespace Sys2Proof.Machine
open Sys2Proof.Safety

/-! ## A good frame in order (R376) -/

theorem HaulSt.setQuad_setQuad (h : HaulSt) (q : Nat) (x y : Quad) : (h.setQuad q x).setQuad q y = h.setQuad q y := by
  match q with
  | 0 | 1 | 2 | _ + 3 => rfl

theorem modQuad_modQuad (d : Dev) (s : Side) (q : Nat) (f g : Quad → Quad) :
    (d.modQuad s q f).modQuad s q g = d.modQuad s q fun x => g (f x) := by
  unfold Dev.modQuad
  rw [mod_mod]
  refine mod_congr ?_
  simp only [HaulSt.quad_setQuad, HaulSt.setQuad_setQuad]

theorem bare_modQuad {d e : Dev} (h : d.bare = e.bare) (s : Side) (q : Nat) (f : Quad → Quad) :
    (d.modQuad s q f).bare = (e.modQuad s q f).bare := by
  have hcomm (x : Dev) : (x.modQuad s q f).bare = x.bare.modQuad s q f := by cases s <;> rfl
  rw [hcomm, hcomm, h]

/-- A good frame that is in order and that its quad's mode takes is acknowledged, and its content is to be used. -/
theorem haulReceive_good {d : Dev} {s : Side} {r : HaulRx} {ft : Nat} (hbad : r.bad = none) (hseq : r.seq = (d.quad s r.quad).rx)
    (hrx : d.receiving s r.quad = true) (hinject : (d.quad s r.quad).inject = false) (hft : d.accepts s r.quad ft = true) :
    ∃ e, d.haulReceive s r ft = (e, true)
      ∧ (d.modQuad s r.quad fun x => { x with rx := (x.rx + 1) % 256 }).Talks e
      ∧ ∃ wire, Out.haul s r.quad ftAck [(((d.quad s r.quad).rx + 1) % 256 + 255) % 256, 1, 0] wire ∈ e.out := by
  let d1 := d.modQuad s r.quad fun x => { x with rx := ((d.quad s r.quad).rx + 1) % 256 }
  have hd1 : d1 = d.modQuad s r.quad fun x => { x with rx := (x.rx + 1) % 256 } := by
    exact mod_congr rfl
  have hquad : d1.quad s r.quad = { d.quad s r.quad with rx := ((d.quad s r.quad).rx + 1) % 256 } := quad_modQuad ..
  obtain ⟨htalks, hout⟩ := haulOut_plain d1 s r.quad ftAck [((d1.quad s r.quad).rx + 255) % 256, 1, 0] (by rw [hquad]; exact hinject)
  have hack : d1.haulAck s r.quad false = d1.haulOut s r.quad ftAck [((d1.quad s r.quad).rx + 255) % 256, 1, 0] := rfl
  rw [← hack] at htalks hout
  rw [hquad] at hout
  have haccepts : (d1.haulAck s r.quad false).accepts s r.quad ft = true := by
    have hmode : (d1.haulAck s r.quad false).quadMode s r.quad = d.quadMode s r.quad := by
      obtain ⟨l, n, heq⟩ := htalks
      rw [heq]
      exact rf_of_regs (by cases s <;> rfl) ..
    unfold Dev.accepts at hft ⊢
    rw [hmode]
    exact hft
  refine ⟨d1.haulAck s r.quad false, ?_, hd1 ▸ htalks, hout⟩
  unfold Dev.haulReceive
  dsimp only
  rw [if_neg (by simp [hrx]), hbad]
  dsimp only
  rw [if_pos hseq, if_pos haccepts]

/-- What a good frame leaves of the module that receives it. -/
structure Dev.Hears (d e : Dev) (s : Side) (q : Nat) : Prop where
  quiet : d.quiet e
  regs : e.regs = d.regs
  pages : e.pages = d.pages
  powered : e.powered = d.powered
  half : e.half s = { d.half s with haul := (d.half s).haul.setQuad q { d.quad s q with rx := ((d.quad s q).rx + 1) % 256 } }
  bare : e.bare = (d.modQuad s q fun x => { x with rx := (x.rx + 1) % 256 }).bare
  safe : e.safe = d.safe

theorem hears_of_talks {d e : Dev} {s : Side} {q : Nat} (h : (d.modQuad s q fun x => { x with rx := (x.rx + 1) % 256 }).Talks e) :
    d.Hears e s q := by
  have hposted := posted_modQuad d s q fun x => { x with rx := (x.rx + 1) % 256 }
  have hbare := h.bare
  obtain ⟨l, n, rfl⟩ := h
  refine ⟨hposted.quiet.trans ⟨id, rfl, id, fun _ => id⟩, by cases s <;> rfl, by cases s <;> rfl, hposted.powered, ?_, hbare, hposted.safe⟩
  cases s <;> rfl

theorem Dev.Hears.quad {d e : Dev} {s : Side} {q : Nat} (h : d.Hears e s q) :
    e.quad s q = { d.quad s q with rx := ((d.quad s q).rx + 1) % 256 } := by
  rw [Dev.quad, h.half]
  exact HaulSt.quad_setQuad ..

theorem Dev.Hears.relayed {d e : Dev} {s : Side} {q : Nat} (h : d.Hears e s q) : e.relayed s = d.relayed s := by
  unfold Dev.relayed Dev.allRelay Dev.quadMode Dev.quadRole
  simp only [rf_of_regs h.regs]

/-! ## Relayed symbols (R387 to R389) -/

/-- The digits of a sum of digits times powers of 16. -/
theorem relayWord_digit (l : List Nat) {c : Nat} (hc : c < 64) : relayWord l / 16 ^ c % 16 = l.getD c 0 % 16 := by
  have hsum (l : List Nat) (n a : Nat) : (l.zipIdx n).foldl (fun a v => a + v.1 % 16 * 16 ^ v.2) a
      = a + 16 ^ n * (l.zipIdx 0).foldl (fun a v => a + v.1 % 16 * 16 ^ v.2) 0 := by
    induction l generalizing n a with
    | nil => rfl
    | cons x l ih =>
      rw [List.zipIdx_cons, List.zipIdx_cons, List.foldl_cons, List.foldl_cons, ih, ih (0 + 1)]
      ring
  have hdigit (l : List Nat) (c : Nat) : (l.zipIdx 0).foldl (fun a v => a + v.1 % 16 * 16 ^ v.2) 0 / 16 ^ c % 16 = l.getD c 0 % 16 := by
    induction l generalizing c with
    | nil => simp
    | cons x l ih =>
      rw [List.zipIdx_cons, List.foldl_cons, hsum]
      generalize (l.zipIdx 0).foldl (fun a v => a + v.1 % 16 * 16 ^ v.2) 0 = n at ih
      have hx : 0 + (x, 0).1 % 16 * 16 ^ (x, 0).2 + 16 ^ (0 + 1) * n = x % 16 + 16 * n := by simp
      rw [hx]
      cases c with
      | zero => simp
      | succ c =>
        rw [List.getD_cons_succ, ← ih c, Nat.pow_succ, Nat.mul_comm (16 ^ c), ← Nat.div_div_eq_div_mul,
          show (x % 16 + 16 * n) / 16 = n by omega]
  have hpow : 2 ^ 256 = 16 ^ c * (16 * 16 ^ (63 - c)) := by
    rw [← Nat.pow_succ', ← Nat.pow_add, show c + (63 - c).succ = 64 by omega]
    norm_num
  unfold relayWord
  rw [← hdigit l c, hpow, Nat.mod_mul_right_div_self, Nat.mod_mul_right_mod]

/-- Entries written one after the other. -/
theorem tget_entries (f : Nat → Nat → Nat) (first : Nat) (l : List Nat) (n : Nat) (t : Tbl (Option Nat)) (k : Nat) :
    tget none ((l.zipIdx n).foldl (fun t v => tset none t (first + v.2) (some (f v.1 v.2))) t) (first + k)
      = if n ≤ k ∧ k < n + l.length then some (f (l.getD (k - n) 0) k) else tget none t (first + k) := by
  induction l generalizing n t with
  | nil => rw [if_neg (by simp)]; rfl
  | cons x l ih =>
    rw [List.zipIdx_cons, List.foldl_cons, ih, List.length_cons]
    by_cases hk : k = n
    · subst hk
      rw [if_neg (by omega), if_pos (by omega), tget_tset_same, Nat.sub_self, List.getD_cons_zero]
    · rw [tget_tset_ne _ _ _ (by omega)]
      by_cases hin : n + 1 ≤ k ∧ k < n + 1 + l.length
      · obtain ⟨j, rfl⟩ := Nat.exists_eq_add_of_le hin.1
        rw [if_pos hin, if_pos (by omega), show n + 1 + j - n = j + 1 by omega, List.getD_cons_succ,
          show n + 1 + j - (n + 1) = j by omega]
      · rw [if_neg hin, if_neg (by omega)]

/-! ## A fresh file id (R355) -/

/-- The ids that a search for a free one tries. -/
def fileTry (base i : Nat) : Nat := base / 2 ^ 31 * 2 ^ 31 + (base + i) % 2 ^ 31

theorem fileTry_next (base i : Nat) : fileTry (fileTry base 1) i = fileTry base (i + 1) := by
  unfold fileTry
  omega

/-- A search that finds no free id has tried every one. -/
theorem freshFile_tried {used : List Nat} (n : Nat) {base : Nat} (h : freshFile used base n ∈ used) : ∀ i ≤ n, fileTry base i ∈ used := by
  have hfirst (base : Nat) : fileTry base 0 = base := by
    unfold fileTry
    omega
  induction n generalizing base with
  | zero => exact fun i hi => by rw [Nat.le_zero.mp hi, hfirst]; exact h
  | succ n ih =>
    unfold freshFile at h
    split at h
    next hin =>
      intro i hi
      cases i with
      | zero =>
        rw [hfirst]
        simpa using hin
      | succ i =>
        rw [← fileTry_next]
        exact ih h i (by omega)
    next hout => exact absurd h (by simpa using hout)

/-- The id of a new file is no file's (R355). -/
theorem newFileId_fresh (d : Dev) (s : Side) (h : (d.half s).files.length < 2 ^ 31) : d.newFileId s ∉ (d.half s).files.map fun f => f.id := by
  intro hin
  unfold Dev.newFileId at hin
  dsimp only at hin
  generalize hused : ((d.half s).files.map fun f => f.id) = used at hin
  have hlen : used.length < 2 ^ 31 := by rw [← hused, List.length_map]; exact h
  generalize s.code * 2 ^ 31 + Config.fileId s.code d.free % 2 ^ 31 = base at hin
  have htried := freshFile_tried used.length hin
  have hnodup : ((List.range (used.length + 1)).map (fileTry base)).Nodup := by
    refine List.Nodup.map_on (fun i hi j hj hij => ?_) List.nodup_range
    rw [List.mem_range] at hi hj
    unfold fileTry at hij
    omega
  have hsub : (List.range (used.length + 1)).map (fileTry base) ⊆ used := fun x hx => by
    obtain ⟨i, hi, rfl⟩ := List.mem_map.mp hx
    exact htried i (by rw [List.mem_range] at hi; omega)
  have hle := (List.subperm_of_subset hnodup hsub).length_le
  rw [List.length_map, List.length_range] at hle
  omega

/-! ## Lines of another module's spoil (R390) -/

/-- A receive file of n lines with the next line at its end, and the line's tag and metadata in its table. -/
def FileRec.takes (f : FileRec) (n : Nat) (line : List Byte) : FileRec :=
  { f with
    received := f.received + 64
    data := memWrite (memWrite f.data (64 * n) (line.take 64)) (tagBase + 16 * n) ((line.drop 64).take 13) }

theorem takes_stores {f : FileRec} {line : List Byte} (hlen : line.length = 77) (hat : f.received % 64 = 0) (hlow : f.received + 64 ≤ 2 ^ 40) :
    let g := f.takes (f.received / 64) line
    64 ≤ g.received ∧ memRead g.data (g.received - 64) 64 = line.take 64
      ∧ memRead g.data (tagBase + 16 * (g.received / 64 - 1)) 13 = line.drop 64 := by
  dsimp only
  have hbody : (line.take 64).length = 64 := by simp [hlen]
  have htag : ((line.drop 64).take 13).length = 13 := by simp [hlen]
  have hrest : (line.drop 64).take 13 = line.drop 64 := List.take_of_length_le (by simp [hlen])
  have hrec : (f.takes (f.received / 64) line).received = f.received + 64 := rfl
  have hdata : (f.takes (f.received / 64) line).data
      = memWrite (memWrite f.data f.received (line.take 64)) (tagBase + 16 * (f.received / 64)) ((line.drop 64).take 13) := by
    unfold FileRec.takes
    rw [show 64 * (f.received / 64) = f.received by omega]
  rw [hrec, hdata]
  refine ⟨by omega, ?_, ?_⟩
  · have hread := memRead_memWrite f.data f.received (line.take 64)
    rw [hbody] at hread
    rw [Nat.add_sub_cancel, ← hread]
    refine List.ext_getElem (by simp only [memRead_length]) fun k hk _ => ?_
    rw [memRead_length] at hk
    rw [memRead_getElem, memRead_getElem, tget_written _ _ _ htag, if_neg (by unfold tagBase; omega), hread]
  · have hread := memRead_memWrite (memWrite f.data f.received (line.take 64)) (tagBase + 16 * (f.received / 64)) ((line.drop 64).take 13)
    rw [htag] at hread
    rw [show (f.received + 64) / 64 - 1 = f.received / 64 by omega, hread, hrest]

theorem quiet_draw (d : Dev) : d.quiet d.draw := ⟨id, rfl, id, fun _ => id⟩

theorem grows_draw (d : Dev) : d.grows d.draw := grows_of_eq rfl rfl

theorem half_draw (d : Dev) (s : Side) : d.draw.half s = d.half s := by cases s <;> rfl

/-- The receive file of a new sending burst is empty, and has room for a line. -/
theorem newSpoilRx_spec {d : Dev} {s : Side} (hfree : 64 ≤ d.reserveFree s) (hfew : (d.half s).files.length < 2 ^ 20) :
    ∃ f, (d.newSpoilRx s).half s = { d.half s with
        files := (d.half s).files ++ [f], haul := { (d.half s).haul with spoilRx := some (d.newFileId s) } }
      ∧ d.quiet (d.newSpoilRx s) ∧ d.grows (d.newSpoilRx s) ∧ ((d.newSpoilRx s).half s).file (d.newFileId s) = some f ∧ f.received = 0 ∧ 64 ≤ f.length := by
  have hfresh := newFileId_fresh d s (by omega)
  let f : FileRec := { id := d.newFileId s, slot := 0, length := d.reserveFree s / 64 * 64, spoil := 6 }
  let g (h : Half) : Half := { h with files := h.files ++ [f], haul := { h.haul with spoilRx := some (d.newFileId s) } }
  have heq : d.newSpoilRx s = ((d.mod s g).setRg s.code .haulSpoilFile 0 (BitVec.ofNat 32 (d.newFileId s))).draw := by
    unfold Dev.newSpoilRx
    dsimp only
    rw [if_neg (by omega)]
  have hhalf : (d.newSpoilRx s).half s = g (d.half s) := by
    rw [heq]
    have hdraw (e : Dev) (n : Nat) (r : Rg) (v : Word) : ((e.setRg n r 0 v).draw).half s = e.half s := by cases s <;> rfl
    rw [hdraw, half_mod_same]
  refine ⟨f, hhalf, ?_, ?_, ?_, rfl, ?_⟩
  · rw [heq]
    exact ((quiet_mod rfl rfl fun _ h => h).trans (quiet_setRg ..)).trans (quiet_draw _)
  · rw [heq]
    exact ((grows_mod ..).trans (grows_setRg ..)).trans (grows_draw _)
  · rw [hhalf]
    have hnone : (d.half s).files.find? (fun x => decide (x.id = d.newFileId s)) = none := by
      rw [List.find?_eq_none]
      intro x hx
      have hne : x.id ≠ d.newFileId s := fun he => hfresh (List.mem_map.mpr ⟨x, hx, he⟩)
      simp [hne]
    have hfiles : (g (d.half s)).file (d.newFileId s) = ((d.half s).files ++ [f]).find? fun x => decide (x.id = d.newFileId s) := rfl
    rw [hfiles, List.find?_append, hnone]
    simp [f]
  · show 64 ≤ d.reserveFree s / 64 * 64
    omega

/-- A receive file of a half has room for a line at its end. -/
def Half.hasRoom (h : Half) (id : Nat) : Prop :=
  ∃ f, h.file id = some f ∧ f.received % 64 = 0 ∧ f.received + 64 ≤ f.length ∧ f.received + 64 ≤ 2 ^ 40

/-- The file that a received line goes to: the one in use, or that of a new sending burst. -/
theorem spoilFile_spec {d : Dev} {s : Side} (begins : Bool) (hfree : 64 ≤ d.reserveFree s) (hfew : (d.half s).files.length < 2 ^ 20)
    (hroom : ∀ id, (d.half s).haul.spoilRx = some id → (d.half s).hasRoom id) (hbegins : (d.half s).haul.spoilRx = none → begins = true) :
    let e := if begins then d.draw.newSpoilRx s else d.draw
    d.quiet e ∧ d.grows e ∧ (∀ q, e.quad s q = d.quad s q) ∧ (e.half s).face = (d.half s).face
      ∧ ∃ id, (e.half s).haul.spoilRx = some id ∧ (e.half s).hasRoom id := by
  dsimp only
  have hhalf := half_draw d s
  split
  · have hfree' : 64 ≤ d.draw.reserveFree s := by
      unfold Dev.reserveFree at hfree ⊢
      rw [hhalf]
      exact hfree
    obtain ⟨f, heq, hquiet, hgrows, hfile, hzero, hlen⟩ := newSpoilRx_spec (d := d.draw) hfree' (by rw [hhalf]; exact hfew)
    refine ⟨(quiet_draw d).trans hquiet, (grows_draw d).trans hgrows, fun q => ?_, by rw [heq, hhalf], d.draw.newFileId s, by rw [heq], f, hfile, ?_⟩
    · unfold Dev.quad
      rw [heq, hhalf]
      rfl
    · rw [hzero]
      omega
  next hkeep =>
    refine ⟨quiet_draw d, grows_draw d, fun q => ?_, by rw [hhalf], ?_⟩
    · unfold Dev.quad
      rw [hhalf]
    · rw [hhalf]
      cases hid : (d.half s).haul.spoilRx with
      | none => exact absurd (hbegins hid) hkeep
      | some id => exact ⟨id, rfl, hroom id hid⟩

/-- A spoil line that is taken stands at the end of the receive file. -/
theorem spoil_stores {d e : Dev} {s : Side} {r : HaulRx} {line : List Byte} (hrec : d.haulReceive s r ftSpoil = (e, true))
    (hrole : e.quadRole s r.quad = 1) (hlen : line.length = 77) (hfree : 64 ≤ e.reserveFree s) (hfew : (e.half s).files.length < 2 ^ 20)
    (hroom : ∀ id, (e.half s).haul.spoilRx = some id → (e.half s).hasRoom id) :
    e.quiet (spoil s r line d) ∧ e.grows (spoil s r line d) ∧ (∀ q, (spoil s r line d).quad s q = e.quad s q)
      ∧ ((spoil s r line d).half s).face = (e.half s).face
      ∧ ∃ id f, ((spoil s r line d).half s).haul.spoilRx = some id ∧ ((spoil s r line d).half s).file id = some f ∧ 64 ≤ f.received
        ∧ memRead f.data (f.received - 64) 64 = line.take 64 ∧ memRead f.data (tagBase + 16 * (f.received / 64 - 1)) 13 = line.drop 64 := by
  unfold spoil
  rw [hrec]
  dsimp only
  rw [if_neg (by rw [hrole]; decide)]
  generalize hb : ((e.half s).haul.spoilRx.isNone || decide (Config.firmware 21 e.free % 2 = 1)) = begins
  obtain ⟨hquiet, hgrows, hquad, hface, id, hid, f, hfile, hat, hfits, hlow⟩ := spoilFile_spec begins hfree hfew hroom fun hnone => by
    rw [← hb, hnone]
    rfl
  generalize (if begins then e.draw.newSpoilRx s else e.draw) = e2 at hquiet hgrows hquad hface hid hfile
  rw [hid]
  dsimp only
  rw [hfile]
  dsimp only
  rw [if_neg (by omega)]
  have hput := file_modFile (e2.half s) (fun g : FileRec => g.takes (f.received / 64) line) hfile fun _ => rfl
  refine ⟨hquiet.trans (quiet_modFile ..), hgrows.trans (grows_mod ..), fun q => ?_, ?_, id, f.takes (f.received / 64) line, ?_, ?_, takes_stores hlen hat hlow⟩
  · rw [← hquad q]
    unfold Dev.quad
    rw [half_mod_same]
    rfl
  all_goals rw [half_mod_same]
  · exact hface
  · exact hid
  · exact hput

/-! ## The late alarm (R334, R389) -/

theorem Half.haul_abort (h : Half) (c : Nat) : (h.abort c).haul = h.haul := by
  unfold Half.abort
  dsimp only
  split
  · rfl
  · split
    · rfl
    · split <;> rfl

theorem quad_of_sans {d e : Dev} (h : d.sans = e.sans) (s : Side) (q : Nat) : d.quad s q = e.quad s q := by
  have hquad := congrArg (fun x : Dev => x.quad s q) h
  cases s <;> exact hquad

theorem face_of_sans {d e : Dev} (h : d.sans = e.sans) (s : Side) : (d.half s).face = (e.half s).face := by
  have hface := congrArg (fun x : Dev => (x.half s).face) h
  cases s <;> exact hface

theorem lateAlarm_grows (d : Dev) (s : Side) : d.grows (d.lateAlarm s) := by
  unfold Dev.lateAlarm
  split
  · exact .refl d
  · exact ((grows_mod ..).trans (grows_raise ..)).trans (grows_mod ..)

/-- The late alarm calls no SAFE net at a severity below 3, leaves the quads, and ends a burst with INTEGRITY. -/
theorem lateAlarm_spec {d : Dev} {s : Side} (hmild : d.mild s blkXts 0) (hmeek : d.meek) :
    d.hush (d.lateAlarm s) ∧ (d.lateAlarm s).meek ∧ (d.lateAlarm s).powered = d.powered ∧ (∀ q, (d.lateAlarm s).quad s q = d.quad s q)
      ∧ ((d.half s).face.bursting = true → ((d.lateAlarm s).half s).face.state = .aborted ∧ ((d.lateAlarm s).half s).face.cause = 5) := by
  unfold Dev.lateAlarm
  split
  next hout =>
    refine ⟨(Dev.quiet.refl d).hush, hmeek, rfl, fun _ => rfl, fun hb => ?_⟩
    simp [FaceSt.inBurst, hb] at hout
  · generalize hd1 : (d.mod s fun h => { h with xts := { h.xts with alarm := true } }) = d1
    have hpages : d1.pages = d.pages := by
      rw [← hd1]
      cases s <;> rfl
    have hmild1 : d1.mild s blkXts 0 := mild_of_severity (by rw [page_of_pages hpages]) (by rw [page_of_pages hpages]) hmild
    have hhush : d.hush d1 := hd1 ▸ hush_mod rfl rfl
    have hpow : d1.powered = d.powered := hd1 ▸ powered_mod ..
    have hhalf : d1.half s = { d.half s with xts := { (d.half s).xts with alarm := true } } := hd1 ▸ half_mod_same ..
    refine ⟨hhush.trans ((quiet_mildRaise hmild1).hush.trans (hush_abort ..)), meek_mod s _ (meek_raise (meek_of_pages hpages hmeek)),
      (powered_mod ..).trans ((powered_of_sans (sans_raise ..)).trans hpow), fun q => ?_, fun hb => ?_⟩
    · have hraise := quad_of_sans (sans_raise d1 s blkXts 0) s q
      unfold Dev.quad at hraise ⊢
      rw [show ((d1.raise s blkXts 0).abort s 5).half s = _ from half_mod_same .., Half.haul_abort, hraise, hhalf]
    · have hface := face_of_sans (sans_raise d1 s blkXts 0) s
      rw [hhalf] at hface
      rw [show ((d1.raise s blkXts 0).abort s 5).half s = _ from half_mod_same ..]
      obtain ⟨hstate, hcause, -⟩ := abort_bursting (h := (d1.raise s blkXts 0).half s) 5 (by rw [hface]; exact hb)
      exact ⟨hstate, hcause⟩

/-! ## Frames that are used (R387 to R390) -/

section
variable {d e : Dev} {s : Side} {r : HaulRx}

theorem out_modQuad (d : Dev) (s : Side) (q : Nat) (f : Quad → Quad) : (d.modQuad s q f).out = d.out := by cases s <;> rfl

theorem relay_stores {first : Nat} {issues : List (List Nat)} (hrec : d.haulReceive s r ftRelay = (e, true)) (hon : e.relayed s = true)
    (hkey : (e.quad s r.quad).keyed = true) : e.quiet (relay s r first issues d) ∧ (∀ o ∈ e.out, o ∈ (relay s r first issues d).out)
      ∧ ((relay s r first issues d).quad s r.quad).rx = (e.quad s r.quad).rx ∧ ∀ k < issues.length, ∃ n,
        tget none ((relay s r first issues d).quad s r.quad).relayed (first + k) = some n
        ∧ ∀ c < 64, (n ^^^ relayStream (e.quad s r.quad).key (first + k)) / 16 ^ c % 16 = (issues.getD k []).getD c 0 % 16 := by
  unfold relay
  rw [hrec]
  dsimp only
  rw [if_neg (by simp [hon, hkey])]
  refine ⟨(posted_modQuad ..).quiet, fun o ho => ?_, by rw [quad_modQuad], fun k hk => ?_⟩
  · rw [out_modQuad]
    exact ho
  · rw [quad_modQuad]
    dsimp only
    rw [tget_entries (fun w j => w ^^^ relayStream (e.quad s r.quad).key (first + j)) first, if_pos (by rw [List.length_map]; omega)]
    refine ⟨_, rfl, fun c hc => ?_⟩
    rw [Nat.xor_assoc, Nat.xor_self, Nat.xor_zero, Nat.sub_zero, ← relayWord_digit _ hc,
      List.getD_eq_getElem _ _ (by rwa [List.length_map]), List.getD_eq_getElem _ _ hk, List.getElem_map]

/-- The last message of the agreement says whether the key is agreed (R389). -/
theorem haulKey_done {ok : Bool} (hrec : d.haulReceive s r ftKey = (e, true)) :
    haulKey s r true ok d = (e.modQuad s r.quad fun x =>
      { x with keyed := ok, key := Config.relayKey e.free, tagged := 0, tagData := [], heard := [] }).draw := by
  unfold haulKey
  rw [hrec]
  rfl

theorem haulKey_answers {ok : Bool} (hrec : d.haulReceive s r ftKey = (e, true)) (hcan : e.canSend s r.quad = true)
    (hinject : (e.quad s r.quad).inject = false) :
    (e.modQuad s r.quad fun x => { x with
        tx := (x.tx + 1) % 256, credits := x.credits - 1, replay := x.replay ++ [(x.tx, ftKey, e.keyWords)] }).Talks (haulKey s r false ok d)
      ∧ ∃ wire, Out.haul s r.quad ftKey ((e.quad s r.quad).tx :: e.keyWords) wire ∈ (haulKey s r false ok d).out := by
  obtain ⟨g, hsend, htalks, hwire⟩ := haulSend_plain ftKey e.keyWords hcan hinject
  unfold haulKey
  rw [hrec]
  dsimp only
  rw [if_neg (by decide), hsend]
  exact ⟨htalks.trans ⟨[], g.free + 1, by rw [List.append_nil]; rfl⟩, hwire⟩

theorem keyWords_length (d : Dev) : 1 ≤ d.keyWords.length ∧ d.keyWords.length ≤ 64 := by
  unfold Dev.keyWords
  rw [List.length_cons, List.length_take]
  omega

end

/-- Settles O37: each sequenced frame by the acknowledgement it gets and the use made of it. -/
theorem haulFrames : Obligations.HaulFrames := by
  unfold Obligations.HaulFrames
  dsimp only
  intro s side rx hpow hcalm hbad hseq hrx hinject
  have hquad := quad_mute s.dev side rx.quad
  have hrx' : s.dev.mute.receiving side rx.quad = true := by
    unfold Dev.receiving
    rw [hquad]
    exact hrx
  have heard {ft : Nat} (hft : s.dev.mute.accepts side rx.quad ft = true) : ∃ e, s.dev.mute.haulReceive side rx ft = (e, true)
      ∧ s.dev.mute.Hears e side rx.quad
      ∧ ∃ wire, Out.haul side rx.quad ftAck [(((s.dev.quad side rx.quad).rx + 1) % 256 + 255) % 256, 1, 0] wire ∈ e.out := by
    obtain ⟨e, hrec, htalks, hack⟩ := haulReceive_good hbad (hseq.trans (by rw [hquad])) hrx' (by rw [hquad]; exact hinject) hft
    rw [hquad] at hack
    exact ⟨e, hrec, hears_of_talks htalks, hack⟩
  have hrelay {ft : Nat} (hmode : s.dev.quadMode side rx.quad = 2) (h : ft = ftRelay ∨ ft = ftRelayTag ∨ ft = ftKey) :
      s.dev.mute.accepts side rx.quad ft = true := by
    unfold Dev.accepts
    exact (if_pos h).trans (decide_eq_true hmode)
  refine ⟨fun first issues hmode hon hkey => ?_, fun first tag hmode hmild hmeek => ?_, fun line hmode hrole hlen hfree hfew hroom => ?_,
    fun hmode => ⟨fun ok => ?_, fun hcan => ?_⟩⟩
  · obtain ⟨e, hrec, hears, hack⟩ := heard (hrelay hmode (.inl rfl))
    have hq := hears.quad
    rw [hquad] at hq
    obtain ⟨hquiet, hout, hnext, hstored⟩ := relay_stores (first := first) (issues := issues) hrec (hears.relayed.trans hon)
      (by rw [hq]; exact hkey)
    refine yields_quiet (f := fun _ d => relay side rx first issues d) rfl hpow hcalm rfl (hears.quiet.trans hquiet) fun t hbare hgrows =>
      ⟨⟨?_, hack.imp fun wire hwire => hgrows.2 _ (hout _ hwire)⟩, ?_⟩
    · rw [quad_of_bare hbare, hnext, hq]
    · rw [quad_of_bare hbare]
      rw [hq] at hstored
      exact hstored
  · obtain ⟨e, hrec, hears, hack⟩ := heard (hrelay hmode (.inr (.inl rfl)))
    have hq := hears.quad
    rw [hquad] at hq
    let e1 := e.modQuad side rx.quad fun x => { x with heard := [] }
    have hout : ∀ o ∈ e.out, o ∈ e1.out := by
      rw [show e1.out = e.out from out_modQuad ..]
      exact fun _ ho => ho
    have hq1 : e1.quad side rx.quad = { s.dev.quad side rx.quad with rx := ((s.dev.quad side rx.quad).rx + 1) % 256, heard := [] } := by
      rw [quad_modQuad, hq]
    have hquiet1 : s.dev.quiet e1 := hears.quiet.trans (posted_modQuad ..).quiet
    have hrow : relayTag side rx first tag s.dev.mute
        = if tag.toNat = relayMac (s.dev.quad side rx.quad).key first (s.dev.quad side rx.quad).heard ∨ s.dev.relayed side = false then e1
          else e1.lateAlarm side := by
      have hon : e1.relayed side = s.dev.relayed side := by
        unfold Dev.relayed Dev.allRelay Dev.quadMode Dev.quadRole
        have hregs : e1.regs = s.dev.regs := Eq.trans (by cases side <;> rfl) hears.regs
        simp only [rf_of_regs hregs]
      unfold relayTag
      rw [hrec]
      dsimp only
      rw [hq, show (e.modQuad side rx.quad fun x => { x with heard := [] }) = e1 from rfl, hon]
      simp only [Bool.not_eq_true']
    by_cases hgood : tag.toNat = relayMac (s.dev.quad side rx.quad).key first (s.dev.quad side rx.quad).heard ∨ s.dev.relayed side = false
    · rw [if_pos hgood] at hrow
      refine yields_quiet (f := fun _ d => relayTag side rx first tag d) rfl hpow hcalm hrow hquiet1 fun t hbare hgrows =>
        ⟨⟨?_, hack.imp fun wire hwire => hgrows.2 _ (hout _ hwire)⟩, ?_, ?_⟩
      · rw [quad_of_bare hbare, hq1]
      · rw [quad_of_bare hbare, hq1]
      · rw [if_pos hgood, hbare]
        refine (bare_modQuad (hears.bare.trans (bare_modQuad_mute ..)) ..).trans ?_
        rw [modQuad_modQuad]
    · rw [if_neg hgood] at hrow
      have hpages : e1.pages = s.dev.pages := Eq.trans (by cases side <;> rfl) hears.pages
      have hmild1 : e1.mild side blkXts 0 := mild_of_severity (by rw [page_of_pages hpages]) (by rw [page_of_pages hpages]) hmild
      obtain ⟨hhush, hmeek1, hpow1, hquads, hends⟩ := lateAlarm_spec hmild1 (meek_of_pages hpages hmeek)
      refine yields_ending (f := fun _ d => relayTag side rx first tag d) rfl hpow hcalm hrow ?_ (hquiet1.hush.trans hhush) hmeek1
        fun t hbare hgrows => ?_
      · rw [hpow1, show e1.powered = e.powered from powered_mod .., hears.powered]
        exact hpow
      · have hsans := (sans_of_bare hbare).trans (sans_journaled _)
        have hq2 := (quad_of_sans hsans side rx.quad).trans ((hquads _).trans hq1)
        refine ⟨⟨by rw [hq2], hack.imp fun wire hwire => hgrows.2 _ ((lateAlarm_grows ..).2 _ (hout _ hwire))⟩, by rw [hq2], ?_⟩
        rw [if_neg hgood]
        intro hb
        have hface : (e1.half side).face = (s.dev.half side).face := by
          rw [show e1.half side = _ from half_mod_same .., hears.half, half_mute]
        obtain ⟨hstate, hcause⟩ := hends (by rw [hface]; exact hb)
        rw [face_of_sans hsans]
        exact ⟨hstate, hcause⟩
  · have hft : s.dev.mute.accepts side rx.quad ftSpoil = true := decide_eq_true hmode
    obtain ⟨e, hrec, hears, hack⟩ := heard hft
    have hq := hears.quad
    rw [hquad] at hq
    have hhalf := hears.half
    rw [half_mute] at hhalf
    have hfree' : 64 ≤ e.reserveFree side := by
      unfold Dev.reserveFree at hfree ⊢
      rw [rf_of_regs hears.regs, hhalf]
      exact hfree
    have hrx (h : HaulSt) (x : Quad) : (h.setQuad rx.quad x).spoilRx = h.spoilRx := by
      match rx.quad with
      | 0 | 1 | 2 | 3 => rfl
    obtain ⟨hquiet, hout, hsame, hface, hstored⟩ := spoil_stores hrec ((rf_of_regs hears.regs ..).trans hrole) hlen hfree' (by rw [hhalf]; exact hfew)
      fun id hid => by
        rw [hhalf] at hid ⊢
        exact hroom id ((hrx ..).symm.trans hid)
    refine yields_quiet (f := fun _ d => spoil side rx line d) rfl hpow hcalm rfl (hears.quiet.trans hquiet) fun t hbare hgrows =>
      ⟨⟨?_, hack.imp fun wire hwire => hgrows.2 _ (hout.2 _ hwire)⟩, ?_⟩
    · rw [quad_of_bare hbare, hsame, hq]
    · obtain ⟨tsk, heq⟩ := half_eq_of_bare hbare side
      obtain ⟨id, f, hid, hfile, hread⟩ := hstored
      obtain ⟨hlow, hbody, htag⟩ := hread
      rw [heq]
      exact ⟨id, f, hid, hfile, hlow, hbody, htag, hface.trans (by rw [hhalf])⟩
  · obtain ⟨e, hrec, hears, hack⟩ := heard (hrelay hmode (.inr (.inr rfl)))
    have hq := hears.quad
    rw [hquad] at hq
    refine yields_quiet (f := fun _ d => haulKey side rx true ok d) rfl hpow hcalm (haulKey_done hrec)
      (hears.quiet.trans ((posted_modQuad ..).quiet.trans (quiet_draw _))) fun t hbare hgrows => ?_
    have hq2 := quad_of_bare hbare side rx.quad
    rw [Dev.quad, Dev.quad, half_draw, ← Dev.quad, ← Dev.quad, quad_modQuad, hq] at hq2
    refine ⟨⟨by rw [hq2], hack.imp fun wire hwire => hgrows.2 _ ((grows_draw _).2 _ ?_)⟩, by rw [hq2]⟩
    rw [out_modQuad]
    exact hwire
  · obtain ⟨e, hrec, hears, hack⟩ := heard (hrelay hmode (.inr (.inr rfl)))
    have hq := hears.quad
    rw [hquad] at hq
    have hcan' : e.canSend side rx.quad = true := by
      unfold Dev.canSend at hcan ⊢
      rw [hq, hears.safe]
      exact hcan
    obtain ⟨htalks, wire, hsent⟩ := haulKey_answers (ok := true) hrec hcan' (by rw [hq]; exact hinject)
    rw [hq] at hsent
    refine yields_quiet (f := fun _ d => haulKey side rx false true d) rfl hpow hcalm rfl
      (hears.quiet.trans ((posted_modQuad ..).quiet.trans htalks.quiet)) fun t hbare hgrows => ?_
    have hq2 := quad_of_bare hbare side rx.quad
    rw [htalks.quad, quad_modQuad, hq] at hq2
    refine ⟨⟨by rw [hq2], hack.imp fun wire hwire => hgrows.2 _ (htalks.out _ ?_)⟩, by rw [hq2], by rw [hq2],
      e.keyWords, wire, (keyWords_length e).1, (keyWords_length e).2, hgrows.2 _ hsent⟩
    rw [out_modQuad]
    exact hwire

end Sys2Proof.Machine
end

section
/-! PROOFS. Firmware: boot of both dies, and a reload (chapter 16). -/
namespace Sys2Proof.Machine
open Sys2Proof.Safety

/-! ## The start of firmware (R412, R413)

Its long start-up leaves the bare task units, the patch units, the SAFE net and the clocks, and its fault pages only grow. -/

/-- What the start-up that follows a T-die's boot ROM leaves. -/
def Dev.booted (d : Dev) : TskSt × TskSt × (Nat → Rg → Nat → Word) × SafeSt × ClkSt :=
  (d.west.tsk.bare, d.east.tsk.bare, patchWords d.regs, d.safe, d.clk)

/-- One step of the start-up. -/
structure Dev.Boots (d e : Dev) : Prop where
  same : e.booted = d.booted
  grows : d.grows e

theorem Dev.Boots.refl (d : Dev) : d.Boots d := ⟨rfl, .refl d⟩

theorem Dev.Boots.trans {d e f : Dev} (h : d.Boots e) (k : e.Boots f) : d.Boots f := ⟨k.same.trans h.same, h.grows.trans k.grows⟩

theorem booted_of_firm {d e : Dev} (h : e.firm = d.firm) (hclk : e.clk = d.clk) : e.booted = d.booted := by
  have hsafe := congrArg (fun x => x.2.1) h
  have htsk := congrArg (fun x => x.1.1.2) h
  simp only [Dev.firm, Dev.stay, Prod.mk.injEq] at htsk hsafe
  obtain ⟨hw, he, hp⟩ := htsk
  simp only [Dev.booted, hw, he, hp, hsafe, hclk]

theorem boots_foldl {α : Type} (l : List α) (f : Dev → α → Dev) (h : ∀ (d : Dev) x, x ∈ l → d.Boots (f d x)) (d : Dev) : d.Boots (l.foldl f d) := by
  induction l generalizing d with
  | nil => exact .refl d
  | cons x l ih => exact (h d x (List.mem_cons_self ..)).trans (ih (fun d y hy => h d y (List.mem_cons_of_mem _ hy)) _)

theorem boots_times (f : Dev → Dev) (h : ∀ d : Dev, d.Boots (f d)) (n : Nat) (d : Dev) : d.Boots (Dev.times f n d) := by
  induction n generalizing d with
  | zero => exact .refl d
  | succ n ih => exact (h d).trans (ih _)

theorem boots_setRg (d : Dev) (n : Nat) {r : Rg} {i : Nat} (v : Word) (hr : keptReg r = false) (hi : i < 8192) : d.Boots (d.setRg n r i v) :=
  ⟨booted_of_firm (firm_setRg d n v hr hi) rfl, grows_setRg ..⟩

theorem boots_bump (d : Dev) (n : Nat) {r : Rg} {i : Nat} (hi lo k : Nat) (hr : keptReg r = false) (h : i < 8192) :
    d.Boots (d.bump n r i hi lo k) := boots_setRg d n _ hr h

theorem clk_of_bare {d e : Dev} (h : d.bare = e.bare) : d.clk = e.clk := by
  have hclk := congrArg Dev.clk h
  exact hclk

theorem boots_raise (d : Dev) (s : Side) (b i : Nat) : d.Boots (d.raise s b i) :=
  ⟨booted_of_firm (firm_raise ..) (clk_of_bare (bare_raise ..)), grows_raise ..⟩

theorem boots_mod (d : Dev) (s : Side) (f : Half → Half) (h : ∀ x, (f x).tsk.bare = x.tsk.bare) : d.Boots (d.mod s f) := by
  refine ⟨?_, grows_mod ..⟩
  cases s <;> simp [Dev.mod, Dev.setHalf, Dev.half, Dev.booted, h]

theorem boots_setLarder (d : Dev) (l : LdrSt) (g : DbgSt) : d.Boots { d with ldr := l, dbg := g } := ⟨rfl, grows_of_eq rfl rfl⟩

theorem boots_correction (d : Dev) (s : Side) (b i : Nat) : d.Boots (d.correction s b i) := by
  unfold Dev.correction
  extract_lets p lv p1 p2
  split
  · exact boots_raise ..
  · have hpage : p2.active = p.active ∧ p2.enable = p.enable ∧ p2.src = p.src := by
      simp only [p2]
      split <;> exact ⟨rfl, rfl, rfl⟩
    obtain ⟨hactive, henable, hsrc⟩ := hpage
    exact ⟨rfl, grows_setPage _ _ _ _ hactive henable fun i h => by rw [hsrc]; exact h⟩

/-! ### The Larder, remaps, keys and tables -/

theorem boots_putHeaders (d : Dev) (l : List Nat) : d.Boots (d.putHeaders l) := boots_setLarder d d.ldr _

theorem boots_ldrStart (d : Dev) : d.Boots d.ldrStart := by
  unfold Dev.ldrStart
  extract_lets m refused hd x ldr d1 d2 d3 d4
  have h1 : d.Boots d1 := boots_setLarder d _ d.dbg
  have h2 : d1.Boots d2 := by
    simp only [d2]
    clear_value d1
    split
    · exact .refl d1
    · exact boots_putHeaders ..
  have h3 : d2.Boots d3 := boots_times (fun d => (d.bump 0 .ldrLost).raise .w blkAon 9)
    (fun d => (boots_bump d 0 31 0 1 (by decide) (by decide)).trans (boots_raise ..)) ..
  have h4 : d3.Boots d4 := boots_times (fun d => d.correction .w blkAon 8) (fun d => boots_correction ..) ..
  have hall := ((h1.trans h2).trans h3).trans h4
  clear_value d4
  split
  · exact hall
  · exact hall.trans (boots_bump d4 0 31 0 refused (by decide) (by decide))

theorem boots_loadRemaps (d : Dev) : d.Boots d.loadRemaps := by
  unfold Dev.loadRemaps
  extract_lets entries one
  have hone (d : Dev) (s : Side) : d.Boots (one d s) := boots_mod d s _ fun _ => rfl
  exact (hone d .w).trans (hone _ .e)

theorem boots_loadSlots (d : Dev) : d.Boots d.loadSlots := ⟨rfl, grows_of_eq rfl rfl⟩

theorem boots_loadBoot (d : Dev) : d.Boots d.loadBoot := by
  unfold Dev.loadBoot
  split
  · exact boots_setRg _ _ _ (by decide) (by decide)
  · exact .refl d

theorem boots_loadTables (d : Dev) (s : Side) : d.Boots (d.loadTables s) := by
  unfold Dev.loadTables
  extract_lets one d1 d2
  have hone (d : Dev) (k : Nat) : d.Boots (one d k) := by
    simp only [one]
    split
    · split
      · exact boots_mod d s _ fun _ => rfl
      · exact boots_raise ..
    · exact boots_raise ..
  have h1 : d.Boots d1 := boots_mod d s _ fun _ => rfl
  have h2 : d1.Boots d2 := (hone d1 0).trans (hone _ 1)
  clear_value d2
  exact (h1.trans h2).trans (boots_mod d2 s _ fun _ => rfl)

theorem boots_loadSafe (d : Dev) (s : Side) : d.Boots (d.loadSafe s true) := by
  unfold Dev.loadSafe
  split
  · dsimp only
    rw [if_neg (by decide)]
    refine (boots_foldl _ _ (fun d n hn => boots_setRg _ _ _ (by decide) ?_) d).trans (boots_foldl _ _ (fun d i hi => ?_) _)
    · rw [List.mem_range] at hn
      omega
    · rw [List.mem_range] at hi
      exact (boots_setRg _ _ _ (by decide) (by omega)).trans (boots_setRg _ _ _ (by decide) (by omega))
  · exact .refl d

theorem boots_setCfg (d : Dev) (c : CfgSt) : d.Boots { d with cfg := c } := ⟨rfl, grows_of_eq rfl rfl⟩

theorem boots_scanSlots (d : Dev) (life : Life) (ident : Word × Nat × Word) : d.Boots (d.scanSlots life ident) := by
  unfold Dev.scanSlots
  exact (boots_setCfg d _).trans (boots_setCfg _ _)

/-- Everything between the boot ROM and training. -/
theorem boots_startUp (d : Dev) (life : Life) (ident : Word × Nat × Word) :
    d.Boots (((d.ldrStart.loadRemaps.loadSlots.loadBoot.loadTables .w).loadSafe .w true).scanSlots life ident) :=
  (boots_ldrStart d).trans <| (boots_loadRemaps _).trans <| (boots_loadSlots _).trans <| (boots_loadBoot _).trans <|
    (boots_loadTables _ .w).trans <| (boots_loadSafe _ .w).trans <| boots_scanSlots ..


/-! ### The patch units (R422, R423) -/

/-- The patch units of a die as the patch set of the flash leaves them, or as a set that does not verify does. -/
def Dev.patchedFrom (d : Dev) (enable : BitVec 16) (s : Side) (set : Option (List (Nat × BitVec 64))) (u : Nat) : Prop :=
  match set with
  | none => d.rg s.code .tskPatchAddr u = 0 ∧ (enable.getLsbD 4 = true → (d.page s blkTsk).src.getLsbD 4 = true)
  | some l => match l[u]? with
    | none => d.rg s.code .tskPatchAddr u = 0
    | some p => (d.rg s.code .tskPatchAddr u).getLsbD 31 = true ∧ d.rf s.code .tskPatchAddr u 19 3 = p.1 / 8 % 2 ^ 17
      ∧ d.rg s.code .tskPatchHi u ++ d.rg s.code .tskPatchLo u = p.2

/-- The patch units stay as applied. -/
theorem Dev.patchedFrom.mono {d e : Dev} {enable : BitVec 16} {s : Side} {set : Option (List (Nat × BitVec 64))} {u : Nat}
    (h : d.patchedFrom enable s set u) (hw : patchWords e.regs = patchWords d.regs) (hg : d.grows e) (hu : u < 8192) :
    e.patchedFrom enable s set u := by
  have hrg {r : Rg} (hr : patchReg r = true) : e.rg s.code r u = d.rg s.code r u := by
    have hword := congrFun (congrFun (congrFun hw s.code) r) u
    simp only [patchWords, hr, hu, and_self, if_true] at hword
    exact hword
  have haddr := hrg (show patchReg .tskPatchAddr = true by decide)
  have hlo := hrg (show patchReg .tskPatchLo = true by decide)
  have hhi := hrg (show patchReg .tskPatchHi = true by decide)
  unfold Dev.patchedFrom Dev.rf at h ⊢
  rw [haddr, hlo, hhi]
  split at h
  · exact ⟨h.1, fun hen => (hg.1 s blkTsk).2.2 4 (h.2 hen)⟩
  · exact h

/-- A write of all three registers of a patch unit. -/
def Dev.setPatch (d : Dev) (s : Side) (u : Nat) (p : Nat × BitVec 64) : Dev :=
  ((d.setRg s.code .tskPatchAddr u (pack [(31, 1), (3, p.1 / 8 % 2 ^ 17)])).setRg s.code .tskPatchLo u (p.2.truncate 32)).setRg
    s.code .tskPatchHi u (BitVec.ofNat 32 (p.2.toNat / 2 ^ 32))

theorem setPatch_same (d : Dev) (s : Side) {u : Nat} (p : Nat × BitVec 64) (hu : u < 8192) :
    (d.setPatch s u p).rg s.code .tskPatchAddr u = pack [(31, 1), (3, p.1 / 8 % 2 ^ 17)]
      ∧ (d.setPatch s u p).rg s.code .tskPatchLo u = p.2.truncate 32
      ∧ (d.setPatch s u p).rg s.code .tskPatchHi u = BitVec.ofNat 32 (p.2.toNat / 2 ^ 32) := by
  have hne {r q : Rg} (h : r ≠ q) : regKey s.code r u ≠ regKey s.code q u := fun k => h ((regKey_inj hu hu).mp k).2.1
  unfold Dev.setPatch
  refine ⟨?_, ?_, rg_setRg_same ..⟩
  · rw [rg_setRg_ne _ _ (hne (by decide)), rg_setRg_ne _ _ (hne (by decide)), rg_setRg_same]
  · rw [rg_setRg_ne _ _ (hne (by decide)), rg_setRg_same]

theorem setPatch_other (d : Dev) (s : Side) {u : Nat} (p : Nat × BitVec 64) (hu : u < 8192) (n : Nat) (r : Rg) {i : Nat} (hi : i < 8192)
    (h : patchReg r = false ∨ i ≠ u) : (d.setPatch s u p).rg n r i = d.rg n r i := by
  have hne {q : Rg} (hq : patchReg q = true) : regKey n r i ≠ regKey s.code q u := fun k => by
    obtain ⟨-, hrq, hiu⟩ := (regKey_inj hi hu).mp k
    rcases h with h | h
    · rw [hrq, hq] at h
      exact absurd h (by decide)
    · exact h hiu
  unfold Dev.setPatch
  rw [rg_setRg_ne _ _ (hne (by decide)), rg_setRg_ne _ _ (hne (by decide)), rg_setRg_ne _ _ (hne (by decide))]

/-- A patch set that is applied from unit n on. -/
theorem patches_foldl (s : Side) (l : List (Nat × BitVec 64)) (n : Nat) (d : Dev) (hl : n + l.length ≤ 16) :
    let e := (l.zipIdx n).foldl (fun d p => d.setPatch s p.2 p.1) d
    (∀ m r i, i < 8192 → (patchReg r = false ∨ i < n ∨ n + l.length ≤ i) → e.rg m r i = d.rg m r i)
      ∧ ∀ u p, l[u]? = some p → e.rg s.code .tskPatchAddr (n + u) = pack [(31, 1), (3, p.1 / 8 % 2 ^ 17)]
        ∧ e.rg s.code .tskPatchLo (n + u) = p.2.truncate 32 ∧ e.rg s.code .tskPatchHi (n + u) = BitVec.ofNat 32 (p.2.toNat / 2 ^ 32) := by
  dsimp only
  induction l generalizing n d with
  | nil => exact ⟨fun _ _ _ _ _ => rfl, nofun⟩
  | cons x l ih =>
    rw [List.length_cons] at hl
    obtain ⟨hother, hset⟩ := ih (n + 1) (d.setPatch s n x) (by omega)
    rw [List.zipIdx_cons, List.foldl_cons]
    dsimp only
    refine ⟨fun m r i hi h => ?_, fun u p hp => ?_⟩
    · rw [List.length_cons] at h
      rw [hother m r i hi (h.imp_right fun h => by omega), setPatch_other d s x (by omega) m r hi (h.imp_right fun h => by omega)]
    · cases u with
      | zero =>
        obtain rfl : x = p := by simpa using hp
        obtain ⟨haddr, hlo, hhi⟩ := setPatch_same d s x (show n < 8192 by omega)
        simp only [Nat.add_zero]
        rw [hother _ _ n (by omega) (.inr (.inl (by omega))), hother _ _ n (by omega) (.inr (.inl (by omega))),
          hother _ _ n (by omega) (.inr (.inl (by omega)))]
        exact ⟨haddr, hlo, hhi⟩
      | succ u =>
        have hnext := hset u p (by simpa using hp)
        rw [show n + 1 + u = n + (u + 1) by omega] at hnext
        exact hnext

theorem clearPatches_rg (d : Dev) (s : Side) (n : Nat) (r : Rg) {i : Nat} (hi : i < 8192) :
    (((d.resetRg s.code .tskPatchAddr).resetRg s.code .tskPatchLo).resetRg s.code .tskPatchHi).rg n r i
      = if n = s.code ∧ patchReg r = true then regDefault (regKey n r i) else d.rg n r i := by
  rw [rg_resetRg _ _ _ _ _ hi, rg_resetRg _ _ _ _ _ hi, rg_resetRg _ _ _ _ _ hi]
  have hr : patchReg r = true ↔ r = .tskPatchAddr ∨ r = .tskPatchLo ∨ r = .tskPatchHi := by simp [patchReg]
  simp only [hr]
  split_ifs <;> simp_all

theorem applyPatches_some (d : Dev) (s : Side) (l : List (Nat × BitVec 64)) : d.applyPatches s (some l)
    = l.zipIdx.foldl (fun d p => d.setPatch s p.2 p.1) (((d.resetRg s.code .tskPatchAddr).resetRg s.code .tskPatchLo).resetRg s.code .tskPatchHi) := rfl

theorem applyPatches_rg (d : Dev) (s : Side) {set : Option (List (Nat × BitVec 64))} (hset : ∀ l ∈ set, l.length ≤ 16) (n : Nat) {r : Rg} {i : Nat}
    (hr : patchReg r = false) (hi : i < 8192) : (d.applyPatches s set).rg n r i = d.rg n r i := by
  have hclear := clearPatches_rg d s n r hi
  rw [if_neg (by simp [hr])] at hclear
  cases set with
  | none =>
    refine Eq.trans ?_ hclear
    exact rg_of_regs (regs_of_bare (bare_raise ..)) n r i
  | some l =>
    rw [applyPatches_some, (patches_foldl s l 0 _ (by have := hset l rfl; omega)).1 n r i hi (.inl hr)]
    exact hclear

theorem regDefault_patch (n : Nat) {i : Nat} (hi : i < 8192) : regDefault (regKey n .tskPatchAddr i) = 0 := by
  obtain ⟨x, hx, hreg⟩ : ∃ x ∈ allRegs, x.reg = .tskPatchAddr := by decide
  rw [← hreg, regDefault_regKey hx hi, hreg, resetVal_index (by decide) i 0]
  rfl

theorem patchAddr_fields (k : Nat) : (pack [(31, 1), (3, k % 2 ^ 17)]).getLsbD 31 = true ∧ fld (pack [(31, 1), (3, k % 2 ^ 17)]) 19 3 = k % 2 ^ 17 := by
  have hnat : (pack [(31, 1), (3, k % 2 ^ 17)]).toNat = 2 ^ 31 + k % 2 ^ 17 * 8 := by
    simp only [pack, List.foldl_cons, List.foldl_nil, BitVec.toNat_ofNat]
    omega
  refine ⟨?_, ?_⟩
  · rw [BitVec.getLsbD, hnat, Nat.testBit_eq_decide_div_mod_eq, decide_eq_true_eq]
    omega
  · rw [fld, hnat]
    omega

theorem words_append (w : BitVec 64) : BitVec.ofNat 32 (w.toNat / 2 ^ 32) ++ w.truncate 32 = w := by
  have hw := w.isLt
  refine BitVec.eq_of_toNat_eq ?_
  rw [BitVec.toNat_append, BitVec.toNat_ofNat, BitVec.truncate_eq_setWidth, BitVec.toNat_setWidth, Nat.mod_eq_of_lt (by omega),
    ← Nat.shiftLeft_add_eq_or_of_lt (Nat.mod_lt _ (by decide)), Nat.shiftLeft_eq]
  omega

/-- What the boot ROM makes of the patch units (R423). -/
theorem applyPatches_spec (d : Dev) (s : Side) {set : Option (List (Nat × BitVec 64))} (hset : ∀ l ∈ set, l.length ≤ 16) {u : Nat} (hu : u < 8192) :
    (d.applyPatches s set).patchedFrom (d.page s blkTsk).enable s set u := by
  have hclear := clearPatches_rg d s s.code .tskPatchAddr hu
  rw [if_pos ⟨rfl, by decide⟩, regDefault_patch _ hu] at hclear
  cases set with
  | none =>
    refine ⟨Eq.trans (rg_of_regs (regs_of_bare (bare_raise ..)) ..) hclear, fun hen => ?_⟩
    exact raise_src _ s blkTsk 4 (fun h => absurd h.2 (by decide)) (by decide) (by decide) hen
  | some l =>
    obtain ⟨hother, hin⟩ := patches_foldl s l 0 (((d.resetRg s.code .tskPatchAddr).resetRg s.code .tskPatchLo).resetRg s.code .tskPatchHi)
      (by have := hset l rfl; omega)
    unfold Dev.patchedFrom
    rw [applyPatches_some]
    dsimp only
    cases hl : l[u]? with
    | none =>
      dsimp only
      rw [hother _ _ u hu (.inr (.inr (by rw [Nat.zero_add]; exact List.getElem?_eq_none_iff.mp hl)))]
      exact hclear
    | some p =>
      have hp := hin u p hl
      rw [Nat.zero_add] at hp
      obtain ⟨haddr, hlo, hhi⟩ := hp
      obtain ⟨hen, hfld⟩ := patchAddr_fields (p.1 / 8)
      dsimp only
      rw [Dev.rf, haddr, hlo, hhi]
      exact ⟨hen, hfld, words_append p.2⟩

/-! ### The boot ROM (R412, R415) -/

theorem patchSet_length (d : Dev) (key : Nat) (image : List Byte) : ∀ l ∈ d.patchSet key image, l.length ≤ 16 := by
  unfold Dev.patchSet
  dsimp only
  intro l hl
  split at hl
  · obtain rfl := Option.some.inj hl
    rw [List.length_map, List.length_range]
    exact Nat.min_le_left ..
  · cases hl

theorem patchSet_of_flash {d e : Dev} (h : e.dbg = d.dbg) (key : Nat) (image : List Byte) : e.patchSet key image = d.patchSet key image := by
  unfold Dev.patchSet
  rw [h]

theorem imageBytes_of_image {t u : TskSt} (h : t.image = u.image) : t.imageBytes = u.imageBytes := by
  unfold TskSt.imageBytes
  rw [h]

theorem half_resetRg (d : Dev) (n : Nat) (r : Rg) (s : Side) : (d.resetRg n r).half s = d.half s := by cases s <;> rfl

theorem half_setReg (d : Dev) (n : Nat) (r : Rg) (i : Nat) (v : Word) (s : Side) : (d.setRg n r i v).half s = d.half s := by cases s <;> rfl

theorem tsk_applyPatches (d : Dev) (s s' : Side) (set : Option (List (Nat × BitVec 64))) :
    ((d.applyPatches s set).half s').tsk.bare = (d.half s').tsk.bare := by
  have hclear : (((d.resetRg s.code .tskPatchAddr).resetRg s.code .tskPatchLo).resetRg s.code .tskPatchHi).half s' = d.half s' := by
    rw [half_resetRg, half_resetRg, half_resetRg]
  have hset (l : List (Nat × BitVec 64)) (n : Nat) (e : Dev) : ((l.zipIdx n).foldl (fun d p => d.setPatch s p.2 p.1) e).half s' = e.half s' := by
    induction l generalizing n e with
    | nil => rfl
    | cons x l ih =>
      rw [List.zipIdx_cons, List.foldl_cons, ih, Dev.setPatch, half_setReg, half_setReg, half_setReg]
  cases set with
  | none => exact (tsk_of_stay (stay_of_firm (firm_raise ..)) s').trans (by rw [hclear])
  | some l => rw [applyPatches_some, hset, hclear]

/-- A task unit of a T-die into whose firmware region the boot ROM copied a slot. -/
def TskSt.copied (t : TskSt) (d : Dev) (slot : Nat) : TskSt := { t with image := d.slotImage slot, slot := slot, version := d.slotVersion slot }

/-- The patch set that the boot ROM finds for a slot. -/
def Dev.slotPatches (d : Dev) (key slot : Nat) : Option (List (Nat × BitVec 64)) :=
  d.patchSet key ({ image := d.slotImage slot } : TskSt).imageBytes

theorem loadFirmware_spec (d : Dev) (key : Nat) (s : Side) (slot : Nat) :
    (∀ u < 8192, (d.loadFirmware key s slot).patchedFrom (d.page s blkTsk).enable s (d.slotPatches key slot) u)
      ∧ (∀ c < 8192, (d.loadFirmware key s slot).wdogMax s c = d.wdogMax s c)
      ∧ ((d.loadFirmware key s slot).half s).tsk.bare = ((d.half s).tsk.copied d slot).bare := by
  unfold Dev.loadFirmware
  dsimp only
  generalize hd1 : (d.mod s fun h => { h with
    upper := tdropRange h.upper 0xA00000 0xB00000
    tsk := { h.tsk with image := d.slotImage slot, slot := slot, version := d.slotVersion slot } }) = d1
  have htsk : (d1.half s).tsk = (d.half s).tsk.copied d slot := by
    rw [← hd1, half_mod_same]
    rfl
  have hdbg : d1.dbg = d.dbg := by
    rw [← hd1]
    cases s <;> rfl
  have hpages : d1.pages = d.pages := by
    rw [← hd1]
    cases s <;> rfl
  have hregs : d1.regs = d.regs := by
    rw [← hd1]
    cases s <;> rfl
  have hset : d1.patchSet key (d1.half s).tsk.imageBytes = d.slotPatches key slot := by
    rw [patchSet_of_flash hdbg, htsk]
    exact congrArg _ (imageBytes_of_image rfl)
  have hlen := patchSet_length d1 key (d1.half s).tsk.imageBytes
  rw [hset] at hlen ⊢
  refine ⟨fun u hu => ?_, fun c hc => ?_, ?_⟩
  · have hspec := applyPatches_spec d1 s hlen hu
    rw [page_of_pages hpages] at hspec
    exact hspec
  · exact congrArg (fld · 31 16) ((applyPatches_rg d1 s hlen s.code (by decide) hc).trans (rg_of_regs hregs ..))
  · rw [tsk_applyPatches, htsk]

/-- A T-die whose boot ROM has run: its task unit is changed, its cores start, and the image's hash is ready. -/
def Dev.romStarts (d : Dev) (key : Nat) (s : Side) (slot : Nat) (f : TskSt → TskSt) : Dev :=
  (((d.loadFirmware key s slot).mod s fun h => h.modTsk f).startCores s).rehash s

theorem tsk_startCores (d : Dev) (s : Side) : (∀ c : Fin 4, ((d.startCores s).half s).tsk.core c
      = { on := true, task := some c, wdog := d.wdogMax s c, from_ := (d.half s).tsk.tick })
    ∧ ((d.startCores s).half s).tsk.started = (d.half s).tsk.started ∧ ((d.startCores s).half s).tsk.slot = (d.half s).tsk.slot
    ∧ ((d.startCores s).half s).tsk.version = (d.half s).tsk.version ∧ ((d.startCores s).half s).tsk.image = (d.half s).tsk.image
    ∧ ((d.startCores s).half s).tsk.reload = (d.half s).tsk.reload := by
  unfold Dev.startCores
  rw [half_mod_same]
  refine ⟨fun c => ?_, rfl, rfl, rfl, rfl, rfl⟩
  match c with
  | 0 | 1 | 2 | 3 => rfl

theorem romStarts_spec (d : Dev) (key : Nat) (s : Side) (slot : Nat) (f : TskSt → TskSt) :
    let e := d.romStarts key s slot f
    (∀ u < 8192, e.patchedFrom (d.page s blkTsk).enable s (d.slotPatches key slot) u)
      ∧ (∀ c : Fin 4, ((e.half s).tsk.core c).on = true ∧ ((e.half s).tsk.core c).halted = false
        ∧ ((e.half s).tsk.core c).wdog = d.wdogMax s c)
      ∧ ∃ x : TskSt, x.bare = ((d.half s).tsk.copied d slot).bare ∧ (e.half s).tsk.started = (f x).started ∧ (e.half s).tsk.slot = (f x).slot
        ∧ (e.half s).tsk.version = (f x).version ∧ (e.half s).tsk.image = (f x).image ∧ (e.half s).tsk.reload = (f x).reload := by
  obtain ⟨hpatch, hmax, hbare⟩ := loadFirmware_spec d key s slot
  dsimp only
  unfold Dev.romStarts
  generalize d.loadFirmware key s slot = d1 at hpatch hmax hbare
  generalize hd2 : (d1.mod s fun h => h.modTsk f) = d2
  have htsk2 : (d2.half s).tsk = f (d1.half s).tsk := by
    rw [← hd2, half_mod_same]
    rfl
  have hregs2 : d2.regs = d1.regs := by
    rw [← hd2]
    cases s <;> rfl
  have hgrows2 : d1.grows d2 := hd2 ▸ grows_mod ..
  obtain ⟨hcores, hstarted, hslot, hversion, himage, hreload⟩ := tsk_startCores d2 s
  have hregs3 : (d2.startCores s).regs = d2.regs := by cases s <;> rfl
  have hgrows3 : d2.grows (d2.startCores s) := grows_mod ..
  generalize d2.startCores s = d3 at hcores hstarted hslot hversion himage hreload hregs3 hgrows3
  have hregs4 : (d3.rehash s).regs = d3.regs := by cases s <;> rfl
  have hhash : ∃ n, ((d3.rehash s).half s).tsk = { (d3.half s).tsk with hash := n, hashing := false } := by
    refine ⟨Config.sha384 (d3.patchedImage s), ?_⟩
    unfold Dev.rehash
    rw [half_mod_same]
    rfl
  obtain ⟨n, hrehash⟩ := hhash
  refine ⟨fun u hu => (hpatch u hu).mono (by rw [hregs4, hregs3, hregs2]) ((hgrows2.trans hgrows3).trans (grows_mod ..)) hu, fun c => ?_,
    (d1.half s).tsk, hbare, ?_, ?_, ?_, ?_, ?_⟩
  · have hcore : ((d3.rehash s).half s).tsk.core c = (d3.half s).tsk.core c := by
      rw [hrehash]
      match c with
      | 0 | 1 | 2 | 3 => rfl
    have hc : d2.wdogMax s c = d.wdogMax s c := (rf_of_regs hregs2 ..).trans (hmax c (by omega))
    rw [hcore, hcores c]
    exact ⟨rfl, rfl, hc⟩
  all_goals rw [hrehash]
  · rw [← htsk2]; exact hstarted
  · rw [← htsk2]; exact hslot
  · rw [← htsk2]; exact hversion
  · rw [← htsk2]; exact himage
  · rw [← htsk2]; exact hreload

/-! ### The rows on firmware -/

theorem ran_of_bare {t u : TskSt} (h : t.bare = u.bare) : t.started = u.started ∧ t.slot = u.slot ∧ t.version = u.version ∧ t.image = u.image
    ∧ t.reload = u.reload ∧ ∀ c : Fin 4, (t.core c).on = (u.core c).on ∧ (t.core c).halted = (u.core c).halted ∧ (t.core c).wdog = (u.core c).wdog := by
  have field {α : Type} (f : TskSt → α) (hf : ∀ x : TskSt, f x.bare = f x) : f t = f u := by rw [← hf, h, hf]
  refine ⟨field TskSt.started fun _ => rfl, field TskSt.slot fun _ => rfl, field TskSt.version fun _ => rfl, field TskSt.image fun _ => rfl,
    field TskSt.reload fun _ => rfl, fun c => ⟨field (fun x => (x.core c).on) ?_, field (fun x => (x.core c).halted) ?_,
    field (fun x => (x.core c).wdog) ?_⟩⟩
  all_goals
    intro x
    match c with
    | 0 | 1 | 2 | 3 => rfl

/-- A T-die that runs the firmware of a slot with its patch set, every core with its watchdog at MAX. -/
def Dev.runs (d e : Dev) (key : Nat) (s : Side) (slot : Nat) : Prop :=
  (∀ u < 8192, e.patchedFrom (d.page s blkTsk).enable s (d.slotPatches key slot) u)
    ∧ ∀ c : Fin 4, ((e.half s).tsk.core c).on = true ∧ ((e.half s).tsk.core c).halted = false ∧ ((e.half s).tsk.core c).wdog = d.wdogMax s c

theorem Dev.runs.mono {d e t : Dev} {key : Nat} {s : Side} {slot : Nat} (h : d.runs e key s slot)
    (htsk : (t.half s).tsk.bare = (e.half s).tsk.bare) (hw : patchWords t.regs = patchWords e.regs) (hg : e.grows t) : d.runs t key s slot := by
  obtain ⟨-, -, -, -, -, hcores⟩ := ran_of_bare htsk
  refine ⟨fun u hu => (h.1 u hu).mono hw hg hu, fun c => ?_⟩
  obtain ⟨hon, hhalted, hwdog⟩ := hcores c
  rw [hon, hhalted, hwdog]
  exact h.2 c

theorem tsk_of_booted {d e : Dev} (h : e.booted = d.booted) (s : Side) : (e.half s).tsk.bare = (d.half s).tsk.bare := by
  simp only [Dev.booted, Prod.mk.injEq] at h
  obtain ⟨hw, he, -⟩ := h
  cases s
  · exact hw
  · exact he

theorem booted_mute (d : Dev) : d.mute.booted = d.booted := rfl

/-- The boot ROM of a running module's TW whose firmware has not started works. -/
theorem bootRom_works {d : Dev} (hpow : d.powered = true) (hoff : d.west.tsk.started = false) (hstuck : d.west.stuck.getLsbD blkTsk = false) :
    ¬ ((d.clk.power ≠ .starting ∧ d.clk.power ≠ .run) ∨ d.west.tsk.started = true ∨ d.west.stuck.getLsbD blkTsk = true) := by
  unfold Dev.powered at hpow
  simp only [Bool.and_eq_true, Bool.or_eq_true, decide_eq_true_eq] at hpow
  simp only [hoff, hstuck, Bool.false_eq_true, or_false]
  rintro ⟨h1, h2⟩
  exact hpow.1.elim h1 h2

theorem firmwareStart_eq {d : Dev} (life : Life) (ident : Word × Nat × Word) (key : Nat) (a b : Bool) {slot : Nat} (hpow : d.powered = true)
    (hoff : d.west.tsk.started = false) (hstuck : d.west.stuck.getLsbD blkTsk = false) (hslot : d.bootSlot a b = some slot) :
    ∃ e, firmwareStart life ident key a b d = e.mod .w Half.startTraining
      ∧ Dev.Boots { (d.romStarts key .w slot fun t => { t with started := true }).newNonce with
          safe := { (d.romStarts key .w slot fun t => { t with started := true }).newNonce.safe with aliveEn := true }
          clk := { (d.romStarts key .w slot fun t => { t with started := true }).newNonce.clk with power := .run } } e := by
  unfold firmwareStart
  rw [if_neg (bootRom_works hpow hoff hstuck), hslot]
  exact ⟨_, rfl, boots_startUp ..⟩

theorem words_of_stay {d e : Dev} (h : d.stay = e.stay) : patchWords d.regs = patchWords e.regs := congrArg (fun x => x.1.2.2.2) h

theorem words_of_booted {d e : Dev} (h : e.booted = d.booted) : patchWords e.regs = patchWords d.regs := congrArg (fun x => x.2.2.1) h

theorem alive_of_deep {d e : Dev} (h : d.deep = e.deep) : d.safe.aliveEn = e.safe.aliveEn := by
  have halive := congrArg (fun x : Dev => x.safe.aliveEn) h
  exact halive

/-- What a start leaves: the slot's firmware runs, its version and image are the slot's, and training begins. -/
theorem yields_firmwareStart {s : State} {a b : Bool} {slot : Nat} (hpow : s.dev.powered = true) (hoff : s.dev.west.tsk.started = false)
    (hstuck : s.dev.west.stuck.getLsbD blkTsk = false) (hslot : s.dev.bootSlot a b = some slot) : Yields (.firmwareStart a b) s fun d =>
      s.dev.runs d s.fuse.firmwareKey .w slot ∧ d.west.tsk.started = true ∧ d.west.tsk.slot = slot
        ∧ d.west.tsk.reload = s.dev.west.tsk.reload ∧ d.west.tsk.version = s.dev.slotVersion slot ∧ d.west.tsk.image = s.dev.slotImage slot
        ∧ d.safe.aliveEn = true ∧ d.clk.power = .run ∧ d.west.cel.chans = [1, 1, 1, 1] := by
  refine yields_staying (f := fun life d => firmwareStart life s.ident s.fuse.firmwareKey a b d)
    (running_eq_commit (fun life d => firmwareStart life s.ident s.fuse.firmwareKey a b d) hpow) fun t ht hstay => ?_
  obtain ⟨e, heq, hboots⟩ := firmwareStart_eq (d := s.dev.mute) s.fuse.life s.ident s.fuse.firmwareKey a b hpow hoff hstuck hslot
  obtain ⟨hpatch, hcores, x, hx, hstarted, hslot', hversion, himage, hreload⟩ := romStarts_spec s.dev.mute s.fuse.firmwareKey .w slot
    fun t => { t with started := true }
  replace heq : firmwareStart s.fuse.life s.ident s.fuse.firmwareKey a b { s.dev with out := [] } = _ := heq
  rw [heq] at ht hstay
  generalize s.dev.mute.romStarts s.fuse.firmwareKey .w slot (fun t => { t with started := true }) = rom
    at hboots hpatch hcores hstarted hslot' hversion himage hreload
  have htraining : e.Boots (e.mod .w Half.startTraining) := boots_mod e .w _ fun _ => rfl
  have hall := hboots.trans htraining
  have hrom (d : Dev) (sf : SafeSt) (ck : ClkSt) : d.grows { d.newNonce with safe := sf, clk := ck } := grows_of_eq rfl rfl
  have htsk : (t.half .w).tsk.bare = (rom.half .w).tsk.bare := (tsk_of_stay hstay .w).trans ((tsk_of_booted hall.same .w).trans rfl)
  have hwords : patchWords t.regs = patchWords rom.regs := (words_of_stay hstay).trans ((words_of_booted hall.same).trans rfl)
  have hruns : s.dev.runs t s.fuse.firmwareKey .w slot :=
    Dev.runs.mono (d := s.dev) ⟨hpatch, hcores⟩ htsk hwords (((hrom rom _ _).trans hall.grows).trans ht.grows)
  obtain ⟨hstarted2, hslot2, hversion2, himage2, hreload2, -⟩ := ran_of_bare htsk
  obtain ⟨-, hslot3, hversion3, himage3, hreload3, -⟩ := ran_of_bare hx
  have hsafe := congrArg (fun x => x.2.2.2.1.aliveEn) hall.same
  have hclk := congrArg (fun x => x.2.2.2.2.power) hall.same
  exact ⟨hruns, hstarted2.trans hstarted, hslot2.trans (hslot'.trans hslot3), hreload2.trans (hreload.trans hreload3),
    hversion2.trans (hversion.trans hversion3), himage2.trans (himage.trans himage3), (alive_of_deep ht.deep).trans hsafe,
    (power_of_deep ht.deep).trans hclk, congrArg CelSt.chans ((cel_of_deep ht.deep .w).trans (congrArg Half.cel (half_mod_same e .w _)))⟩

/-- A row that only raises a source of a T-die's task block leaves the module and the bare task units. -/
theorem yields_tskRaise {c : Instr} {s : State} {f : Life → Dev → Dev} {side : Side} {i : Nat} (hc : exec c s = running f s) (hpow : s.dev.powered = true)
    (hf : f s.fuse.life s.dev.mute = s.dev.mute.raise side blkTsk i) (hclass : srcClass blkTsk i ≠ none) (hi : i < 16)
    (hen : (s.dev.page side blkTsk).enable.getLsbD i = true) : Yields c s fun d =>
      d.deep = s.dev.deep ∧ (∀ t, (d.half t).tsk.bare = (s.dev.half t).tsk.bare) ∧ (d.page side blkTsk).src.getLsbD i = true := by
  refine yields_staying (f := f) (hc.trans (running_eq_commit f hpow)) fun t ht hstay => ?_
  replace hf : f s.fuse.life { s.dev with out := [] } = s.dev.mute.raise side blkTsk i := hf
  rw [hf] at ht hstay
  refine ⟨ht.deep.trans (deep_of_bare (bare_raise ..)), fun t' => ?_, (ht.grows.1 side blkTsk).2.2 i ?_⟩
  · rw [tsk_of_stay hstay t', tsk_of_stay (stay_of_firm (firm_raise ..)) t', half_mute]
  · exact raise_src s.dev.mute side blkTsk i (fun h => absurd h.2 (by decide)) hclass hi hen

theorem teFirmwareStart_eq {d : Dev} (key : Nat) (hon : d.west.tsk.started = true) (hoff : d.east.tsk.started = false)
    (hcarries : d.stwCarries = true) (hstuck : d.east.stuck.getLsbD blkTsk = false) :
    let rom := d.romStarts key .e d.west.tsk.slot fun t => { t with started := true, image := d.west.tsk.image, version := d.west.tsk.version }
    teFirmwareStart key true d = ((rom.loadTables .e).loadSafe .e true).mod .e Half.startTraining
      ∧ teFirmwareStart key false d = d.raise .e blkTsk 2 := by
  unfold teFirmwareStart
  dsimp only
  rw [if_neg (by simp [hon, hoff, hcarries, hstuck]), if_neg (by decide), if_neg (by simp [hon, hoff, hcarries, hstuck]), if_pos (by decide)]
  exact ⟨rfl, rfl⟩

theorem yields_teFirmwareStart {s : State} (hpow : s.dev.powered = true) (hon : s.dev.west.tsk.started = true) (hoff : s.dev.east.tsk.started = false)
    (hcarries : s.dev.stwCarries = true) (hstuck : s.dev.east.stuck.getLsbD blkTsk = false) : Yields (.teFirmwareStart true) s fun d =>
      s.dev.runs d s.fuse.firmwareKey .e s.dev.west.tsk.slot ∧ d.east.tsk.started = true ∧ d.east.tsk.slot = s.dev.west.tsk.slot
        ∧ d.east.tsk.reload = s.dev.east.tsk.reload ∧ d.east.tsk.version = s.dev.west.tsk.version ∧ d.east.tsk.image = s.dev.west.tsk.image
        ∧ d.east.cel.chans = [1, 1, 1, 1] := by
  refine yields_staying (f := fun _ d => teFirmwareStart s.fuse.firmwareKey true d)
    (running_eq_commit (fun _ d => teFirmwareStart s.fuse.firmwareKey true d) hpow) fun t ht hstay => ?_
  have heq : teFirmwareStart s.fuse.firmwareKey true { s.dev with out := [] } = _ :=
    (teFirmwareStart_eq (d := s.dev.mute) s.fuse.firmwareKey hon hoff hcarries hstuck).1
  obtain ⟨hpatch, hcores, x, hx, hstarted, hslot', hversion, himage, hreload⟩ := romStarts_spec s.dev.mute s.fuse.firmwareKey .e s.dev.west.tsk.slot
    fun t => { t with started := true, image := s.dev.west.tsk.image, version := s.dev.west.tsk.version }
  replace heq : teFirmwareStart s.fuse.firmwareKey true { s.dev with out := [] } = (((s.dev.mute.romStarts s.fuse.firmwareKey .e s.dev.west.tsk.slot
    fun t => { t with started := true, image := s.dev.west.tsk.image, version := s.dev.west.tsk.version }).loadTables .e).loadSafe .e true).mod .e
      Half.startTraining := heq
  rw [heq] at ht hstay
  generalize s.dev.mute.romStarts s.fuse.firmwareKey .e s.dev.west.tsk.slot
    (fun t => { t with started := true, image := s.dev.west.tsk.image, version := s.dev.west.tsk.version }) = rom
    at ht hstay hpatch hcores hstarted hslot' hversion himage hreload
  have hall : rom.Boots (((rom.loadTables .e).loadSafe .e true).mod .e Half.startTraining) :=
    ((boots_loadTables rom .e).trans (boots_loadSafe _ .e)).trans (boots_mod _ .e _ fun _ => rfl)
  have htsk : (t.half .e).tsk.bare = (rom.half .e).tsk.bare := (tsk_of_stay hstay .e).trans (tsk_of_booted hall.same .e)
  have hwords : patchWords t.regs = patchWords rom.regs := (words_of_stay hstay).trans (words_of_booted hall.same)
  have hruns : s.dev.runs t s.fuse.firmwareKey .e s.dev.west.tsk.slot :=
    Dev.runs.mono (d := s.dev) ⟨hpatch, hcores⟩ htsk hwords (hall.grows.trans ht.grows)
  obtain ⟨hstarted2, hslot2, hversion2, himage2, hreload2, -⟩ := ran_of_bare htsk
  obtain ⟨-, hslot3, -, -, hreload3, -⟩ := ran_of_bare hx
  exact ⟨hruns, hstarted2.trans hstarted, hslot2.trans (hslot'.trans hslot3), hreload2.trans (hreload.trans hreload3),
    hversion2.trans hversion, himage2.trans himage,
    congrArg CelSt.chans ((cel_of_deep ht.deep .e).trans (congrArg Half.cel (half_mod_same ((rom.loadTables .e).loadSafe .e true) .e _)))⟩

/-- A T-die whose firmware reloads: its cores are out of their tasks, and none is on (R415). -/
def TskSt.reloading (t : TskSt) : TskSt := { t with core0 := {}, core1 := {}, core2 := {}, core3 := {}, reload := true, fired := [] }

theorem yields_firmwareReload {s : State} {side : Side} (hpow : s.dev.powered = true) (hon : (s.dev.half side).tsk.started = true)
    (hreload : (s.dev.half side).tsk.reload = false) : Yields (.firmwareReload side) s fun d =>
      (d.half side).tsk.bare = (s.dev.half side).tsk.reloading.bare := by
  refine yields_staying (f := fun _ d => firmwareReload side d) (running_eq_commit (fun _ d => firmwareReload side d) hpow) fun t ht hstay => ?_
  have hrow : firmwareReload side { s.dev with out := [] } = (s.dev.mute.attUncorr side (0xA00000 / 64)).startReload side := by
    unfold firmwareReload
    have hhalf : Dev.half { s.dev with out := [] } side = s.dev.half side := half_mute s.dev side
    dsimp only
    rw [hhalf, if_neg (by simp [hon, hreload])]
    rfl
  rw [hrow] at hstay
  have hatt (d : Dev) (line : Nat) : ((d.attUncorr side line).half side).tsk.bare = (d.half side).tsk.bare := by
    refine (tsk_of_stay (stay_of_firm (firm_raise ..)) side).trans ?_
    rw [half_mod_same]
    unfold Dev.attSuspect
    rw [half_mod_same]
  have hstart (d : Dev) : ((d.startReload side).half side).tsk.bare = (d.half side).tsk.bare.reloading.bare := by
    refine (tsk_of_stay (stay_of_firm (firm_raise ..)) side).trans ?_
    rw [half_mod_same]
    rfl
  rw [tsk_of_stay hstay side, hstart, hatt, half_mute]
  rfl

theorem yields_reloadComplete {s : State} {side : Side} (hpow : s.dev.powered = true) (hreload : (s.dev.half side).tsk.reload = true) :
    Yields (.firmwareReloadComplete side) s fun d => s.dev.runs d s.fuse.firmwareKey side (s.dev.half side).tsk.slot
      ∧ (d.half side).tsk.started = (s.dev.half side).tsk.started ∧ (d.half side).tsk.reload = false
      ∧ (d.half side).tsk.slot = (s.dev.half side).tsk.slot ∧ (d.half side).tsk.version = s.dev.slotVersion (s.dev.half side).tsk.slot
      ∧ (d.half side).tsk.image = s.dev.slotImage (s.dev.half side).tsk.slot := by
  refine yields_staying (f := fun _ d => firmwareReloadComplete s.fuse.firmwareKey side d)
    (running_eq_commit (fun _ d => firmwareReloadComplete s.fuse.firmwareKey side d) hpow) fun t ht hstay => ?_
  have hrow : firmwareReloadComplete s.fuse.firmwareKey side { s.dev with out := [] }
      = s.dev.mute.romStarts s.fuse.firmwareKey side (s.dev.half side).tsk.slot fun t => { t with reload := false } := by
    unfold firmwareReloadComplete
    have hhalf : Dev.half { s.dev with out := [] } side = s.dev.half side := half_mute s.dev side
    rw [hhalf, if_neg (by simp [hreload])]
    rfl
  rw [hrow] at ht hstay
  obtain ⟨hpatch, hcores, x, hx, hstarted, hslot', hversion, himage, hoff⟩ := romStarts_spec s.dev.mute s.fuse.firmwareKey side
    (s.dev.half side).tsk.slot fun t => { t with reload := false }
  rw [half_mute] at hx
  generalize s.dev.mute.romStarts s.fuse.firmwareKey side (s.dev.half side).tsk.slot (fun t => { t with reload := false }) = rom
    at ht hstay hpatch hcores hstarted hslot' hversion himage hoff
  have htsk := tsk_of_stay hstay side
  obtain ⟨hstarted2, hslot2, hversion2, himage2, hreload2, -⟩ := ran_of_bare htsk
  obtain ⟨hstarted3, hslot3, hversion3, himage3, -, -⟩ := ran_of_bare hx
  exact ⟨Dev.runs.mono (d := s.dev) ⟨hpatch, hcores⟩ htsk (words_of_stay hstay) ht.grows, hstarted2.trans (hstarted.trans hstarted3),
    hreload2.trans hoff, hslot2.trans (hslot'.trans hslot3), hversion2.trans (hversion.trans hversion3), himage2.trans (himage.trans himage3)⟩

/-- Settles O44: every start by what its boot ROM leaves, which the start-up after it keeps. -/
theorem firmwareStarts : Obligations.FirmwareStarts := by
  unfold Obligations.FirmwareStarts
  intro s hpow
  dsimp only
  have hcommit (f : Life → Dev → Dev) : running f s = commit f s := running_eq_commit f hpow
  have hpatches {d : Dev} {side : Side} {slot : Nat} (h : ∀ u < 8192, d.patchedFrom (s.dev.page side blkTsk).enable side
      (s.dev.slotPatches s.fuse.firmwareKey slot) u) : ∀ u < 16,
      match s.dev.patchSet s.fuse.firmwareKey ({ image := s.dev.slotImage slot } : TskSt).imageBytes with
      | none => d.rg side.code .tskPatchAddr u = 0 ∧ ((s.dev.page side blkTsk).enable.getLsbD 4 = true →
          (d.page side blkTsk).src.getLsbD 4 = true)
      | some l => match l[u]? with
        | none => d.rg side.code .tskPatchAddr u = 0
        | some p => (d.rg side.code .tskPatchAddr u).getLsbD 31 = true ∧ d.rf side.code .tskPatchAddr u 19 3 = p.1 / 8 % 2 ^ 17
          ∧ d.rg side.code .tskPatchHi u ++ d.rg side.code .tskPatchLo u = p.2 := fun u hu => h u (by omega)
  refine ⟨fun hoff hstuck => ⟨fun a b hab => ?_, fun hen => ?_⟩, fun hon hoff hcarries hstuck => ⟨?_, fun hen => ?_⟩, fun side hon hreload => ?_,
    fun side hon hreload => ?_⟩
  · have hslot : s.dev.bootSlot a b = some (if b = true ∧ (a = true → s.dev.slotVersion 0 < s.dev.slotVersion 1) then 1 else 0) := by
      cases a <;> cases b
      · exact absurd hab (by decide)
      all_goals simp [Dev.bootSlot]
    refine yields_mono (yields_firmwareStart hpow hoff hstuck hslot)
      fun t ⟨⟨hpatch, hcores⟩, hstarted, hslot, hreload, hversion, himage, halive, hpower, hchans⟩ =>
        ⟨⟨hstarted, hslot, hreload, hpatches hpatch, hcores⟩, ⟨hversion, himage⟩, halive, hpower, hchans⟩
  · refine yields_mono (yields_tskRaise (f := fun life d => firmwareStart life s.ident s.fuse.firmwareKey false false d) rfl hpow ?_ (by decide)
      (by decide) hen) fun t ⟨hdeep, htsk, hsrc⟩ => ⟨hdeep, htsk .w, hsrc⟩
    unfold firmwareStart
    rw [if_neg (bootRom_works (d := s.dev.mute) hpow hoff hstuck)]
    rfl
  · refine yields_mono (yields_teFirmwareStart hpow hon hoff hcarries hstuck)
      fun t ⟨⟨hpatch, hcores⟩, hstarted, hslot, hreload, hversion, himage, hchans⟩ =>
        ⟨⟨hstarted, hslot, hreload, hpatches hpatch, hcores⟩, hversion, himage, hchans⟩
  · refine yields_mono (yields_tskRaise (f := fun _ d => teFirmwareStart s.fuse.firmwareKey false d) rfl hpow
      (teFirmwareStart_eq (d := s.dev.mute) s.fuse.firmwareKey hon hoff hcarries hstuck).2 (by decide) (by decide) hen)
      fun t ⟨hdeep, htsk, hsrc⟩ => ⟨hdeep, (ran_of_bare (htsk .e)).1.trans hoff, hsrc⟩
  · exact yields_firmwareReload hpow hon hreload
  · refine yields_mono (yields_reloadComplete hpow hreload) fun t ⟨⟨hpatch, hcores⟩, hstarted, hoff, hslot, hversion, himage⟩ =>
      ⟨hstarted.trans hon, hoff, hslot, ⟨hversion, himage⟩, hpatches hpatch, fun c => ⟨(hcores c).1, (hcores c).2.2⟩⟩

end Sys2Proof.Machine
end

section
/-! PROOFS. The command stream of a load, and what a load that ends leaves (chapter 9). -/
namespace Sys2Proof.Machine
open Sys2Proof.Safety

/-! ## The command stream of a load (R246 to R252) -/

theorem taken_eq (d : Dev) (life : Life) (l : Load) (n : Nat) : d.taken life l n = (d.holding { l with taken := l.taken + n }).answerData life := rfl

/-- What the loader leaves when it has taken more bytes. -/
theorem taken_spec (d : Dev) (life : Life) (l : Load) (n : Nat) : ∃ r : List (Nat × Reply),
    (d.taken life l n).bare = (d.holding { l with taken := l.taken + n, replies := r }).bare
      ∧ (l.replies = [] → r = []) ∧ (d.holding { l with taken := l.taken + n }).quiet (d.taken life l n) := by
  obtain ⟨hbare, hquiet⟩ := answerData_spec (d := d.holding { l with taken := l.taken + n }) life rfl
  refine ⟨_, hbare, fun hnone => ?_, hquiet⟩
  dsimp only
  rw [hnone]
  split <;> rfl

/-- The next command of the stream, when a row answers for it. -/
theorem streamCmd_on {d e : Dev} {life : Life} {l m : Load} {c : StreamCmd} {n : Nat} {act : StreamCmd → Load → Dev → Option Taken}
    (hload : d.cfg.load = some l) (hstore : l.store = none) (hpassed : l.passed = true) (hgoing : l.pos ≠ .clearing ∧ l.pos ≠ .ended)
    (hnext : l.next (d.imageKey l).bodyKey = some (c, n)) (hc : c ≠ .bad) (hact : act c l d = some (.on m e)) :
    d.streamCmd life act = e.taken life m n := by
  unfold Dev.streamCmd
  rw [hload]
  dsimp only
  rw [if_neg (by simp [hstore, hpassed, hgoing]), hnext]
  cases c with
  | bad => exact absurd rfl hc
  | _ => simp only [hact]

theorem streamCmd_bad {d : Dev} {life : Life} {l : Load} {n : Nat} {act : StreamCmd → Load → Dev → Option Taken}
    (hload : d.cfg.load = some l) (hstore : l.store = none) (hpassed : l.passed = true) (hgoing : l.pos ≠ .clearing ∧ l.pos ≠ .ended)
    (hnext : l.next (d.imageKey l).bodyKey = some (.bad, n)) : d.streamCmd life act = d.loadFail life l rCommand l.taken := by
  unfold Dev.streamCmd
  rw [hload]
  dsimp only
  rw [if_neg (by simp [hstore, hpassed, hgoing]), hnext]

/-- A row that takes bytes of the stream changes what the command says, and answers those who wait. -/
theorem yields_taken {c : Instr} {s : State} {f : Life → Dev → Dev} {e : Dev} {l : Load} {n : Nat} (hc : exec c s = running f s)
    (hpow : s.dev.powered = true) (hcalm : s.dev.calm) (hf : f s.fuse.life s.dev.mute = e.taken s.fuse.life l n)
    (hq : s.dev.quiet (e.holding { l with taken := l.taken + n })) : Yields c s fun t => ∃ r : List (Nat × Reply),
      t.bare = (e.holding { l with taken := l.taken + n, replies := r }).bare ∧ (l.replies = [] → r = []) := by
  obtain ⟨r, hbare, hnone, hquiet⟩ := taken_spec e s.fuse.life l n
  exact yields_quiet hc hpow hcalm hf (hq.trans hquiet) fun t ht _ => ⟨r, ht.trans hbare, hnone⟩

/-! ### The array (R248, R249, R252) -/

theorem quiet_resetRg (d : Dev) (n : Nat) (r : Rg) : d.quiet (d.resetRg n r) := ⟨fun h => h, rfl, fun h => h, fun _ h => h⟩

theorem quiet_clearArray (d : Dev) : d.quiet d.clearArray := by
  have hidle (d : Dev) (s : Side) : d.quiet (d.mod s fun h => { h with fab := { h.fab with
      hooks := [], ports := [], padOut := 0, padOe := 0, scrubBusy := false } }) := quiet_mod rfl rfl fun _ h => h
  unfold Dev.clearArray
  extract_lets c clk d1 idle d2 d3
  have h1 : d.quiet d1 := ⟨id, rfl, id, fun s => by cases s <;> exact id⟩
  have h2 : d1.quiet d2 := (hidle d1 .w).trans (hidle _ .e)
  clear_value d2
  have h3 : d2.quiet d3 := quiet_foldl _ _ (fun d f => quiet_resetRg ..) _
  clear_value d3
  exact ((h1.trans h2).trans h3).trans ((quiet_resetRg ..).trans (quiet_resetRg ..))

/-- A release of the array's contents: nothing is configured, and no load's state is touched. -/
theorem clearArray_cfg (d : Dev) : d.clearArray.array = {} ∧ d.clearArray.cfg
    = { d.cfg with source := 0, service := false, hash := 0, keyId := 0, wcfg := [] } := by
  have hidle (d : Dev) (s : Side) (f : Half → Half) : (d.mod s f).array = d.array ∧ (d.mod s f).cfg = d.cfg := by cases s <;> exact ⟨rfl, rfl⟩
  have hreset (d : Dev) (n : Nat) (r : Rg) : (d.resetRg n r).array = d.array ∧ (d.resetRg n r).cfg = d.cfg := ⟨rfl, rfl⟩
  have hfold (l : List Nat) (d : Dev) : (l.foldl (fun d f => d.resetRg (2 + f) .fabNocPortEn) d).array = d.array
      ∧ (l.foldl (fun d f => d.resetRg (2 + f) .fabNocPortEn) d).cfg = d.cfg := by
    induction l generalizing d with
    | nil => exact ⟨rfl, rfl⟩
    | cons x l ih => exact ih _
  unfold Dev.clearArray
  extract_lets c clk d1 idle d2 d3
  have h1 : d1.array = {} ∧ d1.cfg = { d.cfg with source := 0, service := false, hash := 0, keyId := 0, wcfg := [] } := ⟨rfl, rfl⟩
  have h2 : d2.array = d1.array ∧ d2.cfg = d1.cfg :=
    ⟨(hidle _ .e _).1.trans (hidle d1 .w _).1, (hidle _ .e _).2.trans (hidle d1 .w _).2⟩
  clear_value d1 d2
  have h3 := hfold (List.range 4) d2
  rw [(hreset _ 1 _).1, (hreset _ 1 _).2, (hreset _ 0 _).1, (hreset _ 0 _).2]
  exact ⟨h3.1.trans (h2.1.trans h1.1), h3.2.trans (h2.2.trans h1.2)⟩

/-- CHECKING has passed: the clear begins (R253). -/
def Dev.wiped (d : Dev) : Dev :=
  { (d.clearArray.resetRg 0 .cfgFrames) with cfg := { (d.clearArray.resetRg 0 .cfgFrames).cfg with state := 2, staged := [] } }

theorem enterLoading_eq (d : Dev) (life : Life) (l : Load) (n : Nat) :
    d.enterLoading life l n = d.wiped.taken life { l with passed := true } n := rfl

theorem stwDown_of_deep {d e : Dev} (h : e.deep = d.deep) : e.stwDown = d.stwDown := by
  have hdown := congrArg Dev.stwDown h
  exact hdown

theorem stwDown_wiped (d : Dev) : (d.clearArray.resetRg 0 .cfgFrames).stwDown = d.stwDown :=
  stwDown_of_deep ((deep_resetRg ..).trans (deep_clearArray d))

theorem quiet_wiped (d : Dev) {m : Load} (h : d.stwDown = false) : d.quiet (d.wiped.holding m) := by
  refine ((quiet_clearArray d).trans (quiet_resetRg d.clearArray 0 .cfgFrames)).trans ?_
  have hdown := stwDown_wiped d
  unfold Dev.wiped
  generalize d.clearArray.resetRg 0 .cfgFrames = e at hdown
  refine quiet_setCfg (d := e) fun hcut => ?_
  simp [Load.cutOff, hdown, h] at hcut

/-! ## A load that has ended (R253, R256) -/

/-- What a load's end leaves: the configuration block, the array, and the result's registers. -/
def Dev.loadEnd (d : Dev) : CfgSt × ArraySt × Word × Word := (d.cfg, d.array, d.rg 0 .cfgResult, d.rg 0 .cfgResultAt)

theorem loadEnd_of_bare {d e : Dev} (h : d.bare = e.bare) : d.loadEnd = e.loadEnd := by
  have hview := congrArg Dev.loadEnd h
  exact hview

theorem loadEnd_setRg (d : Dev) (n : Nat) {r : Rg} {i : Nat} (v : Word) (hr : ([Rg.cfgResult, .cfgResultAt].contains r) = false) (hi : i < 8192) :
    (d.setRg n r i v).loadEnd = d.loadEnd := by
  have hother (q : Rg) (hq : ([Rg.cfgResult, .cfgResultAt].contains q) = true) : (d.setRg n r i v).rg 0 q = d.rg 0 q := by
    refine rg_setRg_ne d v fun h => ?_
    obtain ⟨-, hqr, -⟩ := (regKey_inj (by decide) hi).mp h
    rw [hqr, hr] at hq
    exact Bool.false_ne_true hq
  unfold Dev.loadEnd
  rw [hother _ (by decide), hother _ (by decide)]
  rfl

theorem loadEnd_mod (d : Dev) (s : Side) (f : Half → Half) : (d.mod s f).loadEnd = d.loadEnd := by cases s <;> rfl

theorem loadEnd_raise (d : Dev) (s : Side) (b i : Nat) : (d.raise s b i).loadEnd = d.loadEnd := loadEnd_of_bare (bare_raise ..)

theorem loadEnd_foldl {α : Type} (l : List α) (f : Dev → α → Dev) (h : ∀ d x, (f d x).loadEnd = d.loadEnd) (d : Dev) :
    (l.foldl f d).loadEnd = d.loadEnd := by
  induction l generalizing d with
  | nil => rfl
  | cons x l ih => exact (ih _).trans (h d x)

theorem loadEnd_finish (d : Dev) (life : Life) (r : Reply) (st : Nat) (pl : List Byte) : (d.finish life r st pl).loadEnd = d.loadEnd := by
  by_cases h : st = stWrong
  · subst h
    rw [loadEnd_of_bare (bare_finishWrong ..)]
    exact loadEnd_setRg d 0 _ (by decide) (by decide)
  · exact loadEnd_of_bare (bare_finishWith _ _ _ _ _ _ h)

theorem loadEnd_setLarder (d : Dev) (l : LdrSt) (g : DbgSt) : Dev.loadEnd { d with ldr := l, dbg := g } = d.loadEnd := rfl

theorem loadEnd_setSafe (d : Dev) (x : SafeSt) : Dev.loadEnd { d with safe := x } = d.loadEnd := rfl

theorem loadEnd_setHst (d : Dev) (x : HstSt) : Dev.loadEnd { d with hst := x } = d.loadEnd := rfl

theorem loadEnd_bump (d : Dev) (n : Nat) {r : Rg} {i : Nat} (hi lo k : Nat) (hr : ([Rg.cfgResult, .cfgResultAt].contains r) = false) (h : i < 8192) :
    (d.bump n r i hi lo k).loadEnd = d.loadEnd := loadEnd_setRg d n _ hr h

theorem loadEnd_ldrAppend (d : Dev) (type key : Nat) (x : LdrData) : (d.ldrAppend type key x).loadEnd = d.loadEnd := by
  unfold Dev.ldrAppend
  extract_lets l cw fits sector used r fill now rest b d1 src d2
  split
  · exact loadEnd_setLarder d _ d.dbg
  · split
    · exact (loadEnd_raise ..).trans (loadEnd_bump _ _ _ _ _ (by decide) (by decide))
    · have h1 : d1.loadEnd = d.loadEnd := loadEnd_setLarder d _ _
      clear_value d1
      split
      · exact (loadEnd_raise ..).trans h1
      · exact h1

theorem loadEnd_journalEnd (d : Dev) (s : Side) : (d.journalEnd s).loadEnd = d.loadEnd := by
  unfold Dev.journalEnd Dev.journalCal
  split
  · dsimp only
    split
    · rfl
    · rw [loadEnd_mod, loadEnd_ldrAppend, loadEnd_ldrAppend]
  · rfl

theorem loadEnd_armPart (d : Dev) (life : Life) (s : Side) (st : Nat) : (d.armPart life s st).loadEnd = d.loadEnd := by
  unfold Dev.armPart
  dsimp only
  rw [loadEnd_foldl _ _ (fun d a => loadEnd_finish ..), loadEnd_setHst]

theorem loadEnd_safeHalf (d : Dev) (life : Life) (s : Side) : (d.safeHalf life s).loadEnd = d.loadEnd := by
  have habort (d : Dev) : (d.abort s 9).loadEnd = d.loadEnd := loadEnd_mod ..
  unfold Dev.safeHalf
  dsimp only
  split
  · rw [loadEnd_armPart, loadEnd_mod]
    split
    · exact habort d
    · rfl
  · split
    · exact habort d
    · rfl

/-- The SAFE net finds no load to end. -/
theorem loadEnd_safeNet {d : Dev} (life : Life) (h : d.cfg.load = none) : (d.safeNet life).loadEnd = d.loadEnd := by
  have habandon (d : Dev) (s : Side) : (d.abandon s).loadEnd = d.loadEnd := loadEnd_setSafe ..
  have hpins (d : Dev) : d.pinsOff.loadEnd = d.loadEnd := loadEnd_setLarder d d.ldr _
  have htruncate (d : Dev) (h : d.cfg.load = none) : d.truncateLoad life = d := by
    unfold Dev.truncateLoad
    rw [h]
  unfold Dev.safeNet
  split
  · unfold Dev.safeAssert
    extract_lets sf d1
    have h1 : d1.loadEnd = d.loadEnd := loadEnd_setSafe ..
    clear_value d1
    have h2 : ((((d1.abandon .w).abandon .e).safeHalf life .w).safeHalf life .e).loadEnd = d.loadEnd := by
      rw [loadEnd_safeHalf, loadEnd_safeHalf, habandon, habandon, h1]
    rw [loadEnd_journalEnd, loadEnd_journalEnd, hpins, htruncate _ ((congrArg (fun x => x.1.load) h2).trans h), h2]
  · exact loadEnd_setSafe ..
  · exact loadEnd_setSafe ..
  · rfl

/-- Where no load runs, what every command leaves in order is not the configuration block. -/
theorem loadEnd_settle {d : Dev} (life : Life) (h : d.cfg.load = none) : (d.settle life).loadEnd = d.loadEnd := by
  have hpath : d.pathLost life = d := by
    unfold Dev.pathLost
    rw [h]
  have hdeliver (d : Dev) (s : Side) : (d.mod s fun h => h.modTsk TskSt.deliver).loadEnd = d.loadEnd := loadEnd_mod ..
  unfold Dev.settle
  split
  · rfl
  · dsimp only
    rw [loadEnd_of_bare (bare_reportStates _), hdeliver, hdeliver, loadEnd_of_bare (bare_retryHeld _ _), loadEnd_of_bare (bare_retryHeld _ _),
      loadEnd_of_bare (bare_spentSessions _), loadEnd_safeNet life, loadEnd_journalEnd, loadEnd_journalEnd, hpath]
    have hload : ((d.journalEnd .w).journalEnd .e).loadEnd = d.loadEnd := by rw [loadEnd_journalEnd, loadEnd_journalEnd]
    rw [hpath]
    exact (congrArg (fun x => x.1.load) hload).trans h

/-- The answers that a load's end owes. -/
theorem loadEnd_endReplies (d : Dev) (life : Life) (l : Load) (reason at_ : Nat) (who : List (Nat × Reply)) :
    (d.endReplies life l reason at_ who).loadEnd = d.loadEnd := by
  induction who generalizing d with
  | nil => rfl
  | cons x who ih =>
    unfold Dev.endReplies
    split
    · rw [ih, loadEnd_finish]
    · split
      · rw [ih, loadEnd_finish]
      · rw [loadEnd_foldl _ _ (fun d x => loadEnd_finish ..), loadEnd_finish]

/-- The configuration block with a load's reason in its slot (R259). -/
def CfgSt.reasoned (c : CfgSt) (l : Load) (reason : Nat) : CfgSt :=
  match l.slotOf with
  | some n => c.setSlot n { (c.slot n) with reason := reason }
  | none => c

theorem array_setRg (d : Dev) (n : Nat) (r : Rg) (i : Nat) (v : Word) : (d.setRg n r i v).array = d.array ∧ (d.setRg n r i v).cfg = d.cfg := ⟨rfl, rfl⟩

/-- What a load's end records: its result, and its slot's last reason. -/
theorem recordEnd_spec (d : Dev) (life : Life) (l : Load) (reason at_ : Nat) :
    let e := d.recordEnd life l reason at_
    e.array = d.array ∧ e.rg 0 .cfgResult = pack [(24, reason), (16, reasonStatus reason), (12, l.src)]
      ∧ ∃ x, e.cfg = { d.cfg.reasoned l reason with ended := x } := by
  dsimp only
  unfold Dev.recordEnd
  extract_lets d1 d2 d3 d4 d5
  have h1 : d1.array = d.array ∧ d1.cfg = d.cfg ∧ d1.rg 0 .cfgResult = pack [(24, reason), (16, reasonStatus reason), (12, l.src)] :=
    ⟨(array_setRg ..).1, (array_setRg ..).2, rg_setRg_same ..⟩
  have h2 : d2.array = d1.array ∧ d2.cfg = d1.cfg ∧ d2.rg 0 .cfgResult = d1.rg 0 .cfgResult := by
    simp only [d2]
    clear_value d1
    split
    · exact ⟨rfl, rfl, rfl⟩
    · exact ⟨(array_setRg ..).1, (array_setRg ..).2, rg_setRg_ne _ _ fun h => absurd ((regKey_inj (by decide) (by decide)).mp h).2.1 (by decide)⟩
  clear_value d1
  have h3 : d3.array = d2.array ∧ d3.rg 0 .cfgResult = d2.rg 0 .cfgResult ∧ d3.cfg = d2.cfg.reasoned l reason := by
    unfold CfgSt.reasoned
    simp only [d3]
    clear_value d2
    cases l.slotOf <;> exact ⟨rfl, rfl, rfl⟩
  clear_value d2 d3
  have h5 : d5.loadEnd = d3.loadEnd := by
    have h4 : d4.loadEnd = d3.loadEnd := loadEnd_of_bare (bare_event ..)
    simp only [d5]
    clear_value d4
    split
    · exact h4
    · exact (loadEnd_raise ..).trans h4
  have hview (e : Dev) (h : e.loadEnd = d3.loadEnd) : e.array = d.array
      ∧ e.rg 0 .cfgResult = pack [(24, reason), (16, reasonStatus reason), (12, l.src)] ∧ e.cfg = d.cfg.reasoned l reason := by
    simp only [Dev.loadEnd, Prod.mk.injEq] at h
    obtain ⟨hcfg, harray, hresult, -⟩ := h
    refine ⟨harray.trans (h3.1.trans (h2.1.trans h1.1)), hresult.trans (h3.2.1.trans (h2.2.2.trans h1.2.2)), hcfg.trans (h3.2.2.trans ?_)⟩
    rw [h2.2.1, h1.2.1]
  clear_value d5
  split
  · obtain ⟨harray, hresult, hcfg⟩ := hview d5 h5
    exact ⟨harray, hresult, some (l.session, reasonStatus reason, reason, at_), congrArg (fun c : CfgSt => { c with
      ended := some (l.session, reasonStatus reason, reason, at_) }) hcfg⟩
  · obtain ⟨harray, hresult, hcfg⟩ := hview _ ((loadEnd_endReplies d5 life l reason at_ l.replies).trans h5)
    exact ⟨harray, hresult, (d.cfg.reasoned l reason).ended, hcfg⟩

theorem reasoned_rest (c : CfgSt) (l : Load) (reason : Nat) : (c.reasoned l reason).load = c.load ∧ (c.reasoned l reason).state = c.state
    ∧ (c.reasoned l reason).source = c.source ∧ (c.reasoned l reason).keyId = c.keyId ∧ (c.reasoned l reason).hash = c.hash := by
  have hset (n : Nat) (x : CfgSlot) : (c.setSlot n x).load = c.load ∧ (c.setSlot n x).state = c.state ∧ (c.setSlot n x).source = c.source
      ∧ (c.setSlot n x).keyId = c.keyId ∧ (c.setSlot n x).hash = c.hash := by
    unfold CfgSt.setSlot
    split <;> exact ⟨rfl, rfl, rfl, rfl, rfl⟩
  unfold CfgSt.reasoned
  split
  · exact hset ..
  · exact ⟨rfl, rfl, rfl, rfl, rfl⟩

/-- A load that fails after CHECKING leaves a cleared array (R253). -/
theorem loadFail_spec (d : Dev) (life : Life) {l : Load} (reason at_ : Nat) (hstore : l.store = none) :
    let e := d.loadFail life l reason at_
    e.cfg.load = none ∧ e.cfg.state = 4 ∧ e.array = {}
      ∧ e.rg 0 .cfgResult = pack [(24, reason), (16, reasonStatus reason), (12, l.src)] := by
  dsimp only
  unfold Dev.loadFail
  rw [hstore]
  dsimp only
  have harray := (clearArray_cfg d).1
  generalize d.clearArray = e at harray
  obtain ⟨hsame, hresult, x, hcfg⟩ := recordEnd_spec { e with cfg := { e.cfg with load := none, state := 4 } } life l reason at_
  obtain ⟨hload, hstate, -⟩ := reasoned_rest { e.cfg with load := none, state := 4 } l reason
  rw [hcfg]
  exact ⟨hload, hstate, hsame.trans harray, hresult⟩

/-! ### A source that no load has

A load of a source past the three of R253, which no command starts, writes its SOURCE over the reason. -/

/-- A running module with a load past CHECKING whose stream has ended and whose source is 4 096. -/
def strayLoad : State :=
  { State.reset with
    dev := { State.reset.dev with
      clk := { power := .run }
      cfg := { load := some { source := 4096, passed := true, length := 0 } }
      east := { State.reset.dev.east with tsk := { started := true } } } }

theorem strayLoad_next (key : Nat) : Load.next { source := 4096, passed := true, length := 0 } key = some (.bad, 0) := by
  unfold Load.next
  exact if_pos (by decide)

/-- Refutes O18: a load of a source past the register's field shows another reason than COMMAND in CFG_RESULT. -/
theorem not_stream : ¬ Obligations.Stream := by
  unfold Obligations.Stream
  intro h
  obtain ⟨-, hpassed⟩ := h strayLoad { source := 4096, passed := true, length := 0 } rfl ⟨nofun, rfl, rfl, rfl⟩ rfl rfl
  obtain ⟨-, -, hbad⟩ := hpassed rfl .bad 0 (strayLoad_next _)
  have hyields := hbad rfl nofun nofun ⟨by decide, by decide⟩ .gclr (List.mem_cons_self ..)
  rw [yields_running_iff (f := fun life d => gclr life d) rfl rfl] at hyields
  obtain ⟨-, -, -, hresult, -⟩ := hyields
  have hrow : gclr strayLoad.fuse.life strayLoad.dev.mute
      = strayLoad.dev.mute.loadFail strayLoad.fuse.life { source := 4096, passed := true, length := 0 } rCommand 0 :=
    streamCmd_bad rfl rfl rfl ⟨nofun, nofun⟩ (strayLoad_next _)
  have hstray : (gclr strayLoad.fuse.life strayLoad.dev.mute).rg 0 .cfgResult = pack [(24, rCommand), (16, reasonStatus rCommand), (12, 4096)] := by
    rw [hrow]
    obtain ⟨-, -, -, hresult⟩ := loadFail_spec strayLoad.dev.mute strayLoad.fuse.life
      (l := { source := 4096, passed := true, length := 0 }) rCommand 0 rfl
    exact hresult
  have hload : (gclr strayLoad.fuse.life strayLoad.dev.mute).cfg.load = none := by
    rw [hrow]
    exact (loadFail_spec strayLoad.dev.mute _ _ _ rfl).1
  have hkept : (strayLoad.dev.after strayLoad.fuse.life fun life d => gclr life d).rg 0 .cfgResult
      = (gclr strayLoad.fuse.life strayLoad.dev.mute).rg 0 .cfgResult := congrArg (fun x => x.2.2.1) (loadEnd_settle strayLoad.fuse.life hload)
  rw [Dev.rf, hkept, hstray] at hresult
  exact absurd hresult (by decide)

end Sys2Proof.Machine
end

section
/-! PROOFS. How loads and stores end: checks, release, timeout, store, auto-load (chapter 9). -/
namespace Sys2Proof.Machine
open Sys2Proof.Safety

/-! ## How a load ends (R253 to R259) -/

/-- A row that leaves no load leaves the configuration as it made it, whatever else it calls for. -/
theorem yields_loadEnd {c : Instr} {s : State} {f : Life → Dev → Dev} {e : Dev} {p : Dev → Prop} (hc : exec c s = running f s)
    (hpow : s.dev.powered = true) (hf : f s.fuse.life s.dev.mute = e) (hnone : e.cfg.load = none)
    (hp : ∀ d : Dev, d.loadEnd = e.loadEnd → p d) : Yields c s p := by
  rw [yields_running_iff hc hpow]
  subst hf
  exact hp _ (loadEnd_settle s.fuse.life hnone)

theorem loadEnd_iff {d e : Dev} : d.loadEnd = e.loadEnd ↔
    d.cfg = e.cfg ∧ d.array = e.array ∧ d.rg 0 .cfgResult = e.rg 0 .cfgResult ∧ d.rg 0 .cfgResultAt = e.rg 0 .cfgResultAt := by
  simp only [Dev.loadEnd, Prod.mk.injEq]

theorem cfgSlot_setSlot (c : CfgSt) (n : Nat) (x : CfgSlot) : (c.setSlot n x).slot n = x := by
  unfold CfgSt.setSlot CfgSt.slot
  split <;> rfl

theorem slot_reasoned (c : CfgSt) {l : Load} {n : Nat} (reason : Nat) (h : l.slotOf = some n) :
    (c.reasoned l reason).slot n = { (c.slot n) with reason := reason } := by
  unfold CfgSt.reasoned
  rw [h]
  exact cfgSlot_setSlot ..

/-- A Hoist load that a check refuses leaves everything but its result (R253). -/
theorem checkFail_spec (d : Dev) (life : Life) {l : Load} (reason at_ : Nat) (hstore : l.store = none) (hsource : l.source = 3) :
    let e := d.checkFail life l reason at_
    e.cfg.load = none ∧ e.cfg.state = l.prev ∧ e.array = d.array
      ∧ e.rg 0 .cfgResult = pack [(24, reason), (16, reasonStatus reason), (12, l.src)] := by
  dsimp only
  unfold Dev.checkFail Dev.autoAfter
  rw [if_pos (Or.inl hsource), hstore]
  dsimp only [Option.isSome_none, Bool.false_eq_true, if_false]
  obtain ⟨hsame, hresult, x, hcfg⟩ := recordEnd_spec { d with cfg := { d.cfg with load := none, state := l.prev } } life l reason at_
  obtain ⟨hload, hstate, -⟩ := reasoned_rest { d.cfg with load := none, state := l.prev } l reason
  rw [if_neg Bool.false_ne_true, hcfg]
  exact ⟨hload, hstate, hsame, hresult⟩

/-- A store that fails leaves its slot without a valid header (R258). -/
theorem loadFail_store (d : Dev) (life : Life) {l : Load} {n : Nat} (reason at_ : Nat) (hstore : l.store = some n) :
    let e := d.loadFail life l reason at_
    e.cfg.load = none ∧ e.cfg.state = d.cfg.state ∧ e.array = d.array ∧ e.cfg.slot n = { valid := false, reason := reason } := by
  have hset (c : CfgSt) (x : CfgSlot) : (c.setSlot n x).load = c.load ∧ (c.setSlot n x).state = c.state := by
    unfold CfgSt.setSlot
    split <;> exact ⟨rfl, rfl⟩
  dsimp only
  unfold Dev.loadFail
  rw [hstore]
  dsimp only
  obtain ⟨hsame, -, x, hcfg⟩ := recordEnd_spec
    { d with cfg := ({ d.cfg with load := none }).setSlot n { valid := false, reason := reason } } life l reason at_
  obtain ⟨hload, hstate, -⟩ := reasoned_rest (({ d.cfg with load := none }).setSlot n { valid := false, reason := reason }) l reason
  have hslot : l.slotOf = some n := by
    unfold Load.slotOf
    rw [hstore]
  have hreason := slot_reasoned (({ d.cfg with load := none }).setSlot n { valid := false, reason := reason }) reason hslot
  rw [cfgSlot_setSlot] at hreason
  rw [hcfg]
  exact ⟨hload.trans (hset ..).1, hstate.trans (hset ..).2, hsame, hreason⟩

theorem quiet_endOk (d : Dev) (life : Life) (l : Load) (at_ : Nat) (who : List (Nat × Reply)) :
    d.quiet (d.endReplies life l 0 at_ who) ∧ (d.endReplies life l 0 at_ who).bare = d.bare := by
  induction who generalizing d with
  | nil => exact ⟨.refl d, rfl⟩
  | cons x who ih =>
    unfold Dev.endReplies
    rw [if_pos rfl]
    exact ⟨(quiet_finish_ok ..).trans (ih _).1, (ih _).2.trans (bare_finish_ok ..)⟩

/-- A load that ends well calls for nothing else, and writes no flash. -/
theorem quiet_recordOk (d : Dev) (life : Life) (l : Load) (at_ : Nat) :
    d.quiet (d.recordEnd life l 0 at_) ∧ (d.recordEnd life l 0 at_).dbg = d.dbg := by
  unfold Dev.recordEnd
  extract_lets d1 d2 d3 d4 d5
  have h1 : d.quiet d1 ∧ d1.dbg = d.dbg := ⟨quiet_setRg .., rfl⟩
  clear_value d1
  have h2 : d2 = d1 := if_pos rfl
  rw [← h2] at h1
  clear_value d2
  have h3 : d2.quiet d3 ∧ d3.dbg = d2.dbg := by
    have hslot (n : Nat) (x : CfgSlot) : (d2.cfg.setSlot n x).load = d2.cfg.load := by
      unfold CfgSt.setSlot
      split <;> rfl
    simp only [d3]
    split
    · refine ⟨quiet_setCfg fun h => ?_, rfl⟩
      rw [hslot] at h
      unfold Dev.pathCut
      exact h
    · exact ⟨.refl _, rfl⟩
  clear_value d3
  have h4 : d3.quiet d4 ∧ d4.dbg = d3.dbg := ⟨quiet_event .., dbg_of_bare (bare_event ..)⟩
  clear_value d4
  have h5 : d5 = d4 := if_pos rfl
  have h : d.quiet d5 ∧ d5.dbg = d.dbg := by
    rw [h5]
    exact ⟨(h1.1.trans h3.1).trans h4.1, h4.2.trans (h3.2.trans h1.2)⟩
  clear_value d5
  split
  · exact ⟨h.1.trans (quiet_setCfg id), h.2⟩
  · obtain ⟨hquiet, hbare⟩ := quiet_endOk d5 life l at_ l.replies
    exact ⟨h.1.trans hquiet, (dbg_of_bare hbare).trans h.2⟩

/-! ### Release (R257) -/

/-- The configuration block and the array as a release leaves them, the array's registers at their initial values (R213). -/
def Dev.configuredBy (d : Dev) (l : Load) : Dev :=
  { d with
    cfg := { d.cfg with
      load := none, state := 5, source := l.source, service := l.service, wcfg := l.wcfg.filter fun kv => decide (kv.2 ≠ 0)
      hash := if l.service then 0 else l.hdr.bodyHash, keyId := l.hdr.keyId
      auto := [], staged := if l.source = 3 then l.image else [] }
    array := { d.array with regs := [], sync := [], bports := [], phase := [0, 0, 0, 0, 0, 0, 0, 0] } }

/-- The clocks that start are no part of the array. -/
theorem array_startClocks (d : Dev) (adm : Option Side) : (d.startClocks adm).cfg = d.cfg ∧ (d.startClocks adm).array = d.array := by
  have hbare (d e : Dev) (h : d.bare = e.bare) : d.cfg = e.cfg ∧ d.array = e.array :=
    ⟨congrArg Prod.fst (loadEnd_of_bare h), congrArg (fun x => x.2.1) (loadEnd_of_bare h)⟩
  have hend (d : Dev) : d.endShort.cfg = d.cfg ∧ d.endShort.array = d.array := by
    unfold Dev.endShort
    split
    · exact hbare _ { d with clk := { d.clk with short := false } } (bare_condOff ..)
    · exact ⟨rfl, rfl⟩
  have hfloors : d.applyFloors.cfg = d.cfg ∧ d.applyFloors.array = d.array := by
    unfold Dev.applyFloors
    extract_lets f c d1
    have h1 : d1.cfg = d.cfg ∧ d1.array = d.array := ⟨rfl, rfl⟩
    clear_value d1
    split
    · exact h1
    · have h2 := hbare (Dev.condOn { d1 with clk := { d1.clk with short := true } } .w blkClk 4)
        { d1 with clk := { d1.clk with short := true } } (bare_condOn ..)
      exact ⟨h2.1.trans h1.1, h2.2.trans h1.2⟩
  unfold Dev.startClocks
  split
  · exact ⟨rfl, rfl⟩
  · split
    · exact hend _
    · exact hfloors

/-- A release frees the array, and what it raises at severities below 3 calls for nothing else. -/
theorem release_spec (d : Dev) (l : Load) (hshort : d.mild .w blkClk 4) (hwest : d.mild .w blkFab 4) (heast : d.mild .e blkFab 4) :
    d.quiet (d.release l) ∧ (d.release l).cfg = (d.configuredBy l).cfg ∧ (d.release l).array = (d.configuredBy l).array := by
  have hraise (b : Bool) (d : Dev) (s : Side) (h : d.mild s blkFab 4) : d.Kept (if b = true then d.raise s blkFab 4 else d)
      ∧ (if b = true then d.raise s blkFab 4 else d).cfg = d.cfg ∧ (if b = true then d.raise s blkFab 4 else d).array = d.array := by
    have hbare := loadEnd_raise d s blkFab 4
    rw [loadEnd_iff] at hbare
    obtain ⟨hcfg, harray, -⟩ := hbare
    cases b
    · exact ⟨.refl d, rfl, rfl⟩
    · exact ⟨kept_raise h, hcfg, harray⟩
  have hfreed : d.quiet (d.configuredBy l) := by
    refine ⟨id, rfl, fun h => ?_, fun s => by cases s <;> exact id⟩
    exact absurd h Bool.false_ne_true
  have hclocks : (d.configuredBy l).Kept ((d.configuredBy l).startClocks none) := kept_startClocks none hshort
  have hsame := array_startClocks (d.configuredBy l) none
  unfold Dev.release
  extract_lets keep c a d1 d2 d3
  change (d.configuredBy l).Kept d2 at hclocks
  change d2.cfg = _ ∧ d2.array = _ at hsame
  have h2 : d.quiet d2 := hfreed.trans hclocks.quiet
  have hwest2 : d2.mild .w blkFab 4 := hclocks.mild hwest
  have heast2 : d2.mild .e blkFab 4 := hclocks.mild heast
  clear_value d2
  obtain ⟨hkept3, hcfg3, harray3⟩ := hraise (d2.clkConflict .w) d2 .w hwest2
  change d2.Kept d3 at hkept3
  change d3.cfg = _ at hcfg3
  change d3.array = _ at harray3
  have heast3 := hkept3.mild heast2
  clear_value d3
  obtain ⟨hkept4, hcfg4, harray4⟩ := hraise (d3.clkConflict .e) d3 .e heast3
  exact ⟨(h2.trans hkept3.quiet).trans hkept4.quiet, hcfg4.trans (hcfg3.trans hsame.1), harray4.trans (harray3.trans hsame.2)⟩

/-- A row that releases a load leaves the module configured by it. -/
theorem yields_release {c : Instr} {s : State} {f : Life → Dev → Dev} {e : Dev} {l m : Load} (hc : exec c s = running f s)
    (hpow : s.dev.powered = true) (hcalm : s.dev.calm) (hf : f s.fuse.life s.dev.mute = (e.release m).recordEnd s.fuse.life m 0 0)
    (he : s.dev.quiet e) (harray : e.array = s.dev.array) (hm : m.source = l.source ∧ m.service = l.service ∧ m.hdr = l.hdr)
    (hmild : e.mild .w blkClk 4 ∧ e.mild .w blkFab 4 ∧ e.mild .e blkFab 4) :
    Yields c s fun d => d.configured = true ∧ d.cfg.load = none ∧ d.cfg.source = l.source ∧ d.cfg.keyId = l.hdr.keyId
      ∧ d.cfg.hash = (if l.service = true then 0 else l.hdr.bodyHash)
      ∧ d.array.cells = s.dev.array.cells ∧ d.array.logic = s.dev.array.logic ∧ d.array.bmem = s.dev.array.bmem ∧ d.array.regs = [] := by
  obtain ⟨hshort, hwest, heast⟩ := hmild
  obtain ⟨hsource, hservice, hhdr⟩ := hm
  obtain ⟨hquiet, hcfg, hsame⟩ := release_spec e m hshort hwest heast
  obtain ⟨hrecord, -, x, hend⟩ := recordEnd_spec (e.release m) s.fuse.life m 0 0
  obtain ⟨hload, hstate, hsrc, hkey, hhash⟩ := reasoned_rest (e.release m).cfg m 0
  refine yields_quiet hc hpow hcalm hf (quiet_mutes ((he.trans hquiet).trans (quiet_recordOk ..).1)) fun d hd _ => ?_
  have hview := loadEnd_of_bare hd
  rw [loadEnd_iff] at hview
  obtain ⟨hdcfg, hdarray, -⟩ := hview
  have hfield {α : Type} (g : CfgSt → α) (hg : g { (e.release m).cfg.reasoned m 0 with ended := x } = g (e.release m).cfg) :
      g d.cfg = g (e.configuredBy m).cfg := by rw [hdcfg, hend, hg, hcfg]
  have harray' : d.array = (e.configuredBy m).array := hdarray.trans (hrecord.trans hsame)
  rw [← harray]
  refine ⟨?_, hfield _ hload, (hfield _ hsrc).trans hsource, (hfield _ hkey).trans ?_, (hfield _ hhash).trans ?_, ?_, ?_, ?_, ?_⟩
  · have h5 : d.cfg.state = 5 := hfield _ hstate
    simp [Dev.configured, h5]
  · exact congrArg ImgHeader.keyId hhdr
  · change (if m.service = true then 0 else m.hdr.bodyHash) = _
    rw [hservice, hhdr]
  all_goals
    rw [harray']
    rfl

/-! ### The rows -/

theorem gclrComplete_eq {d : Dev} (life : Life) {l : Load} (hload : d.cfg.load = some l) (h : l.pos = .clearing) :
    gclrComplete life [true, true, true] d = d.taken life { l with pos := .cells } 0 := by
  unfold gclrComplete
  rw [hload]
  exact if_pos h

/-- The header of a full image that has come is judged (R254). -/
theorem configCheckComplete_eq {d : Dev} (life : Life) (ident : Word × Nat × Word) {l : Load} (hload : d.cfg.load = some l)
    (hnew : l.passed = false) (hstore : l.store = none) (hfirst : leAt l.image 0 4 = 1) (hlong : 284 ≤ l.length) (hcome : 256 ≤ l.received) :
    let found := d.headerReason life ident (if l.source = 3 then some l.length else none) (l.image.take 256)
    (found = none → configCheckComplete life ident d = d.enterLoading life { l with hdr := parseHeader (l.image.take 256) } 256)
      ∧ ∀ r, found = some r → configCheckComplete life ident d = d.checkFail life l r 0 := by
  have h1 : ¬(l.passed = true ∨ l.received < 4) := by
    rw [hnew]
    rintro (h | h)
    · exact absurd h Bool.false_ne_true
    · omega
  have h2 : ¬(leAt l.image 0 4 = serviceWord ∧ l.source = 3) := fun h => absurd (hfirst.symm.trans h.1) (by decide)
  have h3 : ¬(leAt l.image 0 4 ≠ 1 ∨ l.length < 284) := by omega
  refine ⟨fun hpass => ?_, fun r hfail => ?_⟩
  all_goals
    unfold configCheckComplete
    rw [hload]
    dsimp only
    rw [if_neg h1, if_neg h2, if_neg h3, if_neg (by omega)]
  · rw [hpass, hstore]
  · rw [hfail]

/-- END where the stream ends: the load goes on to its end, and a service image is released (R257). -/
theorem streamEnd_eq {d : Dev} (life : Life) {l : Load} {n : Nat} (hload : d.cfg.load = some l) (hstore : l.store = none)
    (hpassed : l.passed = true) (hpos : l.pos = .started) (hnext : l.next (d.imageKey l).bodyKey = some (.ending, n))
    (hend : l.taken + 4 = l.streamEnd) :
    let e := Dev.taken { d with cfg := { d.cfg with state := 3 } } life { l with pos := .ended } n
    streamEnd life d = match e.cfg.load with
      | some m => if m.pos = .ended ∧ m.service = true then (e.release m).recordEnd life m 0 0 else e
      | none => e := by
  have hstream := streamCmd_on (act := fun c l d => match c with
      | .ending =>
        if l.pos ≠ .started then some (.fails rCommand d)
        else if l.taken + 4 ≠ l.streamEnd then some (.fails (if l.service then rCommand else rTrailer) d)
        else some (.on { l with pos := .ended } { d with cfg := { d.cfg with state := 3 } })
      | _ => none) (d := d) (e := { d with cfg := { d.cfg with state := 3 } }) (m := { l with pos := .ended }) (life := life) hload hstore hpassed
    (by rw [hpos]; exact ⟨nofun, nofun⟩) hnext nofun (by simp [hpos, hend])
  dsimp only
  rw [← hstream]
  rfl

/-- Answers that the loader owes change no severity. -/
theorem mild_taken {d : Dev} {s : Side} {b i : Nat} (life : Life) (l : Load) (n : Nat) (h : d.mild s b i) : (d.taken life l n).mild s b i := by
  have hkeep (x : Dev) (hx : x.mild s b i) (who : List (Nat × Reply)) :
      (who.foldl (fun d x => d.finish life x.2 stOk (beBytes 8 x.1)) x).mild s b i :=
    (kept_foldl (p := fun _ => True) who _ (fun _ _ _ _ => trivial) (fun d x _ _ => kept_finish _ _ _ _ fun h => absurd h (by decide)) x trivial).mild hx
  rw [taken_eq]
  cases hhungry : Load.hungry { l with taken := l.taken + n } ((d.holding { l with taken := l.taken + n }).imageKey _).bodyKey with
  | false =>
    rw [answerData_busy life rfl hhungry]
    exact h
  | true =>
    rw [answerData_hungry life rfl hhungry]
    refine hkeep _ ?_ _
    exact h

/-- A header that passes: the clear begins, and the load goes on behind the header (R253). -/
theorem yields_checked {s : State} {l : Load} (hpow : s.dev.powered = true) (hcalm : s.dev.calm) (hload : s.dev.cfg.load = some l)
    (hnew : l.passed = false) (hstore : l.store = none) (hfirst : leAt l.image 0 4 = 1) (hlong : 284 ≤ l.length) (hcome : 256 ≤ l.received)
    (hup : s.dev.stwDown = false)
    (hpass : s.dev.headerReason s.fuse.life s.ident (if l.source = 3 then some l.length else none) (l.image.take 256) = none) :
    Yields .configCheckComplete s fun d => ∃ r, d.bare
      = (s.dev.wiped.holding { l with passed := true, hdr := parseHeader (l.image.take 256), taken := l.taken + 256, replies := r }).bare := by
  have hrow := (configCheckComplete_eq (d := s.dev.mute) s.fuse.life s.ident hload hnew hstore hfirst hlong hcome).1 hpass
  refine yields_mono (yields_taken (f := fun life d => configCheckComplete life s.ident d) (e := s.dev.mute.wiped)
    (l := { l with hdr := parseHeader (l.image.take 256), passed := true }) (n := 256) rfl hpow hcalm (hrow.trans (enterLoading_eq ..)) ?_) fun d hd => ?_
  · exact quiet_wiped s.dev hup
  · obtain ⟨r, hbare, -⟩ := hd
    exact ⟨r, hbare⟩

/-- A header that fails: the result says why, and nothing else of the configuration has changed (R253). -/
theorem yields_refused {s : State} {l : Load} (hpow : s.dev.powered = true) (hload : s.dev.cfg.load = some l)
    (hnew : l.passed = false) (hstore : l.store = none) (hfirst : leAt l.image 0 4 = 1) (hlong : 284 ≤ l.length) (hcome : 256 ≤ l.received)
    (hsource : l.source = 3)
    (hfail : s.dev.headerReason s.fuse.life s.ident (if l.source = 3 then some l.length else none) (l.image.take 256) = some rSignature) :
    Yields .configCheckComplete s fun d => d.cfg.load = none ∧ d.cfg.state = l.prev ∧ d.array = s.dev.array
      ∧ d.rf 0 .cfgResult 0 31 24 = rSignature := by
  have hrow := (configCheckComplete_eq (d := s.dev.mute) s.fuse.life s.ident hload hnew hstore hfirst hlong hcome).2 _ hfail
  obtain ⟨hnone, hstate, harray, hresult⟩ := checkFail_spec s.dev.mute s.fuse.life rSignature 0 hstore hsource
  refine yields_loadEnd (f := fun life d => configCheckComplete life s.ident d) rfl hpow hrow hnone fun d hd => ?_
  obtain ⟨hdcfg, hdarray, hdresult, -⟩ := loadEnd_iff.mp hd
  have hsrc : l.src = 0 := by simp [Load.src, hstore, hsource]
  rw [hdcfg, hdarray, Dev.rf, hdresult, hresult, hsrc]
  exact ⟨hnone, hstate, harray, by decide⟩

/-- END of a full image: the image is verified next (R253). -/
theorem yields_ended {s : State} {l : Load} {n : Nat} (hpow : s.dev.powered = true) (hcalm : s.dev.calm) (hload : s.dev.cfg.load = some l)
    (hstore : l.store = none) (hpassed : l.passed = true) (hpos : l.pos = .started)
    (hnext : l.next (s.dev.imageKey l).bodyKey = some (.ending, n)) (hend : l.taken + 4 = l.streamEnd) :
    let e : Dev := { s.dev with cfg := { s.dev.cfg with state := 3 } }
    (l.service = false → Yields .streamEnd s fun d => ∃ r, d.bare = (e.holding { l with pos := .ended, taken := l.taken + n, replies := r }).bare)
    ∧ (l.service = true → s.dev.mild .w blkClk 4 → s.dev.mild .w blkFab 4 → s.dev.mild .e blkFab 4 →
      Yields .streamEnd s fun d => d.configured = true ∧ d.cfg.load = none ∧ d.cfg.source = l.source ∧ d.cfg.keyId = l.hdr.keyId
        ∧ d.cfg.hash = (if l.service = true then 0 else l.hdr.bodyHash)
        ∧ d.array.cells = s.dev.array.cells ∧ d.array.logic = s.dev.array.logic ∧ d.array.bmem = s.dev.array.bmem ∧ d.array.regs = []) := by
  have hrow := streamEnd_eq (d := s.dev.mute) s.fuse.life hload hstore hpassed hpos hnext hend
  have hset : s.dev.quiet (Dev.holding { s.dev with cfg := { s.dev.cfg with state := 3 } } { l with pos := .ended, taken := l.taken + n }) :=
    (quiet_setLoad (m := { l with pos := .ended, taken := l.taken + n }) hload rfl rfl).trans
      (quiet_setCfg (d := s.dev.holding { l with pos := .ended, taken := l.taken + n })
        (c := { (s.dev.holding { l with pos := .ended, taken := l.taken + n }).cfg with state := 3 }) id)
  obtain ⟨r, hbare, -, hquiet⟩ := taken_spec { s.dev.mute with cfg := { s.dev.mute.cfg with state := 3 } } s.fuse.life { l with pos := .ended } n
  have hmild {side : Side} {b i : Nat} (h : s.dev.mild side b i) := mild_taken (d := { s.dev.mute with cfg := { s.dev.mute.cfg with state := 3 } })
    (s := side) (b := b) (i := i) s.fuse.life { l with pos := .ended } n h
  dsimp only at hrow ⊢
  generalize Dev.taken { s.dev.mute with cfg := { s.dev.mute.cfg with state := 3 } } s.fuse.life { l with pos := .ended } n = e
    at hrow hbare hquiet hmild
  obtain ⟨hcfg, harray, -⟩ := loadEnd_iff.mp (loadEnd_of_bare hbare)
  rw [show e.cfg.load = some { l with pos := .ended, taken := l.taken + n, replies := r } from congrArg CfgSt.load hcfg] at hrow
  dsimp only at hrow
  refine ⟨fun hfull => ?_, fun hservice hshort hwest heast => ?_⟩
  · rw [if_neg (by rw [hfull]; exact fun h => Bool.false_ne_true h.2)] at hrow
    exact yields_quiet (f := fun life d => streamEnd life d) rfl hpow hcalm hrow (hset.trans hquiet) fun d hd _ => ⟨r, hd.trans hbare⟩
  · rw [if_pos ⟨rfl, hservice⟩] at hrow
    exact yields_release (f := fun life d => streamEnd life d) rfl hpow hcalm hrow (hset.trans hquiet) harray ⟨rfl, rfl, rfl⟩
      ⟨hmild hshort, hmild hwest, hmild heast⟩

/-- A load that no data comes for ends where it stands, and no CONFIG_END is owed an answer (R256, R359). -/
theorem yields_idleTimeout {s : State} {l : Load} (hpow : s.dev.powered = true) (hload : s.dev.cfg.load = some l) (hstore : l.store = none)
    (hsource : l.source = 3) (hlate : l.received < l.length) : Yields .configIdleTimeout s fun d => d.cfg.load = none ∧ d.cfg.ended = none
      ∧ if l.passed = true then d.cfg.state = 4 ∧ d.array = {} else d.cfg.state = l.prev ∧ d.array = s.dev.array := by
  have hrow : configIdleTimeout s.fuse.life s.dev.mute = { s.dev.mute.failHere s.fuse.life { l with finished := true } rTruncated with
      cfg := { (s.dev.mute.failHere s.fuse.life { l with finished := true } rTruncated).cfg with ended := none } } := by
    unfold configIdleTimeout
    rw [show s.dev.mute.cfg.load = some l from hload]
    exact if_neg (not_or.mpr ⟨not_not.mpr hsource, Nat.not_le.mpr hlate⟩)
  have hfail : (s.dev.mute.failHere s.fuse.life { l with finished := true } rTruncated).cfg.load = none
      ∧ if l.passed = true then (s.dev.mute.failHere s.fuse.life { l with finished := true } rTruncated).cfg.state = 4
          ∧ (s.dev.mute.failHere s.fuse.life { l with finished := true } rTruncated).array = {}
        else (s.dev.mute.failHere s.fuse.life { l with finished := true } rTruncated).cfg.state = l.prev
          ∧ (s.dev.mute.failHere s.fuse.life { l with finished := true } rTruncated).array = s.dev.array := by
    unfold Dev.failHere
    dsimp only
    split
    · obtain ⟨hnone, hstate, harray, -⟩ := loadFail_spec s.dev.mute s.fuse.life (l := { l with finished := true }) rTruncated l.taken hstore
      exact ⟨hnone, hstate, harray⟩
    · obtain ⟨hnone, hstate, harray, -⟩ := checkFail_spec s.dev.mute s.fuse.life (l := { l with finished := true }) rTruncated l.taken
        hstore hsource
      exact ⟨hnone, hstate, harray⟩
  generalize s.dev.mute.failHere s.fuse.life { l with finished := true } rTruncated = e at hrow hfail
  refine yields_loadEnd (f := fun life d => configIdleTimeout life d) rfl hpow hrow hfail.1 fun d hd => ?_
  obtain ⟨hdcfg, hdarray, -⟩ := loadEnd_iff.mp hd
  rw [hdcfg, hdarray]
  exact ⟨hfail.1, rfl, hfail.2⟩

/-- The module with a slot programmed (R258). -/
def Dev.programmed (d : Dev) (n : Nat) (l : Load) : Dev :=
  { d with dbg := { d.dbg with flash := tblit 0xFF d.dbg.flash (slotBase n) (l.image.map (BitVec.ofNat 8)) } }

/-- A store whose data has all come: the slot is VALID when what it holds agrees with its header (R258). -/
theorem configStoreComplete_eq {d : Dev} (life : Life) {l : Load} {n : Nat} (hload : d.cfg.load = some l) (hstore : l.store = some n)
    (hpassed : l.passed = true) (hcome : l.length ≤ l.received) (hfinished : l.finished = true) :
    configStoreComplete life [] d =
      if bodyHashOf ((d.programmed n l).slotBytes n l.length) = (parseHeader ((d.programmed n l).slotBytes n 256)).bodyHash then
        Dev.recordEnd { d.programmed n l with cfg := ({ (d.programmed n l).cfg with load := none }).setSlot n { valid := true, reason := 0 } }
          life l 0 0
      else d.loadFail life l rHash 0x100 := by
  unfold configStoreComplete
  rw [hload]
  dsimp only
  rw [hstore]
  dsimp only
  rw [if_neg (by simp [hpassed, hcome, hfinished])]
  rfl

theorem yields_stored {s : State} {l : Load} {n : Nat} (hpow : s.dev.powered = true) (hcalm : s.dev.calm) (hload : s.dev.cfg.load = some l)
    (hstore : l.store = some n) (hpassed : l.passed = true) (hcome : l.length ≤ l.received) (hfinished : l.finished = true) :
    Yields (.configStoreComplete []) s fun d => d.cfg.load = none ∧ d.cfg.state = s.dev.cfg.state ∧ d.array = s.dev.array
      ∧ if bodyHashOf ((s.dev.programmed n l).slotBytes n l.length) = (parseHeader ((s.dev.programmed n l).slotBytes n 256)).bodyHash then
          d.cfg.slot n = { valid := true, reason := 0 } ∧ d.dbg.flash = (s.dev.programmed n l).dbg.flash
        else d.cfg.slot n = { valid := false, reason := rHash } := by
  have hrow := configStoreComplete_eq (d := s.dev.mute) s.fuse.life hload hstore hpassed hcome hfinished
  change _ = if bodyHashOf ((s.dev.programmed n l).slotBytes n l.length) = (parseHeader ((s.dev.programmed n l).slotBytes n 256)).bodyHash then
    _ else _ at hrow
  have hset (c : CfgSt) (x : CfgSlot) : (c.setSlot n x).load = c.load ∧ (c.setSlot n x).state = c.state := by
    unfold CfgSt.setSlot
    split <;> exact ⟨rfl, rfl⟩
  split
  next hagree =>
    rw [if_pos hagree] at hrow
    have hslot : l.slotOf = some n := by
      unfold Load.slotOf
      rw [hstore]
    have hquiet : s.dev.quiet { s.dev.programmed n l with
        cfg := ({ (s.dev.programmed n l).cfg with load := none }).setSlot n { valid := true, reason := 0 } } := by
      refine (quiet_setLarder s.dev s.dev.ldr (s.dev.programmed n l).dbg).trans (quiet_setCfg fun h => ?_)
      rw [(hset ..).1] at h
      exact absurd h Bool.false_ne_true
    refine yields_quiet (f := fun life d => configStoreComplete life [] d) rfl hpow hcalm hrow
      (hquiet.trans (quiet_recordOk ..).1) fun d hd _ => ?_
    obtain ⟨hdcfg, hdarray, -⟩ := loadEnd_iff.mp (loadEnd_of_bare hd)
    have hdbg := dbg_of_bare hd
    rw [(quiet_recordOk ..).2] at hdbg
    obtain ⟨harray, -, x, hcfg⟩ := recordEnd_spec { s.dev.mute.programmed n l with
      cfg := ({ (s.dev.mute.programmed n l).cfg with load := none }).setSlot n { valid := true, reason := 0 } } s.fuse.life l 0 0
    obtain ⟨hnone, hstate, -⟩ := reasoned_rest (({ (s.dev.mute.programmed n l).cfg with load := none }).setSlot n
      { valid := true, reason := 0 }) l 0
    have hreason := slot_reasoned (({ (s.dev.mute.programmed n l).cfg with load := none }).setSlot n { valid := true, reason := 0 }) 0 hslot
    rw [cfgSlot_setSlot] at hreason
    rw [hdcfg, hdarray, hdbg, hcfg]
    exact ⟨hnone.trans (hset ..).1, hstate.trans (hset ..).2, harray, hreason, rfl⟩
  next hdiffer =>
    rw [if_neg hdiffer] at hrow
    obtain ⟨hnone, hstate, harray, hslot⟩ := loadFail_store s.dev.mute s.fuse.life rHash 0x100 hstore
    refine yields_loadEnd (f := fun life d => configStoreComplete life [] d) rfl hpow hrow hnone fun d hd => ?_
    obtain ⟨hdcfg, hdarray, -⟩ := loadEnd_iff.mp hd
    rw [hdcfg, hdarray]
    exact ⟨hnone, hstate, harray, hslot⟩

/-- Auto-load of the slot that CFG_BOOT names, when its header is valid (R259). -/
theorem autoloadStart_eq {d : Dev} (hstate : d.cfg.state = 0) (hnone : d.cfg.load = none) (hstarted : d.west.tsk.started = true)
    (hauto : d.rf 0 .cfgBoot 0 0 0 = 1) (hvalid : (d.cfg.slot (d.rf 0 .cfgBoot 0 1 1)).valid = true) :
    autoloadStart d = d.tryAuto (d.rf 0 .cfgBoot 0 1 1) [1 - d.rf 0 .cfgBoot 0 1 1] := by
  have hgo : (decide (d.cfg.state ≠ 0) || d.cfg.load.isSome || !d.west.tsk.started || decide (d.rf 0 .cfgBoot 0 0 0 = 0)) = false := by
    simp [hstate, hnone, hstarted, hauto]
  unfold autoloadStart
  rw [if_neg (by rw [hgo]; exact Bool.false_ne_true)]
  exact if_pos hvalid

theorem tryAuto_spec (d : Dev) (n : Nat) (rest : List Nat) : ∃ l : Load,
    d.tryAuto n rest = { d with cfg := { d.cfg with auto := rest, state := 1, load := some l } }
      ∧ l.source = n + 1 ∧ l.store = none ∧ l.passed = false ∧ l.taken = 0 ∧ l.image = d.slotBytes n l.length := by
  unfold Dev.tryAuto
  extract_lets len
  clear_value len
  exact ⟨{ source := n + 1, length := len, image := d.slotBytes n len }, rfl, rfl, rfl, rfl, rfl, rfl⟩

/-- Settles O19: each row by the branch of its rule that the conditions choose, with what that branch records. -/
theorem loadEnds : Obligations.LoadEnds := by
  unfold Obligations.LoadEnds
  dsimp only
  intro s hpow hcalm
  refine ⟨fun l hload => ⟨fun hpos => ?_, fun hnew hstore hfirst hlong hcome hup hmild hfound => ?_,
    fun n hpassed hpos hstore hnext hend => ⟨fun hfull => ?_, fun hservice hshort hwest heast => ?_⟩,
    fun hpos hcome hhash htrailer hframes hshort hwest heast => ?_, fun hsource hstore hlate hmild => ?_,
    fun n hstore hn hpassed hcome hfinished hmild => ?_⟩, fun hstate h1 h2 => ?_, fun hstate hnone hstarted hauto hvalid => ?_⟩
  · refine yields_mono (yields_taken (f := fun life d => gclrComplete life [true, true, true] d) (e := s.dev.mute)
      (l := { l with pos := .cells }) (n := 0) rfl hpow hcalm (gclrComplete_eq _ hload hpos) ?_) fun d hd => ?_
    · exact quiet_setLoad (d := s.dev) hload rfl rfl
    · obtain ⟨r, hbare, -⟩ := hd
      exact ⟨r, hbare⟩
  · obtain hpass | ⟨hsource, hfail⟩ := hfound
    · refine yields_mono (yields_checked hpow hcalm hload hnew hstore hfirst hlong hcome hup hpass) fun d hd => ?_
      rw [if_pos hpass]
      exact hd
    · refine yields_mono (yields_refused hpow hload hnew hstore hfirst hlong hcome hsource hfail) fun d hd => ?_
      rw [if_neg (by rw [hfail]; exact nofun)]
      exact hd
  · exact (yields_ended hpow hcalm hload hstore hpassed hpos hnext hend).1 hfull
  · refine yields_mono ((yields_ended hpow hcalm hload hstore hpassed hpos hnext hend).2 hservice hshort hwest heast) fun d hd => ?_
    rw [if_pos hservice] at hd
    exact hd
  · have hrow : configVerifyComplete s.fuse.life s.dev.mute
        = (s.dev.mute.release { l with taken := l.length }).recordEnd s.fuse.life { l with taken := l.length } 0 0 := by
      unfold configVerifyComplete
      rw [show s.dev.mute.cfg.load = some l from hload]
      dsimp only
      rw [if_neg (by simp [hpos, hcome]), if_neg (not_not.mpr hhash), if_neg (by simp [htrailer, hframes])]
    exact yields_release (f := fun life d => configVerifyComplete life d) rfl hpow hcalm hrow (.refl s.dev) rfl ⟨rfl, rfl, rfl⟩
      ⟨hshort, hwest, heast⟩
  · exact yields_idleTimeout hpow hload hstore hsource hlate
  · exact yields_stored hpow hcalm hload hstore hpassed hcome hfinished
  · have hrow : configClearComplete s.dev.mute = { s.dev.mute with cfg := { s.dev.mute.cfg with state := 0 } } := by
      unfold configClearComplete
      rw [if_neg (c := s.dev.mute.cfg.state ≠ 4) (not_not.mpr hstate)]
      exact if_neg (not_or.mpr ⟨h1, h2⟩)
    exact yields_quiet (f := fun _ d => configClearComplete d) rfl hpow hcalm hrow (quiet_setCfg (d := s.dev) id) fun d hd _ => hd
  · have hrow := autoloadStart_eq (d := s.dev.mute) hstate hnone hstarted hauto hvalid
    obtain ⟨l, heq, hsource, hstore, hpassed, htaken, himage⟩ := tryAuto_spec s.dev.mute (s.dev.rf 0 .cfgBoot 0 1 1) [1 - s.dev.rf 0 .cfgBoot 0 1 1]
    refine yields_quiet (f := fun _ d => autoloadStart d) rfl hpow hcalm (hrow.trans heq) ?_ fun d hd _ => ?_
    · refine quiet_setCfg (d := s.dev) fun h => ?_
      simp [Load.cutOff, hpassed] at h
    · obtain ⟨hcfg, -⟩ := loadEnd_iff.mp (loadEnd_of_bare hd)
      rw [hcfg]
      exact ⟨rfl, rfl, l, rfl, hsource, hstore, hpassed, htaken, himage⟩

end Sys2Proof.Machine
end

section
/-! PROOFS. The end of a flush, the record queue and the spoil cache (chapter 6). -/
namespace Sys2Proof.Machine
open Sys2Proof.Safety

/-! ## The end of a flush (R130, R137, R183) -/

/-- A half as the end of a burst finds it, without what the engine writes out and whether a timing rule has acted. -/
def Half.wound (h : Half) : FaceSt × QrySt × Drill × Drill × ShelfSt :=
  ({ h.face with burst := { h.face.burst with timingRule := false } }, { h.qry with cache := [], openRecs := [], written := false },
    h.drl0, h.drl1, h.shelf)

/-- From one state to a later one a half winds up: nothing requests the SAFE net or cuts a load, and its sequencer, its drills and its
loader stand as they did. -/
structure Dev.Winds (s : Side) (d e : Dev) : Prop where
  hush : d.hush e
  severity : ∀ t b, (e.page t b).severity = (d.page t b).severity
  powered : e.powered = d.powered
  grows : d.grows e
  half : (e.half s).wound = (d.half s).wound

theorem Dev.Winds.refl (s : Side) (d : Dev) : d.Winds s d := ⟨(Dev.quiet.refl d).hush, fun _ _ => rfl, rfl, .refl d, rfl⟩

theorem Dev.Winds.trans {s : Side} {d e f : Dev} (h : d.Winds s e) (k : e.Winds s f) : d.Winds s f :=
  ⟨h.hush.trans k.hush, fun t b => (k.severity t b).trans (h.severity t b), k.powered.trans h.powered, h.grows.trans k.grows,
    k.half.trans h.half⟩

theorem Dev.Winds.mild {s : Side} {d e : Dev} (h : d.Winds s e) {t : Side} {b i : Nat} (k : d.mild t b i) : e.mild t b i :=
  mild_of_severity (h.severity ..) (h.severity ..) k

/-- What of the sequencer does not say whether a timing rule has acted stands as it did. -/
theorem Dev.Winds.face {s : Side} {d e : Dev} {α : Type} (h : d.Winds s e) (g : FaceSt → α)
    (hg : ∀ f : FaceSt, g { f with burst := { f.burst with timingRule := false } } = g f) : g (e.half s).face = g (d.half s).face := by
  have hface := congrArg (fun x => g x.1) h.half
  exact (hg _).symm.trans (hface.trans (hg _))

theorem Dev.Winds.qry {s : Side} {d e : Dev} {α : Type} (h : d.Winds s e) (g : QrySt → α)
    (hg : ∀ q : QrySt, g { q with cache := [], openRecs := [], written := false } = g q) : g (e.half s).qry = g (d.half s).qry := by
  have hqry := congrArg (fun x => g x.2.1) h.half
  exact (hg _).symm.trans (hqry.trans (hg _))

theorem Dev.Winds.engines {s : Side} {d e : Dev} (h : d.Winds s e) :
    (e.half s).drl0 = (d.half s).drl0 ∧ (e.half s).drl1 = (d.half s).drl1 ∧ (e.half s).shelf = (d.half s).shelf := by
  have hhalf := h.half
  simp only [Half.wound, Prod.mk.injEq] at hhalf
  obtain ⟨-, -, hengines⟩ := hhalf
  exact hengines

section
variable {d : Dev} {s : Side}

theorem winds_mod {f : Half → Half} (hstw : (f (d.half s)).stw = (d.half s).stw)
    (htsk : (f (d.half s)).tsk.started = (d.half s).tsk.started) (h : (f (d.half s)).wound = (d.half s).wound) : d.Winds s (d.mod s f) where
  hush := hush_mod hstw htsk
  severity t b := by rw [page_of_pages (pages_mod ..)]
  powered := powered_mod ..
  grows := grows_mod ..
  half := by rw [half_mod_same, h]

theorem winds_raise {t : Side} {b i : Nat} (h : d.mild t b i) : d.Winds s (d.raise t b i) where
  hush := (quiet_mildRaise h).hush
  severity _ _ := severity_raise ..
  powered := powered_of_bare (bare_raise ..)
  grows := grows_raise ..
  half := by
    obtain ⟨t', ht⟩ := half_eq_of_bare (bare_raise d t b i) s
    rw [ht]
    rfl

theorem winds_setRg (n : Nat) (r : Rg) (i : Nat) (v : Word) : d.Winds s (d.setRg n r i v) where
  hush := (quiet_setRg ..).hush
  severity t b := by rw [page_of_pages (Dev.setRg_pages ..)]
  powered := rfl
  grows := grows_setRg ..
  half := by cases s <;> rfl

theorem winds_emit (o : Out) : d.Winds s (d.emit o) := ⟨⟨id, rfl, id⟩, fun _ _ => rfl, rfl, grows_emit .., by cases s <;> rfl⟩

theorem winds_draw : d.Winds s d.draw := ⟨⟨id, rfl, id⟩, fun _ _ => rfl, rfl, grows_draw d, by cases s <;> rfl⟩

theorem winds_modChan (ch : Nat) (f : Chan → Chan) : d.Winds s (d.mod s fun h => h.modChan ch f) := winds_mod rfl rfl rfl

theorem winds_ruleBroken {ch flag src : Nat} (h : d.mild s blkTch src) : d.Winds s (d.ruleBroken s ch flag src) := by
  unfold Dev.ruleBroken
  dsimp only
  have h1 := winds_setRg (d := d) (s := s) s.code .tchFlags ch (bitSet (d.rg s.code .tchFlags ch) flag)
  have h2 := h1.trans (winds_mod (f := Half.timingRule) rfl rfl rfl)
  exact h2.trans (winds_raise (h2.mild h))

theorem winds_endPin (ch : Nat) (i : Issue) (enable : Bool) (h3 : d.mild s blkTch 3) (h5 : d.mild s blkTch 5) :
    d.Winds s (d.endPin s ch i enable) := by
  have hbroken (b : Bool) (d : Dev) (flag src : Nat) (h : d.mild s blkTch src) : d.Winds s (if b = true then d.ruleBroken s ch flag src else d) := by
    cases b
    · exact .refl s d
    · exact winds_ruleBroken h
  have hedge (d : Dev) (l : Bool) (p : Int) : d.Winds s (d.edge s ch enable l p) := by
    unfold Dev.edge
    split
    · exact .refl s d
    · exact winds_emit _
  unfold Dev.endPin
  dsimp only
  split
  · exact .refl s d
  · refine Dev.Winds.trans (Dev.Winds.trans (Dev.Winds.trans (hbroken _ d 3 3 h3) (hbroken _ _ 5 5 ?_)) (hedge ..)) (winds_modChan ..)
    exact (hbroken _ d 3 3 h3).mild h5

/-- The end event moves pins, and nothing else of the half (R66). -/
theorem winds_endEvent (h3 : d.mild s blkTch 3) (h5 : d.mild s blkTch 5) : d.Winds s (d.endEvent s) := by
  have hpins (d : Dev) (ch : Nat) (i : Issue) (h : d.mild s blkTch 3 ∧ d.mild s blkTch 5) :
      d.Winds s (if d.chanOn s ch then (d.endPin s ch i false).endPin s ch i true else d) := by
    obtain ⟨h3, h5⟩ := h
    split
    · have h1 := winds_endPin ch i false h3 h5
      exact h1.trans (winds_endPin ch i true (h1.mild h3) (h1.mild h5))
    · exact .refl s d
  unfold Dev.endEvent
  split
  · exact .refl s d
  · exact foldl_rel (R := Dev.Winds s) (p := fun d => d.mild s blkTch 3 ∧ d.mild s blkTch 5) (.refl s) (fun _ _ _ h k => h.trans k)
      (fun _ _ h k => ⟨h.mild k.1, h.mild k.2⟩) _ _ (fun d kv _ hd => (hpins d kv.1 _ hd).trans (winds_modChan ..)) d ⟨h3, h5⟩

theorem winds_modQuad (q : Nat) (f : Quad → Quad) : d.Winds s (d.modQuad s q f) := winds_mod rfl rfl rfl

theorem winds_haulSend (q ft : Nat) (fields : List Nat) : d.Winds s (d.haulSend s q ft fields).1 := by
  unfold Dev.haulSend Dev.haulOut
  split
  · exact .refl s d
  · dsimp only
    exact (((winds_modQuad ..).trans (winds_modQuad ..)).trans (winds_emit _)).trans winds_draw

/-- A full line of the LOG file goes to the quads as a copy (R390). -/
theorem winds_spoilCopy (id line : Nat) : d.Winds s (d.spoilCopy s id line) := by
  unfold Dev.spoilCopy
  split
  · exact .refl s d
  · refine foldl_rel (R := Dev.Winds s) (p := fun _ => True) (.refl s) (fun _ _ _ h k => h.trans k) (fun _ _ _ _ => trivial) _ _
      (fun d q _ _ => ?_) d trivial
    split
    · exact winds_haulSend ..
    · exact .refl s d

/-! ### What the engine writes -/

/-- A half but for the contents of its files, and what the engine still has to write into them. -/
def Half.unsaved (h : Half) : Half := { h with files := [], qry := { h.qry with cache := [], openRecs := [], written := false } }

theorem winds_unsaved {f : Half → Half} (h : (f (d.half s)).unsaved = (d.half s).unsaved) : d.Winds s (d.mod s f) := by
  refine winds_mod ?_ ?_ ?_
  · have hstw := congrArg Half.stw h
    exact hstw
  · have htsk := congrArg (fun h : Half => h.tsk.started) h
    exact htsk
  · have hwound := congrArg Half.wound h
    exact hwound

theorem unsaved_foldl {α : Type} (l : List α) (f : Half → α → Half) (hf : ∀ h x, (f h x).unsaved = h.unsaved) (h : Half) :
    (l.foldl f h).unsaved = h.unsaved := by
  induction l generalizing h with
  | nil => rfl
  | cons x l ih => exact (ih _).trans (hf h x)

theorem unsaved_writeBack (h : Half) (id : Nat) (c : CLine) : (h.writeBack id c).unsaved = h.unsaved := by
  unfold Half.writeBack
  split <;> rfl

theorem unsaved_emptyCache (h : Half) : { h with qry := { h.qry with cache := [] } }.unsaved = h.unsaved := rfl

theorem winds_flushCache : d.Winds s (d.flushCache s) := by
  refine winds_unsaved ?_
  split
  · rfl
  · exact (unsaved_emptyCache _).trans (unsaved_foldl _ _ (fun h kv => unsaved_foldl _ _ (fun h c => unsaved_writeBack ..) h) _)

theorem unsaved_writeProducts (h : Half) : h.writeProducts.unsaved = h.unsaved := by
  have hput (h : Half) (o : Option Nat) (bs : List Byte) : (match o with
      | none => h
      | some id => h.modFile id fun f => f.put 0 bs).unsaved = h.unsaved := by
    cases o <;> rfl
  have hdone (h : Half) : { h with qry := { h.qry with written := true } }.unsaved = h.unsaved := rfl
  unfold Half.writeProducts
  extract_lets q w h1 h2 h3
  have e1 : h1.unsaved = h.unsaved := hput h _ _
  clear_value h1
  have e2 : h2.unsaved = h1.unsaved := hput h1 _ _
  clear_value h2
  have e3 : h3.unsaved = h2.unsaved := hput h2 _ _
  clear_value h3
  exact (hdone h3).trans (e3.trans (e2.trans e1))

theorem winds_writeProducts : d.Winds s (d.mod s Half.writeProducts) := winds_unsaved (unsaved_writeProducts _)

/-! ### The burst ends -/

/-- A half whose burst is over, from the half as its flush found it. -/
structure Half.Over (h k : Half) : Prop where
  done : k.face.state = .done
  ready : k.face.ready = true
  written : k.face.burst.unwritten = false
  record : ∃ r : Record, k.face.records = h.face.records ++ [r] ∧ r.burst = h.face.fires ∧ r.got = false
  idle : k.qry.state = .idle
  queue : k.qry.queue = h.qry.queue
  updates : k.qry.updates = h.qry.updates
  lost : k.qry.lost = h.qry.lost
  drl0 : k.drl0 = h.drl0.stop
  drl1 : k.drl1 = h.drl1.stop
  shelf : k.shelf = h.shelf.stopLoad

/-- The half without its burst, and the record of it. -/
def Half.closed (h : Half) (bytes : List Byte) : Half :=
  { h with
    files := h.files.map fun f => { f with live := false }
    face := { h.face with records := h.face.records ++ [{ burst := h.face.fires, bytes := bytes }], ready := true, issues := [],
                          burst := { h.face.burst with unwritten := false } }
    qry := { h.qry with state := .idle, quarantined := h.qry.quarantined || h.face.burst.integ }
    drl0 := h.drl0.stop
    drl1 := h.drl1.stop
    shelf := h.shelf.stopLoad
    xts := { h.xts with checks := [] }
    cal := { h.cal with older := [] } }

/-- The half that has drained. -/
def Half.finished (h : Half) : Half := { h with face := { h.face with state := .done } }

theorem endBurst_eq (h : (d.half s).face.state = .draining) (harm : ((d.endEvent s).half s).face.arming = false) :
    ∃ bytes n, d.endBurst s = (((d.endEvent s).mod s Half.finished).mod s fun h => h.closed bytes).event 4 (evSrc s blkFace) n := by
  have hidle (bytes : List Byte) : ((((d.endEvent s).mod s Half.finished).mod s fun h => h.closed bytes).mod s
      fun h => if h.face.arming then h.openArm else h) = ((d.endEvent s).mod s Half.finished).mod s fun h => h.closed bytes := by
    refine Eq.trans (mod_congr (g := fun h => h) (if_neg ?_)) (mod_id ..)
    rw [half_mod_same, half_mod_same]
    simp [Half.closed, Half.finished, harm]
  unfold Dev.endBurst
  rw [if_pos h]
  dsimp only
  exact ⟨_, _, congrArg (fun e : Dev => e.event 4 (evSrc s blkFace) (e.half s).face.fires) (hidle _)⟩

/-- The end of a burst whose flush is over (R130, R137). -/
theorem endBurst_spec (h : (d.half s).face.state = .draining) (harm : (d.half s).face.arming = false) (h3 : d.mild s blkTch 3)
    (h5 : d.mild s blkTch 5) : let e := d.endBurst s
    d.hush e ∧ (∀ t b, (e.page t b).severity = (d.page t b).severity) ∧ e.powered = d.powered ∧ d.grows e ∧ (d.half s).Over (e.half s) := by
  have hw := winds_endEvent h3 h5
  obtain ⟨hdrl0, hdrl1, hshelf⟩ := hw.engines
  obtain ⟨bytes, n, heq⟩ := endBurst_eq h ((hw.face FaceSt.arming fun _ => rfl).trans harm)
  have hhush : (d.endEvent s).hush (((d.endEvent s).mod s Half.finished).mod s fun h => h.closed bytes) :=
    (hush_mod rfl rfl).trans (hush_mod rfl rfl)
  have hpages : (((d.endEvent s).mod s Half.finished).mod s fun h => h.closed bytes).pages = (d.endEvent s).pages := by
    rw [pages_mod, pages_mod]
  have hpowered : (((d.endEvent s).mod s Half.finished).mod s fun h => h.closed bytes).powered = (d.endEvent s).powered := by
    rw [powered_mod, powered_mod]
  have hgrows : (d.endEvent s).grows (((d.endEvent s).mod s Half.finished).mod s fun h => h.closed bytes) := (grows_mod ..).trans (grows_mod ..)
  have hclosed : (((d.endEvent s).mod s Half.finished).mod s fun h => h.closed bytes).half s
      = ((d.endEvent s).half s).finished.closed bytes := by
    rw [half_mod_same, half_mod_same]
  dsimp only
  rw [heq]
  generalize ((d.endEvent s).mod s Half.finished).mod s (fun h => h.closed bytes) = e at hhush hpages hpowered hgrows hclosed
  obtain ⟨t, ht⟩ := half_eq_of_bare (bare_event e 4 (evSrc s blkFace) n) s
  refine ⟨(hw.hush.trans hhush).trans (quiet_event ..).hush, fun t b => ?_, ?_, (hw.grows.trans hgrows).trans (grows_event ..), ?_⟩
  · rw [page_of_pages (show (e.event 4 (evSrc s blkFace) n).pages = e.pages by simp only [Dev.event]), page_of_pages hpages]
    exact hw.severity t b
  · rw [powered_of_bare (bare_event ..), hpowered]
    exact hw.powered
  · rw [ht, hclosed]
    exact {
      done := rfl, ready := rfl, written := rfl, idle := rfl
      record := ⟨_, congrArg (· ++ _) (hw.face FaceSt.records fun _ => rfl), hw.face FaceSt.fires fun _ => rfl, rfl⟩
      queue := hw.qry QrySt.queue fun _ => rfl
      updates := hw.qry QrySt.updates fun _ => rfl
      lost := hw.qry QrySt.lost fun _ => rfl
      drl0 := congrArg Drill.stop hdrl0
      drl1 := congrArg Drill.stop hdrl1
      shelf := congrArg ShelfSt.stopLoad hshelf }

/-! ### The flush that completes -/

theorem closeWindows_none (h : ∀ kv ∈ (d.half s).tch.chans, kv.2.win = none) : d.closeWindows s = d := by
  have hopen : ((d.half s).tch.chans.filterMap fun kv => kv.2.win.map fun w => (kv.1, w)) = [] := by
    rw [List.filterMap_eq_nil_iff]
    intro kv hkv
    rw [h kv hkv]
    rfl
  unfold Dev.closeWindows
  dsimp only
  rw [hopen]
  cases (d.half s).face.last <;> rfl

theorem closeRecords_none (h : (d.half s).qry.openRecs = []) : d.closeRecords s = d := by
  have hsame : (d.mod s fun h => { h with qry := { h.qry with openRecs := [] } }) = d := by
    refine Eq.trans (mod_congr (g := fun h => h) ?_) (mod_id d s)
    dsimp only
    rw [← h]
  unfold Dev.closeRecords
  dsimp only
  rw [h]
  exact hsame

theorem drainAll_none (n : Nat) (h : (d.half s).qry.queue = []) : d.drainAll s n = d := by
  cases n with
  | zero => rfl
  | succ n =>
    unfold Dev.drainAll
    rw [h]
    rfl

theorem pumpAll_none (n : Nat) (hupd : (d.half s).qry.updates = []) (hmiss : (d.half s).qry.misses = []) : d.pumpAll s n = d := by
  cases n with
  | zero => rfl
  | succ n =>
    unfold Dev.pumpAll
    rw [hmiss, hupd]
    rfl

/-- What a half's burst leaves does not depend on what its end found written out. -/
theorem Half.Over.of_winds {e : Dev} {k : Half} (hw : d.Winds s e) (h : (e.half s).Over k) : (d.half s).Over k := by
  obtain ⟨hdrl0, hdrl1, hshelf⟩ := hw.engines
  obtain ⟨r, hr, hburst, hgot⟩ := h.record
  exact {
    done := h.done, ready := h.ready, written := h.written, idle := h.idle
    record := ⟨r, by rw [hr, hw.face FaceSt.records fun _ => rfl], by rw [hburst, hw.face FaceSt.fires fun _ => rfl], hgot⟩
    queue := h.queue.trans (hw.qry QrySt.queue fun _ => rfl)
    updates := h.updates.trans (hw.qry QrySt.updates fun _ => rfl)
    lost := h.lost.trans (hw.qry QrySt.lost fun _ => rfl)
    drl0 := h.drl0.trans (congrArg Drill.stop hdrl0)
    drl1 := h.drl1.trans (congrArg Drill.stop hdrl1)
    shelf := h.shelf.trans (congrArg ShelfSt.stopLoad hshelf) }

/-- An engine that holds nothing writes its products, and the burst is over. -/
theorem quarryFlushComplete_spec (hstate : (d.half s).face.state = .draining) (harm : (d.half s).face.arming = false)
    (hdrained : (d.half s).drained = true) (hwins : ∀ kv ∈ (d.half s).tch.chans, kv.2.win = none)
    (hopen : (d.half s).qry.openRecs = []) (hqueue : (d.half s).qry.queue = []) (hupd : (d.half s).qry.updates = [])
    (hmiss : (d.half s).qry.misses = []) (h3 : d.mild s blkTch 3) (h5 : d.mild s blkTch 5) : let e := quarryFlushComplete s d
    d.hush e ∧ (∀ t b, (e.page t b).severity = (d.page t b).severity) ∧ e.powered = d.powered ∧ (d.half s).Over (e.half s) := by
  have hspoil (d : Dev) (o : Option Nat) (line : Nat) (p : Prop) [Decidable p] : d.Winds s (match o with
      | some id => if p then d.spoilCopy s id line else d
      | none => d) := by
    cases o with
    | none => exact .refl s d
    | some id =>
      dsimp only
      split
      · exact winds_spoilCopy ..
      · exact .refl s d
  have hgo : ¬(!(decide ((d.half s).face.state = .draining) && (d.half s).drained || (d.half s).face.flushing)) = true := by
    simp [hstate, hdrained]
  dsimp only
  unfold quarryFlushComplete
  dsimp only
  rw [if_neg hgo, if_pos hstate, closeWindows_none hwins, closeRecords_none hopen, drainAll_none _ hqueue, pumpAll_none _ hupd hmiss]
  suffices h : ∀ e : Dev, d.Winds s e → d.hush (e.endBurst s) ∧ (∀ t b, ((e.endBurst s).page t b).severity = (d.page t b).severity)
      ∧ (e.endBurst s).powered = d.powered ∧ (d.half s).Over ((e.endBurst s).half s) from
    h _ ((winds_flushCache.trans winds_writeProducts).trans (hspoil ..))
  intro e hw
  obtain ⟨hhush, hsev, hpowered, -, hover⟩ := endBurst_spec ((hw.face FaceSt.state fun _ => rfl).trans hstate)
    ((hw.face FaceSt.arming fun _ => rfl).trans harm) (hw.mild h3) (hw.mild h5)
  exact ⟨hw.hush.trans hhush, fun t b => (hsev t b).trans (hw.severity t b), hpowered.trans hw.powered, .of_winds hw hover⟩

/-- Lost items are counted, and the first of them is raised (R183). -/
theorem lose_spec (n : Nat) (h : d.mild s blkQry 0) : let e := d.lose s n
    d.hush e ∧ (∀ t b, (e.page t b).severity = (d.page t b).severity) ∧ e.powered = d.powered
      ∧ d.grows e ∧ ∃ o t, e.half s = { d.half s with tsk := t, qry := { (d.half s).qry with lost := (d.half s).qry.lost + n, overflow := o } } := by
  dsimp only
  unfold Dev.lose
  split
  next hn =>
    subst hn
    exact ⟨(Dev.quiet.refl d).hush, fun _ _ => rfl, rfl, .refl d, (d.half s).qry.overflow, (d.half s).tsk, rfl⟩
  next hn =>
    dsimp only
    have hhalf : (d.mod s fun h => { h with qry := { h.qry with lost := h.qry.lost + n, overflow := true } }).half s
        = { d.half s with qry := { (d.half s).qry with lost := (d.half s).qry.lost + n, overflow := true } } := half_mod_same ..
    have hhush : d.hush (d.mod s fun h => { h with qry := { h.qry with lost := h.qry.lost + n, overflow := true } }) := hush_mod rfl rfl
    have hpages := pages_mod d s fun h => { h with qry := { h.qry with lost := h.qry.lost + n, overflow := true } }
    have hpowered := powered_mod d s fun h => { h with qry := { h.qry with lost := h.qry.lost + n, overflow := true } }
    have hgrows := grows_mod d s fun h => { h with qry := { h.qry with lost := h.qry.lost + n, overflow := true } }
    generalize d.mod s (fun h => { h with qry := { h.qry with lost := h.qry.lost + n, overflow := true } }) = e
      at hhalf hhush hpages hpowered hgrows
    have hmild : e.mild s blkQry 0 := mild_of_severity (by rw [page_of_pages hpages]) (by rw [page_of_pages hpages]) h
    split
    · obtain ⟨t, ht⟩ := half_eq_of_bare (bare_raise e s blkQry 0) s
      refine ⟨hhush.trans (quiet_mildRaise hmild).hush, fun t b => ?_, (powered_of_bare (bare_raise ..)).trans hpowered,
        hgrows.trans (grows_raise ..), true, t, ?_⟩
      · rw [severity_raise, page_of_pages hpages]
      · rw [ht, hhalf]
    · exact ⟨hhush, fun t b => by rw [page_of_pages hpages], hpowered, hgrows, true, (d.half s).tsk, hhalf⟩

/-- The half whose engine has abandoned its flush. -/
def Half.abandonedFlush (h : Half) : Half := { h with qry := { h.qry with queue := [], updates := [], misses := [], cache := [] } }

/-- A flush that is abandoned: what was left is counted as lost, and the burst is over (R183). -/
theorem flushTimeout_spec (hstate : (d.half s).face.state = .draining) (harm : (d.half s).face.arming = false)
    (hwins : ∀ kv ∈ (d.half s).tch.chans, kv.2.win = none) (hopen : (d.half s).qry.openRecs = []) (hcache : (d.half s).qry.cache = [])
    (hfiles : ∀ k ∈ [3, 4, 5], (d.half s).qry.fileOf k = none) (h0 : d.mild s blkQry 0) (h3 : d.mild s blkTch 3) (h5 : d.mild s blkTch 5) :
    ∃ e : Dev, flushTimeout s d = e.raise s blkQry 1 ∧ d.hush e ∧ (∀ t b, (e.page t b).severity = (d.page t b).severity)
      ∧ e.powered = d.powered ∧ d.grows e ∧ (e.half s).face.state = .done ∧ (e.half s).qry.queue = [] ∧ (e.half s).qry.updates = []
      ∧ (e.half s).qry.lost = (d.half s).qry.lost
          + ((d.half s).qry.queue.length + (d.half s).qry.updates.length + (d.half s).qry.misses.length) := by
  have hgo : ¬(!(decide ((d.half s).face.state = .draining) || (d.half s).face.flushing)) = true := by
    simp [hstate]
  have hproducts : ([3, 4, 5].filter fun k => ((d.half s).qry.fileOf k).isSome) = [] := by
    rw [List.filter_eq_nil_iff]
    intro k hk
    rw [hfiles k hk]
    decide
  obtain ⟨hhush, hsev, hpowered, hgrows, o, t, hhalf⟩ := lose_spec (d := d) (s := s)
    ((d.half s).qry.queue.length + (d.half s).qry.updates.length + (d.half s).qry.misses.length) h0
  have hmild {t : Side} {b i : Nat} (h : d.mild t b i) : (((d.lose s ((d.half s).qry.queue.length + (d.half s).qry.updates.length
      + (d.half s).qry.misses.length)).mod s Half.abandonedFlush).mild t b i) :=
    mild_of_severity (by rw [page_mod, hsev]) (by rw [page_mod, hsev]) h
  have hleft : ((d.lose s ((d.half s).qry.queue.length + (d.half s).qry.updates.length + (d.half s).qry.misses.length)).mod s
      Half.abandonedFlush).half s = ({ d.half s with tsk := t, qry := { (d.half s).qry with
        lost := (d.half s).qry.lost + ((d.half s).qry.queue.length + (d.half s).qry.updates.length + (d.half s).qry.misses.length)
        overflow := o } } : Half).abandonedFlush := by rw [half_mod_same, hhalf]
  obtain ⟨ehush, esev, epowered, egrows, eover⟩ := endBurst_spec
    (d := (d.lose s ((d.half s).qry.queue.length + (d.half s).qry.updates.length + (d.half s).qry.misses.length)).mod s Half.abandonedFlush)
    (s := s) (by rw [hleft]; exact hstate) (by rw [hleft]; exact harm) (hmild h3) (hmild h5)
  refine ⟨_, ?_, (hhush.trans (hush_mod rfl rfl)).trans ehush, fun t b => ?_, ?_, (hgrows.trans (grows_mod ..)).trans egrows,
    eover.done, ?_, ?_, ?_⟩
  · unfold flushTimeout
    dsimp only
    rw [if_neg hgo, if_pos hstate, closeWindows_none hwins, closeRecords_none hopen, hcache, hproducts]
    rfl
  · rw [esev, page_mod, hsev]
  · rw [epowered, powered_mod, hpowered]
  · rw [eover.queue, hleft]
    rfl
  · rw [eover.updates, hleft]
    rfl
  · rw [eover.lost, hleft]
    rfl

end

/-- From one state to a later one firmware has journaled, at severities below 3. -/
def Dev.Journals (d e : Dev) : Prop := d.meek → d.hush e ∧ e.meek ∧ e.sans = d.sans ∧ d.grows e

theorem Dev.Journals.refl (d : Dev) : d.Journals d := fun h => ⟨(Dev.quiet.refl d).hush, h, rfl, .refl d⟩

theorem Dev.Journals.trans {d e f : Dev} (h : d.Journals e) (k : e.Journals f) : d.Journals f := fun hd => by
  obtain ⟨hhush, he, hsans, hgrows⟩ := h hd
  obtain ⟨khush, hf, ksans, kgrows⟩ := k he
  exact ⟨hhush.trans khush, hf, ksans.trans hsans, hgrows.trans kgrows⟩

theorem journals_ldrAppend (d : Dev) (type key : Nat) (x : LdrData) : d.Journals (d.ldrAppend type key x) := fun h => by
  obtain ⟨hquiet, hmeek⟩ := quiet_ldrAppend type key x h
  exact ⟨hquiet.hush, hmeek, sans_ldrAppend .., grows_ldrAppend ..⟩

/-- The roots that firmware journals at a burst's end (R331). -/
theorem journals_roots (s : Side) (f : Dev → Dev) (d : Dev) : (f d).Journals (journalingRoots s f d) := by
  unfold journalingRoots
  dsimp only
  split
  · exact .refl _
  · refine foldl_rel (R := Dev.Journals) (p := fun _ => True) .refl (fun _ _ _ h k => h.trans k) (fun _ _ _ _ => trivial) _ _
      (fun d id _ _ => ?_) _ trivial
    split
    · exact journals_ldrAppend _ _ _ _
    · exact .refl _

/-- A row that ends a burst with its flush leaves the half's engines as the end made them. -/
theorem yields_flushed {c : Instr} {s : State} {side : Side} {f : Dev → Dev} {p : Dev → Prop}
    (hc : exec c s = running (fun _ d => journalingRoots side f d) s) (hpow : s.dev.powered = true) (hcalm : s.dev.calm) (hmeek : s.dev.meek)
    (hhush : s.dev.hush (f s.dev.mute)) (hsev : ∀ t b, ((f s.dev.mute).page t b).severity = (s.dev.page t b).severity)
    (hpowered : (f s.dev.mute).powered = s.dev.powered)
    (hp : ∀ d : Dev, (d.half side).engines = ((f s.dev.mute).half side).engines → (f s.dev.mute).grows d → p d) : Yields c s p := by
  have hmeek' : (f s.dev.mute).meek := ⟨mild_of_severity (hsev ..) (hsev ..) hmeek.1, mild_of_severity (hsev ..) (hsev ..) hmeek.2⟩
  obtain ⟨jhush, jmeek, jsans, jgrows⟩ := journals_roots side f s.dev.mute hmeek'
  refine yields_ending hc hpow hcalm (e := journalingRoots side f s.dev.mute) rfl ?_ (hhush.trans jhush) jmeek fun t ht hgrows =>
    hp t ?_ (jgrows.trans hgrows)
  · rw [powered_of_sans jsans, hpowered]
    exact hpow
  · exact engines_of_sans ((sans_of_bare ht).trans ((sans_journaled _).trans jsans)) side

/-! ## The record queue and the spoil cache (R166, R172, R177) -/

theorem leBytes_length (n v : Nat) : (leBytes n v).length = n := by
  induction n generalizing v with
  | zero => rfl
  | succ n ih => exact congrArg (· + 1) (ih (v / 256))

theorem recBytes_length (r : Rec) : r.bytes.length = 32 := by
  unfold Rec.bytes
  simp only [List.length_append, leBytes_length]

/-- The half whose LOG file has taken a record. -/
def Half.logged (h : Half) (id : Nat) (r : Rec) (rest : List Rec) : Half :=
  { (h.modFile id fun f => f.put h.qry.logLen r.bytes) with
    qry := { h.qry with queue := rest, logLen := h.qry.logLen + 32, records := min (h.qry.records + 1) (2 ^ 32 - 1) } }

section
variable {d : Dev} {s : Side}

/-- The head of the queue goes to the end of a LOG file with room; a line that is not yet full goes to no quad (R172). -/
theorem drainRecord_eq {r : Rec} {rest : List Rec} {id : Nat} {f : FileRec} (hqueue : (d.half s).qry.queue = r :: rest)
    (hid : (d.half s).qry.fileOf 1 = some id) (hf : (d.half s).file id = some f) (hroom : (d.half s).qry.logLen + 32 ≤ f.length)
    (hline : (d.half s).qry.logLen % 64 = 0) : d.drainRecord s = d.mod s fun h => h.logged id r rest := by
  have hfile : ((d.mod s fun h => { h with qry := { h.qry with queue := rest } }).half s).file id = some f := by
    rw [half_mod_same]
    exact hf
  unfold Dev.drainRecord
  dsimp only
  rw [hqueue]
  dsimp only
  rw [hid]
  dsimp only
  rw [hfile]
  dsimp only
  rw [if_neg (by omega), if_neg (by omega), mod_mod]
  exact mod_congr rfl

/-- A head that its memory cannot correct is lost; an overflow that has shown is not raised again. -/
theorem loseHead_eq {r : Rec} {rest : List Rec} (hqueue : (d.half s).qry.queue = r :: rest) (hover : (d.half s).qry.overflow = true) :
    (d.mod s fun h => { h with qry := { h.qry with queue := h.qry.queue.drop 1 } }).lose s 1
      = d.mod s fun h => { h with qry := { h.qry with queue := rest, lost := h.qry.lost + 1 } } := by
  unfold Dev.lose
  rw [if_neg (by decide)]
  dsimp only
  rw [half_mod_same, if_neg (by simp [hover]), mod_mod]
  refine mod_congr ?_
  dsimp only
  rw [hqueue, hover]
  rfl

/-- A cache line that an update has set its bit in. -/
def CLine.taking (c : CLine) (bit : Nat) : CLine :=
  { c with dirty := c.dirty || !(tget 0 c.bytes (bit / 8)).getLsbD (bit % 8), held := c.held + 1
           bytes := tset 0 c.bytes (bit / 8) (bitSet (tget 0 c.bytes (bit / 8)) (bit % 8)) }

/-- An update without a drill merges with its line at the front of its set. -/
theorem merge_front {id : Nat} {u : Upd} {c : CLine} {ways : List CLine} (hdrill : u.drill = none)
    (hset : tget [] (d.half s).qry.cache (Dev.cacheSet s id (d.bmPlace s u).1) = c :: ways) (hline : c.line = (d.bmPlace s u).1)
    (hways : ∀ c ∈ ways, c.line ≠ (d.bmPlace s u).1) :
    d.merge s id u = d.mod s fun h => { h with qry := { h.qry with
      cache := tset [] h.qry.cache (Dev.cacheSet s id (d.bmPlace s u).1) (c.taking (d.bmPlace s u).2 :: ways) } } := by
  have hfind : (c :: ways).find? (fun c => decide (c.line = (d.bmPlace s u).1)) = some c := by
    rw [List.find?_cons_of_pos]
    exact decide_eq_true hline
  have hrest : (c :: ways).filter (fun c => decide (c.line ≠ (d.bmPlace s u).1)) = ways := by
    rw [List.filter_cons_of_neg (by simp [hline]), List.filter_eq_self]
    exact fun x hx => decide_eq_true (hways x hx)
  unfold Dev.merge
  dsimp only
  rw [hset, hfind, hdrill]
  dsimp only
  rw [hrest]
  rfl

theorem pump_none (n : Nat) (h : (d.half s).qry.updates = []) : d.pump s n = d := by
  cases n with
  | zero => rfl
  | succ n =>
    unfold Dev.pump Dev.pumpOne
    dsimp only
    rw [h]

theorem bmPlace_congr {e : Dev} (hregs : e.regs = d.regs) (hsites : (e.half s).qry.bmSites = (d.half s).qry.bmSites) (u : Upd) :
    e.bmPlace s u = d.bmPlace s u := by
  unfold Dev.bmPlace Dev.bmSize
  rw [rf_of_regs hregs, rf_of_regs hregs, hsites]

/-- A line as it enters the spoil cache (R177). -/
def freshLine (line way : Nat) (f : FileRec) : CLine :=
  { line := line, dirty := false, bytes := memWrite [] 0 (memRead f.data (64 * line) 64), way := way }

/-- The half whose spoil cache has taken a line into a set (R177). -/
def Half.brought (h : Half) (line set : Nat) (ways : List CLine) : Half :=
  { h with qry := { h.qry with
      misses := h.qry.misses.filter fun m => decide (m.1 ≠ line), asked := tset 0 h.qry.asked line 0
      cache := tset [] h.qry.cache set ways } }

/-- A missed line with the one update that waits for it enters a set with room, in front (R177). -/
theorem cacheFill_spec {id line : Nat} {f : FileRec} {u : Upd} (hid : (d.half s).qry.fileOf 2 = some id) (hf : (d.half s).file id = some f)
    (hmiss : (d.half s).qry.misses = [(line, u)]) (hupd : (d.half s).qry.updates = []) (hplace : (d.bmPlace s u).1 = line)
    (hdrill : u.drill = none) (hroom : (tget [] (d.half s).qry.cache (Dev.cacheSet s id line)).length < 16)
    (hways : ∀ c ∈ tget [] (d.half s).qry.cache (Dev.cacheSet s id line), c.line ≠ line) :
    ∃ way cache, d.cacheFill s line = (d.mod s fun h => { h with qry := { h.qry with
        misses := [], asked := tset 0 h.qry.asked line 0, cache := cache } })
      ∧ tget [] cache (Dev.cacheSet s id line)
        = (freshLine line way f).taking (d.bmPlace s u).2 :: tget [] (d.half s).qry.cache (Dev.cacheSet s id line) := by
  have hmissing : (d.half s).qry.missing line = true := by
    unfold QrySt.missing
    rw [hmiss]
    simp
  have hwaits : ((d.half s).qry.misses.filter fun m => decide (m.1 = line)) = [(line, u)] := by
    rw [hmiss]
    simp
  unfold Dev.cacheFill
  dsimp only
  rw [hid]
  dsimp only
  rw [hmissing, hf, hwaits, List.take_of_length_le (by omega), List.drop_of_length_le (by omega)]
  rw [if_neg (by decide : ¬(!true) = true)]
  dsimp only [List.foldl_nil, List.foldl_cons]
  let ways := tget [] (d.half s).qry.cache (Dev.cacheSet s id line)
  change ∃ way cache, (((d.mod s fun h => h.brought line (Dev.cacheSet s id line) (freshLine line (freeWay ways) f :: ways)).merge s id u).pump s 1024)
    = _ ∧ _ = (freshLine line way f).taking (d.bmPlace s u).2 :: ways
  have hhalf := half_mod_same d s fun h => h.brought line (Dev.cacheSet s id line) (freshLine line (freeWay ways) f :: ways)
  have hbm : (d.mod s fun h => h.brought line (Dev.cacheSet s id line) (freshLine line (freeWay ways) f :: ways)).bmPlace s u = d.bmPlace s u :=
    bmPlace_congr (by cases s <;> rfl) (by rw [hhalf]; rfl) u
  rw [merge_front (c := freshLine line (freeWay ways) f) (ways := ways) hdrill, hbm, hplace, mod_mod, pump_none]
  · refine ⟨freeWay ways, tset [] (tset [] (d.half s).qry.cache (Dev.cacheSet s id line) (freshLine line (freeWay ways) f :: ways))
      (Dev.cacheSet s id line) ((freshLine line (freeWay ways) f).taking (d.bmPlace s u).2 :: ways), mod_congr ?_, tget_tset_same ..⟩
    unfold Half.brought
    rw [hmiss]
    dsimp only
    rw [List.filter_cons_of_neg (by simp)]
    rfl
  · rw [half_mod_same]
    exact hupd
  · rw [hbm, hplace, hhalf]
    exact tget_tset_same [] (d.half s).qry.cache (Dev.cacheSet s id line) (freshLine line (freeWay ways) f :: ways)
  · rw [hbm, hplace]
    rfl
  · rw [hbm, hplace]
    exact hways

/-- A missed line arrives from the Cellar, good (R177). -/
theorem spoilCacheFill_spec {id line : Nat} {f : FileRec} {u : Upd} (hid : (d.half s).qry.fileOf 2 = some id) (hf : (d.half s).file id = some f)
    (hmiss : (d.half s).qry.misses = [(line, u)]) (hupd : (d.half s).qry.updates = []) (hplace : (d.bmPlace s u).1 = line)
    (hdrill : u.drill = none) (hpoison : (d.half s).cel.poison (cellarLine s id line) = false)
    (hroom : (tget [] (d.half s).qry.cache (Dev.cacheSet s id line)).length < 16)
    (hways : ∀ c ∈ tget [] (d.half s).qry.cache (Dev.cacheSet s id line), c.line ≠ line) :
    ∃ way cache, spoilCacheFill s line .clean d = (((d.mod s fun h => h.celTouch (cellarLine s id line) 1).completed s 1
        (tget 0 (d.half s).qry.asked line)).mod s fun h => { h with qry := { h.qry with
          misses := [], asked := tset 0 h.qry.asked line 0, cache := cache } })
      ∧ tget [] cache (Dev.cacheSet s id line)
        = (freshLine line way f).taking (d.bmPlace s u).2 :: tget [] (d.half s).qry.cache (Dev.cacheSet s id line) := by
  let e := (d.mod s fun h => h.celTouch (cellarLine s id line) 1).completed s 1 (tget 0 (d.half s).qry.asked line)
  have hhalf : e.half s = (d.half s).celTouch (cellarLine s id line) 1 := by
    rw [half_completed, half_mod_same]
  have hqry : (e.half s).qry = (d.half s).qry := by
    rw [hhalf]
    rfl
  have hfile : (e.half s).file id = some f := by
    rw [hhalf]
    exact hf
  have hgood : (e.half s).cel.poison (cellarLine s id line) = false := by
    rw [hhalf]
    exact hpoison
  have hbm : e.bmPlace s u = d.bmPlace s u := by
    have hrf (hi lo : Nat) : e.rf s.code .qryBmCfg 0 hi lo = d.rf s.code .qryBmCfg 0 hi lo := by
      refine congrArg (fld · hi lo) ?_
      have hmod : (d.mod s fun h => h.celTouch (cellarLine s id line) 1).rg s.code .qryBmCfg 0 = d.rg s.code .qryBmCfg 0 :=
        rg_of_regs (by cases s <;> rfl) ..
      rw [← hmod]
      unfold e Dev.completed
      split
      · exact rg_setRf_ne _ _ _ _ fun h => absurd ((regKey_inj (by decide) (by decide)).mp h).2.1 (by decide)
      · rfl
    unfold Dev.bmPlace Dev.bmSize
    rw [hrf, hrf, hqry]
  have hmissing : (d.half s).qry.missing line = true := by
    unfold QrySt.missing
    rw [hmiss]
    simp
  obtain ⟨way, cache, hfill, hset⟩ := cacheFill_spec (d := e) (s := s) (by rwa [hqry]) hfile (by rwa [hqry]) (by rwa [hqry]) (by rwa [hbm])
    hdrill (by rwa [hqry]) (by rwa [hqry])
  rw [hbm, hqry] at hset
  refine ⟨way, cache, ?_, hset⟩
  unfold spoilCacheFill
  dsimp only
  rw [hid]
  dsimp only
  rw [hmissing, if_neg (by decide : ¬(!true) = true)]
  change (match if (e.half s).cel.poison (cellarLine s id line) then Ecc.uncorr else .clean with
    | .clean => e.cacheFill s line
    | .corr => _
    | .uncorr => _) = _
  rw [hgood]
  exact hfill

/-- The bits of a fresh line that an update has set its bit in. -/
theorem taking_bits (line way : Nat) (f : FileRec) {bit k j : Nat} (hk : k < 64) (hj : j < 8) :
    (tget 0 ((freshLine line way f).taking bit).bytes k).getLsbD j
      = ((tget 0 f.data (64 * line + k)).getLsbD j || decide (8 * k + j = bit)) := by
  have hread (k : Nat) (hk : k < 64) : tget 0 (freshLine line way f).bytes k = tget 0 f.data (64 * line + k) := by
    have hcopy := (tget_memWrite_read [] f.data 0 (64 * line) 64).1 k hk
    rwa [Nat.zero_add] at hcopy
  unfold CLine.taking
  dsimp only
  by_cases hkb : k = bit / 8
  · subst hkb
    rw [tget_tset_same, hread _ hk, getLsbD_bitSet, show decide (bit % 8 < 8) = true from decide_eq_true (by omega), Bool.and_true]
    exact congrArg _ (decide_eq_decide.mpr (by omega))
  · rw [tget_tset_ne _ _ _ hkb, hread _ hk, decide_eq_false (by omega), Bool.or_false]

end

/-- Settles O12: the flush by what its end leaves of the half's engines; the queue's drain and the cache's fill by what they change. -/
theorem flushEnds : Obligations.FlushEnds := by
  unfold Obligations.FlushEnds
  dsimp only
  refine ⟨fun s side hpow hcalm hstate harm hdrained hwins hopen hmeek h3 h5 => ⟨fun hqueue hupd hmiss => ?_, fun hen h0 h1 hcache hfiles => ?_⟩,
    fun s side r rest hpow hcalm hbursting hqueue => ⟨fun id f hid hf hroom hline => ?_, fun hover => ?_⟩,
    fun s side id line f u hpow hcalm hid hf hmiss hupd hplace hdrill hpoison hroom hways => ?_⟩
  · have hspec := quarryFlushComplete_spec (d := s.dev.mute) (s := side)
    simp only [half_mute] at hspec
    obtain ⟨hhush, hsev, hpowered, hover⟩ := hspec hstate harm hdrained hwins hopen hqueue hupd hmiss h3 h5
    refine yields_flushed (f := fun d => quarryFlushComplete side d) rfl hpow hcalm hmeek hhush hsev hpowered fun d hengines _ => ?_
    obtain ⟨hface, -, hqry, hdrl0, hdrl1, hshelf⟩ := engines_iff.mp hengines
    rw [hface, hqry, hdrl0, hdrl1, hshelf]
    exact ⟨hover.done, hover.ready, hover.written, hover.record, hover.idle, hover.drl0, hover.drl1, hover.shelf⟩
  · have hspec := flushTimeout_spec (d := s.dev.mute) (s := side)
    simp only [half_mute] at hspec
    obtain ⟨e, heq, hhush, hsev, hpowered, hgrows, hdone, hleft, hnone, hlost⟩ := hspec hstate harm hwins hopen hcache hfiles h0 h3 h5
    have hmild : e.mild side blkQry 1 := mild_of_severity (hsev ..) (hsev ..) h1
    have hsrc : ((e.raise side blkQry 1).page side blkQry).src.getLsbD 1 = true := by
      obtain ⟨-, henable, -⟩ := hgrows.1 side blkQry
      exact raise_src e side blkQry 1 (fun h => absurd h.2 (by decide)) (by decide) (by decide) (by rw [henable]; exact hen)
    refine yields_flushed (f := fun d => flushTimeout side d) rfl hpow hcalm hmeek ?_ (fun t b => ?_) ?_ fun d hengines hd => ?_
    · rw [heq]
      exact hhush.trans (quiet_mildRaise hmild).hush
    · rw [heq, severity_raise]
      exact hsev t b
    · rw [heq]
      exact (powered_of_bare (bare_raise ..)).trans hpowered
    · rw [heq] at hengines hd
      obtain ⟨hface, -, hqry, -⟩ := engines_iff.mp (hengines.trans (engines_raise ..))
      rw [hface, hqry]
      exact ⟨hdone, hleft, hnone, hlost, (hd.1 side blkQry).2.2 1 hsrc⟩
  · have hrow : recordQueueDrain side .clean s.dev.mute = s.dev.mute.mod side fun h => h.logged id r rest := by
      unfold recordQueueDrain
      rw [half_mute, if_neg (by simp [hqueue, hbursting])]
      exact drainRecord_eq (by rwa [half_mute]) (by rwa [half_mute]) (by rwa [half_mute]) (by rwa [half_mute]) (by rwa [half_mute])
    refine yields_quiet (f := fun _ d => recordQueueDrain side .clean d) rfl hpow hcalm hrow (quiet_mod rfl rfl fun _ h => h) fun d hd _ => ?_
    obtain ⟨t, ht⟩ := half_eq_of_bare hd side
    rw [half_mod_same, half_mute] at ht
    have hdata : (f.put (s.dev.half side).qry.logLen r.bytes).data = memWrite f.data (s.dev.half side).qry.logLen r.bytes := by
      rw [(put_content ..).2, if_neg (by rw [List.isEmpty_iff, ← List.length_eq_zero_iff, recBytes_length]; decide)]
    have hfile : (d.half side).file id = some (f.put (s.dev.half side).qry.logLen r.bytes) := by
      rw [ht]
      exact file_modFile _ _ hf fun x => (put_content x ..).1
    refine ⟨congrArg (fun h => h.qry.queue) ht, congrArg (fun h => h.qry.logLen) ht, congrArg (fun h => h.qry.lost) ht, _, hfile, ?_, fun k hk => ?_⟩
    · rw [hdata, ← recBytes_length r]
      exact memRead_memWrite ..
    · rw [hdata, tget_written _ _ _ (recBytes_length r), if_neg (by omega)]
  · have hrow : recordQueueDrain side .uncorr s.dev.mute
        = s.dev.mute.mod side fun h => { h with qry := { h.qry with queue := rest, lost := h.qry.lost + 1 } } := by
      unfold recordQueueDrain
      rw [half_mute, if_neg (by simp [hqueue, hbursting])]
      exact loseHead_eq (by rwa [half_mute]) (by rwa [half_mute])
    refine yields_quiet (f := fun _ d => recordQueueDrain side .uncorr d) rfl hpow hcalm hrow (quiet_mod rfl rfl fun _ h => h) fun d hd _ => ?_
    rw [hd, mute_mod, bare_mute]
  · obtain ⟨way, cache, hrow, hset⟩ := spoilCacheFill_spec (d := s.dev.mute) (s := side) (by rwa [half_mute]) (by rwa [half_mute])
      (by rwa [half_mute]) (by rwa [half_mute]) (show (s.dev.mute.bmPlace side u).1 = line from hplace) hdrill (by rwa [half_mute])
      (by rwa [half_mute]) (by rwa [half_mute])
    refine yields_quiet (f := fun _ d => spoilCacheFill side line .clean d) rfl hpow hcalm hrow ?_ fun d hd _ => ?_
    · exact ((quiet_mod rfl rfl fun _ h => h).trans (quiet_completed ..)).trans (quiet_mod rfl rfl fun _ h => h)
    · obtain ⟨t, ht⟩ := half_eq_of_bare hd side
      rw [half_mod_same, half_completed, half_mod_same, half_mute] at ht
      refine ⟨congrArg (fun h => h.qry.misses) ht, ?_, (freshLine line way f).taking (s.dev.bmPlace side u).2, ?_, rfl, rfl,
        fun k hk j hj => taking_bits line way f hk hj⟩
      · rw [ht]
        rfl
      rw [show (d.half side).qry.cache = cache from congrArg (fun h => h.qry.cache) ht, hset, half_mute]
      rfl

end Sys2Proof.Machine
end

section
/-! PROOFS. Hooks: what they present, their returns and deadlines (chapter 8). -/
namespace Sys2Proof.Machine
open Sys2Proof.Safety

/-! ## Hooks (R119, R229 to R232) -/

theorem hook_setHook (h : Half) (k : Nat) (x : Hook) : (h.setHook k x).hook k = x := tget_tset_same ..

section
variable {d : Dev} {s : Side} {k n : Nat}

/-- The oldest waiting issue goes onto the bus, second in its cycle when one slot stands there (R229, R230). -/
theorem hookSlotPresent_eq {rest : List Nat} {i : Issue} (hlive : d.hookLive s k = true) (hon : d.hookOn s k = true)
    (hqueue : ((d.half s).hook k).queue = n :: rest) (hissue : (d.half s).issue n = some i)
    (hoffer : 8 ≤ k ∧ k < 16 → d.offerCompare s (k - 8) = d) :
    let x := (d.half s).hook k
    let bits := d.hookSlot s k i
    hookSlotPresent s k d = (d.mod s fun h => h.setHook k { x with
        queue := rest, out := x.out ++ [(n, false)], bus := if decide (x.bus.length = 1) = true then x.bus ++ [bits] else [bits] }).emit
      (.hook s k n (b1 (decide (x.bus.length = 1))) bits) := by
  have hsame : (if 8 ≤ k ∧ k < 16 then d.offerCompare s (k - 8) else d) = d := by
    split
    next h => exact hoffer h
    next => rfl
  dsimp only
  unfold hookSlotPresent
  dsimp only
  rw [if_neg (by simp [hlive]), hsame, hqueue]
  unfold Dev.presentNext Hook.show
  rw [hissue]
  dsimp only
  rw [hon]
  by_cases hbus : ((d.half s).hook k).bus.length = 1
  · simp only [hbus, if_true, decide_true]
    rfl
  · simp only [hbus, if_true, if_false, decide_false, Bool.false_eq_true]
    rfl

theorem groupResults_mute (i : Issue) (g : Nat) : d.mute.groupResults s i g = d.groupResults s i g := rfl

theorem hookSlot_mute (i : Issue) : d.mute.hookSlot s k i = d.hookSlot s k i := by
  unfold Dev.hookSlot
  rw [groupResults_mute]

/-! ### Returns (R231) -/

/-- The half whose compare hook shows MATCH as the fabric drives it. -/
def Half.matched (h : Half) (k : Nat) (r : HookRet) : Half :=
  if 8 ≤ k ∧ k < 16 then h.setHook k { h.hook k with flag := r.flag } else h

/-- The half whose oldest presented issue has its return. -/
def Half.paired (h : Half) (k : Nat) (rest : List (Nat × Bool)) : Half := h.setHook k { h.hook k with out := rest }

/-- The half whose relayed symbols follow an issue's (R387). -/
def Half.refreshed (h : Half) (n : Nat) : Half :=
  match h.issue n with
  | some i => h.relayRefresh n i.symbols
  | none => h

theorem refreshed_haul (h : Half) (n : Nat) : ∃ q, h.refreshed n = { h with haul := q } := by
  have hquads (l : List Nat) (h : Half) (v : BitVec 1024) : ∃ q, l.foldl (fun h q =>
      let x := h.haul.quad q
      if n < x.first then h
      else { h with haul := h.haul.setQuad q { x with pack := x.pack.set (n - x.first) (quadSymbols q v) } }) h = { h with haul := q } := by
    induction l generalizing h with
    | nil => exact ⟨h.haul, rfl⟩
    | cons q l ih =>
      rw [List.foldl_cons]
      dsimp only
      split
      · exact ih h
      · obtain ⟨q', hq'⟩ := ih { h with haul := h.haul.setQuad q { h.haul.quad q with
          pack := (h.haul.quad q).pack.set (n - (h.haul.quad q).first) (quadSymbols q v) } }
        exact ⟨q', hq'⟩
  unfold Half.refreshed
  split
  · exact hquads ..
  · exact ⟨h.haul, rfl⟩

/-- A valid return on time pairs with the oldest presented issue. -/
theorem hookReturn_eq {r : HookRet} {rest : List (Nat × Bool)} (hlive : d.hookLive s k = true) (hon : d.hookOn s k = true)
    (hvalid : r.valid = true) (hout : ((d.half s).hook k).out = (n, false) :: rest) :
    hookReturn s k r d = d.mod s fun h => (((h.matched k r).paired k rest).applyReturn k n r).refreshed n := by
  have hmatch : (if 8 ≤ k ∧ k < 16 then d.mod s fun h => h.setHook k { h.hook k with flag := r.flag } else d) = d.mod s fun h => h.matched k r := by
    unfold Half.matched
    split
    · rfl
    · exact (mod_id ..).symm
  have hkept : (((d.half s).matched k r).hook k).out = (n, false) :: rest := by
    unfold Half.matched
    split
    · rw [hook_setHook]
      exact hout
    · exact hout
  have hon' : (d.mod s fun h => h.matched k r).hookOn s k = true := by
    unfold Dev.hookOn
    rw [rf_of_regs (Dev.mod_regs ..)]
    exact hon
  unfold hookReturn
  rw [if_neg (by simp [hlive]), hmatch]
  dsimp only
  rw [if_neg (by simp [hvalid, hon']), half_mod_same, hkept]
  dsimp only
  rw [if_neg Bool.false_ne_true, mod_mod, mod_mod]
  exact mod_congr rfl

theorem applyReturn_keep (h : Half) (r : HookRet) (hk : k < 16) (hkeep : r.keep = true) : h.applyReturn k n r = h := by
  unfold Half.applyReturn
  split
  · rfl
  · split <;> rfl

/-- An issue with other symbols. -/
def Issue.withSymbols (i : Issue) (v : BitVec 1024) : Issue := { i with symbols := v }

theorem withSymbols_rest (i : Issue) (v : BitVec 1024) : (i.withSymbols v).idx = i.idx ∧ (i.withSymbols v).results = i.results
    ∧ (i.withSymbols v).symbols = v := ⟨rfl, rfl, rfl⟩

/-- Symbols of an issue with those of a group replaced by a return's (R231). -/
def returnedSymbols (r : HookRet) (k old : Nat) : BitVec 1024 :=
  BitVec.ofNat 1024 ((List.range 256).foldl (fun a ch =>
    a + (if ch / 32 = k then r.vals.getD (ch % 32) 0 % 16 else old / 16 ^ ch % 16) * 16 ^ ch) 0)

theorem applyReturn_symbols {h : Half} {i : Issue} (r : HookRet) (hk : k < 8) (hkeep : r.keep = false) (hissue : h.issue n = some i) :
    h.applyReturn k n r = h.modIssue n fun j => j.withSymbols (returnedSymbols r k i.symbols.toNat) := by
  unfold Half.applyReturn
  rw [hissue]
  dsimp only
  rw [if_pos hk, if_neg (by simp [hkeep])]
  rfl

theorem symbol_replaced (i j : Issue) (r : HookRet) {ch : Nat} (hch : ch < 256) :
    (j.withSymbols (returnedSymbols r k i.symbols.toNat)).symbol ch = if ch / 32 = k then r.vals.getD (ch % 32) 0 % 16 else i.symbol ch := by
  obtain ⟨hsum, hdigit⟩ := digits_of_sum (b := 16) (fun ch => if ch / 32 = k then r.vals.getD (ch % 32) 0 % 16 else i.symbols.toNat / 16 ^ ch % 16)
    (fun ch => by split <;> exact Nat.mod_lt _ (by decide)) 256
  have hwidth : (16 : Nat) ^ 256 = 2 ^ 1024 := (pow_mul 2 4 256).symm
  unfold Issue.symbol
  rw [(withSymbols_rest ..).2.2, returnedSymbols]
  rw [BitVec.toNat_ofNat, Nat.mod_eq_of_lt (lt_of_lt_of_eq hsum hwidth)]
  exact hdigit ch hch

theorem issue_modIssue {h : Half} {i : Issue} (f : Issue → Issue) (hf : ∀ j, (f j).idx = j.idx) (hissue : h.issue n = some i) :
    (h.modIssue n f).issue n = some (f i) := by
  have hidx : i.idx = n := by simpa using List.find?_some hissue
  have hkey : ((fun j : Issue => decide (j.idx = n)) ∘ fun j => if j.idx = n then f j else j) = fun j => decide (j.idx = n) := by
    funext j
    by_cases hj : j.idx = n <;> simp [hj, hf]
  have hfound : h.face.issues.find? (fun j => decide (j.idx = n)) = some i := hissue
  unfold Half.issue Half.modIssue
  dsimp only
  rw [List.find?_map, hkey, hfound]
  simp [hidx]

/-- A deadline that passes marks the oldest presented issue late, and counts it (R232). -/
theorem hookLate_eq {rest : List (Nat × Bool)} (hlive : d.hookLive s k = true) (hon : d.hookOn s k = true)
    (hout : ((d.half s).hook k).out = (n, false) :: rest) :
    hookLate s k d = (d.mod s fun h => h.setHook k { (d.half s).hook k with out := (n, true) :: rest }).hookMissed s k := by
  unfold hookLate
  rw [if_neg (by simp [hlive, hon])]
  dsimp only
  rw [hout, if_neg (by simp)]
  rfl

end

theorem paired_fab (h : Half) (k : Nat) (r : HookRet) (rest : List (Nat × Bool)) :
    ∃ f, (h.matched k r).paired k rest = { h with fab := f } := by
  unfold Half.matched
  split
  · exact ⟨_, rfl⟩
  · exact ⟨_, rfl⟩

theorem hook_paired (h : Half) {k : Nat} (r : HookRet) (rest : List (Nat × Bool)) (hk : k < 16) :
    ((h.matched k r).paired k rest).hook k = { h.hook k with out := rest, flag := if 8 ≤ k then r.flag else (h.hook k).flag } := by
  unfold Half.paired Half.matched
  rw [hook_setHook]
  by_cases h8 : 8 ≤ k
  · rw [if_pos ⟨h8, hk⟩, if_pos h8, hook_setHook]
  · rw [if_neg (fun h => h8 h.1), if_neg h8]

/-- A valid return on time leaves its half as the return makes it, but for what the quads relay. -/
theorem yields_returned {s : State} {side : Side} {k : Fin 18} {n : Nat} {r : HookRet} {rest : List (Nat × Bool)} {h : Half}
    (hpow : s.dev.powered = true) (hcalm : s.dev.calm) (hlive : s.dev.hookLive side k = true) (hon : s.dev.hookOn side k = true)
    (hvalid : r.valid = true) (hout : ((s.dev.half side).hook k).out = (n, false) :: rest)
    (hreturn : ((((s.dev.half side).matched k r).paired k rest).applyReturn k n r) = h) (hstw : h.stw = (s.dev.half side).stw)
    (htsk : h.tsk = (s.dev.half side).tsk) (hcal : h.cal = (s.dev.half side).cal) (hstate : h.face.state = (s.dev.half side).face.state) :
    Yields (.hookReturn side k r) s fun d => ∃ t q, d.half side = { h with haul := q, tsk := t } := by
  have hrow := hookReturn_eq (d := s.dev.mute) (s := side) (k := k) hlive hon hvalid (by rwa [half_mute])
  obtain ⟨q, hq⟩ := refreshed_haul h n
  have hmod : s.dev.mute.mod side (fun h => (((h.matched k r).paired k rest).applyReturn k n r).refreshed n)
      = s.dev.mute.mod side fun _ => { h with haul := q } := mod_congr (by rw [half_mute, hreturn, hq])
  refine yields_quiet (f := fun _ d => hookReturn side k r d) rfl hpow hcalm (hrow.trans hmod) ?_ fun d hd _ => ?_
  · refine quiet_mod ?_ ?_ fun told hended => ?_
    · rw [half_mute]
      exact hstw
    · rw [half_mute]
      exact congrArg TskSt.started htsk
    · rw [half_mute]
      unfold Half.ended at hended ⊢
      rwa [show ({ h with haul := q } : Half).face = h.face from rfl, show ({ h with haul := q } : Half).cal = h.cal from rfl, hstate, hcal] at hended
  · obtain ⟨t, ht⟩ := half_eq_of_bare hd side
    rw [half_mod_same] at ht
    exact ⟨t, q, ht⟩

/-- A slot that is missed is counted, up to the counter's end, and raised (R232). -/
theorem hookMissed_spec {d : Dev} {s : Side} {k : Nat} (hen : (d.page s blkFab).enable.getLsbD 0 = true) :
    (d.hookMissed s k).rf s.code .fabHookLate k 15 0 = min (d.rf s.code .fabHookLate k 15 0 + 1) 65535
      ∧ ((d.hookMissed s k).page s blkFab).src.getLsbD 0 = true := by
  have hcount (d : Dev) : (d.bump s.code .fabHookLate k 15 0).rf s.code .fabHookLate k 15 0
      = min (d.rf s.code .fabHookLate k 15 0 + 1) 65535 := by
    unfold Dev.bump
    rw [rf_setRf_same _ _ _ _ _ _ _ (by decide) (by decide)]
    exact Nat.mod_eq_of_lt (by omega)
  have hpages : (d.bump s.code .fabHookLate k 15 0).pages = d.pages := Dev.bump_pages ..
  unfold Dev.hookMissed
  refine ⟨?_, raise_src _ s blkFab 0 (fun h => absurd h.2 (by decide)) (by decide) (by decide) (by rwa [page_of_pages hpages])⟩
  rw [Dev.rf, rg_of_bare (bare_raise ..)]
  exact hcount d

theorem yields_late {s : State} {side : Side} {k : Fin 18} {n : Nat} {rest : List (Nat × Bool)} (hpow : s.dev.powered = true)
    (hcalm : s.dev.calm) (hlive : s.dev.hookLive side k = true) (hon : s.dev.hookOn side k = true)
    (hout : ((s.dev.half side).hook k).out = (n, false) :: rest) (hen : (s.dev.page side blkFab).enable.getLsbD 0 = true)
    (hmild : s.dev.mild side blkFab 0) : Yields (.hookLate side k) s fun d =>
      (d.half side).hook k = { (s.dev.half side).hook k with out := (n, true) :: rest }
      ∧ d.rf side.code .fabHookLate k 15 0 = min (s.dev.rf side.code .fabHookLate k 15 0 + 1) 65535
      ∧ (d.page side blkFab).src.getLsbD 0 = true := by
  have hrow := hookLate_eq (d := s.dev.mute) (s := side) (k := k) hlive hon (by rwa [half_mute])
  rw [half_mute] at hrow
  have hidx : (k : Nat) < 8192 := k.isLt.trans (by decide)
  have hhalf := half_mod_same s.dev.mute side fun h => h.setHook k { (s.dev.half side).hook k with out := (n, true) :: rest }
  have hpages := pages_mod s.dev.mute side fun h => h.setHook k { (s.dev.half side).hook k with out := (n, true) :: rest }
  have hregs := Dev.mod_regs s.dev.mute side fun h => h.setHook k { (s.dev.half side).hook k with out := (n, true) :: rest }
  have hquiet : s.dev.mute.quiet (s.dev.mute.mod side fun h => h.setHook k { (s.dev.half side).hook k with out := (n, true) :: rest }) :=
    quiet_mod rfl rfl fun _ h => h
  generalize s.dev.mute.mod side (fun h => h.setHook k { (s.dev.half side).hook k with out := (n, true) :: rest }) = e
    at hrow hhalf hpages hregs hquiet
  have hkept := kept_hookMissed (d := e) hidx (mild_of_severity (by rw [page_of_pages hpages]; rfl) (by rw [page_of_pages hpages]; rfl) hmild)
  obtain ⟨hcount, hsrc⟩ := hookMissed_spec (d := e) (k := k) (by rw [page_of_pages hpages]; exact hen)
  refine yields_quiet (f := fun _ d => hookLate side k d) rfl hpow hcalm hrow (hquiet.trans hkept.quiet) fun d hd hgrows => ⟨?_, ?_, ?_⟩
  · have hfab := congrArg (fun h : Half => h.hook k) ((half_of_bare hd side).trans (hkept.halves side))
    have hbare (d : Dev) : (d.bare.half side).hook k = (d.half side).hook k := by cases side <;> rfl
    rw [← hbare d]
    exact hfab.trans ((hbare e).trans (by rw [hhalf, hook_setHook]))
  · rw [Dev.rf, rg_of_bare hd]
    exact hcount.trans (by rw [rf_of_regs hregs]; rfl)
  · exact (hgrows.1 side blkFab).2.2 0 hsrc

/-- What a hook presents (R230). -/
theorem yields_presented {s : State} {side : Side} {k : Fin 18} {n : Nat} {rest : List Nat} {i : Issue} (hpow : s.dev.powered = true)
    (hcalm : s.dev.calm) (hlive : s.dev.hookLive side k = true) (hon : s.dev.hookOn side k = true)
    (hqueue : ((s.dev.half side).hook k).queue = n :: rest) (hissue : (s.dev.half side).issue n = some i)
    (hoffer : 8 ≤ k.val ∧ k.val < 16 → s.dev.mute.offerCompare side (k.val - 8) = s.dev.mute) :
    let x := (s.dev.half side).hook k
    let bits := s.dev.hookSlot side k i
    Yields (.hookSlotPresent side k) s fun d =>
      d.bare = (s.dev.mod side fun h => h.setHook k { x with
        queue := rest, out := x.out ++ [(n, false)], bus := if decide (x.bus.length = 1) = true then x.bus ++ [bits] else [bits] }).bare
      ∧ Out.hook side k n (b1 (decide (x.bus.length = 1))) bits ∈ d.out := by
  dsimp only
  have hrow := hookSlotPresent_eq (d := s.dev.mute) (s := side) (k := k) hlive hon (by rwa [half_mute]) (by rwa [half_mute]) hoffer
  dsimp only at hrow
  rw [half_mute, hookSlot_mute] at hrow
  refine yields_quiet (f := fun _ d => hookSlotPresent side k d) rfl hpow hcalm hrow ?_ fun d hd hgrows => ⟨?_, ?_⟩
  · exact (quiet_mod rfl rfl fun _ h => h).trans ⟨id, rfl, id, fun _ => id⟩
  · rw [hd, mute_mod]
    rfl
  · exact hgrows.2 _ (List.mem_append_right _ (List.mem_singleton.mpr rfl))

/-- Settles O14: what each row makes of the hook, and of the issue that it returns for. -/
theorem hookRows : Obligations.HookRows := by
  unfold Obligations.HookRows
  dsimp only
  intro s side k n hpow hcalm hlive
  refine ⟨fun rest i hqueue hissue hon hoffer => ?_, fun r rest hvalid hout hon => ⟨fun hk hkeep => ?_, fun i hk hkeep hissue => ?_⟩,
    fun rest hout hon hen hmild => ?_⟩
  · exact yields_presented hpow hcalm hlive hon hqueue hissue hoffer
  · obtain ⟨f, hf⟩ := paired_fab (s.dev.half side) k r rest
    refine yields_mono (yields_returned hpow hcalm hlive hon hvalid hout (applyReturn_keep _ r hk hkeep) (by rw [hf]) (by rw [hf]) (by rw [hf])
      (by rw [hf])) fun d hd => ?_
    obtain ⟨t, q, ht⟩ := hd
    rw [ht]
    exact ⟨hook_paired _ r rest hk, by rw [hf]⟩
  · obtain ⟨f, hf⟩ := paired_fab (s.dev.half side) k r rest
    have hissue' : (((s.dev.half side).matched k r).paired k rest).issue n = some i := by
      rw [hf]
      exact hissue
    refine yields_mono (yields_returned hpow hcalm hlive hon hvalid hout (applyReturn_symbols r hk hkeep hissue') (by rw [hf]; rfl)
      (by rw [hf]; rfl) (by rw [hf]; rfl) (by rw [hf]; rfl)) fun d hd => ?_
    obtain ⟨t, q, ht⟩ := hd
    rw [ht]
    refine ⟨?_, _, issue_modIssue (fun j => j.withSymbols (returnedSymbols r k i.symbols.toNat)) (fun j => (withSymbols_rest j _).1) hissue',
      (withSymbols_rest i _).2.1, fun ch hch => symbol_replaced i i r hch⟩
    have hhook := hook_paired (s.dev.half side) r rest (k := k) (by omega)
    rw [if_neg (by omega)] at hhook
    exact hhook
  · exact yields_late hpow hcalm hlive hon hout hen hmild

end Sys2Proof.Machine
end

section
/-! PROOFS. ARM work and the writes it releases (chapters 4, 10 and 12). -/
namespace Sys2Proof.Machine
open Sys2Proof.Safety

/-- ARM drops no copy where no line is cached away, and performs the held write (R269, R288); one into a region at the end of its last
counter epoch writes nothing and raises XTS source 5 (R338). -/
theorem dropSpoilCopies_lastEpoch {d : Dev} {s : Side} {w : HeldWrite} {f : FileRec} (hdir : (d.half s).att.dir = [])
    (hheld : (d.half s).att.held = [w]) (hfile : (d.half s).file w.file = some f) (hrefused : f.refused = false)
    (htorn : (d.half s).tornLine s f w.offset w.data.length = none)
    (hhit : ((sectorsOf w.offset w.data.length).any fun k => decide (rekeyAt ≤ tget 0 f.wc k + 1)) = true) (hepoch : f.epoch = 63) :
    d.dropSpoilCopies s = ((d.raise s blkXts 5).completed s 2 w.since).mod s fun h => h.modAtt fun a => { a with held := [] } := by
  have hother : (d.mod s.other fun h => h.modAtt fun a => ([] : List Nat).foldl AttSt.forget a) = d := mod_id ..
  have hself : (d.mod s fun h => h.modAtt fun a => { a with dir := a.dir.filter fun l => !([] : List Nat).contains l }) = d := by
    refine (mod_congr (g := id) ?_).trans (mod_id ..)
    simp only [Half.modAtt, id]
    rw [show ((d.half s).att.dir.filter fun l => !([] : List Nat).contains l) = (d.half s).att.dir by rw [hdir]; rfl]
  have hwrite : d.writeRegion s w.file w.offset w.data = (stDegraded, d.raise s blkXts 5) := by
    unfold Dev.writeRegion
    simp [hfile, hrefused, htorn, hhit, hepoch]
  unfold Dev.dropSpoilCopies
  simp only [hdir, List.filter_nil, hother, hself]
  unfold Dev.freeWrites
  rw [hheld]
  unfold Dev.freeFrom
  rw [hdir, hwrite]
  simp [Dev.freeFrom]

/-- A sequencer at the end reads nothing ahead; only its count of issues moves (R116). -/
theorem readFirst_atEnd {h : Half} {x : _} (hend : h.face.ahead.toIssue h.planRd h.face.samples 64 = .error x) (n : Nat) :
    ∃ k, h.readFirst n = .ok { h with face := { h.face with aheadIdx := k } } none := by
  induction n generalizing h with
  | zero => exact ⟨_, rfl⟩
  | succ n ih =>
    obtain ⟨k, hk⟩ := ih (h := { h with face := { h.face with aheadIdx := h.face.aheadIdx + 1 } }) hend
    refine ⟨k, ?_⟩
    unfold Half.readFirst Half.readAhead
    dsimp only
    rw [hend]
    exact hk

theorem setRg_regs (d : Dev) (n : Nat) (r : Rg) (i : Nat) (v : Word) : ∃ t, d.setRg n r i v = { d with regs := t } := ⟨_, rfl⟩

/-- A site mask stands in two registers of its own. -/
theorem setSiteMask_regs (d : Dev) (s : Side) {m : Nat} (v : Nat) (hm : m < 8192) :
    ∃ t, d.setSiteMask s m v = { d with regs := t } ∧ ∀ n, Dev.rg { d with regs := t } n .qryCfg 0 = d.rg n .qryCfg 0 := by
  have hcfg (n : Nat) : (d.setSiteMask s m v).rg n .qryCfg 0 = d.rg n .qryCfg 0 := by
    have hne {q : Rg} (hq : Rg.qryCfg ≠ q) : regKey n .qryCfg 0 ≠ regKey s.code q m := fun h =>
      hq ((regKey_inj (by decide) hm).mp h).2.1
    unfold Dev.setSiteMask
    rw [rg_setRg_ne _ _ (hne (by decide)), rg_setRg_ne _ _ (hne (by decide))]
  unfold Dev.setSiteMask at *
  obtain ⟨t, ht⟩ := setRg_regs d s.code .tchSiteMaskLo m (BitVec.ofNat 32 v)
  rw [ht] at hcfg ⊢
  obtain ⟨t', ht'⟩ := setRg_regs { d with regs := t } s.code .tchSiteMaskHi m (BitVec.ofNat 32 (v / 2 ^ 32))
  rw [ht'] at hcfg ⊢
  exact ⟨t', rfl, hcfg⟩

/-- The 16 site masks of a plan stand in registers of their own. -/
theorem setSiteMasks_regs (s : Side) (mask : Nat → Nat) (l : List Nat) (hl : ∀ m ∈ l, m < 8192) (d : Dev) :
    ∃ r, l.foldl (fun d m => d.setSiteMask s m (mask m)) d = { d with regs := r }
      ∧ ∀ n, Dev.rg { d with regs := r } n .qryCfg 0 = d.rg n .qryCfg 0 := by
  induction l generalizing d with
  | nil => exact ⟨_, rfl, fun _ => rfl⟩
  | cons m l ih =>
    obtain ⟨t, ht, hcfg⟩ := setSiteMask_regs d s (mask m) (hl m (.head _))
    rw [List.foldl_cons, ht]
    obtain ⟨r, hr, hrest⟩ := ih (fun m hm => hl m (.tail _ hm)) { d with regs := t }
    exact ⟨r, hr, fun n => (hrest n).trans (hcfg n)⟩

/-- With every spoil format off, ARM leaves the engine cleared and creates no file (R181). -/
theorem armQuarry_off {d : Dev} {s : Side} (hcfg : d.rg s.code .qryCfg 0 = 0) (hown : (d.half s).assisted 4 = false) (slot : Nat) :
    d.armQuarry s slot = d.mod s fun h => { h with qry := {} } := by
  obtain ⟨e, he⟩ : ∃ e : Dev, e = d.mod s fun h => { h with qry := {} } := ⟨_, rfl⟩
  have hcfg' : e.rg s.code .qryCfg 0 = 0 := by
    subst he
    cases s <;> exact hcfg
  have hown' : (e.half s).assisted 4 = false := by
    subst he
    cases s <;> exact hown
  have hmode : e.rf s.code .qryCfg 0 1 0 = 0 := by simp [Dev.rf, hcfg', fld]
  have hlog : e.createLog s slot = e := by simp [Dev.createLog, hown', hmode]
  have hbitmap : e.createBitmap s slot = e := by simp [Dev.createBitmap, hcfg']
  unfold Dev.armQuarry
  rw [← he]
  simp [hlog, hbitmap, hcfg', Dev.createFixed]

/-- No ARM command waits for a half that its firmware arms. -/
theorem armPart_none {d : Dev} (hnone : d.hst.arms = []) (life : Life) (s : Side) (st : Nat) : d.armPart life s st = d := by
  have hsame : { d with hst := { d.hst with arms := [] } } = d := by rw [← hnone]
  unfold Dev.armPart
  rw [hnone]
  exact hsame

theorem completed_regs (d : Dev) (s : Side) (port since : Nat) : ∃ r, d.completed s port since = { d with regs := r } := by
  unfold Dev.completed
  split
  · exact ⟨_, rfl⟩
  · exact ⟨_, rfl⟩

/-- The fields of the device that decide whether the net is asserted when ARM work has left half `s` ARMED. -/
structure Dev.ArmedFrom (d e : Dev) (s : Side) : Prop where
  powered : e.powered = d.powered
  load : e.cfg.load = d.cfg.load
  asserted : e.safe.asserted = d.safe.asserted
  armed : (e.half s).face.state = .armed
  other : (e.half s.other).face.state = (d.half s.other).face.state

theorem Dev.ArmedFrom.calm {d e : Dev} {s : Side} (h : d.ArmedFrom e s) (hload : d.cfg.load = none)
    (hother : (d.half s.other).face.state = .idle) : e.pathCut = false ∧ ∀ s, e.justEnded s = false := by
  refine ⟨by simp [Dev.pathCut, h.load, hload], fun t => ?_⟩
  obtain rfl | rfl : t = s ∨ t = s.other := by cases t <;> cases s <;> simp [Side.other]
  · simp [Dev.justEnded, h.armed]
  · simp [Dev.justEnded, h.other, hother]

/-- ARM work that ends by performing a held write whose region is at the end of its last counter epoch: what it leaves has a page that
requests the SAFE net when XTS source 5 stands at severity 3 (R338, R459, R464). -/
theorem armed_requests {d : Dev} {s : Side} {w : HeldWrite} {f : FileRec} (life : Life) (mask : Nat → Nat) (slot : Nat)
    (hcfg : d.rg s.code .qryCfg 0 = 0) (hown : (d.half s).assisted 4 = false) (hdir : (d.half s).att.dir = [])
    (hheld : (d.half s).att.held = [w]) (hfile : (d.half s).file w.file = some f) (hrefused : f.refused = false)
    (htorn : (d.half s).tornLine s f w.offset w.data.length = none)
    (hhit : ((sectorsOf w.offset w.data.length).any fun k => decide (rekeyAt ≤ tget 0 f.wc k + 1)) = true) (hepoch : f.epoch = 63)
    (hside : ¬(s = .e ∧ twOnly blkXts = true)) (henable : (d.page s blkXts).enable.getLsbD 5 = true)
    (hsev : (d.page s blkXts).sev blkXts 5 = 3) (harms : d.hst.arms = []) :
    let e := (((List.range 16).foldl (fun d m => d.setSiteMask s m (mask m)) d).armQuarry s slot).dropSpoilCopies s
    let e' := (e.mod s fun h => { h.relayClear with face := { h.face with arming := false, state := .armed } }).armPart life s stOk
    e'.safeWanted = true ∧ d.ArmedFrom e' s := by
  obtain ⟨r, hmasks, hcfg'⟩ := setSiteMasks_regs s mask (List.range 16) (fun m hm => by have := List.mem_range.mp hm; omega) d
  rw [hmasks, armQuarry_off ((hcfg' s.code).trans hcfg) (by cases s <;> exact hown)]
  let e1 : Dev := Dev.mod { d with regs := r } s fun h => { h with qry := {} }
  have hpages : e1.pages = d.pages := by cases s <;> rfl
  have hpage : e1.page s blkXts = d.page s blkXts := page_of_pages hpages s blkXts
  have hdrop := dropSpoilCopies_lastEpoch (d := e1) (s := s) (w := w) (f := f) (by cases s <;> exact hdir) (by cases s <;> exact hheld)
    (by cases s <;> exact hfile) hrefused (by cases s <;> exact htorn) hhit hepoch
  obtain ⟨r', hcompleted⟩ := completed_regs (e1.raise s blkXts 5) s 2 w.since
  have hrequests := page_requests _ _ _ (requests_raise (d := e1) (i := 5) hside (by decide) (hpage ▸ henable) (hpage ▸ hsev))
  have hbare := bare_raise e1 s blkXts 5
  dsimp only
  rw [show (Dev.mod { d with regs := r } s fun h => { h with qry := {} }) = e1 from rfl, hdrop, hcompleted]
  have hface (t : Side) : ((e1.raise s blkXts 5).half t).face.state = (e1.half t).face.state := by
    obtain ⟨_, ht⟩ := half_eq_of_bare hbare t
    rw [ht]
  have hother : (e1.half s.other).face.state = (d.half s.other).face.state := by cases s <;> rfl
  rw [mod_mod, armPart_none]
  · generalize e1.raise s blkXts 5 = e2 at hrequests hbare hface
    refine ⟨?_, ?_⟩
    · have hany : e2.pages.any (fun kv => kv.2.requests) = true := hrequests
      cases s <;> simp [Dev.safeWanted, Dev.mod, Dev.setHalf, hany]
    · have hpowered : e2.powered = d.powered := (powered_of_bare hbare).trans (by cases s <;> rfl)
      have hload : e2.cfg.load = d.cfg.load := by
        have h := congrArg (fun x : Dev => x.cfg.load) hbare
        exact h.trans (by cases s <;> rfl)
      have hasserted : e2.safe.asserted = d.safe.asserted := by
        have h := congrArg (fun x : Dev => x.safe.asserted) hbare
        exact h.trans (by cases s <;> rfl)
      refine ⟨(by cases s <;> exact hpowered), (by cases s <;> exact hload), (by cases s <;> exact hasserted), ?_, ?_⟩
      · rw [half_mod_same]
      · rw [half_mod_ne _ _ (other_ne s)]
        exact (hface s.other).trans hother
  · have harms' : (e1.raise s blkXts 5).hst.arms = [] := by
      have h := congrArg (fun x : Dev => x.hst.arms) hbare
      exact h.trans (by cases s <;> exact harms)
    cases s <;> exact harms'

/-- A west half in ARM whose plan ends at once, with a held write that no copy stands in the way of, into a region at the end of its last
counter epoch; XTS source 5 is set to the severity that requests the SAFE net. -/
def heldArm : State :=
  { State.reset with
    dev := { State.reset.dev with
      regs := [(regKey 0 .qryCfg 0, 0)]
      clk := { power := .run }
      pages := [(12, { pageDefault 12 with severity := 0xC00 })]
      west := { State.reset.dev.west with
        attic := [(0, 15)]
        face := { state := .loaded, arming := true }
        shelf := { State.reset.dev.west.shelf with armLoads := 2 }
        files := [{ id := 1, slot := 0, length := 4096, epoch := 63, wc := [(0, rekeyAt)] }]
        modes := 0
        att := { State.reset.dev.west.att with held := [{ line := 0, file := 1, offset := 0, data := [1] }] } }
      east := { State.reset.dev.east with tsk := { started := true } } } }

/-- Its drills loaded and its waiting entries staged. -/
def heldArm.staged : Dev := heldArm.dev.mute.mod .w fun h => h.loadDrills.stageArm

/-- Refutes O15: ARM work that succeeds drops copies of lines (R288), which performs writes that were held for them (R269). One into a
region at the end of its last counter epoch raises XTS source 5 (R338); at severity 3 the SAFE net ends the burst that is then
ARMED (R464). The statement takes the two raises of the Quarry engine alone to stand below severity 3. -/
theorem not_planLoaded : ¬ Obligations.PlanLoaded := by
  unfold Obligations.PlanLoaded
  rintro ⟨-, harm, -⟩
  have hshelf : heldArm.staged.armShelf .w = heldArm.staged := by
    unfold Dev.armShelf
    rw [if_pos (by decide +kernel)]
  have hend : heldArm.staged.west.face.ahead.toIssue heldArm.staged.west.planRd heldArm.staged.west.face.samples 64 = .error .ended := by
    rfl
  obtain ⟨k, hfirst⟩ := readFirst_atEnd (h := heldArm.staged.half .w) hend 64
  have hdeliver : (heldArm.staged.armShelf .w).deliverKeys .w = .ok heldArm.staged := by
    rw [hshelf]
    rfl
  have hloads : ((heldArm.staged.armShelf .w).half .w).shelf.armLoads = 2 := by
    rw [hshelf]
    decide +kernel
  have hyields := (harm heldArm .w (by decide +kernel) (by decide +kernel) rfl).1 heldArm.staged _ none (by decide +kernel) rfl rfl hloads
    hdeliver hfirst (by decide +kernel) (by decide +kernel)
  rw [yields_running_iff (f := fun life d => armWorkComplete life .w d) rfl rfl] at hyields
  obtain ⟨harmed, -⟩ := hyields
  let life := heldArm.fuse.life
  let d3 : Dev := heldArm.staged.setHalf .w { heldArm.staged.half .w with face := { (heldArm.staged.half .w).face with aheadIdx := k } }
  let e := armWorkComplete life .w heldArm.dev.mute
  have he : e.safeWanted = true ∧ d3.ArmedFrom e .w := by
    have hrow : e = ((((List.range 16).foldl (fun d m => d.setSiteMask .w m (PlanImg.mask (d3.half .w).planRd m)) d3).armQuarry .w
        (PlanImg.resultKey (d3.half .w).planRd)).dropSpoilCopies .w |>.mod .w fun h =>
          { h.relayClear with face := { h.face with arming := false, state := .armed } }).armPart life .w stOk := by
      show armWorkComplete life .w heldArm.dev.mute = _
      unfold armWorkComplete
      rw [if_neg (by decide +kernel), show (heldArm.dev.mute.half .w).drillFault = none by decide +kernel]
      dsimp only
      rw [show (heldArm.dev.mute.mod .w fun h => h.loadDrills.stageArm) = heldArm.staged from rfl, if_neg (not_not_intro hloads), hdeliver]
      dsimp only
      rw [hfirst]
      rfl
    have hcfg : d3.rg 0 .qryCfg 0 = 0 := by
      show heldArm.staged.rg 0 .qryCfg 0 = 0
      decide +kernel
    have hown : (d3.half .w).assisted 4 = false := by
      show (heldArm.staged.half .w).assisted 4 = false
      decide +kernel
    have hxts : (d3.page .w blkXts).enable.getLsbD 5 = true ∧ (d3.page .w blkXts).sev blkXts 5 = 3 := by
      show (heldArm.staged.page .w blkXts).enable.getLsbD 5 = true ∧ (heldArm.staged.page .w blkXts).sev blkXts 5 = 3
      decide +kernel
    rw [hrow]
    exact armed_requests (w := { line := 0, file := 1, offset := 0, data := [1] })
      (f := { id := 1, slot := 0, length := 4096, epoch := 63, wc := [(0, rekeyAt)] }) life _ _ hcfg hown rfl rfl rfl rfl rfl
      (by decide +kernel) rfl (by decide) hxts.1 hxts.2 rfl
  have hpowered : d3.powered = true := by
    show heldArm.staged.powered = true
    decide +kernel
  obtain ⟨hcut, hend⟩ := he.2.calm rfl rfl
  have hfirm := settle_asserts life (d := e) (he.2.powered.trans hpowered) hcut hend he.1 (he.2.asserted.trans rfl)
  obtain ⟨-, hstill, -⟩ := (safeAssert_firm e life).2.2 .w
  have hface := face_of_firm hfirm .w
  have harmed' : ((e.safeAssert life).half .w).face.state = .armed := (congrArg FaceSt.state hface).symm.trans harmed
  have hactive : ((e.safeAssert life).half .w).face.active = true := by
    unfold FaceSt.active
    rw [harmed']
    rfl
  rw [hstill] at hactive
  cases hactive
end Sys2Proof.Machine
end

section
/-! PROOFS. Calibration: samples, sweeps and the CAL step (chapter 7). -/
namespace Sys2Proof.Machine
open Sys2Proof.Safety

/-! ## Samples and readings of a half that runs no burst (R189, R202, R204) -/

section
variable {d : Dev} {s : Side}

/-- A half that runs no burst loses no validity (R203). -/
theorem recheckCal_idle (h : (d.half s).face.bursting = false) : d.recheckCal s = d := by simp [Dev.recheckCal, h]

theorem range_getD {temps : List Int} {n : Nat} (h : temps.length = n) (f : Nat → Int) :
    ((List.range n).map fun g => temps.getD g (f g)) = temps := by
  apply List.ext_getElem
  · simp [h]
  · intro i h1 h2
    simp [h2]

theorem tempSample_idle {temps : List Int} (h : (d.half s).face.bursting = false) (hlen : temps.length = 8) :
    tempSample s temps d = d.mod s fun h => { h with cal := { h.cal with temps := temps, epoch := { h.cal.epoch with temps := temps } } } := by
  unfold tempSample
  rw [mod_congr (g := fun h => { h with cal := { h.cal with temps := temps, epoch := { h.cal.epoch with temps := temps } } })]
  · exact recheckCal_idle (by rw [half_mod_same]; exact h)
  · dsimp only
    rw [if_neg (by simp [h]), range_getD hlen]

theorem phaseCompare_held {reading : Int} (h : d.east.cal.phs.length < 15) :
    phaseCompare reading d = d.mod .e fun h => { h with cal := { h.cal with phs := d.east.cal.phs ++ [reading] } } := by
  unfold phaseCompare
  exact if_pos (by rw [List.length_append]; exact Nat.succ_lt_succ h)

theorem calMeasurementAged_idle (h : (d.half s).face.bursting = false) (ch : Nat) :
    calMeasurementAged s ch d = d.mod s fun h => { h with cal := { h.cal with aged := bitSet h.cal.aged ch } } :=
  recheckCal_idle (by rw [half_mod_same]; exact h)

/-- A sweep that is due starts with its witnesses (R195, R201). -/
theorem sweepStart_due (hbursting : (d.half s).face.bursting = false) (harming : (d.half s).face.arming = false)
    (hsweeping : (d.half s).cal.sweeping = false) (hreset : (d.half s).reset = 0) (hdue : d.sweepDue s = true) :
    sweepStart s [true, true, true, true] d = (d.abandon s).mod s fun h => { h with
      cal := { h.cal with sweeping := true, swept := 0, witness := List.replicate 4 (some true) } } := by
  unfold sweepStart Dev.selfCheck
  dsimp only
  rw [if_neg (by simp [Half.canSweep, hbursting, harming, hsweeping, hreset, hdue]), if_pos (by decide), mod_mod]
  exact recheckCal_idle (by rw [half_mod_same]; cases s <;> exact hbursting)

end

/-! ## The end of a sweep (R195, R200, R385) -/

section
variable {d : Dev} {s : Side}

theorem bare_calPart_ok (d : Dev) (life : Life) (s : Side) : ∃ x, (d.calPart life s stOk).bare = Dev.bare { d with hst := x } := by
  unfold Dev.calPart
  dsimp only
  exact ⟨_, bare_foldl _ _ (fun d x => bare_finish_ok ..) _⟩

/-- The look at the alignment of the modules leaves the calibration of the halves and both FIRE_IN offsets (R385). -/
theorem xmodCheck_keeps (d : Dev) (t : Side) :
    (d.xmodCheck.half t).cal = (d.half t).cal ∧ d.xmodCheck.rg t.code .faceFireOffset = d.rg t.code .faceFireOffset := by
  have hset : regKey t.code .faceFireOffset 0 ≠ regKey 0 .haulXmod 0 := fun h => absurd ((regKey_inj (by decide) (by decide)).mp h).2.1 (by decide)
  unfold Dev.xmodCheck Dev.xmodLost
  split
  · split
    · exact ⟨rfl, rfl⟩
    · have hbare := bare_raise (d.setRf 0 .haulXmod 0 16 16 0) .w blkHaul 4
      obtain ⟨_, ht⟩ := half_eq_of_bare hbare t
      rw [ht, half_setRf, rg_of_bare hbare]
      exact ⟨rfl, rg_setRf_ne d _ _ _ hset⟩
  · exact ⟨rfl, rfl⟩

theorem rg_setOffsets (d : Dev) (v : Word) (t : Side) :
    ((d.setRg 0 .faceFireOffset 0 v).setRg 1 .faceFireOffset 0 v).rg t.code .faceFireOffset = v := by
  have hne : regKey 0 .faceFireOffset 0 ≠ regKey 1 .faceFireOffset 0 := fun h =>
    absurd ((regKey_inj (by decide) (by decide)).mp h).1 (by decide)
  cases t
  · exact (rg_setRg_ne _ _ hne).trans (rg_setRg_same ..)
  · exact rg_setRg_same ..

/-- The sweep of a half ends: its tables stand as they are, and TW's measures the FIRE_IN offset of both halves unless its witness
failed or a half is ARMED or in a burst. -/
theorem sweepOver_spec (life : Life) (offset : Int) (hsweeping : (d.half s).cal.sweeping = true) (hdone : (d.half s).cal.sweepDone = true) :
    ((sweepOver life s offset d).half s).cal = { (d.half s).cal with sweeping := false }
    ∧ ∀ t : Side, (sweepOver life s offset d).rg t.code .faceFireOffset
      = if s = .w ∧ (d.half s).cal.passed 0 = true ∧ d.west.face.active = false ∧ d.east.face.active = false
        then BitVec.ofNat 32 (unsgn 2 offset) else d.rg t.code .faceFireOffset := by
  let d1 := d.mod s fun h => { h with cal := { h.cal with sweeping := false } }
  let measured : Bool := s = .w && (d.half s).cal.passed 0 && !d1.west.face.active && !d1.east.face.active
  let v := BitVec.ofNat 32 (unsgn 2 offset)
  let d2 := if measured = true then (d1.setRg 0 .faceFireOffset 0 v).setRg 1 .faceFireOffset 0 v else d1
  have hrow : sweepOver life s offset d = (d2.calPart life s stOk).xmodCheck := by
    unfold sweepOver sweepEnd
    dsimp only
    rw [if_neg (by simp [hsweeping]), if_neg (by simp [hsweeping, hdone])]
  obtain ⟨x, hbare⟩ := bare_calPart_ok d2 life s
  have hmeasured : measured = true ↔ s = .w ∧ (d.half s).cal.passed 0 = true ∧ d.west.face.active = false ∧ d.east.face.active = false := by
    have hface : d1.west.face = d.west.face ∧ d1.east.face = d.east.face := by cases s <;> exact ⟨rfl, rfl⟩
    obtain ⟨hw, he⟩ := hface
    simp only [measured, hw, he, Bool.and_eq_true, decide_eq_true_eq, Bool.not_eq_true', and_assoc]
  rw [hrow]
  refine ⟨?_, fun t => ?_⟩
  · have hcal : (d2.half s).cal = { (d.half s).cal with sweeping := false } := by
      have h1 : (d1.half s).cal = { (d.half s).cal with sweeping := false } := congrArg Half.cal (half_mod_same ..)
      rw [← h1]
      simp only [d2]
      split
      · cases s <;> rfl
      · rfl
    obtain ⟨_, hs⟩ := half_eq_of_bare hbare s
    rw [(xmodCheck_keeps _ s).1, hs, ← hcal]
    cases s <;> rfl
  · rw [(xmodCheck_keeps _ t).2, rg_of_bare hbare]
    show d2.rg t.code .faceFireOffset = _
    simp only [d2, hmeasured]
    split
    · exact rg_setOffsets ..
    · cases s <;> rfl

end
/-! ## A measurement in host-assisted mode (R201) -/

/-- A block whose readings the host has yet to judge. -/
def CalBlock.read (b : CalBlock) (temp : Int) (readings : List Int) : CalBlock :=
  { b with tlast := temp, entries := b.entries.zipIdx.map fun e => { e.1 with wlast := readings.getD e.2 0 } }

/-- A measurement in host-assisted mode keeps the readings and leaves the corrections. -/
theorem sweepMeasure_assisted {d : Dev} {s : Side} {ch : Nat} {readings : List Int} (h : (d.half s).assisted 1 = true) :
    ∃ aged since, ((d.sweepMeasure s ch readings).half s).cal = { (d.half s).cal with
      swept := bitSet (d.half s).cal.swept ch
      blocks := tset {} (d.half s).cal.blocks ch ((tget {} (d.half s).cal.blocks ch).read ((d.half s).cal.temps.getD (ch / 32) 0) readings)
      changed := true, aged := aged, when := since } := by
  unfold Dev.sweepMeasure Dev.measure
  dsimp only
  rw [if_pos (by rw [half_mod_same]; exact h)]
  simp only [half_mod_same]
  exact ⟨_, _, rfl⟩

/-! ## The CAL step (R111, R195 to R198, R203) -/

/-- From one state to a later one a witness of half `s` measures: nothing requests the SAFE net or cuts a load, no other half ends, and
the sequencer, the slot's pointer and the self-checks stand as they did. -/
structure Dev.Gauges (s : Side) (d e : Dev) : Prop where
  quiet : d.quietBut s e
  severity : ∀ t b, (e.page t b).severity = (d.page t b).severity
  half : ((e.half s).face, (e.half s).cal.pointer, (e.half s).cal.witness)
    = ((d.half s).face, (d.half s).cal.pointer, (d.half s).cal.witness)

theorem Dev.Gauges.refl (s : Side) (d : Dev) : d.Gauges s d := ⟨quietBut_of_quiet (.refl d), fun _ _ => rfl, rfl⟩

theorem Dev.Gauges.trans {s : Side} {d e f : Dev} (h : d.Gauges s e) (k : e.Gauges s f) : d.Gauges s f :=
  ⟨h.quiet.trans k.quiet, fun t b => (k.severity t b).trans (h.severity t b), k.half.trans h.half⟩

theorem Dev.Gauges.mild {s : Side} {d e : Dev} (h : d.Gauges s e) {t : Side} {b i : Nat} (k : d.mild t b i) : e.mild t b i :=
  mild_of_severity (h.severity ..) (h.severity ..) k

theorem quietBut_mod {d : Dev} {s : Side} {f : Half → Half} (hstw : (f (d.half s)).stw = (d.half s).stw)
    (htsk : (f (d.half s)).tsk.started = (d.half s).tsk.started) : d.quietBut s (d.mod s f) := by
  obtain ⟨hwanted, hasserted, hcut⟩ := hush_mod hstw htsk
  refine ⟨hwanted, hasserted, hcut, fun s' hs h => ?_⟩
  rw [justEnded_eq, half_mod_ne _ _ hs, hst_mod] at h
  exact h

section
variable {d : Dev} {s : Side}

theorem gauges_mod {f : Half → Half} (hstw : (f (d.half s)).stw = (d.half s).stw) (htsk : (f (d.half s)).tsk.started = (d.half s).tsk.started)
    (h : ((f (d.half s)).face, (f (d.half s)).cal.pointer, (f (d.half s)).cal.witness)
      = ((d.half s).face, (d.half s).cal.pointer, (d.half s).cal.witness)) : d.Gauges s (d.mod s f) where
  quiet := quietBut_mod hstw htsk
  severity t b := by rw [page_of_pages (pages_mod ..)]
  half := by rw [half_mod_same, h]

theorem gauges_cal (f : CalSt → CalSt) (h : ((f (d.half s).cal).pointer, (f (d.half s).cal).witness) = ((d.half s).cal.pointer, (d.half s).cal.witness)) :
    d.Gauges s (d.mod s fun h => { h with cal := f h.cal }) := gauges_mod rfl rfl (congrArg (fun x => ((d.half s).face, x)) h)

theorem gauges_setRg (n : Nat) (r : Rg) (i : Nat) (v : Word) : d.Gauges s (d.setRg n r i v) where
  quiet := quietBut_of_quiet (quiet_setRg ..)
  severity t b := by rw [page_of_pages (Dev.setRg_pages ..)]
  half := by cases s <;> rfl

theorem gauges_raise {i : Nat} (h : d.mild s blkCal i) : d.Gauges s (d.raise s blkCal i) where
  quiet := quietBut_of_quiet (quiet_mildRaise h)
  severity _ _ := severity_raise ..
  half := by
    obtain ⟨t, ht⟩ := half_eq_of_bare (bare_raise d s blkCal i) s
    rw [ht]

/-- The calibration sources of a half are all below severity 3. -/
abbrev Dev.calMild (d : Dev) (s : Side) : Prop := ∀ i < 8, d.mild s blkCal i

theorem Dev.Gauges.calMild {e : Dev} (h : d.Gauges s e) (k : d.calMild s) : e.calMild s := fun i hi => h.mild (k i hi)

theorem gauges_loseCal (h : d.calMild s) : d.Gauges s (d.loseCal s) := by
  unfold Dev.loseCal
  split
  · exact .refl s d
  · have hlost : d.Gauges s (d.mod s fun h => { h with cal := { h.cal with lost := true } }) := gauges_cal (fun c => { c with lost := true }) rfl
    exact hlost.trans (gauges_raise (hlost.calMild h 4 (by decide)))

theorem gauges_recheckCal (h : d.calMild s) : d.Gauges s (d.recheckCal s) := by
  unfold Dev.recheckCal
  split
  · exact gauges_loseCal h
  · exact .refl s d

theorem gauges_calFail (src ch : Nat) (f : Nat × Nat) : d.Gauges s (d.calFail s src ch f) := by
  unfold Dev.calFail
  split
  · exact .refl s d
  · exact gauges_setRg ..

/-- A witness that measures a channel commits its block, or records why it does not (R191, R196, R197). -/
theorem gauges_measure (hmild : d.calMild s) (ch : Nat) (readings : List Int) : d.Gauges s (d.measure s ch readings) := by
  have hput (d : Dev) (b : CalBlock) : d.Gauges s (d.mod s fun h =>
      { h with cal := { h.cal with blocks := tset {} h.cal.blocks ch b, changed := true } }) :=
    gauges_cal (fun c => { c with blocks := tset {} c.blocks ch b, changed := true }) rfl
  have hfresh (d : Dev) : d.Gauges s (d.mod s fun h => { h with cal := { h.cal with
      aged := bitClear h.cal.aged ch, when := tset 0 h.cal.when ch h.tsk.tick } }) := gauges_mod rfl rfl rfl
  unfold Dev.measure
  extract_lets half b t put fresh shift rs big top nb
  split
  · exact (hput ..).trans (hfresh _)
  · split
    next f _ =>
      have hrecord : d.Gauges s ((d.mod s fun h => { h with cal := { h.cal with anchored := bitClear h.cal.anchored ch } }).calFail s 1 ch f) :=
        (gauges_cal (fun c => { c with anchored := bitClear c.anchored ch }) rfl).trans (gauges_calFail ..)
      exact hrecord.trans (gauges_raise (hrecord.calMild hmild 1 (by decide)))
    next d1 d2 d3 _ _ _ =>
      have h3 : d.Gauges s d3 := by
        refine Dev.Gauges.trans ?_ (gauges_setRg ..)
        refine Dev.Gauges.trans ?_ (gauges_cal (fun c => { c with anchored := bitSet c.anchored ch, drifted := bitClear c.drifted ch }) rfl)
        exact ((hput ..).trans (hfresh _)).trans (gauges_setRg ..)
      clear_value d3
      split
      · have hraise := h3.trans (gauges_raise (h3.calMild hmild 2 (by decide)))
        exact hraise.trans (gauges_loseCal (hraise.calMild hmild))
      · exact h3
end

/-- The half after the slot's time, its witnesses' self-checks passed. -/
def Half.slotBegun (h : Half) : Half :=
  let h := h.passStep.insertTime 8000
  { h with face := { h.face with burst := { h.face.burst with calSlots := h.face.burst.calSlots + 1 } }
           cal := { h.cal with witness := List.replicate 4 (some true) } }

theorem slotBegun_eq {h : Half} (hat : h.atStep 6 = true) : h.slotBegun = { h with
    face := { h.face.stepped true with
      cur := { h.face.cur with pc := h.face.cur.pc + 1 }
      burst := { (h.face.stepped true).burst with tvs := h.face.burst.tvs + 80000000, calSlots := h.face.burst.calSlots + 1 } }
    cal := { h.cal with witness := List.replicate 4 (some true) } } := by
  obtain ⟨-, -, hop⟩ := atStep_iff.mp hat
  unfold Half.slotBegun
  rw [passStep_next hop (by decide)]
  rfl

/-- A slot whose witnesses pass moves the sequencer and the slot's pointer on, and calls nothing else (R111, R198). -/
theorem calStep_spec {d : Dev} {s : Side} (readings : List (List Int)) (hat : (d.half s).atStep 6 = true) (hmild : d.calMild s) :
    d.quiet (calStep s [true, true, true, true] readings d)
    ∧ ((calStep s [true, true, true, true] readings d).half s).face = (d.half s).slotBegun.face
    ∧ ((calStep s [true, true, true, true] readings d).half s).cal.witness = List.replicate 4 (some true)
    ∧ ((calStep s [true, true, true, true] readings d).half s).cal.pointer = ((d.half s).cal.pointer + 1) % 32 := by
  have hbegun := slotBegun_eq hat
  let p := (d.half s).slotBegun.cal.pointer
  let d2 := d.mod s Half.slotBegun
  let d3 := d2.recheckCal s
  let d4 := (List.range 8).foldl (fun d k =>
    if [true, true, true, true].getD (k / 2) false then d.measure s (64 * (k / 2) + 32 * (k % 2) + p) (readings.getD k []) else d) d3
  let d5 := d4.mod s fun h => { h with cal := { h.cal with pointer := (p + 1) % 32 } }
  have hrow : calStep s [true, true, true, true] readings d = (d5.bump s.code .calSlotCnt).recheckCal s := by
    have hcheck (e : Dev) : e.selfCheck s [true, true, true, true]
        = (e.mod s fun h => { h with cal := { h.cal with witness := List.replicate 4 (some true) } }).recheckCal s := by
      unfold Dev.selfCheck
      dsimp only
      rw [if_pos (by decide)]
      rfl
    unfold calStep
    dsimp only
    rw [if_neg (by simp [hat]), hcheck, mod_mod, half_mod_same]
    rfl
  have hstw : (d.half s).slotBegun.stw = (d.half s).stw ∧ (d.half s).slotBegun.tsk = (d.half s).tsk := by
    rw [hbegun]
    exact ⟨rfl, rfl⟩
  have hbegin : d.quietBut s d2 := quietBut_mod hstw.1 (congrArg TskSt.started hstw.2)
  have hmild2 : d2.calMild s := fun i hi => mild_of_severity (by rw [page_of_pages (pages_mod ..)]) (by rw [page_of_pages (pages_mod ..)]) (hmild i hi)
  have h3 : d2.Gauges s d3 := gauges_recheckCal hmild2
  have h4 : d3.Gauges s d4 := by
    refine foldl_rel (R := Dev.Gauges s) (p := fun d => d.calMild s) (.refl s) (fun _ _ _ h k => h.trans k) (fun _ _ h k => h.calMild k) _ _
      (fun d k _ hd => ?_) d3 (h3.calMild hmild2)
    split
    · exact gauges_measure hd ..
    · exact .refl s d
  have h24 := h3.trans h4
  have hmoved : d4.quietBut s d5 := quietBut_mod rfl rfl
  have hmild5 : d5.calMild s := fun i hi =>
    mild_of_severity (by rw [page_of_pages (pages_mod ..)]) (by rw [page_of_pages (pages_mod ..)]) (h24.calMild hmild2 i hi)
  have hbump : d5.Gauges s (d5.bump s.code .calSlotCnt) := gauges_setRg ..
  have h5 := hbump.trans (gauges_recheckCal (hbump.calMild hmild5))
  rw [hrow]
  have hhalf2 : d2.half s = (d.half s).slotBegun := half_mod_same ..
  have hhalf5 : d5.half s = { d4.half s with cal := { (d4.half s).cal with pointer := (p + 1) % 32 } } := half_mod_same ..
  obtain ⟨hface4, -, hwitness4⟩ := (by simpa only [Prod.mk.injEq] using h24.half :
    (d4.half s).face = (d2.half s).face ∧ (d4.half s).cal.pointer = (d2.half s).cal.pointer ∧ (d4.half s).cal.witness = (d2.half s).cal.witness)
  generalize (d5.bump s.code .calSlotCnt).recheckCal s = o at h5
  obtain ⟨hface, hpointer, hwitness⟩ := (by simpa only [Prod.mk.injEq] using h5.half :
    (o.half s).face = (d5.half s).face ∧ (o.half s).cal.pointer = (d5.half s).cal.pointer ∧ (o.half s).cal.witness = (d5.half s).cal.witness)
  have hfaceEnd : (o.half s).face = (d.half s).slotBegun.face := by rw [hface, hhalf5, ← hhalf2, ← hface4]
  refine ⟨((hbegin.trans h24.quiet).trans (hmoved.trans h5.quiet)).quiet ?_, hfaceEnd, ?_, ?_⟩
  · obtain ⟨hrun, -, -⟩ := atStep_iff.mp hat
    have hstate : (o.half s).face.state = .running := by
      rw [hfaceEnd, hbegun]
      exact hrun
    simp [Dev.justEnded, hstate]
  · rw [hwitness, hhalf5]
    show (d4.half s).cal.witness = _
    rw [hwitness4, hhalf2, hbegun]
  · rw [hpointer, hhalf5]
    show (p + 1) % 32 = _
    simp only [p, hbegun]

theorem cal_of_deep {α : Type} {d e : Dev} (h : d.deep = e.deep) (s : Side) (f : CalSt → α) (hf : ∀ c, f { c with changed := false } = f c) :
    f (d.half s).cal = f (e.half s).cal := by
  have hcal : ({ (d.half s).cal with changed := false } : CalSt) = { (e.half s).cal with changed := false } := congrArg Half.cal (half_of_deep h s)
  rw [← hf, hcal, hf]

/-- Settles O16: each row's effect is computed in a half that runs no burst, where no validity is lost; a sweep that ends and a measurement
leave what not even the SAFE net touches; the eight measurements of a CAL step keep the sequencer, whatever they commit. -/
theorem calibrationRows : Obligations.CalibrationRows := by
  unfold Obligations.CalibrationRows
  refine ⟨fun s side hpow hcalm hidle => ?_, fun s side readings hpow hcalm hat hcal htsk => ?_⟩
  · dsimp only
    refine ⟨fun temps hlen => ?_, fun reading hside hheld => ?_, fun harming hsweeping hreset hdue => ?_, fun ch => ?_,
      fun offset hsweeping hdone => ?_, fun ch readings hawaits hhost => ?_⟩
    · exact yields_mod (f := fun _ d => tempSample side temps d) (g := fun h => { h with cal := { (s.dev.half side).cal with
        temps := temps, epoch := { (s.dev.half side).cal.epoch with temps := temps } } }) rfl hpow hcalm
        ((tempSample_idle (by rw [half_out]; exact hidle) hlen).trans (mod_congr (by rw [half_out]))) rfl rfl fun _ h => h
    · subst hside
      exact yields_mod (f := fun _ d => phaseCompare reading d) (g := fun h => { h with cal := { s.dev.east.cal with
        phs := s.dev.east.cal.phs ++ [reading] } }) rfl hpow hcalm (phaseCompare_held hheld) rfl rfl fun _ h => h
    · have hrow := sweepStart_due (d := s.dev.mute) (s := side) (by rw [half_mute]; exact hidle) (by rw [half_mute]; exact harming)
        (by rw [half_mute]; exact hsweeping) (by rw [half_mute]; exact hreset) (by cases side <;> exact hdue)
      refine yields_quiet (f := fun _ d => sweepStart side [true, true, true, true] d) rfl hpow hcalm hrow
        ((quiet_abandon _ side).trans (quiet_mod rfl rfl fun _ h => h)) fun d hbare _ => hbare.trans ?_
      cases side <;> rfl
    · exact yields_mod (f := fun _ d => calMeasurementAged side ch d) (g := fun h => { h with cal := { (s.dev.half side).cal with
        aged := bitSet (s.dev.half side).cal.aged ch } }) rfl hpow hcalm
        ((calMeasurementAged_idle (by rw [half_out]; exact hidle) _).trans (mod_congr (by rw [half_out]))) rfl rfl fun _ h => h
    · refine yields_staying (f := fun life d => sweepOver life side offset d) (running_eq_commit _ hpow) fun t ht hstay => ?_
      obtain ⟨hcal, hoffset⟩ := sweepOver_spec (d := s.dev.mute) s.fuse.life offset (by rw [half_mute]; exact hsweeping)
        (by rw [half_mute]; exact hdone)
      rw [half_mute] at hcal hoffset
      have hblocks : ((sweepOver s.fuse.life side offset s.dev.mute).half side).cal.blocks = (s.dev.half side).cal.blocks := by rw [hcal]
      have hread (half : Side) := (offset_of_stay hstay half).trans (hoffset half)
      refine ⟨(cal_of_deep ht.deep side CalSt.sweeping fun _ => rfl).trans (congrArg CalSt.sweeping hcal),
        (cal_of_deep ht.deep side CalSt.blocks fun _ => rfl).trans hblocks, fun hside hpassed hw he half => ?_,
        fun hnot half => ?_⟩
      · exact (hread half).trans (if_pos ⟨hside, hpassed, by subst hside; exact hw, he⟩)
      · refine (hread half).trans (if_neg ?_)
        rintro ⟨hside, hpassed, -⟩
        rcases hnot with hnot | hnot
        · rw [hside] at hnot
          cases hnot
        · rw [hpassed] at hnot
          cases hnot
    · have hrow : sweepChannelCommit side ch readings .clean s.dev.mute = s.dev.mute.sweepMeasure side ch readings := by
        unfold sweepChannelCommit
        rw [half_mute, if_neg (by simp [hawaits])]
      obtain ⟨aged, since, hcal⟩ := sweepMeasure_assisted (d := s.dev.mute) (ch := ch) (readings := readings) (by rw [half_mute]; exact hhost)
      rw [half_mute] at hcal
      refine yields_deeply (f := fun _ d => sweepChannelCommit side ch readings .clean d) rfl hpow hrow fun d hd => ?_
      have hswept := (cal_of_deep hd.deep side CalSt.swept fun _ => rfl).trans (congrArg CalSt.swept hcal)
      have hblocks := (cal_of_deep hd.deep side CalSt.blocks fun _ => rfl).trans (congrArg CalSt.blocks hcal)
      rw [hblocks, tget_tset_same]
      exact ⟨hswept, rfl, rfl, fun c hc => tget_tset_ne _ _ _ hc⟩
  · have hmild : s.dev.mute.calMild side := fun i hi => ⟨hcal i hi, htsk⟩
    obtain ⟨hquiet, hface, hwitness, hpointer⟩ := calStep_spec (d := s.dev.mute) readings (by rw [half_mute]; exact hat) hmild
    rw [half_mute] at hface hpointer
    rw [slotBegun_eq hat] at hface
    refine yields_quiet (f := fun _ d => calStep side [true, true, true, true] readings d) rfl hpow hcalm rfl hquiet fun d hbare _ => ?_
    obtain ⟨_, hd⟩ := half_eq_of_bare hbare side
    dsimp only
    rw [hd]
    dsimp only
    rw [hface]
    exact ⟨hpointer, rfl, rfl, rfl, rfl, (atStep_iff.mp hat).1, hwitness⟩

end Sys2Proof.Machine
end

section
/-! PROOFS. Events of a channel: drive events, strobes and windows (chapter 2). -/
namespace Sys2Proof.Machine
open Sys2Proof.Safety

/-! ## The first event of a kind on a channel (R46, R51 to R53) -/

/-- Code and nominal instant of an event, and where a correction that is not clamped places it. -/
def Half.eventCode (h : Half) (i : Issue) (ch slot : Nat) : Nat := fld (h.eventWord i ch slot) 31 28

def Half.nominal (h : Half) (i : Issue) (ch slot : Nat) : Int := i.tvs + fld (h.eventWord i ch slot) 27 0

def Half.placed (h : Half) (i : Issue) (ch slot type : Nat) : Int := h.nominal i ch slot + (h.correction i ch type).1

/-- A channel whose last event of a kind has these instants. -/
def Chan.drivenAt (nominal placed : Int) (c : Chan) : Chan := { c with nomD := some nominal, plD := some placed }

def Chan.strobedAt (nominal placed : Int) (c : Chan) : Chan := { c with nomS := some nominal, plS := some placed }

theorem Chan.drivenAt_ne (nominal placed : Int) (c : Chan) : c.drivenAt nominal placed ≠ {} := fun h => by simp [Chan.drivenAt] at h

theorem Chan.strobedAt_ne (nominal placed : Int) (c : Chan) : c.strobedAt nominal placed ≠ {} := fun h => by simp [Chan.strobedAt] at h

/-- A channel that is changed twice, and after the first change is not as at reset. -/
theorem modChan_modChan {h : Half} {ch : Nat} {f g : Chan → Chan} (hf : f (h.chan ch) ≠ {}) :
    (h.modChan ch f).modChan ch g = h.modChan ch fun c => g (f c) := by
  unfold Half.modChan Half.chan at *
  dsimp only
  rw [tget_tset_same, TskSt.tset_tset hf]

/-- A result that joins its issue between the two changes is no part of the channel. -/
theorem modChan_addResult_modChan {h : Half} {ch n : Nat} {f g : Chan → Chan} {r : Res} (hf : f (h.chan ch) ≠ {}) :
    ((h.modChan ch f).addResult n r).modChan ch g = (h.addResult n r).modChan ch fun c => g (f c) :=
  modChan_modChan (h := h.addResult n r) hf

theorem casc_mod (d : Dev) (s : Side) (f : Half → Half) : (d.mod s f).casc = d.casc := by cases s <;> rfl

section
variable {d : Dev} {s : Side} {ch n slot type : Nat} {i : Issue}

/-- The first drive event of a channel, taken from its issue, is placed at its nominal instant plus the correction. -/
theorem place_firstDrive (hnom : ((d.half s).chan ch).nomD = none) (hpl : ((d.half s).chan ch).plD = none)
    (hclamp : ((d.half s).correction i ch type).2 = false) :
    (d.mod s fun h => h.take n ch slot).place s ch i .drive type (fld ((d.half s).eventWord i ch slot) 27 0)
      = (d.mod s fun h => (h.take n ch slot).modChan ch (Chan.drivenAt ((d.half s).nominal i ch slot) ((d.half s).placed i ch slot type)),
        some ((d.half s).placed i ch slot type)) := by
  have hchan : (((d.half s).take n ch slot).chan ch) = (d.half s).chan ch := rfl
  have hcorrection : ((d.half s).take n ch slot).correction i ch type = (d.half s).correction i ch type := rfl
  unfold Dev.place
  simp only [half_mod_same, hchan, hcorrection, hnom, hpl, hclamp, tooClose, heldAt, Bool.false_eq_true, if_false, mod_mod]
  rfl

/-- The same of the first strobe or window event. -/
theorem place_firstStrobe (hnom : ((d.half s).chan ch).nomS = none) (hpl : ((d.half s).chan ch).plS = none)
    (hclamp : ((d.half s).correction i ch type).2 = false) :
    (d.mod s fun h => h.take n ch slot).place s ch i .strobe type (fld ((d.half s).eventWord i ch slot) 27 0)
      = (d.mod s fun h => (h.take n ch slot).modChan ch (Chan.strobedAt ((d.half s).nominal i ch slot) ((d.half s).placed i ch slot type)),
        some ((d.half s).placed i ch slot type)) := by
  have hchan : (((d.half s).take n ch slot).chan ch) = (d.half s).chan ch := rfl
  have hcorrection : ((d.half s).take n ch slot).correction i ch type = (d.half s).correction i ch type := rfl
  unfold Dev.place
  simp only [half_mod_same, hchan, hcorrection, hnom, hpl, hclamp, tooClose, heldAt, Bool.false_eq_true, if_false, mod_mod]
  rfl

theorem inhibited_mod {f : Half → Half} (h : (f (d.half s)).tch.cause = (d.half s).tch.cause) : (d.mod s f).inhibited s = d.inhibited s := by
  unfold Dev.inhibited
  rw [half_mod_same, h]
  cases s <;> rfl

theorem emit_mod (d : Dev) (s : Side) (f : Half → Half) (o : Out) : (d.mod s f).emit o = (d.emit o).mod s f := by cases s <;> rfl

/-- A drive event that comes first on its channel is placed and sets the level (R49). -/
theorem driveEvent_first (hissue : (d.half s).issue n = some i) (hbursting : (d.half s).face.bursting = true) (hinhibit : d.inhibited s = false)
    (hon : d.chanOn s ch = true) (hlow : 1 ≤ (d.half s).eventCode i ch slot) (hhigh : (d.half s).eventCode i ch slot ≤ 4)
    (hdue : (d.half s).due i ch slot .drive = true) (hnom : ((d.half s).chan ch).nomD = none) (hpl : ((d.half s).chan ch).plD = none)
    (hclamp : ((d.half s).correction i ch (driveType ((d.half s).eventCode i ch slot))).2 = false) :
    ∃ x, driveEvent s ch n slot d = Dev.mod { d with out := x } s fun h => (h.take n ch slot).modChan ch fun c =>
      (c.drivenAt ((d.half s).nominal i ch slot) ((d.half s).placed i ch slot (driveType ((d.half s).eventCode i ch slot)))).drive
        ((d.half s).eventCode i ch slot) := by
  have hkind : kindOf ((d.half s).eventCode i ch slot) = some .drive := by
    unfold kindOf
    rw [if_neg (by omega), if_pos hhigh]
  have hplace := place_firstDrive (n := n) (slot := slot) hnom hpl hclamp
  unfold driveEvent
  dsimp only
  rw [if_neg (by simp [hbursting, hinhibit, hon]), hissue]
  dsimp only
  rw [show fld ((d.half s).eventWord i ch slot) 31 28 = (d.half s).eventCode i ch slot from rfl, if_neg (by simp [hkind, hdue]), hplace]
  dsimp only
  have hdrive (e : Dev) (f : Half → Half) (hf : f = fun h => (h.take n ch slot).modChan ch (Chan.drivenAt ((d.half s).nominal i ch slot)
      ((d.half s).placed i ch slot (driveType ((d.half s).eventCode i ch slot))))) :
      ((e.mod s f).mod s fun h => h.modChan ch fun c => c.drive ((d.half s).eventCode i ch slot))
        = e.mod s fun h => (h.take n ch slot).modChan ch fun c =>
          (c.drivenAt ((d.half s).nominal i ch slot) ((d.half s).placed i ch slot (driveType ((d.half s).eventCode i ch slot)))).drive
            ((d.half s).eventCode i ch slot) := by
    rw [hf, mod_mod]
    exact mod_congr (modChan_modChan (Chan.drivenAt_ne _ _ _))
  unfold Dev.edge
  split
  · exact ⟨d.out, hdrive _ _ rfl⟩
  · rw [emit_mod]
    exact ⟨_, hdrive _ _ rfl⟩

section
variable (hissue : (d.half s).issue n = some i) (hsampling : (d.half s).face.sampling = true) (hinhibit : d.inhibited s = false)
  (hdue : (d.half s).due i ch slot .strobe = true) (hnom : ((d.half s).chan ch).nomS = none) (hpl : ((d.half s).chan ch).plS = none)
include hissue hsampling hdue hnom hpl

/-- A strobe that comes first on its channel captures what the comparators show (R54, R55). -/
theorem edgeStrobe_first (hinhibit : d.inhibited s = false) (hlow : 5 ≤ (d.half s).eventCode i ch slot)
    (hhigh : (d.half s).eventCode i ch slot ≤ 8) (hclamp : ((d.half s).correction i ch 4).2 = false) (cmph cmpl : Bool)
    (hvalid : sampledOf (cmph != (d.rg s.code .tchCfg ch).getLsbD 2) (cmpl != (d.rg s.code .tchCfg ch).getLsbD 3) ≠ .invalid) :
    edgeStrobe s ch n slot cmph cmpl d = d.mod s fun h =>
      ((h.take n ch slot).addResult n { ch := ch, slot := slot, instant := (d.half s).placed i ch slot 4
                                        sampled := sampledOf (cmph != (d.rg s.code .tchCfg ch).getLsbD 2) (cmpl != (d.rg s.code .tchCfg ch).getLsbD 3)
                                        expect := strobeExpect ((d.half s).eventCode i ch slot) }).modChan ch fun c =>
        { c.strobedAt ((d.half s).nominal i ch slot) ((d.half s).placed i ch slot 4) with
          cmph := cmph != (d.rg s.code .tchCfg ch).getLsbD 2, cmpl := cmpl != (d.rg s.code .tchCfg ch).getLsbD 3
          cmpAt := some d.casc.ctime.toNat } := by
  have hplace := place_firstStrobe (n := n) (slot := slot) hnom hpl hclamp
  unfold edgeStrobe
  dsimp only
  rw [if_neg (by simp [hsampling]), hissue]
  dsimp only
  rw [show fld ((d.half s).eventWord i ch slot) 31 28 = (d.half s).eventCode i ch slot from rfl, if_neg (by simp [hlow, hhigh, hdue]), hplace]
  dsimp only
  rw [if_neg hvalid, mod_mod, inhibited_mod (f := fun h => (h.take n ch slot).modChan ch _) rfl, hinhibit, casc_mod]
  exact mod_congr (modChan_addResult_modChan (Chan.strobedAt_ne _ _ _))

/-- A WO that comes first on its channel opens a window (R56). -/
theorem windowOpen_first (hlow : 10 ≤ (d.half s).eventCode i ch slot) (hhigh : (d.half s).eventCode i ch slot ≤ 12)
    (hclamp : ((d.half s).correction i ch 5).2 = false) (hwin : ((d.half s).chan ch).win = none) :
    windowOpen s ch n slot d = d.mod s fun h => (h.take n ch slot).modChan ch fun c =>
      { c.strobedAt ((d.half s).nominal i ch slot) ((d.half s).placed i ch slot 5) with
        win := some { expect := windowExpect ((d.half s).eventCode i ch slot) } } := by
  have hplace := place_firstStrobe (n := n) (slot := slot) hnom hpl hclamp
  unfold windowOpen
  dsimp only
  rw [if_neg (by simp [hsampling]), hissue]
  dsimp only
  rw [show fld ((d.half s).eventWord i ch slot) 31 28 = (d.half s).eventCode i ch slot from rfl, if_neg (by simp [hlow, hhigh, hdue]),
    if_neg (by simp [hwin]), hplace]
  dsimp only
  rw [mod_mod]
  exact mod_congr (modChan_modChan (Chan.strobedAt_ne _ _ _))

/-- A WC that comes first on its channel closes the window, with the state that the comparators showed first against its
expectation (R56). -/
theorem windowClose_first (hinhibit : d.inhibited s = false) (hcode : (d.half s).eventCode i ch slot = 9)
    (hclamp : ((d.half s).correction i ch 5).2 = false) {win : Win} (hwin : ((d.half s).chan ch).win = some win) (seen : Option Sampled)
    (hvalid : seen.getD win.expect ≠ .invalid) :
    windowClose s ch n slot seen false d = d.mod s fun h =>
      ((h.take n ch slot).addResult n { ch := ch, slot := slot, instant := (d.half s).placed i ch slot 5
                                        sampled := seen.getD win.expect, expect := some win.expect }).modChan ch fun c =>
        { c.strobedAt ((d.half s).nominal i ch slot) ((d.half s).placed i ch slot 5) with win := none } := by
  have hplace := place_firstStrobe (n := n) (slot := slot) hnom hpl hclamp
  unfold windowClose
  dsimp only
  rw [if_neg (by simp [hsampling]), hissue]
  dsimp only
  rw [show fld ((d.half s).eventWord i ch slot) 31 28 = (d.half s).eventCode i ch slot from rfl, if_neg (by simp [hcode, hdue]), hwin]
  dsimp only
  rw [hplace]
  dsimp only
  rw [if_neg (by simp [hvalid]), mod_mod, inhibited_mod (f := fun h => (h.take n ch slot).modChan ch _) rfl, hinhibit]
  exact mod_congr (modChan_addResult_modChan (Chan.strobedAt_ne _ _ _))
end
end
end Sys2Proof.Machine
end

section
/-! PROOFS. Results on the compare stream, and how events and results settle (chapters 2 and 6). -/
namespace Sys2Proof.Machine
open Sys2Proof.Safety

/-! ## Site counts (R165) -/

theorem getLsbD_bitClear_eq {n : Nat} (x : BitVec n) (i j : Nat) : (bitClear x i).getLsbD j = (x.getLsbD j && !decide (j = i)) := by
  by_cases h : j = i
  · subst h
    simp [getLsbD_bitClear]
  · by_cases hj : j < n
    · have hne : j - i = 0 → j < i := by omega
      simp [bitClear, h, hj]
      omega
    · simp [BitVec.getLsbD_of_ge _ _ (Nat.le_of_not_lt hj)]

/-- A result as the compare stream carries it: channel of its group, result slot, state, outcome. -/
abbrev Compared := Nat × Nat × Sampled × Outcome

/-- A result counts for its site. -/
def QrySt.countSite (site : Nat → Nat) (q : QrySt) (x : Compared) : QrySt :=
  match x.2.2.2 with
  | .pass => { q with siteActive := bitSet q.siteActive (site x.1) }
  | .fail => { q with siteActive := bitSet q.siteActive (site x.1), sitePass := bitClear q.sitePass (site x.1),
                      siteFails := tset 0 q.siteFails (site x.1) (min (tget 0 q.siteFails (site x.1) + 1) (2 ^ 32 - 1)) }
  | _ => q

theorem countSites_eq (d : Dev) (s : Side) (g : Nat) (l : List Compared) :
    d.countSites s g l = d.mod s fun h => { h with qry := l.foldl (QrySt.countSite fun c => d.rf s.code .tchCfg (32 * g + c) 21 16) h.qry } := rfl

/-- A result fails at a site. -/
def failsAt (site : Nat → Nat) (k : Nat) (x : Compared) : Bool := decide (x.2.2.2 = .fail) && decide (site x.1 = k)

/-- A result counts at a site. -/
def countsAt (site : Nat → Nat) (k : Nat) (x : Compared) : Bool :=
  (decide (x.2.2.2 = .fail) || decide (x.2.2.2 = .pass)) && decide (site x.1 = k)

section
variable (site : Nat → Nat) (q : QrySt) {k : Nat}

/-- One result at one site. -/
theorem countSite_at (x : Compared) (hk : k < 64) :
    (q.countSite site x).sitePass.getLsbD k = (q.sitePass.getLsbD k && !failsAt site k x)
    ∧ (q.countSite site x).siteActive.getLsbD k = (q.siteActive.getLsbD k || countsAt site k x)
    ∧ tget 0 (q.countSite site x).siteFails k
      = if failsAt site k x = true then min (tget 0 q.siteFails k + 1) (2 ^ 32 - 1) else tget 0 q.siteFails k := by
  obtain ⟨c, slot, v, o⟩ := x
  cases o
  case fail =>
    by_cases hsite : site c = k
    · subst hsite
      simp [QrySt.countSite, failsAt, countsAt, getLsbD_bitClear_eq, getLsbD_bitSet, hk, -BitVec.getLsbD_eq_getElem]
    · simp [QrySt.countSite, failsAt, countsAt, getLsbD_bitClear_eq, getLsbD_bitSet, tget_tset_ne, hsite, Ne.symm hsite]
  case pass =>
    by_cases hsite : site c = k
    · subst hsite
      simp [QrySt.countSite, failsAt, countsAt, getLsbD_bitSet, hk]
    · simp [QrySt.countSite, failsAt, countsAt, getLsbD_bitSet, hsite, Ne.symm hsite]
  all_goals simp [QrySt.countSite, failsAt, countsAt]

/-- A group's results at one site. -/
theorem foldl_countSite_at (l : List Compared) (hk : k < 64) :
    (l.foldl (QrySt.countSite site) q).sitePass.getLsbD k = (q.sitePass.getLsbD k && !l.any (failsAt site k))
    ∧ (l.foldl (QrySt.countSite site) q).siteActive.getLsbD k = (q.siteActive.getLsbD k || l.any (countsAt site k))
    ∧ tget 0 (l.foldl (QrySt.countSite site) q).siteFails k
      = if (l.filter (failsAt site k)).length = 0 then tget 0 q.siteFails k
        else min (tget 0 q.siteFails k + (l.filter (failsAt site k)).length) (2 ^ 32 - 1) := by
  induction l generalizing q with
  | nil => simp
  | cons x l ih =>
    obtain ⟨hpass, hactive, hfails⟩ := ih (q.countSite site x)
    obtain ⟨hpass1, hactive1, hfails1⟩ := countSite_at site q x hk
    rw [List.foldl_cons, hpass, hactive, hfails, hpass1, hactive1, hfails1]
    refine ⟨by simp [Bool.and_assoc], by simp [Bool.or_assoc], ?_⟩
    by_cases hx : failsAt site k x = true
    · rw [List.filter_cons_of_pos hx, List.length_cons, if_pos hx, if_neg (Nat.succ_ne_zero _)]
      clear hfails hfails1
      split <;> omega
    · rw [List.filter_cons_of_neg hx, if_neg hx]

/-- Results that do not fail leave SITE_PASS and SITE_FAILS. -/
theorem foldl_countSite_pass (l : List Compared) (h : ∀ x ∈ l, x.2.2.2 ≠ .fail) :
    (l.foldl (QrySt.countSite site) q).sitePass = q.sitePass ∧ (l.foldl (QrySt.countSite site) q).siteFails = q.siteFails := by
  induction l generalizing q with
  | nil => exact ⟨rfl, rfl⟩
  | cons x l ih =>
    obtain ⟨hpass, hfails⟩ := ih (q.countSite site x) fun y hy => h y (.tail _ hy)
    have hx := h x (.head _)
    rw [List.foldl_cons, hpass, hfails]
    obtain ⟨c, slot, v, o⟩ := x
    cases o
    case fail => exact absurd rfl hx
    all_goals exact ⟨rfl, rfl⟩

end
/-! ## A group's results on the compare stream (R47, R164 to R170) -/

/-- A half without what results change of it besides their site counts. -/
def Half.counting (h : Half) : (StwSt × TskSt × FaceState × Bool × BitVec 8) × List Issue × BitVec 64 × BitVec 64 × Tbl Nat :=
  ((h.stw, h.tsk, h.face.state, h.cal.changed, h.modes), h.face.issues, h.qry.sitePass, h.qry.siteActive, h.qry.siteFails)

/-- A later state in which half `s` alone differs, and in nothing that its site counts and issues are read from. -/
def Dev.Counts (s : Side) (d e : Dev) : Prop := ∃ h', e = d.mod s (fun _ => h') ∧ h'.counting = (d.half s).counting

section
variable {d e : Dev} {s : Side}

theorem Dev.Counts.refl (s : Side) (d : Dev) : d.Counts s d := ⟨d.half s, by cases s <;> rfl, rfl⟩

theorem counts_mod {f : Half → Half} (h : (f (d.half s)).counting = (d.half s).counting) : d.Counts s (d.mod s f) := ⟨_, mod_congr rfl, h⟩

theorem Dev.Counts.trans {f : Dev} (h : d.Counts s e) (k : e.Counts s f) : d.Counts s f := by
  obtain ⟨h1, rfl, hcount1⟩ := h
  obtain ⟨h2, rfl, hcount2⟩ := k
  refine ⟨h2, mod_mod .., hcount2.trans ?_⟩
  rw [half_mod_same, hcount1]

theorem Dev.Counts.half (h : d.Counts s e) : (e.half s).counting = (d.half s).counting := by
  obtain ⟨h', rfl, hcount⟩ := h
  rw [half_mod_same, hcount]

theorem Dev.Counts.regs (h : d.Counts s e) : e.regs = d.regs := by
  obtain ⟨h', rfl, -⟩ := h
  exact Dev.mod_regs ..

theorem quiet_modKept {f : Half → Half} (h : (f (d.half s)).counting.1 = (d.half s).counting.1) : d.quiet (d.mod s f) := by
  simp only [Half.counting, Prod.mk.injEq] at h
  obtain ⟨hstw, htsk, hstate, hchanged, -⟩ := h
  refine quiet_mod hstw (by rw [htsk]) fun told hend => ?_
  simpa only [Half.ended, hstate, hchanged] using hend

theorem Dev.Counts.quiet (h : d.Counts s e) : d.quiet e := by
  obtain ⟨h', rfl, hcount⟩ := h
  exact quiet_modKept (congrArg Prod.fst hcount)

theorem matchLogic_counts (i : Issue) (g : Nat) (l : List Compared) : d.Counts s (d.matchLogic s i g l) := by
  unfold Dev.matchLogic
  split
  · exact .refl s d
  · exact counts_mod rfl

theorem signature_counts (i : Issue) (g : Nat) (l : List Compared) : d.Counts s (d.signature s i g l) := by
  unfold Dev.signature
  split
  · exact .refl s d
  · exact counts_mod rfl

theorem countChannels_counts (g : Nat) (l : List Compared) : d.Counts s (d.countChannels s g l) := by
  unfold Dev.countChannels
  split
  · exact .refl s d
  · refine counts_mod ?_
    have hfold (f : QrySt → Compared → QrySt) (hf : ∀ q x, ((f q x).sitePass, (f q x).siteActive, (f q x).siteFails) = (q.sitePass, q.siteActive, q.siteFails))
        (q : QrySt) : ((l.foldl f q).sitePass, (l.foldl f q).siteActive, (l.foldl f q).siteFails) = (q.sitePass, q.siteActive, q.siteFails) := by
      induction l generalizing q with
      | nil => rfl
      | cons x l ih => exact (ih _).trans (hf q x)
    refine congrArg (fun x => ((d.half s).counting.1, (d.half s).counting.2.1, x)) (hfold _ (fun q x => ?_) (d.half s).qry)
    obtain ⟨c, slot, v, o⟩ := x
    cases o <;> rfl

end

/-! A candidate record, and the paths it takes -/

section
variable {d : Dev} {s : Side}

theorem candidate_none {l : List Compared} (h : ∀ x ∈ l, x.2.2.2 ≠ .fail) (i : Issue) (g : Nat) (b : Bool) : d.candidate s i g l b = none := by
  have hmask (n : Nat) : chanMask l (fun slot _ o => decide (slot = n) && decide (o = .fail)) = 0 := by
    unfold chanMask
    generalize (0 : BitVec 32) = m
    induction l generalizing m with
    | nil => rfl
    | cons x l ih =>
      rw [List.foldl_cons, if_neg (by simp [h x (.head _)])]
      exact ih (fun y hy => h y (.tail _ hy)) m
  unfold Dev.candidate
  dsimp only
  rw [if_pos ⟨hmask 0, hmask 1⟩]

theorem updates_off {r : Rec} {e : Ecc} (hbitmap : (d.rg s.code .qryCfg 0).getLsbD 2 = false) (hrepair : (d.rg s.code .qryCfg 0).getLsbD 5 = false) :
    d.updates s r e = d := by
  unfold Dev.updates
  dsimp only
  split
  · rfl
  · simp only [hbitmap, hrepair, Bool.not_false, Bool.false_and, Bool.false_eq_true, if_true, if_false]

theorem record_off {r : Rec} (hlow : (d.rg s.code .qryCfg 0).getLsbD 0 = false) (hhigh : (d.rg s.code .qryCfg 0).getLsbD 1 = false)
    (hown : (d.half s).assisted 4 = false) : d.record s r = d := by
  have hmode : d.rf s.code .qryCfg 0 1 0 = 0 := by
    show (d.rg s.code .qryCfg 0).toNat / 1 % 4 = 0
    have h0 : (d.rg s.code .qryCfg 0).toNat.testBit 0 = false := hlow
    have h1 : (d.rg s.code .qryCfg 0).toNat.testBit 1 = false := hhigh
    rw [Nat.testBit_zero, decide_eq_false_iff_not] at h0
    rw [Nat.testBit_succ, Nat.testBit_zero, decide_eq_false_iff_not] at h1
    omega
  unfold Dev.record
  rw [if_neg (by simp [hown]), hmode]
  rfl

/-- With no candidate, or with records, bitmaps and repair counters off, results of a group do no more than count. -/
theorem capture_counts {i : Issue} {g : Nat} {l : List Compared} {e : Ecc} (hopen : i.header.getLsbD 9 = false)
    (h : (∀ x ∈ l, x.2.2.2 ≠ .fail) ∨ ((d.rg s.code .qryCfg 0).getLsbD 0 = false ∧ (d.rg s.code .qryCfg 0).getLsbD 1 = false
      ∧ (d.rg s.code .qryCfg 0).getLsbD 2 = false ∧ (d.rg s.code .qryCfg 0).getLsbD 5 = false ∧ (d.half s).assisted 4 = false)) :
    d.capture s i g l false e = (d.countSites s g l).countChannels s g l := by
  unfold Dev.capture
  rw [if_neg (by rw [hopen]; decide)]
  dsimp only
  rcases h with h | ⟨h0, h1, h2, h5, hown⟩
  · rw [candidate_none h]
  · have hcounts := countChannels_counts (d := d.countSites s g l) (s := s) g l
    have hregs : ((d.countSites s g l).countChannels s g l).regs = d.regs := hcounts.regs.trans (Dev.mod_regs ..)
    have hmodes : (((d.countSites s g l).countChannels s g l).half s).modes = (d.half s).modes := by
      have h := congrArg (fun x => x.1.2.2.2.2) hcounts.half
      exact h.trans (by rw [countSites_eq, half_mod_same]; rfl)
    have hcfg := rg_of_regs hregs s.code .qryCfg 0
    have hown' : (((d.countSites s g l).countChannels s g l).half s).assisted 4 = false := by
      unfold Half.assisted at *
      rw [hmodes, hown]
    generalize (d.countSites s g l).countChannels s g l = e1 at hcfg hown'
    split
    · rfl
    · rw [updates_off (by rw [hcfg]; exact h2) (by rw [hcfg]; exact h5), record_off (by rw [hcfg]; exact h0) (by rw [hcfg]; exact h1) hown']

/-- A group's results: its sites count, and its issue is done with the group. -/
theorem compareResult_spec {i : Issue} {g n : Nat} {e : Faults} (hissue : (d.half s).issue n = some i)
    (hsampling : (d.half s).face.sampling = true) (hnext : (d.half s).streamNext i g = true) (hbare : d.configured = false)
    (hopen : i.header.getLsbD 9 = false) (hg : g < 8)
    (h : (∀ x ∈ d.groupResults s i g, x.2.2.2 ≠ .fail) ∨ ((d.rg s.code .qryCfg 0).getLsbD 0 = false ∧ (d.rg s.code .qryCfg 0).getLsbD 1 = false
      ∧ (d.rg s.code .qryCfg 0).getLsbD 2 = false ∧ (d.rg s.code .qryCfg 0).getLsbD 5 = false ∧ (d.half s).assisted 4 = false)) :
    d.quiet (compareResult s g n e d)
    ∧ (∃ q : QrySt, (q.sitePass, q.siteActive, q.siteFails) = ((d.half s).qry.sitePass, (d.half s).qry.siteActive, (d.half s).qry.siteFails)
      ∧ let counted := (d.groupResults s i g).foldl (QrySt.countSite fun c => d.rf s.code .tchCfg (32 * g + c) 21 16) q
        (((compareResult s g n e d).half s).qry.sitePass, ((compareResult s g n e d).half s).qry.siteActive,
          ((compareResult s g n e d).half s).qry.siteFails) = (counted.sitePass, counted.siteActive, counted.siteFails))
    ∧ ∀ j ∈ ((compareResult s g n e d).half s).face.issues, j.idx = n → j.doneGroups.getLsbD g = true := by
  let l := d.groupResults s i g
  let d2 := (d.matchLogic s i g l).signature s i g l
  have h2 : d.Counts s d2 := (matchLogic_counts i g l).trans (signature_counts i g l)
  have hcapture : d2.capture s i g l false (atticClass e) = (d2.countSites s g l).countChannels s g l := by
    refine capture_counts hopen (h.imp_right fun h => ?_)
    have hmodes : (d2.half s).modes = (d.half s).modes := by
      have hhalf := congrArg (fun x => x.1.2.2.2.2) h2.half
      exact hhalf
    unfold Half.assisted at *
    rwa [rg_of_regs h2.regs, hmodes]
  let d3 := d2.countSites s g l
  let d4 := d3.countChannels s g l
  have h4 : d3.Counts s d4 := countChannels_counts g l
  let done (h' : Half) : Half := { (h'.modIssue n fun i => { i with doneGroups := bitSet i.doneGroups g }) with
    tch := { h'.tch with align := tset none h'.tch.align g (some ((d.half s).alignment i g)) } }
  let d5 := d4.mod s done
  have hrow : compareResult s g n e d = (d5.dropIssues s).mod s Half.dropEpochs := by
    unfold compareResult
    dsimp only
    rw [if_neg (by simp [hsampling]), hissue]
    dsimp only
    rw [if_neg (by simp [hnext]), if_neg (by simp [hbare])]
    rw [hcapture]
  have hquiet3 : d2.quiet d3 := by
    rw [show d3 = _ from countSites_eq ..]
    exact quiet_modKept rfl
  have hquiet5 : d4.quiet d5 := quiet_modKept rfl
  have hquiet6 : d5.quiet (d5.dropIssues s) := quiet_modKept rfl
  have hquiet7 : (d5.dropIssues s).quiet ((d5.dropIssues s).mod s Half.dropEpochs) := quiet_modKept rfl
  rw [hrow]
  refine ⟨h2.quiet.trans (hquiet3.trans (h4.quiet.trans (hquiet5.trans (hquiet6.trans hquiet7)))), ⟨(d2.half s).qry, ?_, ?_⟩, ?_⟩
  · exact congrArg (fun x => x.2.2) h2.half
  · have hqry : (((d5.dropIssues s).mod s Half.dropEpochs).half s).qry = (d4.half s).qry := by
      unfold Dev.dropIssues
      rw [half_mod_same]
      show (Dev.half _ s).qry = _
      rw [half_mod_same]
      show (d5.half s).qry = _
      rw [show d5.half s = done (d4.half s) from half_mod_same ..]
      rfl
    have hcounted : (d3.half s).qry = l.foldl (QrySt.countSite fun c => d.rf s.code .tchCfg (32 * g + c) 21 16) (d2.half s).qry := by
      rw [show d3 = _ from countSites_eq .., half_mod_same]
      simp only [rf_of_regs h2.regs]
    rw [hqry]
    refine (congrArg (fun x => x.2.2) h4.half).trans ?_
    dsimp only [Half.counting]
    rw [hcounted]
  · intro j hj hidx
    have hissues : (((d5.dropIssues s).mod s Half.dropEpochs).half s).face.issues ⊆ ((d4.half s).modIssue n fun i =>
        { i with doneGroups := bitSet i.doneGroups g }).face.issues := by
      unfold Dev.dropIssues
      rw [half_mod_same]
      show (Dev.half _ s).face.issues ⊆ _
      rw [half_mod_same]
      refine List.Subset.trans (List.filter_subset_self _) ?_
      rw [show d5.half s = done (d4.half s) from half_mod_same ..]
      exact fun _ h => h
    obtain ⟨j0, -, rfl⟩ := List.mem_map.mp (hissues hj)
    split at hidx
    next h0 =>
      rw [if_pos h0, getLsbD_bitSet]
      simp [hg]
    next h0 => exact absurd hidx h0
end
theorem inhibited_mute (d : Dev) (s : Side) : d.mute.inhibited s = d.inhibited s := by cases s <;> rfl

theorem sampling_of_bursting {f : FaceSt} (h : f.bursting = true) : f.sampling = true := by simp [FaceSt.sampling, h]

/-- Settles O11: the first event of a kind on a channel meets neither the spacing rule nor a hold, so it stands where its correction
places it; a group's results are followed through what counts them, channel by channel and site by site. -/
theorem channelEvents : Obligations.ChannelEvents := by
  unfold Obligations.ChannelEvents
  refine ⟨fun s side ch n slot i hpow hcalm => ?_, fun s side g n i e hpow hcalm => ?_⟩
  · dsimp only
    intro hissue hbursting hinhibit
    have hissue' : (s.dev.mute.half side).issue n = some i := by rw [half_mute]; exact hissue
    have hsampling' : (s.dev.mute.half side).face.sampling = true := by rw [half_mute]; exact sampling_of_bursting hbursting
    have hinhibit' : s.dev.mute.inhibited side = false := (inhibited_mute ..).trans hinhibit
    refine ⟨fun hlow hhigh hdue hon hnom hpl hclamp => ?_, fun hdue hnom hpl => ⟨fun hlow hhigh hclamp cmph cmpl hvalid => ?_, fun hclamp =>
      ⟨fun hlow hhigh hwin => ?_, fun win seen hcode hwin hvalid => ?_⟩⟩⟩
    · obtain ⟨x, hrow⟩ := driveEvent_first (d := s.dev.mute) (s := side) (ch := ch) (slot := slot) hissue' (by rw [half_mute]; exact hbursting)
        hinhibit' hon (by rw [half_mute]; exact hlow) (by rw [half_mute]; exact hhigh) (by rw [half_mute]; exact hdue)
        (by rw [half_mute]; exact hnom) (by rw [half_mute]; exact hpl) (by rw [half_mute]; exact hclamp)
      refine yields_quiet (f := fun _ d => driveEvent side ch n slot d) rfl hpow hcalm hrow ?_ fun d hbare _ => hbare.trans ?_
      · have hout : s.dev.mute.quiet { s.dev.mute with out := x } := ⟨id, rfl, id, fun _ h => h⟩
        refine hout.trans (quiet_mod rfl rfl fun _ h => h)
      · simp only [half_mute]
        cases side <;> rfl
    · have hrow := edgeStrobe_first (d := s.dev.mute) hissue' hsampling' (by rw [half_mute]; exact hdue) (by rw [half_mute]; exact hnom)
        (by rw [half_mute]; exact hpl) hinhibit' (by rw [half_mute]; exact hlow) (by rw [half_mute]; exact hhigh)
        (by rw [half_mute]; exact hclamp) cmph cmpl hvalid
      simp only [half_mute] at hrow
      exact yields_mod (f := fun _ d => edgeStrobe side ch n slot cmph cmpl d) rfl hpow hcalm hrow rfl rfl fun _ h => h
    · have hrow := windowOpen_first (d := s.dev.mute) hissue' hsampling' (by rw [half_mute]; exact hdue) (by rw [half_mute]; exact hnom)
        (by rw [half_mute]; exact hpl) (by rw [half_mute]; exact hlow) (by rw [half_mute]; exact hhigh) (by rw [half_mute]; exact hclamp)
        (by rw [half_mute]; exact hwin)
      simp only [half_mute] at hrow
      exact yields_mod (f := fun _ d => windowOpen side ch n slot d) rfl hpow hcalm hrow rfl rfl fun _ h => h
    · have hrow := windowClose_first (d := s.dev.mute) hissue' hsampling' (by rw [half_mute]; exact hdue) (by rw [half_mute]; exact hnom)
        (by rw [half_mute]; exact hpl) hinhibit' (by rw [half_mute]; exact hcode) (by rw [half_mute]; exact hclamp)
        (by rw [half_mute]; exact hwin) seen hvalid
      simp only [half_mute] at hrow
      exact yields_mod (f := fun _ d => windowClose side ch n slot seen false d) rfl hpow hcalm hrow rfl rfl fun _ h => h
  · dsimp only
    intro hissue hsampling hnext hbare hopen
    have hspec := compareResult_spec (d := s.dev.mute) (s := side) (g := g) (e := e) (by rw [half_mute]; exact hissue)
      (by rw [half_mute]; exact hsampling) (by rw [half_mute]; exact hnext) hbare hopen g.isLt
    simp only [half_mute, groupResults_mute] at hspec
    have hrow {p : Dev → Prop} (hq : s.dev.mute.quiet (compareResult side g n e s.dev.mute))
        (hp : ∀ d, d.bare = (compareResult side g n e s.dev.mute).bare → p d) : Yields (.compareResult side g n e) s p :=
      yields_quiet (f := fun _ d => compareResult side g n e d) rfl hpow hcalm rfl hq fun d hbare _ => hp d hbare
    refine ⟨fun hpass => ?_, fun h0 h1 h2 h5 hown => ?_⟩
    · obtain ⟨hq, ⟨q, hcounts, hcounted⟩, hdone⟩ := hspec (.inl hpass)
      simp only [Prod.mk.injEq] at hcounts hcounted
      obtain ⟨hsamePass, -, hsameFails⟩ := hcounts
      obtain ⟨hsitePass, hsiteActive, hsiteFails⟩ := hcounted
      obtain ⟨hkeptPass, hkeptFails⟩ := foldl_countSite_pass (fun c => s.dev.mute.rf side.code .tchCfg (32 * g + c) 21 16) q _ hpass
      refine hrow hq fun d hd => ?_
      obtain ⟨_, ht⟩ := half_eq_of_bare hd side
      rw [ht]
      refine ⟨hsitePass.trans (hkeptPass.trans hsamePass), hsiteFails.trans (hkeptFails.trans hsameFails), fun x hx hxpass => ?_, hdone⟩
      have hsite : s.dev.rf side.code .tchCfg (32 * g + x.1) 21 16 < 64 := Nat.mod_lt _ (by decide)
      obtain ⟨-, hactive, -⟩ := foldl_countSite_at (fun c => s.dev.mute.rf side.code .tchCfg (32 * g + c) 21 16) q
        (s.dev.groupResults side i g) hsite
      dsimp only
      rw [hsiteActive, hactive, Bool.or_eq_true, List.any_eq_true]
      refine .inr ⟨x, hx, ?_⟩
      simp only [countsAt, hxpass, decide_true, Bool.or_true, Bool.true_and, decide_eq_true_eq]
      rfl
    · obtain ⟨hq, ⟨q, hcounts, hcounted⟩, -⟩ := hspec (.inr ⟨h0, h1, h2, h5, hown⟩)
      simp only [Prod.mk.injEq] at hcounts hcounted
      obtain ⟨hsamePass, hsameActive, hsameFails⟩ := hcounts
      obtain ⟨hsitePass, hsiteActive, hsiteFails⟩ := hcounted
      refine hrow hq fun d hd k hk => ?_
      obtain ⟨_, ht⟩ := half_eq_of_bare hd side
      obtain ⟨hpass, hactive, hfails⟩ := foldl_countSite_at (fun c => s.dev.mute.rf side.code .tchCfg (32 * g + c) 21 16) q
        (s.dev.groupResults side i g) hk
      rw [ht]
      dsimp only
      rw [hsitePass, hsiteActive, hsiteFails, hpass, hactive, hfails, hsamePass, hsameActive, hsameFails]
      exact ⟨rfl, rfl, rfl⟩

end Sys2Proof.Machine
end
